-- ==== Sys2Proof/Word.lean ====
section
/-! DEFINITION. The byte, the widths that the manual treats as bits, and the 96-bit time (R216). -/
namespace Sys2Proof

/-- One byte of a frame, a body, host memory or side memory. -/
abbrev Byte := BitVec 8

/-- A SHA-384 digest, an HMAC-SHA-384 tag, or a 48-byte secret. -/
abbrev Digest := BitVec 384

/-- A 48-bit MAC address. -/
abbrev Mac := BitVec 48

/-- The 96-bit time of Table 9-1 as it travels in a command or a reply. `ns` is the whole 4-byte
NANOSECONDS word, its reserved bits [31:30] included. -/
structure Time96 where
  sec  : Nat := 0
  ns   : Nat := 0
  frac : Nat := 0
deriving DecidableEq, Repr

end Sys2Proof
end

