-- ==== Sys2Proof/Syntax.lean ====
section
/-! DEFINITION. Syntax: the operands of every row of spec/opcode_table.json and the one inductive `Instr`,
one constructor per row. Zelgen rows carry their transport, header and trailer (`Zelgen`) and their body's
fields (R33, R34, R60); happenings carry what the surroundings hand over. Every row carries `dt`, the ccyc
since the row before it (log 3). An operand with a default is one that most occurrences of its row leave at that value;
`header` and `rest` of HLK_COMMAND are the Zelgen header and what follows it. -/
namespace Sys2Proof

/-! ## Zelgen commands: what every one carries (R33, Tables 2-1, 2-2, 2-4, 2-7) -/

/-- The transport a command came by (Table 2-7). -/
inductive Origin where
  | ring (n : Nat)          -- command ring n, 0 to 63
  | eth (port : Nat)        -- Zelgen over Ethernet on a port
  | udp (port : Nat)        -- Zelgen over UDP on a port
  | hlk (unit : Nat)        -- COMMAND frame from the joined manager
deriving DecidableEq, Repr

/-- A trailer of Table 2-4. The verdict of each cryptographic part comes as an operand (log 1). -/
structure Trailer where
  typ     : Nat := 0        -- TRAILER_TYPE
  rsv     : Nat := 0        -- byte 1, reserved
  len     : Nat := 0        -- TRAILER_LEN
  ecdsaOk : Bool := false   -- the ECDSA part verifies
  mldsaOk : Bool := false   -- the ML-DSA part verifies
  tagOk   : Bool := false   -- all 48 bytes of the session tag compare equal
deriving DecidableEq, Repr

/-- Header and trailer of a command (Tables 2-1, 2-2, 2-4), its transport and its time. OPCODE is the constructor's. -/
structure Zelgen where
  dt          : Nat := 0
  origin      : Origin
  version     : Nat := 1
  flags       : BitVec 8
  bodyLen     : Nat
  target      : BitVec 8 := 0
  rsv7        : BitVec 8 := 0
  sequence    : Nat := 0
  bootTag     : BitVec 32 := 0
  keyId       : Nat := 0
  notAfter    : Nat := 0xFFFFFFFFFFFF
  correlation : BitVec 32 := 0
  carrierLen  : Nat
  padZero     : Bool := true   -- the body's padding bytes are all zero (R34)
  trailer     : Trailer := {}
  undefined   : Option (Nat × List Byte) := none  -- an OPCODE no table lists, with its body (R60); only on a NOP row
deriving DecidableEq, Repr

/-! ## Bodies, Tables 2-9 to 2-24 -/

structure SessionOpenBody where
  hostNonce : BitVec 256
  lifetime  : Nat
  groupMask : BitVec 16
deriving DecidableEq, Repr

structure EpochCommitBody where
  expectedEpoch : Nat
  commitTime    : Time96
  stagedCount   : Nat
  stagedDigest  : Digest
deriving DecidableEq, Repr

structure PortSetBody where
  port      : Nat
  portMode  : Nat
  fecMode   : Nat
  mtu       : Nat
  portFlags : BitVec 16
deriving DecidableEq, Repr

structure PortAddrBody where
  port : Nat
  addr : Mac
deriving DecidableEq, Repr

structure PortVlanBody where
  port      : Nat
  tagMode   : BitVec 8
  outerTpid : Nat
  innerTpid : Nat
  vid       : Nat
  pcp       : Nat
deriving DecidableEq, Repr

structure LaneSetBody where
  lane      : Nat
  laneFlags : BitVec 16
deriving DecidableEq, Repr

structure TransportBody where
  port      : Nat
  ethEnable : Nat
  udpEnable : Nat
  udpPort   : Nat
  ipAddr    : BitVec 128
deriving DecidableEq, Repr

structure SecyBody where
  port         : Nat
  cipherSuite  : Nat
  secyFlags    : BitVec 8
  sci          : BitVec 64
  replayWindow : Nat
deriving DecidableEq, Repr

structure ScSetBody where
  portGroup : Nat
  direction : Nat
  scIndex   : Nat
  port      : Nat
  sci       : BitVec 64
deriving DecidableEq, Repr

/-- The fields that name an SC (and, with `an`, an SA). -/
structure ScName where
  portGroup : Nat
  direction : Nat
  scIndex   : Nat
deriving DecidableEq, Repr

structure SaName where
  portGroup : Nat
  direction : Nat
  scIndex   : Nat
  an        : Nat
deriving DecidableEq, Repr

/-- SA_INSTALL. `unwrapped` is what unwrapping WRAPPED_SAK under the session's KW gives: none when the
integrity check fails (log 1). -/
structure SaInstallBody where
  portGroup  : Nat
  direction  : Nat
  scIndex    : Nat
  an         : Nat
  keyLen     : Nat
  ssci       : Nat
  salt       : BitVec 96
  nextPn     : Nat
  wrappedSak : BitVec 320
  unwrapped  : Option (BitVec 256)
deriving DecidableEq, Repr

/-- CLASS_ENTRY, Table 5-8. -/
structure ClassEntry where
  entryFlags      : BitVec 8
  headerKind      : Nat
  portMask        : BitVec 16
  secy            : Nat
  matchEn         : BitVec 16
  da              : Mac
  daMask          : Mac
  sa              : Mac
  ethertype       : Nat
  vidPcp          : BitVec 16
  vidPcpMask      : BitVec 16
  ipProto         : Nat
  ipSrcBits       : Nat          -- IP_SRC_PREFIX, a length 0 to 128
  l4DstPort       : BitVec 16
  l4DstMask       : BitVec 16
  ipSrc           : BitVec 128
  parseStatusMask : BitVec 8
  trailerKeys     : BitVec 8
  rsv             : BitVec 64    -- bytes 56-63, reserved
deriving DecidableEq, Repr

structure ClassSetBody where
  portGroup : Nat
  entry     : Nat
  cls       : ClassEntry
deriving DecidableEq, Repr

structure SenderIdBody where
  portGroup    : Nat
  entry        : Nat
  senderSource : Nat
  senderBase   : Nat
deriving DecidableEq, Repr

structure PolicerBody where
  context      : Nat
  rate         : Nat
  burst        : Nat
  policerFlags : BitVec 8
deriving DecidableEq, Repr

structure LeafBody where
  leaf            : Nat
  parentNode      : Nat
  cls             : Nat
  weight          : Nat
  shaperRate      : Nat
  shaperBurst     : Nat
  overheadProfile : Nat
deriving DecidableEq, Repr

structure NodeBody where
  node        : Nat
  port        : Nat
  cls         : Nat
  weight      : Nat
  shaperRate  : Nat
  shaperBurst : Nat
deriving DecidableEq, Repr

structure PortSchedBody where
  port           : Nat
  strictClasses  : Nat
  classWeights   : List Nat      -- sixteen, class 0 first
  grantQuantum   : Nat
  portShaperRate : Nat
deriving DecidableEq, Repr

structure OverheadBody where
  profile  : Nat
  overhead : Int
deriving DecidableEq, Repr

structure HostLeafBody where
  source : Nat
  port   : Nat
  leaf   : Nat
deriving DecidableEq, Repr

structure GateEntry where
  gates    : BitVec 16
  interval : Nat
  rsv      : BitVec 16
deriving DecidableEq, Repr

structure GateListBody where
  port       : Nat
  baseTime   : Time96
  cycleTime  : Nat
  listLen    : Nat
  firstEntry : Nat
  count      : Nat
  entries    : List GateEntry
deriving DecidableEq, Repr

structure PreemptBody where
  port            : Nat
  preemptableMask : BitVec 16
  addFragSize     : Nat
  verify          : Nat
deriving DecidableEq, Repr

structure PauseBody where
  port      : Nat
  pauseMode : Nat
  obeyMask  : BitVec 8
  genMask   : BitVec 8
  quanta    : Nat
  refresh   : Nat
deriving DecidableEq, Repr

structure PauseSendBody where
  port      : Nat
  classMask : BitVec 8
  quanta    : Nat
deriving DecidableEq, Repr

structure TimeStepBody where
  stepMode : Nat
  time     : Time96
  offset   : Int
deriving DecidableEq, Repr

structure TimeSlewBody where
  offset   : Int
  duration : Nat
deriving DecidableEq, Repr

structure PpsBody where
  ppsFlags     : BitVec 8
  pulseWidth   : Nat
  ppsInWindow  : Nat
  ppsOutOffset : Int
deriving DecidableEq, Repr

structure TsuCalBody where
  port  : Nat
  rxCal : Int
  txCal : Int
deriving DecidableEq, Repr

structure RingConfigBody where
  ringType  : Nat
  ring      : Nat
  baseAddr  : Nat
  sizeLog2  : Nat
  accessId  : Nat
  ringFlags : BitVec 16
  holdTime  : Nat
  irqSource : Nat
deriving DecidableEq, Repr

structure RxSteerBody where
  port       : Nat
  matchIndex : Nat
  da         : Mac
  ring       : Nat
deriving DecidableEq, Repr

structure IrqSourceBody where
  source      : Nat
  priority    : Nat
  target      : Nat
  modTime     : Nat
  sourceFlags : BitVec 8
deriving DecidableEq, Repr

structure IrqTargetBody where
  target    : Nat
  accessId  : Nat
  threshold : Nat
deriving DecidableEq, Repr

structure BattBody where
  period      : Nat
  destAddr    : Nat
  destSize    : Nat
  contentMask : BitVec 32
  accessId    : Nat
deriving DecidableEq, Repr

structure WindowBody where
  window   : Nat
  accessId : Nat
  content  : BitVec 16
deriving DecidableEq, Repr

structure SampleBody where
  rateLog2 : Nat
  spill    : Nat
deriving DecidableEq, Repr

structure QueueSampleBody where
  period        : Nat
  queueMaskBase : Nat
  count         : Nat
deriving DecidableEq, Repr

structure EventModeBody where
  event       : Nat
  edgeOrLevel : Nat
deriving DecidableEq, Repr

structure QosTarget where
  latTarget : Nat
  share     : Nat
  rsv       : Nat
deriving DecidableEq, Repr

structure SmcSetBody where
  dataRate   : Nat
  ranks      : BitVec 8
  qosTargets : List QosTarget    -- four: FRC, XDMA, error log, maintenance
deriving DecidableEq, Repr

structure FrcRegionBody where
  region     : Nat
  base       : Nat
  size       : Nat
  regionMode : Nat
  content    : BitVec 32
deriving DecidableEq, Repr

structure XdmaChannelBody where
  channel  : Nat
  accessId : Nat
  busShare : Nat
  descAddr : Nat
deriving DecidableEq, Repr

structure ModeRequestBody where
  mode       : Nat
  nextMode   : Nat
  drainPorts : BitVec 576
deriving DecidableEq, Repr

structure GroupPowerBody where
  portGroup : Nat
  policy    : Nat
deriving DecidableEq, Repr

structure WakeBody where
  portGroup : Nat
  wakeFlags : BitVec 8
deriving DecidableEq, Repr

/-- A token of Table 17-6. Whether its signature verifies is an operand (log 1). -/
structure Token where
  tokenType   : Nat
  level       : Nat
  pouncerMask : BitVec 16
  tokenFlags  : BitVec 8
  rsv5        : BitVec 8
  signerKeyId : Nat
  notBefore   : Nat
  expiry      : Nat
  fuseDigest  : Digest
  bootTag     : BitVec 32
  rsv72       : BitVec 32
  trailerOk   : Bool
  trailerRsv  : Nat := 0     -- byte 1 of its trailer (Table 2-4)
deriving DecidableEq, Repr

structure PouncerBody where
  perturbation : Nat
  target       : Nat
  duration     : Nat
  rateLog2     : Nat
  rsv          : BitVec 16
  arg          : Nat
deriving DecidableEq, Repr

/-- KEY_INSTALL. `onCurve`: the point X, Y of ECDSA_PUB lies on P-384; `unwrapped`: what unwrapping
WRAPPED_SECRET gives (log 1). -/
structure KeyInstallBody where
  keyId         : Nat
  keyClass      : Nat
  ecdsaPub      : BitVec 776
  mldsaPub      : BitVec 20736
  wrappedSecret : BitVec 448
  onCurve       : Bool
  unwrapped     : Option Digest
deriving DecidableEq, Repr

structure AccessPolicyBody where
  accessId : Nat
  policy   : BitVec 32
deriving DecidableEq, Repr

/-- LIFECYCLE_ADVANCE: `token` is none for an empty TOKEN (R34). -/
structure LifecycleBody where
  targetState : Nat
  token       : Option Token
deriving DecidableEq, Repr

structure FirmwareStageBody where
  offset : Nat
  chunk  : List Byte
deriving DecidableEq, Repr

/-- FIRMWARE_ACTIVATE. `trailerOk`: the staged image's hybrid signature verifies (log 1). -/
structure FirmwareActivateBody where
  imageLen    : Nat
  imageDigest : Digest
  trailerOk   : Bool
deriving DecidableEq, Repr

structure HlkRoleBody where
  role : Nat
  inst : Nat
deriving DecidableEq, Repr

structure HlkLinkBody where
  port   : Nat
  enable : Nat
deriving DecidableEq, Repr

/-- A delegation certificate of Table 19-3; `trailerOk`: its hybrid signature verifies (log 1). -/
structure Certificate where
  certType   : Nat
  rsv1       : BitVec 8
  keyId      : Nat
  targetMask : BitVec 64
  groupMask  : BitVec 16
  issuer     : Nat
  notBefore  : Nat
  expiry     : Nat
  rsv28      : BitVec 32
  ecdsaPub   : BitVec 776
  mldsaPub   : BitVec 20736
  rsv2721    : BitVec 24
  trailerOk  : Bool
  trailerRsv : Nat := 0           -- byte 1 of its trailer (Table 2-4)
deriving DecidableEq, Repr

structure TelemetryAggBody where
  workerMask : BitVec 64
  period     : Nat
deriving DecidableEq, Repr

/-! ## Operands of the happenings -/

/-- An mPacket of the MAC merge sublayer that is no frame (R96, R199). -/
inductive MPacket where
  | none | verify | respond
deriving DecidableEq, Repr

/-- A continuation fragment of a preemptable frame (R96): its fragment count, the frame's bytes received ahead of it, and whether the
mCRC of the fragment before it is right. -/
structure Fragment where
  count  : Nat
  ahead  : Nat
  mcrcOk : Bool
deriving DecidableEq, Repr

/-- A received frame (R83). `bytes` run from the destination address through the last byte received, FCS included;
for a frame cut by a fault they end at the cut. What the line code and the mCRC gave, the decrypted secure data and the ICV
verdict are operands (logs 1, 11). `lane`, `phase`, `bit` place the timestamp
bit (R224): physical lane, T_WORD's offset from the ccyc in 1/64 ccyc, and bit offset k in the lane word. What the port's PCS
decoded and measured since its last row comes with it: `between`, `fecLanes`, `blockErrors`, `skews`. -/
structure RxFrame where
  port        : Nat
  bytes       : List Byte
  symbolAt    : Option Nat := none  -- bytes ahead of its first control character or block marked by R78
  fragments   : List Fragment := [] -- continuation fragments, in order
  replaced    : Bool := false       -- a new SMD-S came before its last fragment
  faultCut    : Bool := false
  preemptable : Bool := false
  mpacket     : MPacket := .none
  icvOk       : Bool := false
  plain       : List Byte := []     -- the secure data in clear, where the frame is encrypted
  lane        : Nat := 0
  phase       : Nat := 0
  bit         : Nat := 0
  codewords   : List (Option Nat) := []    -- RS-FEC codewords that carry it: symbols corrected, none where not correctable
  between     : List (Option Nat) := []    -- those decoded before them since the port's last row
  fecLanes    : List (Nat × Nat) := []     -- FEC lane, corrected symbols attributed to it
  blockErrors : List (Nat × Nat) := []     -- PCS lane, invalid sync headers
  skews       : List Nat := []             -- the lanes' skews at the last alignment marker, 2^-16 ns; empty: no marker came
deriving DecidableEq, Repr

/-- A host descriptor as read from a ring slot (Table 10-5). -/
structure Descriptor where
  cookie   : BitVec 64 := 0
  bufAddr  : Nat := 0
  bufLen   : Nat := 0
  flags    : BitVec 16 := 0
  tsId     : Nat := 0
  tsOffset : Nat := 0
  txTci    : BitVec 16 := 0
  rsv      : Nat := 0               -- byte 23 and bytes 26-30 as one number
  mark     : Nat := 0               -- byte 31
deriving DecidableEq, Repr

/-- An export DMA descriptor as read (Table 14-9). -/
structure XDesc where
  srcAddr    : Nat
  dstAddr    : Nat
  rowBytes   : Nat
  rows       : Nat
  srcStride  : Nat
  dstStride  : Nat
  nextAddr   : Nat
  descCtl    : BitVec 16
  rsv        : Nat := 0
  status     : Nat := 0
deriving DecidableEq, Repr

/-- How the copy of one export DMA descriptor ended (R350, R351). -/
inductive XResult where
  | done
  | badBus (failOffset : Nat)
  | badEcc (failOffset : Nat)
deriving DecidableEq, Repr

/-- CPI leaf status word, Table 7-4. -/
structure LeafStatus where
  leaf         : Nat
  backlogged   : Bool
  grantDone    : Bool
  grantId      : Nat
  released     : Nat
  headLen      : Nat
  rsv          : Nat := 0
  backlogBytes : Nat
  headEnq      : Nat
deriving DecidableEq, Repr

/-- CPI transmit start metadata, Table 6-1. -/
structure TxMeta where
  grantId     : Nat
  grantLast   : Bool
  leaf        : Nat
  tc          : Nat
  len         : Nat              -- TX_CPI_LEN
  scValid     : Bool := false
  scIndex     : Nat := 0
  tagOverride : Bool := false
  pcp         : Nat := 0
  dei         : Bool := false
  vid         : Nat := 0
  tsReq       : Nat := 0
  tsOffset    : Nat := 0
  tsId        : Nat := 0
  sampled     : Bool := false
  samplePg    : Nat := 0
  sampleTag   : Nat := 0
  rsv         : Nat := 0
deriving DecidableEq, Repr

/-- CPI transmit end metadata, Table 6-2. -/
structure TxEof where
  action  : Nat                  -- EOF_ACTION
  rsv     : Nat := 0
  grantId : Nat
deriving DecidableEq, Repr

/-- Slices of one transmit frame on a group's bus (R148): its start word (none: further slices of the port's frame),
the frame bytes that they carry, in slice order, the number of slices, and the end word if it came. -/
structure TxSlices where
  portOff   : Nat
  start     : Option TxMeta
  bytes     : List Byte
  slices    : Nat
  eof       : Option TxEof
deriving DecidableEq, Repr

/-- Frame bytes that came: the sum of SLICE_BYTES. -/
def TxSlices.nbytes (t : TxSlices) : Nat := t.bytes.length

/-- CPI pause request word, Table 8-5. -/
structure PauseReq where
  portOff : Nat
  rsv     : Nat := 0
  xoff    : BitVec 8
deriving DecidableEq, Repr

/-- An object with a shaper (R183). -/
inductive ShaperObj where
  | leaf (n : Nat) | node (n : Nat) | port (n : Nat)
deriving DecidableEq, Repr

/-- What a host memory response answers (R262, R298, R351, R386). -/
inductive HostAccess where
  | descRead (ringType ring : Nat)
  | dataRead (ringType ring : Nat)
  | dataWrite (ringType ring : Nat)
  | cplWrite (ringType ring : Nat)
  | battWrite
  | xdma (channel : Nat)
  | storeWrite
  | imageRead
deriving DecidableEq, Repr

/-- What BOOT found (R306, R391, R30, R386): the outcomes that the firmware image, the key store copies and
the self-tests give. -/
structure BootFacts where
  pufOk       : Bool
  imageOk     : Bool
  cpxOk       : Bool
  sveOk       : Bool
  timeOk      : Bool
  fusesEqual  : Bool
  groupsOk    : BitVec 32          -- present groups that passed self-test
  fwVersion   : BitVec 32
  fwDigest    : Digest
  fwKeyIndex  : Nat
  storeA      : Option (Nat × Nat × List (Nat × KeyInstallBody))  -- STORE_SEQ, REVOKE_LEVEL, slots: copy with matching MAGIC and tag
  storeB      : Option (Nat × Nat × List (Nat × KeyInstallBody))
  pools       : List (Nat × Nat × Nat)   -- BPI_POOL_INFO: BUF_SIZE, HANDLE_BASE, HANDLE_COUNT
deriving DecidableEq, Repr

/-- What an SRAM error hit (Table 18-6). -/
inductive SramHit where
  | correctable
  | security (pg : Nat)            -- class entries, SecY, SC, SA or key array of a group
  | policer (context : Nat)
  | sched (o : ShaperObj)
  | counter (key : Nat)
  | errorStore                     -- a unit's record storage (R414)
deriving DecidableEq, Repr

/-- A received HLK frame's header (Table 19-1) and what its TAG check gives (log 1). -/
structure HlkHead where
  port    : Nat
  srcMac  : Mac
  version : Nat := 1
  src     : Nat
  dst     : Nat
  rsvOk   : Bool := true           -- every reserved bit and byte is 0
  tagOk   : Bool := false
  seq     : Nat
deriving DecidableEq, Repr

/-- A worker's reply as REPLY carries it (Tables 2-4, 2-5). `tagged`: the session whose tag it carries. -/
structure WorkerReply where
  opcode      : Nat
  quarantine  : Bool
  inst        : Nat
  mode        : Nat
  sequence    : Nat
  status      : Nat
  degraded    : BitVec 16
  epoch       : Nat
  detail      : Nat
  correlation : BitVec 32
  body        : List Byte
  tagged      : Option Nat
  trailer     : Digest
deriving DecidableEq, Repr

/-- SUMMARY payload and summary page, Table 19-4. -/
structure Summary where
  mode         : Nat
  lifecycle    : Nat
  timeState    : Nat
  epoch        : Nat
  degraded     : Nat
  timeOffset   : Int
  portsUp      : Nat
  unacked      : BitVec 28
  rxBytes      : Nat
  txBytes      : Nat
  refused      : Nat
  errors       : Nat
deriving DecidableEq, Repr

/-- What a clause 73 base page advertises (R72): the technology abilities, as PORT_MODEs, the FEC modes that its request and ability
bits allow, and the pause bits. The places of the bits are IEEE 802.3's (log 11). -/
structure AnPage where
  abilities : List Nat := []
  fecs      : List Nat := []
  pause     : BitVec 2 := 0
deriving DecidableEq, Repr

/-- Which self-check failed (R401, Table 18-6). -/
inductive FatalCheck where
  | pufRoot | hood | sve
deriving DecidableEq, Repr

/-- ECC result of a side-memory read (R311, R312). -/
inductive EccResult where
  | clean | corrected | uncorrectable
deriving DecidableEq, Repr

/-! ## The rows -/

/-- One constructor per row of spec/opcode_table.json, in the table's order. -/
inductive Instr where
  | nop (z : Zelgen)
  | statusGet (z : Zelgen)
  | attestGet (z : Zelgen) (nonce : BitVec 256)
  | sessionOpen (z : Zelgen) (b : SessionOpenBody)
  | sessionClose (z : Zelgen) (sessionId : Nat)
  | sessionList (z : Zelgen)
  | epochCommit (z : Zelgen) (b : EpochCommitBody)
  | epochCancel (z : Zelgen)
  | epochDiscard (z : Zelgen)
  | epochStatus (z : Zelgen)
  | errorRead (z : Zelgen) (unit : Nat)
  | errorAck (z : Zelgen) (unit countSeen : Nat)
  | portSet (z : Zelgen) (b : PortSetBody)
  | portClear (z : Zelgen) (port : Nat)
  | portAddrSet (z : Zelgen) (b : PortAddrBody)
  | portVlanSet (z : Zelgen) (b : PortVlanBody)
  | laneSet (z : Zelgen) (b : LaneSetBody)
  | zelgenTransportSet (z : Zelgen) (b : TransportBody)
  | linkRetrain (z : Zelgen) (port : Nat)
  | portStateGet (z : Zelgen) (port : Nat)
  | secySet (z : Zelgen) (b : SecyBody)
  | scSet (z : Zelgen) (b : ScSetBody)
  | scClear (z : Zelgen) (b : ScName)
  | saInstall (z : Zelgen) (b : SaInstallBody)
  | saEnable (z : Zelgen) (b : SaName)
  | saRetire (z : Zelgen) (b : SaName)
  | saStateGet (z : Zelgen) (b : SaName)
  | classSet (z : Zelgen) (b : ClassSetBody)
  | classClear (z : Zelgen) (portGroup entry : Nat)
  | classGet (z : Zelgen) (portGroup entry : Nat)
  | senderIdSet (z : Zelgen) (b : SenderIdBody)
  | refusalCountsGet (z : Zelgen) (portGroup : Nat)
  | policerSet (z : Zelgen) (b : PolicerBody)
  | policerClear (z : Zelgen) (context : Nat)
  | policerGet (z : Zelgen) (context : Nat)
  | leafSet (z : Zelgen) (b : LeafBody)
  | leafClear (z : Zelgen) (leaf : Nat)
  | nodeSet (z : Zelgen) (b : NodeBody)
  | nodeClear (z : Zelgen) (node : Nat)
  | portSchedSet (z : Zelgen) (b : PortSchedBody)
  | overheadProfileSet (z : Zelgen) (b : OverheadBody)
  | hostLeafSet (z : Zelgen) (b : HostLeafBody)
  | schedStateGet (z : Zelgen) (leafOrNode index : Nat)
  | gateListSet (z : Zelgen) (b : GateListBody)
  | preemptSet (z : Zelgen) (b : PreemptBody)
  | pauseSet (z : Zelgen) (b : PauseBody)
  | pauseSend (z : Zelgen) (b : PauseSendBody)
  | gateStateGet (z : Zelgen) (port : Nat)
  | timeGet (z : Zelgen)
  | timeStep (z : Zelgen) (b : TimeStepBody)
  | timeRateSet (z : Zelgen) (rateAdj : Int)
  | timeSlew (z : Zelgen) (b : TimeSlewBody)
  | ppsSet (z : Zelgen) (b : PpsBody)
  | tsuCalSet (z : Zelgen) (b : TsuCalBody)
  | tsRead (z : Zelgen) (port tsId : Nat)
  | ringConfig (z : Zelgen) (b : RingConfigBody)
  | ringStart (z : Zelgen) (ringType ring : Nat)
  | ringStop (z : Zelgen) (ringType ring : Nat)
  | ringReset (z : Zelgen) (ringType ring : Nat)
  | ringStateGet (z : Zelgen) (ringType ring : Nat)
  | rxSteerSet (z : Zelgen) (b : RxSteerBody)
  | irqSourceSet (z : Zelgen) (b : IrqSourceBody)
  | irqTargetSet (z : Zelgen) (b : IrqTargetBody)
  | irqStateGet (z : Zelgen) (target : Nat)
  | battSet (z : Zelgen) (b : BattBody)
  | counterWindowSet (z : Zelgen) (b : WindowBody)
  | sampleSet (z : Zelgen) (b : SampleBody)
  | queueSampleSet (z : Zelgen) (b : QueueSampleBody)
  | eventModeSet (z : Zelgen) (b : EventModeBody)
  | countersGet (z : Zelgen) (counterGroup index : Nat)
  | smcSet (z : Zelgen) (b : SmcSetBody)
  | rankMigrate (z : Zelgen) (channel rank : Nat)
  | frcRegionSet (z : Zelgen) (b : FrcRegionBody)
  | frcControl (z : Zelgen) (region action : Nat)
  | xdmaChannelSet (z : Zelgen) (b : XdmaChannelBody)
  | xdmaStart (z : Zelgen) (channel : Nat)
  | xdmaStop (z : Zelgen) (channel : Nat)
  | smcStateGet (z : Zelgen) (channel : Nat)
  | modeRequest (z : Zelgen) (b : ModeRequestBody)
  | groupPowerSet (z : Zelgen) (b : GroupPowerBody)
  | wakeSet (z : Zelgen) (b : WakeBody)
  | powerStateGet (z : Zelgen)
  | debugTokenLoad (z : Zelgen) (token : Token)
  | freeze (z : Zelgen) (freezeScope : Nat)
  | pouncerSet (z : Zelgen) (b : PouncerBody)
  | pouncerStop (z : Zelgen)
  | debugStateGet (z : Zelgen)
  | keyInstall (z : Zelgen) (b : KeyInstallBody)
  | keyRevoke (z : Zelgen) (keyId : Nat)
  | keyList (z : Zelgen)
  | accessPolicySet (z : Zelgen) (b : AccessPolicyBody)
  | masterUnfreeze (z : Zelgen) (accessId : Nat)
  | lifecycleAdvance (z : Zelgen) (b : LifecycleBody)
  | firmwareStage (z : Zelgen) (b : FirmwareStageBody)
  | firmwareActivate (z : Zelgen) (b : FirmwareActivateBody)
  | zeroize (z : Zelgen) (confirm : BitVec 32)
  | fwKeyRevoke (z : Zelgen) (token : Token)
  | hlkRoleSet (z : Zelgen) (b : HlkRoleBody)
  | hlkLinkSet (z : Zelgen) (b : HlkLinkBody)
  | delegationInstall (z : Zelgen) (cert : Certificate)
  | workerList (z : Zelgen)
  | timeDistSet (z : Zelgen) (interval : Nat)
  | telemetryAggSet (z : Zelgen) (b : TelemetryAggBody)
  | commitTakesEffect (dt : Nat)
  | sessionExpiry (dt : Nat) (session : Nat)
  | delegationExpiry (dt : Nat) (keyId : Nat)
  | cmdRingFetch (dt : Nat) (ring : Nat) (desc : Descriptor) (readOk : Bool) (cmd : List Byte := [])
  | replyRingWrite (dt : Nat) (ring : Nat) (desc : Descriptor) (writeOk : Bool)
  | rxFrame (dt : Nat) (f : RxFrame)
  | rxPreambleError (dt : Nat) (port : Nat)
  | bpiResponse (dt : Nat) (pg : Nat) (empty : Bool) (handle : Nat)
  | bpiResponseTimeout (dt : Nat) (pg : Nat)
  | heldFrameRelease (dt : Nat) (port : Nat)
  | cliRv (dt : Nat) (channel pg frameTag version : Nat)
  | cliRvTimeout (dt : Nat) (pg frameTag : Nat)
  | signalDetectChange (dt : Nat) (lane : Nat) (level : Bool) (heldNs : Nat)
  | laneLockChange (dt : Nat) (lane : Nat) (rxLock txReady : Bool) (heldNs : Nat := 0)
  | laneClockFault (dt : Nat) (lane : Nat)
  | laneClockRecover (dt : Nat) (lane : Nat)
  | ltPartnerReq (dt : Nat) (lane : Nat) (coef : BitVec 16)
  | ltRxReady (dt : Nat) (lane : Nat) (ready : Bool)
  | ltTxStatus (dt : Nat) (lane : Nat) (status : BitVec 2) (update : BitVec 16 := 0)
  | anComplete (dt : Nat) (port : Nat) (abilities fecs : List Nat) (pause : BitVec 2 := 0)
  | anIncompatibleRetry (dt : Nat) (port : Nat)
  | trainingTimeout (dt : Nat) (port : Nat)
  | trainingComplete (dt : Nat) (port : Nat)
  | alignComplete (dt : Nat) (port : Nat) (remoteFault : Bool) (skews : List Nat) (order : List Nat := [])
  | alignTimeout (dt : Nat) (port : Nat) (skewLanes : List Nat)
  | localFault (dt : Nat) (port : Nat)
  | linkDownHoldExpiry (dt : Nat) (port : Nat)
  | faultClear (dt : Nat) (port : Nat)
  | remoteFault (dt : Nat) (port : Nat) (begins : Bool)
  | preemptVerifyTimeout (dt : Nat) (port : Nat)
  | schedDecision (dt : Nat) (pg : Nat)
  | leafStatusWord (dt : Nat) (pg : Nat) (w : LeafStatus)
  | grantSettle (dt : Nat) (pg grantId : Nat)
  | grantTimeout (dt : Nat) (pg grantId : Nat)
  | wheelTick (dt : Nat) (pg : Nat)
  | shaperRelease (dt : Nat) (obj : ShaperObj)
  | cpiTxFrame (dt : Nat) (pg : Nat) (t : TxSlices)
  | txFrameStart (dt : Nat) (port lane phase bit : Nat)
  | txFrameEnd (dt : Nat) (port : Nat)
  | txUnderrun (dt : Nat) (port : Nat)
  | pauseRequestWord (dt : Nat) (pg : Nat) (w : PauseReq)
  | pauseRefresh (dt : Nat) (port : Nat)
  | pauseTimerExpiry (dt : Nat) (port prio : Nat)
  | gateEntryChange (dt : Nat) (port : Nat)
  | gateCycleStart (dt : Nat) (port : Nat)
  | timeStepEffect (dt : Nat)
  | slewComplete (dt : Nat)
  | ppsInEdge (dt : Nat) (rising : Bool) (phase : Nat) (heldNs : Nat := 0)
  | ppsInLoss (dt : Nat)
  | todMessage (dt : Nat) (bytes : List Byte)
  | ppsOutPulse (dt : Nat)
  | ppsOutPulseEnd (dt : Nat)
  | refFault (dt : Nat)
  | refFaultClear (dt : Nat)
  | doorbellProducer (dt : Nat) (accessId ringType ring producer : Nat) (cplAck : Option Nat)
  | doorbellCplAck (dt : Nat) (accessId ringType ring cplAck : Nat)
  | ringEntryProcess (dt : Nat) (ringType ring : Nat) (desc : Descriptor) (dataOk : Bool) (data : List Byte := [])
  | rxRingAllot (dt : Nat) (ring : Nat) (descs : List Descriptor)
  | rxRingHoldExpiry (dt : Nat) (ring frameId : Nat)
  | ringStopDone (dt : Nat) (ringType ring : Nat)
  | sypMasterResponse (dt : Nat) (access : HostAccess) (error : Bool)
  | sypResponseTimeout (dt : Nat) (access : HostAccess)
  | claim (dt : Nat) (accessId target : Nat)
  | complete (dt : Nat) (accessId target source : Nat)
  | enableSet (dt : Nat) (accessId target source : Nat)
  | enableClear (dt : Nat) (accessId target source : Nat)
  | softSet (dt : Nat) (accessId target source : Nat)
  | softClear (dt : Nat) (accessId target source : Nat)
  | irqModerationExpiry (dt : Nat) (source : Nat)
  | tgtStateChange (dt : Nat) (target : Nat) (state : BitVec 2)
  | counterWindowRead (dt : Nat) (accessId window offset width : Nat)
  | writeNotPermitted (dt : Nat) (accessId offset width : Nat)
  | battTrigger (dt : Nat)
  | battWriteDone (dt : Nat)
  | queueSweep (dt : Nat)
  | smcZeroFillDone (dt : Nat)
  | dfiInitTimeout (dt : Nat) (channel : Nat)
  | refreshDue (dt : Nat) (channel rank : Nat)
  | mr4Poll (dt : Nat) (channel rank code : Nat)
  | selfRefreshEntry (dt : Nat) (channel rank : Nat)
  | retrainWindow (dt : Nat) (channel : Nat)
  | phyUpdateRequest (dt : Nat) (channel lenNs waitedNs : Nat)
  | channelFullRetrain (dt : Nat) (channel : Nat)
  | scrubRead (dt : Nat) (address : Nat) (ecc : EccResult)
  | rankMigrationComplete (dt : Nat) (bad : List Nat := [])
  | frcGranuleFlush (dt : Nat) (region : Nat)
  | frcGranuleWriteDone (dt : Nat) (region : Nat) (ok : Bool)
  | frcRegionStopDone (dt : Nat) (region : Nat)
  | xdmaDescFetch (dt : Nat) (channel : Nat) (desc : XDesc) (readOk : Bool)
  | xdmaDescComplete (dt : Nat) (channel : Nat) (r : XResult)
  | groupGate (dt : Nat) (pg : Nat)
  | idleTimeExpiry (dt : Nat) (pg : Nat)
  | groupWakeStart (dt : Nat) (pg : Nat)
  | groupWakeDone (dt : Nat) (pg : Nat)
  | probeWake (dt : Nat) (pg : Nat)
  | probeHoldExpiry (dt : Nat) (pg : Nat)
  | drainComplete (dt : Nat)
  | drainTimeout (dt : Nat)
  | firmwareActivateDone (dt : Nat) (ok : Bool)
  | brimResetRelease (dt : Nat)
  | coreResetRelease (dt : Nat) (refOk : Bool)
  | railGood (dt : Nat)
  | pllLock (dt : Nat)
  | bootComplete (dt : Nat) (facts : BootFacts)
  | railGoodLoss (dt : Nat) (coreReset : Bool)
  | brimPowerLoss (dt : Nat)
  | freezeInput (dt : Nat)
  | freezeInputFall (dt : Nat)
  | freezeClockStop (dt : Nat) (q discarded : Nat)
  | tokenExpiry (dt : Nat)
  | pouncerDurationExpiry (dt : Nat) (cls target : Nat)
  | idcode (dt : Nat)
  | dbgStatus (dt : Nat)
  | chainSelect (dt : Nat) (value : BitVec 16)
  | chainRead (dt : Nat) (bits : Nat)
  | resume (dt : Nat) (value : BitVec 32)
  | bypass (dt : Nat) (tdi : Bool)
  | errorEscalationTimeout (dt : Nat) (unit : Nat)
  | errorLogWriteTimeout (dt : Nat)
  | sramEccError (dt : Nat) (bank : Nat) (hit : SramHit)
  | cpxLockstepError (dt : Nat)
  | pufCheckFail (dt : Nat) (which : FatalCheck)
  | hlkHelloTimer (dt : Nat)
  | hlkHello (dt : Nat) (h : HlkHead) (nonce : BitVec 256) (keyDigest : Digest) (bootTag : BitVec 32)
  | hlkOffer (dt : Nat) (h : HlkHead) (mgrNonce wkrNonce : BitVec 256)
  | hlkConfirm (dt : Nat) (h : HlkHead) (epoch mode : Nat)
  | hlkHeartbeat (dt : Nat) (h : HlkHead) (timeInterval summaryPeriod : Nat)
  | hlkHeartbeatTimer (dt : Nat)
  | hlkCommand (dt : Nat) (h : HlkHead) (header rest : List Byte)
  | hlkReply (dt : Nat) (h : HlkHead) (r : WorkerReply)
  | hlkDelegation (dt : Nat) (h : HlkHead) (cert : Certificate)
  | hlkTimeReq (dt : Nat) (h : HlkHead) (n : Nat)
  | hlkTimeResp (dt : Nat) (h : HlkHead) (n : Nat) (t2 t3Prev : Time96)
  | timeDistTimer (dt : Nat)
  | hlkSummary (dt : Nat) (h : HlkHead) (sm : Summary)
  | summaryTimer (dt : Nat)
  | hlkLeave (dt : Nat) (h : HlkHead) (reason : Nat)
  | hlkPartnerLoss (dt : Nat) (partner : Nat)
  | targetTimeout (dt : Nat) (correlation : BitVec 32)
  | accessViolation (dt : Nat) (accessId offset width : Nat)
  | groupPowerNotGood (dt : Nat) (pg : Nat)
  | bpiRdDataTimeout (dt : Nat) (port : Nat)
  | channelRetrainDone (dt : Nat) (channel : Nat) (ok : Bool)
  | cpxRestartDone (dt : Nat)
  | errorLogWriteError (dt : Nat)
  | hammerThrottleExpiry (dt : Nat) (channel rank bank requester : Nat)
  | laneDropExpiry (dt : Nat) (lane : Nat)
deriving DecidableEq, Repr

end Sys2Proof
end

