-- ==== Sys2Proof/Config.lean ====
section
/-! DEFINITION. Configuration constants: the free values of the model. Each is opaque and has no body,
so no proof can see a value; the log entry that each names says what the spec leaves open. -/
namespace Sys2Proof.Config

/-- SHA-384 (FIPS 180-4, named by R37, R54, R384, R387, R390), uninterpreted. Log 2. -/
opaque sha384 : List Byte → Digest

/-- HMAC-SHA-384 (FIPS 198-1, named by R37, R51, R382, R421, R422), uninterpreted: key, then message. Log 2. -/
opaque hmac384 : List Byte → List Byte → Digest

/-- Byte i of the key stream of GCM-AES (IEEE 802.1AE, named by R115): key, whether it has 256 bits, IV. Uninterpreted. Log 2. -/
opaque gcmStream : BitVec 256 → Bool → BitVec 96 → Nat → Byte

/-- The ICV of GCM-AES: key, whether it has 256 bits, IV, what it covers in clear, the secured octets. Uninterpreted. Log 2. -/
opaque gcmIcv : BitVec 256 → Bool → BitVec 96 → List Byte → List Byte → BitVec 128

/-- The GHASH subkey of a SAK (R121): the cipher of the zero block. Uninterpreted. Log 2. -/
opaque ghashKey : BitVec 256 → Bool → BitVec 128

/-- What the hood's entropy source gives at the n-th draw, at most 384 bits used (R35, R51, R300, R385, R422). Log 15. -/
opaque entropy : Nat → Digest

/-- Whether INC is rounded up to the next 2^-64 ns at this RATE_ADJ (R218 holds INC to 2^-64 ns and
states no direction). Log 8. -/
opaque incRoundUp : Int → Bool

/-- Length in 64-bit words of a scan segment, by domain and segment (R377: the map is Mareth's). Log 16. -/
opaque segmentLen : Nat → Nat → Nat

/-- Whether a scan segment exists (R377). Log 16. -/
opaque segmentExists : Nat → Nat → Bool

/-- Whether a scan segment holds a secret-bearing structure of R378. Log 16. -/
opaque segmentSecret : Nat → Nat → Bool

/-- The bits of word i of a scan segment that hold a secret-bearing structure of R378. Log 16. -/
opaque segmentMask : Nat → Nat → Nat → BitVec 64

/-- What an error record holds where the spec states no coding, of an injected one (Table 16-4) and of a failed firmware
activation (R392): field 0 CODE, 1 INSTANCE, 2 the class, 5 the severity of a failed activation, 3 and 4 the
details, by unit and draw. Log 35. -/
opaque injected : Nat → Nat → Nat → BitVec 64

/-- Word i of a scan segment at a freeze's ccyc n (R377). Log 16. -/
opaque segmentWord : Nat → Nat → Nat → Nat → BitVec 64

/-- The SA, and the word of its key array entry, that word i of a scan segment holds, if any (R121, R377). Log 16. -/
opaque segmentKey : Nat → Nat → Nat → Option (Nat × Nat)

/-- Largest forced-refresh command time tRFCab of the fitted device in ns (R318: the device's). Log 18. -/
opaque tRfcAb : Nat

/-- RAAIMT of the fitted device (R319: read from its mode registers). Log 18. -/
opaque raaImt : Nat

/-- What a refresh takes off a bank's RAA count (R319: read from the device's mode registers). Log 18. -/
opaque raaDecrement : Nat

/-- Rank size of the fitted devices: 2^code GiB, code 0 to 3 (Table 13-1, R306). Log 18. -/
opaque rankSizeCode : Fin 4

/-- Whether each channel is fitted with a second rank (Table 13-1). Log 18. -/
opaque secondRank : Bool

/-- Byte i of the content of a forwarded command's trailer, by its header and body (R42): the row carries the verdict, not the
signature. Log 1. -/
opaque trailerByte : List Byte → Nat → Byte

/-- The bits of the IP header of a reply over UDP that no rule fixes, by the frame's number and the header's byte: DSCP and ECN,
identification, do-not-fragment, time to live, flow label, hop limit. Log 40. -/
opaque ipOpen : Nat → Nat → Byte

/-- The TS_ID under which CPX's own frames keep their captures (R228 names none), by the frame's number. Log 40. -/
opaque hlkTsId : Nat → BitVec 16

/-- The longest wait of link training by PORT_MODE, in ccyc (R73: IEEE 802.3's). Log 11. -/
opaque trainWait : Nat → Nat

/-- IEEE 802.3's monitor behind the FEC high-error indication (R78): what it holds after a codeword, by FEC_MODE, what it held and the
codeword's corrected symbols, and whether it then indicates. Log 11. -/
opaque errorMonitor : Nat → Nat → Option Nat → Nat
opaque errorHigh : Nat → Nat → Bool

/-- Granules that a migration has copied, by ccyc (R325, R329: its pace is the maintenance share's). Log 18. -/
opaque migrateDone : Nat → Nat

/-- The cause (2 bytes) of a mode-change EVENT record, by old and new mode (Table 14-5 gives it no coding). Log 22. -/
opaque modeCause : Nat → Nat → BitVec 16

/-- The D fields of a sample record (Table 12-5), by ccyc, stage and reader: pipeline times that are not kept. Log 4. -/
opaque stageTime : Nat → Nat → BitVec 16

/-- The DAK's hybrid signature over an attestation (R382, Table 2-9 ATTEST_GET), uninterpreted. Log 2. -/
opaque dakSign : List Byte → BitVec 37824

/-- The PUF root PR of this die (R382): what its PUF response with PUF_HELPER gives. Log 2. -/
opaque pufRoot : BitVec 256

/-- A word of host memory that no operand carries, by address and draw (log 17). -/
opaque hostWord : Nat → Nat → BitVec 64

/-- Fitted devices: the maximum row-open time in ccyc (R313), whether they require refresh management (R319); the PAGE_HINT of
requesters other than FRC, 0 NONE, 1 KEEP_OPEN, 2 CLOSE; and the refresh intervals that SMC pulls in at an idle interval (R316). Log 18. -/
opaque rowOpenMax : Nat
opaque rfmRequired : Bool
opaque pageHint : Nat → Fin 3
opaque pulledIn : Nat → Nat

/-- Writes of the export DMA that SYP takes in a ccyc (R352 shares them and gives no number). Log 18. -/
opaque sypWrites : Nat → Nat

/-- Whether SVE is above half its rated load in a ccyc (Table 12-2): the pace of verification is not kept. Log 4. -/
opaque sveBusy : Nat → Bool

/-- Under which of R167's causes TXM counts a ring's frame that a freeze discards, by port (R264 names none). Log 40. -/
opaque frozenCause : Nat → BitVec 3

/-- Whether a perturbation of RATE_LOG2 n ≥ 1 fires at a draw of the DBG LFSR, whose polynomial R379 does not give. Log 24. -/
opaque dbgDraw : Nat → Nat → Bool

/-- Whether a following worker's correction of RATE_ADJ is rounded up, by θ and TIME_INTERVAL (R427 states no rounding).
Log 8. -/
opaque rateRoundUp : Int → Nat → Bool

end Sys2Proof.Config
end

