-- ==== Sys2Proof/Machine/Table.lean ====
section
/-! DEFINITION. Sparse tables by number: lists of (key, entry) pairs with strictly rising keys. -/
namespace Sys2Proof.Machine

/-- A sparse table: keys strictly rising (`Tab.wf`). A key not listed has no entry. -/
abbrev Tab (α : Type) := List (Nat × α)

/-- Entry of key `k`. -/
def tget {α : Type} (t : Tab α) (k : Nat) : Option α :=
  match t with
  | [] => none
  | (j, a) :: r => if j = k then some a else tget r k

/-- Write entry `k`, keeping the keys rising. -/
def tput {α : Type} (t : Tab α) (k : Nat) (v : α) : Tab α :=
  match t with
  | [] => [(k, v)]
  | (j, a) :: r =>
    if k < j then (k, v) :: (j, a) :: r
    else if k = j then (k, v) :: r
    else (j, a) :: tput r k v

/-- Remove entry `k`. -/
def tdel {α : Type} (t : Tab α) (k : Nat) : Tab α :=
  t.filter (fun e => e.1 ≠ k)

/-- Whether key `k` is listed. -/
def thas {α : Type} (t : Tab α) (k : Nat) : Bool := (tget t k).isSome

/-- Entry of `k`, or `d`. -/
def tgetD {α : Type} (t : Tab α) (k : Nat) (d : α) : α := (tget t k).getD d

/-- Change every entry. -/
def tmap {α : Type} (t : Tab α) (f : Nat → α → α) : Tab α := t.map (fun e => (e.1, f e.1 e.2))

/-- Entries kept by a test. -/
def tkeep {α : Type} (t : Tab α) (p : Nat → α → Bool) : Tab α := t.filter (fun e => p e.1 e.2)

/-- The canonical form: keys strictly rising. -/
def Tab.wf {α : Type} (t : Tab α) : Bool :=
  match t with
  | [] => true
  | [_] => true
  | (j, _) :: (k, b) :: r => decide (j < k) && Tab.wf ((k, b) :: r)

/-- Number of items of a list that a test holds for. -/
def countIf {α : Type} (l : List α) (p : α → Bool) : Nat := (l.filter p).length

/-- Bit `i` of a bit vector, zero-padded above. -/
def bit {n : Nat} (b : BitVec n) (i : Nat) : Bool := b.getLsbD i

/-- Field [hi:lo] of a bit vector as a number (R3). -/
def field {n : Nat} (b : BitVec n) (hi lo : Nat) : Nat := (b.toNat / 2 ^ lo) % 2 ^ (hi + 1 - lo)

/-- Clear bit `i`. -/
def clearBit {n : Nat} (b : BitVec n) (i : Nat) : BitVec n := b &&& ~~~(1#n <<< i)

/-- Set bit `i`. -/
def setBit {n : Nat} (b : BitVec n) (i : Nat) : BitVec n := b ||| (1#n <<< i)

/-- `v` in `w` bytes, most significant byte first (R5). -/
def msbBytes (w v : Nat) : List (BitVec 8) :=
  (List.range w).map (fun i => BitVec.ofNat 8 (v / 256 ^ (w - 1 - i)))

/-- `v` in `w` bytes, least significant byte first (R5). -/
def lsbBytes (w v : Nat) : List (BitVec 8) :=
  (List.range w).map (fun i => BitVec.ofNat 8 (v / 256 ^ i))

/-- A number from bytes sent most significant byte first (R5). -/
def ofMsb (bs : List (BitVec 8)) : Nat := bs.foldl (fun a b => a * 256 + b.toNat) 0

/-- A signed number of `w` bytes as its two's complement code. -/
def signedCode (w : Nat) (v : Int) : Nat := (v % (2 ^ (8 * w) : Nat)).toNat

/-- A number in `w` bytes, then the next field (a body or a structure in field order). -/
abbrev Fields := List (Nat × Nat)

/-- The bytes of fields sent most significant byte first, in order, without gaps (R33, R34). -/
def fieldBytes (fs : Fields) : List (BitVec 8) := fs.flatMap (fun f => msbBytes f.1 f.2)

/-- Bytes that the fields fill. -/
def fieldLen (fs : Fields) : Nat := (fs.map Prod.fst).sum

/-- The next multiple of `m` at or above `n`. -/
def roundUp (n m : Nat) : Nat := (n + m - 1) / m * m

/-- Ceiling division. -/
def ceilDiv (a b : Nat) : Nat := (a + b - 1) / b

/-- Increment a `w`-bit counter that saturates. -/
def satInc (w n : Nat) : Nat := if n + 1 < 2 ^ w then n + 1 else 2 ^ w - 1

end Sys2Proof.Machine
end

