-- ==== Sys2Proof/Machine/State.lean ====
section
/-! DEFINITION. The state of the block: every register, queue, buffer and mode the spec names, as plain data.
Each field's comment names the rule that gives it; INVENTORY.md lists the reset values. Times of day are Nat in
units of 2^-64 ns (R218); `now` counts ccyc since BOOT. -/
namespace Sys2Proof.Machine

/-! ## Stops -/

/-- Why a step could stop with a fault. No meaning raises it: the spec answers every command (log 20). Safe. -/
inductive Fault where
  /-- Raised by no meaning. Safe. -/
  | none
deriving DecidableEq, Repr

/-- Why a command has no meaning. -/
inductive Refusal where
  /-- Raised by `exec`'s arm of a row not modelled yet, with its mnemonic. Safe. -/
  | notModelled (mnemonic : String)
deriving DecidableEq, Repr

/-! ## Modes and power (15, 20) -/

/-- What the shared domain does (R363 item 1, R365). -/
inductive Stage where
  | off | brim | boot | run
deriving DecidableEq, Repr

/-- BASE_MODE (R363). -/
inductive Base where
  | locked | service | lean
deriving DecidableEq, Repr

/-- Why the block entered or left BRIM (R357, R437). -/
inductive BrimCause where
  | none | brimPower | coreReset | railLoss | coreRelease
deriving DecidableEq, Repr

/-- A drain in progress (R366). -/
structure Drain where
  ports : BitVec 576
  next  : Base
  start : Nat
deriving DecidableEq, Repr

/-- Mode, resets and rails (R357, R363, R437). -/
structure ModeSt where
  stage      : Stage := .off
  base       : Base := .locked
  quarantine : Bool := false
  zeroized   : Bool := false
  drain      : Option Drain := none
  drained    : List Nat := []        -- ports closed by a drain until a commit writes them (R366)
  brimCause  : BrimCause := .none    -- cause of the last entry into BRIM (R357)
  wakeCause  : BrimCause := .none    -- cause of the last wake from BRIM (R357)
  shown      : Nat := 0              -- reported mode last noted (for the EVENT record of R365)
  brimRstN   : Bool := false         -- Table 20-1
  coreRstN   : Bool := false
  coreGood   : Bool := false
  sramGood   : Bool := false
  pwrReq     : Bool := false
  bootStatus : BitVec 64 := 0        -- Table 20-6
  fuseBad    : Bool := false         -- the two fuse reads differ (Table 18-5)
deriving DecidableEq, Repr

/-- The fuse macro (Table 17-2); reset values 0 as the table states. -/
structure Fuses where
  lifecycle      : BitVec 4 := 0
  fuseLock       : Bool := false
  smcDataRate    : BitVec 3 := 0
  groupPresent   : BitVec 32 := 0
  servicePresent : BitVec 4 := 0
  bootAccessId   : BitVec 12 := 0
  siliconRev     : BitVec 4 := 0
  manufacturerId : BitVec 11 := 0
  fwKeyRevoked   : BitVec 4 := 0
  bootPairAddr   : BitVec 64 := 0
  fwImageAddr    : BitVec 64 := 0
  keyStoreAddr   : BitVec 64 := 0
  deviceSerial   : BitVec 128 := 0
  anchorDigest   : BitVec 384 := 0
  fwKeyDigest    : BitVec 1536 := 0
  fwSvn          : BitVec 256 := 0
  revokeCount    : BitVec 512 := 0
  zeroizeCount   : BitVec 64 := 0
  pufHelper      : BitVec 4096 := 0
deriving DecidableEq, Repr

/-! ## Replies and outputs -/

/-- The trailer of a reply (R39). -/
inductive ReplyTrailer where
  | tag (session : Nat) (value : Digest)
  | digest (value : Digest)
deriving DecidableEq, Repr

/-- A reply (Table 2-5). `body` lists its fields in order (R34); BODY_LEN is their length rounded up to 4. -/
structure Reply where
  opcode      : Nat
  quarantine  : Bool
  inst        : Nat
  mode        : Nat
  sequence    : Nat
  status      : Nat
  degraded    : BitVec 16
  epoch       : Nat
  detail      : Nat
  correlation : BitVec 32
  body        : Fields
  trailer     : ReplyTrailer
deriving DecidableEq, Repr

/-- Where the reply to a network command goes (Table 2-7): its source MAC address, the bytes of its 802.1Q tags, and over UDP its
source address (an IPv4 address in the low 32 bits) and source port. -/
structure NetPath where
  mac  : Mac := 0
  tags : List Byte := []
  v4   : Bool := false
  ip   : BitVec 128 := 0
  udp  : Nat := 0
deriving DecidableEq, Repr

/-- What is kept of a command to build its reply later (R49, R51, R219, R250, R338, R353). -/
structure ReplyCtx where
  origin      : Origin
  opcode      : Nat
  sequence    : Nat
  correlation : BitVec 32
  keyId       : Nat
  onError     : Bool                 -- REPLY_ON_ERROR
  key         : Option Digest        -- SK of the session it came under, even if that session has ended
  digest      : Digest               -- SHA-384 of header and body
  header      : List Byte            -- the 32 bytes, for the COMMAND record (Table 14-4)
  slot        : Option Nat := none   -- its place among its reply ring's replies (R48)
  signer      : Nat := 0             -- key slot that signed it or opened its session (R50)
  path        : NetPath := {}        -- where its reply goes, of a network command (R41)
deriving DecidableEq, Repr

/-- A slice of the receive segment bus (R106): its group, ccyc and place in it, SLICE_PORT, its bytes, and the start and end metadata that
accompany SLICE_SOF and SLICE_EOF (Tables 4-7, 4-8). -/
structure CpiSlice where
  pg    : Nat
  ccyc  : Nat
  slot  : Nat
  port  : Nat
  bytes : List Byte
  sof   : Option Fields := none
  eof   : Option Fields := none
deriving DecidableEq, Repr

/-- The mark that starts a transmission (R166): an express frame's; a preemptable frame's first fragment, with the frame count;
a continuation fragment's, with the frame and the fragment count. -/
inductive Smd where
  | e
  | s (frame : Nat)
  | c (frame fragment : Nat)
deriving DecidableEq, Repr

/-- How a transmission ends (R163, R166): with its FCS; with an mCRC; in an error column of so many bytes. -/
inductive LineEnd where
  | whole
  | mcrc
  | error (column : Nat)
deriving DecidableEq, Repr

/-- What goes to a rank of side memory over DFI (Table 0-1): an activation, a read or a write of side-memory bytes, a refresh, the way
into self-refresh and out of it. -/
inductive DfiCommand where
  | activate (bank row : Nat)
  | read (addr : Nat)
  | write (addr : Nat) (bytes : List Byte)
  | refresh
  | selfRefresh (enter : Bool)
deriving DecidableEq, Repr

/-- What a step drove on the boundary (Table 20-1). Log 6. -/
inductive Output where
  | dfi (channel rank : Nat) (command : DfiCommand)   -- by name: the coding of its pins is DFI 5.1's (log 18)
  | reply (o : Origin) (r : Reply)
  | sypAnswer (error : Bool) (value : Nat)
  | hostWrite (accessId addr : Nat) (bytes : List Byte)
  | hostRead (accessId addr len : Nat)
  | hostFill (accessId addr len : Nat) (zero : Bool)   -- zeros, or bytes under the hood's keys
  | cpiSlice (x : CpiSlice)
  | cliRecord (pg : Nat) (rec : Fields)
  | bpiReq (pg pool : Nat)
  | bpiWrite (pg handle : Nat)
  | bpiReadReq (pg handle : Nat)
  | bpiFree (pg pool handle : Nat)
  | grant (pg : Nat) (word : Fields)
  | lineFrame (port : Nat) (mark : Smd) (bytes : List Byte) (ending : LineEnd)
  | macControl (port : Nat) (bytes : List Byte)
  | mpacket (port : Nat) (respond : Bool)
  | hlkFrame (port : Nat) (dst : Mac) (kind : Nat) (payload : Fields)
  | forward (inst : Nat) (ctx : ReplyCtx)
  | ppsOut (level : Bool) (fine : Nat)
  | fuseBurn
  | tdo (bits : List Bool)
deriving DecidableEq, Repr

/-! ## Time (09) -/

/-- A slew in progress (R220): OFFSET in 2^-64 ns, its length and how much of it has passed, in ccyc. `fresh`: accepted in
this ccyc, to start in the next. -/
structure Slew where
  offset : Int
  total  : Nat
  done   : Nat
  fresh  : Bool := false
deriving DecidableEq, Repr

/-- A step accepted and due 64 ccyc after acceptance (R219), its OFFSET in 2^-64 ns. -/
structure StepPend where
  due      : Nat
  relative : Bool
  time     : Nat
  offset   : Int
  ctx      : Option ReplyCtx
  keepSync : Bool := false            -- the step of a resume leaves SYNC unchanged (R375)
deriving DecidableEq, Repr

/-- SYNC (Table 9-2). -/
inductive Sync where
  | unset | set | holdover
deriving DecidableEq, Repr

/-- A valid ToD message held for the next edge (R234): SECONDS, the ccyc at which it ended, TOD_FLAGS, UTC_OFFSET. -/
structure TodMsg where
  seconds : Nat
  ended   : Nat
  flags   : BitVec 8
  utc     : BitVec 16
deriving DecidableEq, Repr

/-- One two-step capture (R228). -/
structure Capture where
  port : Nat
  tsId : Nat
  time : Nat
deriving DecidableEq, Repr

structure Tsu where
  now         : Nat := 0                 -- ccyc since BOOT; CCYC_COUNT is its low 32 bits (R221)
  time        : Nat := 0                 -- R216, R218
  rateAdj     : Int := 0                 -- R217
  inc0        : Option Nat := none       -- this ccyc's INC, where a change acts from the next ccyc on (R218, R220)
  sync        : Sync := .unset           -- Table 9-2
  slew        : Option Slew := none      -- R220
  step        : List StepPend := []      -- R219, in the order accepted
  refFault    : Bool := false            -- R222
  ppsLost     : Bool := false            -- cause of R223
  mgrLost     : Bool := false            -- cause of R223
  ppsOk       : Bool := false            -- PPS_IN_OK
  ppsCount    : Nat := 0                 -- PPS_IN_COUNT, 32 bits (R232)
  ppsEdge     : Option Int := none       -- time of the last plausible edge in the scale of now (R232)
  ppsEdgeCcyc : Nat := 0                 -- ccyc of the last plausible edge, or of the enable
  ppsCaps     : List (Nat × Nat) := []   -- (count, time), newest first, at most 64 (R232)
  todCaps     : List (Nat × Nat) := []   -- (count, seconds) of those edges that had a message, newest first (R234)
  tods        : List TodMsg := []        -- messages held for the next edge, newest first: TOD_VALID (R234)
  todFlags    : BitVec 8 := 0            -- R217
  utcOffset   : BitVec 16 := 0           -- R217
  todSeconds  : Nat := 0                 -- R217, 48 bits
  todWas      : BitVec 8 × BitVec 16 × Nat := (0, 0, 0)  -- the three fields before the messages held, which may end too late
  ppsOut      : Bool := false            -- R231, R233
  ppsOutSince : Int := 0                 -- time at which the pulse rose, in the scale of now
  tick        : Nat := 0                 -- crown-wheel tick N (R185)
  tickAt      : Nat := 0                 -- ccyc in which that tick began (R186)
  caps        : Tab (List Capture) := [] -- per port group, oldest first, at most 4,096 (R228)
  capsWas     : Tab (List Capture) := [] -- the store as this ccyc found it (Table 9-6)
deriving DecidableEq, Repr

/-! ## Flight recorder records (14), as queues hold them -/

/-- A record to be written: KIND, REC_FLAGS, TIME, EPOCH, SOURCE, KIND_WORD, the bytes from 32 on, and the port group
whose budget it draws on, if any (Tables 14-1, 14-2). -/
structure Rec where
  kind   : Nat
  flags  : Nat := 0
  time   : Nat
  epoch  : Nat
  source : Nat := 0xFFFF
  word   : Nat := 0
  body   : List Byte
  budget : Option Nat := none
deriving DecidableEq, Repr

/-! ## CPX (02, 17, 19) -/

/-- A charge to one policer context (R211): its configuration in the frame's epoch, K and L in bytes. -/
structure Charge where
  ctx  : Nat
  body : PolicerBody
  k    : Nat
  l    : Nat
deriving DecidableEq, Repr

/-- A command awaiting verification (R43). For a frame given TO_CPX (R137, R138): its class entry (PG × 64 + entry)
and the record its refusal or acceptance would write. -/
structure Waiting where
  origin : Origin
  cls    : Option Nat := none
  length : Nat := 0
  refuse : Option Rec := none
  accept : Option Rec := none
  sample : Option Fields := none               -- its sample record, if it was tagged
  slot   : Option Nat := none
  path   : NetPath := {}
  stamp  : Option Nat := none                  -- T_RX of its frame (R227)
  charge : List Charge := []                   -- what policers take once its checks pass (R17, R140)
deriving DecidableEq, Repr

/-- An open session (R47, R51). `window` bit i: sequence seqHigh - i accepted. -/
structure Session where
  keyId   : Nat
  manager : Bool
  sk      : Digest
  kw      : BitVec 256
  mask    : BitVec 16
  expiry  : Nat
  seqHigh : Nat := 0
  window  : BitVec 64 := 0
deriving DecidableEq, Repr

/-- One staged command of kind S (R54), in the order accepted. -/
inductive Edit where
  | portSet (b : PortSetBody) | portClear (port : Nat) | portAddr (b : PortAddrBody)
  | portVlan (b : PortVlanBody) | laneSet (b : LaneSetBody) | transport (b : TransportBody)
  | secy (b : SecyBody) | scSet (b : ScSetBody) | scClear (b : ScName)
  | classSet (b : ClassSetBody) | classClear (pg entry : Nat) | senderId (b : SenderIdBody)
  | policer (b : PolicerBody) | policerClear (context : Nat)
  | leafSet (b : LeafBody) | leafClear (leaf : Nat) | nodeSet (b : NodeBody) | nodeClear (node : Nat)
  | portSched (b : PortSchedBody) | overhead (b : OverheadBody) | hostLeaf (b : HostLeafBody)
  | gateList (b : GateListBody) | preempt (b : PreemptBody) | pause (b : PauseBody)
  | pps (b : PpsBody) | tsuCal (b : TsuCalBody) | ring (b : RingConfigBody) | rxSteer (b : RxSteerBody)
  | irqSource (b : IrqSourceBody) | irqTarget (b : IrqTargetBody) | batt (b : BattBody)
  | window (b : WindowBody) | sample (b : SampleBody) | queueSample (b : QueueSampleBody)
  | eventMode (b : EventModeBody) | smc (b : SmcSetBody) | frcRegion (b : FrcRegionBody)
  | xdma (b : XdmaChannelBody) | groupPower (b : GroupPowerBody) | wake (b : WakeBody)
  | accessPolicy (b : AccessPolicyBody) | hlkRole (b : HlkRoleBody) | hlkLink (b : HlkLinkBody)
  | timeDist (interval : Nat) | telemetryAgg (b : TelemetryAggBody)
deriving DecidableEq, Repr

/-- The staged set (R24, R54, R57). `sealed`: the timed commit's time (SECONDS, NANOSECONDS, FRACTION). -/
structure Staged where
  edits  : List Edit := []
  count  : Nat := 0
  digest : Digest := 0
  bytes  : Nat := 0
  sealed : Option Time96 := none
deriving DecidableEq, Repr

/-- A firmware activation in progress (R392). -/
structure Activation where
  since      : Nat
  restarting : Bool := false
  ctx        : Option ReplyCtx := none
deriving DecidableEq, Repr

/-- A command forwarded to a worker (R42). -/
structure Forwarded where
  ctx    : ReplyCtx
  target : Nat
  due    : Nat
deriving DecidableEq, Repr

structure Cpx where
  bootTag        : BitVec 32 := 0               -- R35; 0 in BOOT (Table 20-4)
  epoch          : Nat := 0                     -- 16 bits (R24)
  fwVersion      : BitVec 32 := 0               -- R390; 0 until LOCKED (Table 20-4)
  fwDigest       : Digest := 0                  -- R390
  fwKeyIndex     : Nat := 0                     -- R393
  sessions       : Tab Session := []            -- n to session 0x8000 + n (R51)
  keySeq         : Tab Nat := []                -- highest sequence per key slot (R47)
  queue          : List Waiting := []           -- R43
  round          : List Nat := []               -- who has been served in this round of the round robin (R43)
  unauth         : Tab (Nat × Nat) := []        -- per port: second, answers given in it (R45)
  attests        : Nat × Nat := (0, 0)          -- second, attestations given in it (Table 2-9)
  staged         : Staged := {}                 -- R54
  lastEffect     : Time96 := {}                 -- LAST_EFFECT_TIME (Table 2-9)
  lastEffectCcyc : Option Nat := none           -- R26
  staging        : List Host.Cell := []         -- firmware staging area, 2 MiB (R392)
  activation     : Option Activation := none    -- R392
  restart        : Option Nat := none           -- lockstep restart begun at (Table 18-6)
  lastLockstep   : Option Nat := none           -- Table 18-6
  forwarded      : List Forwarded := []         -- R42
deriving DecidableEq, Repr

/-- A key slot (R387, R425). `secret`: its 48-byte session secret. -/
structure KeySlot where
  manager  : Bool
  ecdsaPub : BitVec 776
  mldsaPub : BitVec 20736
  secret   : Digest
deriving DecidableEq, Repr

/-- A key accepted under a delegation certificate (R425, R426). -/
structure Delegated where
  slot   : KeySlot
  mask   : BitVec 16
  target : BitVec 64
  expiry : Nat
  issuer : Nat
  expiryCcyc : Option Nat := none        -- expiry counted from acceptance while SYNC is UNSET (R425)
deriving DecidableEq, Repr

/-- A change of the key store, made once its write is answered (R386). -/
inductive StoreChange where
  | install (keyId : Nat) (slot : KeySlot) | revoke (keyId : Nat) | clear
deriving DecidableEq, Repr

structure StoreOp where
  change : StoreChange
  ctx    : Option ReplyCtx
deriving DecidableEq, Repr

structure Hood where
  pufOk     : Bool := false              -- R391
  slots     : Tab KeySlot := []          -- 0x0002 to 0x00FF (R385)
  delegated : Tab Delegated := []        -- 0x0100 to 0x013F (R425)
  certs     : List Certificate := []     -- certificates a manager holds (R426)
  storeSeq  : Nat := 0                   -- STORE_SEQ of the copy loaded or written last (R386)
  storeB    : Bool := false              -- that copy is the second one (R386)
  store     : List StoreOp := []         -- store writes not yet answered, oldest first (R386)
deriving DecidableEq, Repr

/-! ## Committed configuration: the objects of the staged commands; an object not listed was never written -/

/-- A gate control list as committed (R193). -/
structure GateList where
  base    : Nat
  cycle   : Nat
  entries : List GateEntry
deriving DecidableEq, Repr

structure Cfg where
  port      : Tab PortSetBody := []
  addr      : Tab Mac := []
  vlan      : Tab PortVlanBody := []
  lane      : Tab (BitVec 16) := []
  transport : Tab TransportBody := []
  secy      : Tab SecyBody := []
  sc        : Tab ScSetBody := []         -- PG × 512 + DIRECTION × 256 + SC_INDEX
  cls       : Tab ClassEntry := []        -- PG × 64 + ENTRY
  sender    : Tab SenderIdBody := []      -- PG × 64 + ENTRY
  policer   : Tab PolicerBody := []
  leaf      : Tab LeafBody := []
  node      : Tab NodeBody := []
  sched     : Tab PortSchedBody := []
  overhead  : Tab Int := []
  hostLeaf  : Tab HostLeafBody := []      -- by SOURCE × 1024 + PORT
  gate      : Tab GateList := []
  preempt   : Tab PreemptBody := []
  pause     : Tab PauseBody := []
  pps       : Option PpsBody := none
  cal       : Tab TsuCalBody := []
  ring      : Tab RingConfigBody := []    -- RING_TYPE × 256 + RING
  steer     : Tab RxSteerBody := []       -- PORT × 16 + MATCH_INDEX
  irqSource : Tab IrqSourceBody := []
  irqTarget : Tab IrqTargetBody := []
  batt      : Option BattBody := none
  window    : Tab WindowBody := []
  sample    : Option SampleBody := none
  qsample   : Option QueueSampleBody := none
  evMode    : Tab Nat := []
  smc       : Option SmcSetBody := none
  frc       : Tab FrcRegionBody := []
  xdma      : Tab XdmaChannelBody := []
  power     : Tab Nat := []
  wake      : Tab (BitVec 8) := []
  policy    : Tab (BitVec 32) := []
  role      : Option HlkRoleBody := none
  hlkPort   : Tab Nat := []
  timeDist  : Option Nat := none
  agg       : Option TelemetryAggBody := none
deriving DecidableEq, Repr

/-! ## Errors and access policy (18, 17) -/

/-- An error record (Table 18-3). All zeros: none. -/
structure ErrRec where
  unit     : Nat := 0
  sev      : Nat := 0
  cls      : Nat := 0
  injected : Bool := false
  code     : Nat := 0
  inst     : Nat := 0
  epoch    : Nat := 0
  time     : Nat := 0
  ccyc     : Nat := 0                    -- ccyc since BOOT; the record shows its low 32 bits
  detail0  : Nat := 0
  detail1  : Nat := 0
  seq      : Nat := 0
deriving DecidableEq, Repr

/-- Per-unit error state (R409, R414). -/
structure ErrUnit where
  first      : Option ErrRec := none     -- UNACKED exactly while it is held
  latest     : ErrRec := {}
  count      : Nat := 0                  -- 32 bits, saturating
  acked      : Nat := 0
  nested     : Bool := false
  escalated  : Bool := false
  saturated  : Bool := false
  bucket     : Nat := 64000000           -- log bucket in units of 10^-6 entry (R414)
  bucketTick : Nat := 0
  suppressed : Nat := 0
deriving DecidableEq, Repr

structure Err where
  units   : Tab ErrUnit := []
  fresh   : List (Nat × ErrRec) := []    -- errors of this ccyc with their generation, as recorded; numbered as it ends (R408)
  was     : Tab ErrUnit := []            -- the units' state before this ccyc's first error
  nextSeq : Nat := 0                     -- NEXT_ERR_SEQ
  writes  : List (Nat × Nat) := []       -- ccyc and address of log writes not yet answered (R414)
deriving DecidableEq, Repr

/-- Violations and freezes of one access ID (R399, R400). -/
structure AccSt where
  times   : List Nat := []               -- ccyc of ordinary violations since the last unfreeze, newest first
  freezes : Nat := 0
  frozen  : Bool := false
deriving DecidableEq, Repr

/-! ## Interrupts (11) -/

/-- One host target, or CPX as 0x20 (R268). -/
structure TgtSt where
  stack     : List (Nat × Nat) := []           -- (source, priority), top first (R274)
  presented : Option (Nat × Nat) := none       -- (source, ccyc of its latch)
  withdrawn : Option Nat := none               -- last source withdrawn by a falling level since the last claim (R276)
  vanish    : Nat := 0                         -- VANISH_COUNT, 32 bits
  state     : BitVec 2 := 0                    -- TGT_STATE
  wakeReq   : Bool := false                    -- WAKE_REQ
  irqOut    : Bool := false                    -- IRQ_OUT (R270)
deriving DecidableEq, Repr

structure Jic where
  levels    : Tab (List (Nat × Bool)) := []    -- level changes (ccyc, level), newest first (R270); log 13
  enable    : Tab Bool := []
  soft      : Tab Bool := []                   -- SOFT bits (R273)
  kept      : Tab Bool := []                   -- sources whose presentation R279 keeps although disabled
  stay      : Tab Nat := []                    -- target of a ROUTE_LP source since its presentation (R275)
  raised    : Tab Nat := []                    -- ccyc of an event source's last occurrence (R266)
  modDue    : Tab Nat := []                    -- ccyc before which moderation holds the source (R281)
  targets   : Tab TgtSt := []
  fault     : Option (Nat × Nat × Nat) := none -- target, written source, top of stack held for CPX (R278)
deriving DecidableEq, Repr

/-! ## Telemetry (12) -/

/-- A sample record (Table 12-5) with what decides its END. -/
structure Sample where
  fields : Fields
deriving DecidableEq, Repr

/-- A batt being taken and written (R295, R298): its t0, where it goes, the header's bytes before GATED_MASK and from SAMPLE_COUNT on, the
next section to read, those read, what follows them, the totals they carry and the counts that its header clears. -/
structure BattRun where
  t0       : Nat
  accessId : Nat
  addr     : Nat
  mask     : BitVec 32
  head     : List Byte
  counts   : List Byte
  tail     : List Byte
  next     : Nat := 0
  body     : List Byte := []
  gated    : Nat := 0
  fenced   : Nat := 0
  totals   : Tab Nat := []
  missed   : Nat
  failed   : Nat
  lost     : Nat
deriving DecidableEq, Repr

/-- A sweep in progress (R188, R302): epoch, ccyc and time of its start, its leaves, the entries read, and the first entry read under
a new epoch. -/
structure SweepRun where
  epoch   : Nat
  ccyc    : Nat
  time    : Nat
  base    : Nat
  count   : Nat
  next    : Nat := 0
  taken   : List Byte := []
  changed : Option Nat := none
deriving DecidableEq, Repr

structure Tel where
  ctr        : Tab Nat := []                   -- running totals (R289): code × 2^40 + index × 2^8 + word
  ctrWas     : Tab Nat := []                   -- the totals as this ccyc found them (Table 0-4)
  winBase    : Tab Nat := []                   -- totals at a window's last read: window × 2^48 + counter key (R289, R290)
  winLatch   : Tab (List Nat) := []            -- slot latches: window × 2^16 + port (R293)
  battBase   : Tab Nat := []                   -- totals at the last batt that carried them (R289, R290)
  battSeq    : Nat := 0                        -- BATT_SEQ (R296)
  battSlot   : Nat := 0
  battT0     : Option Nat := none              -- ccyc of the previous batt's t0
  battMissed : Nat := 0
  battFailed : Nat := 0
  battLost   : Nat := 0                        -- SAMPLES_LOST total at the previous batt
  battBusy   : Option BattRun := none          -- the batt being written (R298)
  battHold   : Bool := false                   -- a trigger waits for a timed commit (R295)
  battNext   : Nat := 0                        -- tick before which no trigger is due
  lfsr       : Tab (BitVec 31) := []           -- R300
  samples    : List Sample := []               -- sample buffer, oldest first (R301)
  sweepSeq   : Nat := 0
  sweep      : List Byte := []                 -- latest completed sweep block (R302)
  sweepRun   : Option SweepRun := none         -- the sweep in progress (R188)
  sweepNext  : Nat := 0                        -- tick before which no sweep is due
  evPrev     : List (Nat × Nat) := []          -- conditions that held in the previous ccyc (R291)
  evUp       : List Nat := []                  -- port groups whose instances counted in it
deriving DecidableEq, Repr

/-! ## Side memory, recorder, XDMA (13, 14) -/

/-- RANK_STATE (Table 13-6). -/
inductive RankSt where
  | absent | inService | spare | migratingFrom | migratingTo | retired | excluded
deriving DecidableEq, Repr

/-- CHANNEL_STATE (Table 13-6). -/
inductive ChanSt where
  | absent | init | inService | training | migrating | outOfService
deriving DecidableEq, Repr

structure RankInfo where
  state       : RankSt := .absent
  ce          : Nat := 0                       -- CE_COUNT
  ue          : Nat := 0                       -- UE_COUNT
  ueRows      : List (Nat × Nat) := []         -- rows that returned uncorrectable, with the ccyc (R324)
  ceTimes     : Nat × Nat := (0, 0)            -- second, corrected errors in it (R324)
  owed        : Nat := 0                       -- refresh intervals owed (R317)
  selfRefresh : Bool := false                  -- R321
  failing     : Bool := false                  -- found failing (R324)
  lastUse     : Nat := 0                       -- ccyc of its last request
  rows        : Tab (Nat × Nat × Nat) := []    -- row per bank, ccyc of its activation, ccyc of its closing (R313)
  used        : Bool := false                  -- a request came since the last interval (R316)
  ahead       : Nat := 0                       -- refresh intervals pulled in (R316)
  acts        : Tab Nat := []                  -- activations per bank × 4 + requester since the last refresh (R320)
  raa         : Tab Nat := []                  -- RAA count per bank (R319)
  hits        : Tab Nat := []                  -- RAAIMT crossings per bank within the interval (R320)
deriving DecidableEq, Repr

structure ChanInfo where
  state     : ChanSt := .absent
  mr4       : Nat := 0                         -- REFRESH_RATE
  owedMax   : Nat := 0
  refForced : Nat := 0
  rfm       : Nat := 0
  hammers   : Nat := 0                         -- 32 bits, saturating
  late      : Nat := 0                         -- 16 bits, saturating
  windowAt  : Nat := 0                         -- ccyc of the last retraining window (R322)
  phyLate   : Bool := false                    -- a PHY update longer than 2,000 ns waits (R322)
  failed    : Bool := false                    -- full retraining failed: out until the next BOOT (R323)
  migrated  : Nat := 0                         -- MIGRATE_DONE of the last migration that ended here
deriving DecidableEq, Repr

/-- A migration in progress (R325): logical rank, source and spare physical ranks (channel × 2 + rank). -/
structure Migration where
  logical : Nat
  src     : Nat
  dst     : Nat
deriving DecidableEq, Repr

structure Smc where
  present   : Bool := false                    -- R306
  filled    : Bool := false                    -- the zero-fill has ended (R306)
  lost      : Bool := false                    -- out of service under R326
  noSpare   : Bool := false                    -- DEGRADED_REASON bit [8]
  rankSize  : Nat := 0                         -- S, read from the mode registers (R306)
  dataRate  : Nat := 0
  table     : List Nat := []                   -- RANK_TABLE: channel × 2 + rank (R308)
  ranks     : Tab RankInfo := []
  chans     : Tab ChanInfo := []
  mem       : List Host.Cell := []             -- bytes by side-memory address; an unlisted byte is 0 (R306)
  poison    : List Nat := []                   -- granules written with the poison pattern (R310, R325)
  migration : Option Migration := none
  throttle  : Tab Nat := []                    -- (requester × 2^16 + rank × 2^8 + bank) to the end ccyc (R320)
  retrain   : List Nat := []                   -- channels still to retrain after a DATA_RATE change (R328)
deriving DecidableEq, Repr

/-- Region state (Table 14-8). -/
inductive RegSt where
  | unconfigured | stopped | recording | full | error
deriving DecidableEq, Repr

structure Region where
  state       : RegSt := .unconfigured
  writePtr    : Nat := 0
  wraps       : Nat := 0
  nextSeq     : Nat := 0                       -- REC_SEQ of the next record
  written     : Nat := 0
  lost        : Nat := 0
  overwritten : Nat := 0
  granule     : List Byte := []                -- partly filled granule
  granuleAt   : Nat := 0                       -- ccyc of its first record
  inFlight    : List (Nat × List Byte) := []   -- granule writes not yet answered, oldest first, with the ccyc of issue
  gap         : Nat := 0                       -- records lost since the previous GAP
  stopping    : Option ReplyCtx := none        -- a stop waiting for its write
deriving DecidableEq, Repr

/-- A port group's record budget (R342), in units of 10^-8 record. -/
structure Budget where
  tokens     : Nat := 0
  tick       : Nat := 0
  suppRefuse : Nat := 0
  suppAccept : Nat := 0
deriving DecidableEq, Repr

structure Frc where
  ready      : List Rec := []                  -- records that became ready in this ccyc (R341)
  regions    : Tab Region := []
  budgets    : Tab Budget := []
  bucket     : Int := 0                        -- rate bucket in 10^-8 byte (R343)
  bucketTick : Nat := 0
  peak       : Nat := 0                        -- peak of STAGING (R346)
  unwritten  : Nat := 0                        -- RECORDS_UNWRITTEN
  skipped    : Nat := 0                        -- SWEEPS_SKIPPED
  sweep      : Option (List Byte × List Byte × Nat) := none -- sweep being taken: its header, entries left, next index (R336)
deriving DecidableEq, Repr

/-- CHANNEL_STATE of an XDMA channel (R355). -/
inductive XSt where
  | unconfigured | idle | running | stopping | error | frozen
deriving DecidableEq, Repr

/-- A descriptor begun: its address, its status and FAIL_OFFSET once it has ended (Table 14-9), and whether the error
response that ends it has been recorded (R351). -/
structure XRun where
  addr  : Nat
  desc  : XDesc
  done  : Option (Nat × Nat) := none
  noted : Bool := false
  sent  : Nat := 0                             -- bytes of its copy written (R350)
  owed  : Nat := 0                             -- writes of it not yet answered
  ecc   : Option Nat := none                   -- offset at which a source read is uncorrectable (R351)
  injected : Bool := false                     -- the pouncer made it so (16 R379)
  fixed : List Nat := []                       -- addresses at which the pouncer had a read corrected
deriving DecidableEq, Repr

structure XChan where
  state   : XSt := .unconfigured
  cause   : Nat := 0
  cur     : Nat := 0
  latched : Nat := 0
  done    : Nat := 0
  bad     : Nat := 0
  moved   : Nat := 0
  begun   : List XRun := []                    -- descriptors begun, in chain order
  stop    : Option ReplyCtx := none
  bucket  : Nat := 0                           -- write tokens in quarter bytes (R352)
  served  : Nat := 0                           -- place of its last write among all (R352)
  stopOf  : Bool := false                      -- stopping because side memory went out of service
deriving DecidableEq, Repr

/-! ## Port groups' power (15) -/

/-- GROUP_STATE (Table 15-1). -/
inductive GrpSt where
  | absent | gated | waking | powered | gating | fenced
deriving DecidableEq, Repr

structure Group where
  state    : GrpSt := .gated
  armed    : Bool := false                     -- wake latch armed (R360)
  latch    : Bool := false                     -- wake latch set (R283)
  cause    : Bool := false                     -- a wake cause is held (R361)
  since    : Nat := 0                          -- ccyc at which the present state began
  lastUp   : Nat := 0                          -- ccyc at which a port of the group was last UP (R362)
  probeEnd : Option Nat := none                -- end of the probe's hold (R362)
  gateNext : Bool := false                     -- gate as soon as the wake completes (Table 15-6)
deriving DecidableEq, Repr

/-! ## Lanes, ports, transmit and gates (03, 06, 08) -/

structure Lane where
  raw        : Bool := false                   -- LANE_SIGNAL_DETECT as last seen
  sd         : Bool := false                   -- the filtered level (R63)
  rxLock     : Bool := false
  txReady    : Bool := false
  clockFault : Bool := false                   -- R64
  ltRxReady  : Bool := false
  ltStatus   : BitVec 2 := 0                   -- LT_TX_STATUS
  partnerReq : BitVec 16 := 0                  -- LT_PARTNER_REQ
  txUpdate   : BitVec 16 := 0                  -- LT_TX_UPDATE last driven (R73)
  lockSd     : Bool := false                   -- LANE_RX_LOCK after the glitch filter (Table 3-5, IGNORE_SD)
  skew       : Nat := 0                        -- measured skew, 2^-64 ns (R77, R224)
  dropUntil  : Option Nat := none              -- lane held unlocked by the pouncer (16 R379)
deriving DecidableEq, Repr

/-- What a lane's transmit data carry (R66, R72, R73, R76): nothing, a base page, a training frame (the update asked of the partner,
the status of the partner's, and whether the receiver has finished), remote fault ordered sets, idle, or frames. -/
inductive Stream where
  | off
  | page (p : AnPage)
  | training (request : BitVec 16) (status : BitVec 2) (done : Bool)
  | remoteFault
  | idle
  | frames
deriving DecidableEq, Repr

/-- What LIF drives on a lane (Table 3-2). -/
structure LifPins where
  enable  : Bool               -- LANE_TX_ENABLE
  rate    : Nat                -- LANE_RATE_CLASS
  rs544   : Bool               -- LANE_RS544
  logical : Nat                -- the port's logical lane that it carries (R71)
  stream  : Stream
  invert  : Bool               -- TX_INVERT
  update  : BitVec 16          -- LT_TX_UPDATE
deriving DecidableEq, Repr

/-- Link states (Table 3-6); FENCED and GATED are read from the port's group. -/
inductive LinkSt where
  | disabled | noSignal | an | training | aligning | up | localFault | remoteFault | anIncompatible
deriving DecidableEq, Repr

/-- Verification of preemption (R199). -/
inductive Verify where
  | off | running (attempt : Nat) | passed | failed
deriving DecidableEq, Repr

/-- Who a transmit frame came from (R146). -/
inductive TxSource where
  | core | ring (n : Nat) | cpx | hlk
deriving DecidableEq, Repr

/-- How FAE protects a transmit frame (R154): SAK, whether it has 256 bits, IV, and from which octet of the data on it
encrypts (none: integrity only). -/
structure TxCrypt where
  sak    : BitVec 256
  long   : Bool
  iv     : BitVec 96
  offset : Option Nat
deriving DecidableEq, Repr

/-- A frame that TXM holds, with the settings of its grant's epoch (R146). -/
structure TxFrame where
  source    : TxSource
  grantId   : Nat
  leaf      : Nat
  tc        : Nat
  len       : Nat                              -- TX_CPI_LEN
  wire      : Nat                              -- W of R156
  inserted  : Bool := false
  sa        : Option Nat := none               -- transmit SA bound (its table key)
  encrypted : Bool := false                    -- the SecY encrypts
  epoch     : Nat := 0
  preempt   : Bool := false                    -- queue chosen by R161
  tsReq     : Nat := 0
  tsOffset  : Nat := 0
  tsId      : Nat := 0
  tsBad     : Bool := false                    -- its timestamp field fails Table 6-3: sent without a timestamp
  sampled   : Bool := false
  samplePg  : Nat := 0
  sampleTag : Nat := 0
  arrived   : Nat := 0
  action    : Option Nat := none               -- EOF_ACTION once its end word has come
  discard   : Bool := false                    -- remaining slices are discarded to the EOF
  dropAs    : Option Nat := none               -- counter key of the cause that ended it (R167)
  first     : Nat := 0                         -- ccyc of its first slice
  grantAt   : Nat := 0                         -- CCYC of its grant
  started   : Option Nat := none               -- ccyc of its first preamble byte
  stamp     : Nat := 0                         -- T_TX
  fragments : Nat := 0                         -- continuation fragments sent
  sent      : Nat := 0                         -- frame bytes of fragments already ended
  fragAt    : Nat := 0                         -- ccyc at which the fragment on the line began
  held      : Bool := false                    -- counted in GATE_HOLDS
  desc      : Option Descriptor := none        -- the last descriptor of a ring's frame
  hostId    : Nat := 0                         -- number HPE gave that frame
  opened    : Bool := false                    -- slices of it are still to come
  bytes     : List Byte := []                  -- its bytes as they have arrived (R148)
  tag       : List Byte := []                  -- the inserted tag (R152)
  secTag    : List Byte := []                  -- SecTAG (R154)
  crypt     : Option TxCrypt := none
  smd       : Nat := 0                         -- frame count of its SMD-S (R166)
  skipped   : Bool := false                    -- checksum offload asked and not done (R153)
  tsValid   : Bool := false                    -- a capture was made (R253)
  cal       : Int := 0                         -- TX_CAL of its epoch (R225)
  node      : Nat := 0                         -- node of its grant's path
  head      : Nat := 0                         -- bytes TXM puts ahead of the core's: an inserted tag and a SecTAG
  extra     : Nat := 0                         -- line bytes other than its own of fragments already ended
  merged    : Bool := false                    -- started on the preemptable MAC (R166)
  place     : Nat := 0                         -- its place among the frames of its grant
  tci       : Option (BitVec 16) := none       -- PCP, DEI and VID of TAG_OVERRIDE (R152)
deriving DecidableEq, Repr

/-- Bytes of a frame that have arrived. -/
def TxFrame.got (f : TxFrame) : Nat := f.bytes.length

structure Port where
  link         : LinkSt := .disabled
  since        : Nat := 0                      -- ccyc at which that state began
  faultAt      : Option Nat := none            -- start of the local fault that LINK_DOWN_HOLD hides (R75)
  remote       : Bool := false                 -- remote fault ordered sets are being received
  partnerPause : BitVec 2 := 0                 -- R72
  page         : AnPage := {}                  -- base page of the negotiation begun last (R72, R80)
  order        : List Nat := []                -- physical lane, from PORT on, of each logical receive lane (R71)
  monitor      : Nat := 0                      -- the FEC high-error monitor (R78)
  highErr      : Bool := false                 -- the FEC high-error indication (R78)
  looped       : List (MPacket × List Byte) := []  -- frames looped to the receive PCS and not yet received (Table 3-4)
  retrain      : Bool := false                 -- LINK_RETRAIN in progress (R81)
  verify       : Verify := .off
  verifyAt     : Nat := 0
  pause        : Tab (List (Nat × Nat)) := []  -- per priority: (first ccyc it stops, ccyc its timer expires) (R204)
  xoff         : BitVec 8 := 0                 -- R206
  xoffAt       : Nat := 0                      -- ccyc of the last generated pause frame or change (R207)
  express      : List TxFrame := []            -- R160, oldest first
  preempts     : List TxFrame := []
  line         : Option TxFrame := none        -- frame on the line
  broken       : Option TxFrame := none        -- preempted frame awaiting continuation
  deficit      : Nat := 0                      -- D of R162
  lineFree     : Nat := 0                      -- ccyc before which the line is not at a frame boundary
  slotFrac     : Nat := 0                      -- fraction of a line byte not yet in SLOT_TOTAL, in 1/1024 byte
  overhead     : Nat := 0                      -- line bytes already classed, in 1/1024 byte
  macDue       : List (List Byte) := []        -- PAUSE_SEND frames waiting for a boundary (Table 6-5)
  told         : BitVec 8 := 0                 -- XOFF state that the last generated frame carried (R207)
  genDue       : Nat := 0                      -- a generated pause frame is due: 1 a change, 2 a refresh (R207)
  verifyDue    : Bool := false                 -- a verify mPacket waits (Table 6-5)
  respondDue   : Bool := false                 -- a respond mPacket waits
  opening      : Option TxFrame := none        -- frame on CPI discarded to its EOF (R151)
  nextSource   : Nat := 0                      -- round robin over a service port's sources (R147)
  smdNext      : Nat := 0                      -- frame count of the next preemptable frame, modulo 4 (R166)
  saDrops      : Nat := 0                      -- TX_SA_EXHAUSTED_DROPS of the port (R167, log 26)
deriving DecidableEq, Repr

/-- Gates of a port (R195, R196). -/
structure GateSt where
  running : Option GateList := none
  anchor  : Nat := 0
  cycleAt : Nat := 0                           -- time of the running list's next cycle start not yet counted
  pending : Option GateList := none
  swapAt  : Nat := 0                           -- S, or the anchor A of a first list
deriving DecidableEq, Repr

/-! ## Receive, MACsec, policers (04, 05, 08) -/

/-- SA_STATE (Table 5-5). An SA not listed is EMPTY. -/
inductive SaSt where
  | empty | installed | active | retiring | exhausted
deriving DecidableEq, Repr

/-- An SA entry (Table 5-4) with its place in the key array (R121). -/
structure Sa where
  nextPn  : Nat := 0
  ssci    : Nat := 0
  state   : SaSt := .empty
  exhaust : Bool := false
  key256  : Bool := false
  xpn     : Bool := false
  bound   : Nat := 0
  sak     : BitVec 256 := 0
  hkey    : BitVec 128 := 0                    -- GHASH subkey
  salt    : BitVec 96 := 0
deriving DecidableEq, Repr

/-- A policer context (R211): signed tokens in 1/800,000 byte. -/
structure PolSt where
  tok  : Int := 0
  last : Nat := 0
  owed : List (Nat × Nat) := []                -- what is still to be taken of frames passed before their end: ccyc, bytes
  dead : Bool := false                         -- uncorrectable storage (Table 18-6)
deriving DecidableEq, Repr

/-- Where a received frame goes (Table 4-5). -/
inductive Dest where
  | zelgenEth | zelgenUdp | hlk | ring (n : Nat) | core | nowhere
deriving DecidableEq, Repr

/-- A received frame past its checks, with what its delivery needs (Tables 4-7, 4-8, 4-10). -/
structure RxInfo where
  port     : Nat
  epoch    : Nat
  dest     : Dest
  bytes    : List Byte                         -- bytes sent: tags stripped, FCS excluded
  frameLen : Nat
  stamp    : Nat                               -- T_RX
  sfdCcyc  : Nat
  preempt  : Bool
  held     : Bool
  flags    : Nat := 0                          -- FCS, SYMBOL, OVERSIZE, TRUNCATED, FRAGMENT, FAULT from bit 0 up
  abort    : Bool := false                     -- the error is found after the first segment has left (R88)
  smeta    : Fields := []                      -- start metadata after FRAME_TAG, as (bits, value)
  cli      : Fields := []                      -- CLI record after EPOCH, as (bits, value)
  sample   : Option Fields := none             -- sample record with END, FRAME_TAG and WHAT still to be set
  charged  : List PolicerBody := []            -- policer contexts (R209), as its epoch has them
  speed    : Nat := 0                          -- speed of its port
  errAt    : Nat := 0                          -- ccyc in which its error is found (R88)
  path     : NetPath := {}                     -- where a reply to it goes (R41)
  accept   : Option Rec := none                -- ACCEPT record of its class (R142)
  refuse   : Option Rec := none                -- REFUSAL record of ZELGEN_VERIFY_FAIL or ICV_FAIL
  cls      : Option Nat := none                -- PG × 64 + entry
  toCpx    : Bool := false                     -- given TO_CPX (R137)
  stripped : List Nat := []                    -- TCIs of the tags removed, outer first
  csum     : Nat := 0                          -- CPL_FLAGS [7:3] (R258)
deriving DecidableEq, Repr

/-- A frame waiting in RXM: held for verification, or behind a held one (R99, R100). -/
structure HeldFrame where
  info    : RxInfo
  need    : Nat                                -- bytes to be stored in buffers; 0 for a follower
  buffers : List (Nat × Nat) := []             -- pool, handle
  asking  : Bool := false                      -- a request is outstanding for it
  icvOk   : Bool := true                       -- its ICV verifies
  due     : Nat := 0                           -- ccyc in which its ICV compare completes; a follower's first of leaving
  decided : Nat := 0                           -- ccyc of the carder's decision (R101)
  needAt  : Option Nat := none                 -- ccyc since which it needs a buffer and has not asked (R101)
  pool    : Nat := 0                           -- place on the ladder that it asks next
  staged  : Nat := 0                           -- its bytes in the group's staging (R105)
  settled : Bool := false                      -- its ICV has verified (R128)
  sa      : Option Nat := none                 -- SA it is bound to
  pn      : Nat := 0                           -- its recovered PN (R128)
  secure  : Nat := 0                           -- octets of its secure data
  crypted : Bool := false                      -- they were encrypted
deriving DecidableEq, Repr

/-- An outstanding BPI request (R101): ccyc of issue, place on the ladder, port and id of the frame. -/
structure BpiReq where
  at_   : Nat
  pool  : Nat
  port  : Nat
  frame : Nat
deriving DecidableEq, Repr

/-- A frame bound for CPI (R106, R107): the ccyc in which its first slice may leave, whether all its bytes are there, the slices sent
and its FRAME_TAG once it has begun. -/
structure BusFrame where
  info  : RxInfo
  ready : Nat
  whole : Bool
  sent  : Nat := 0
  tag   : Nat := 0
  buffers : List (Nat × Nat) := []             -- of a frame that was held, returned after its last slice (R105)
deriving DecidableEq, Repr

/-- Receive state of a port group. -/
structure RxGroup where
  tag      : Nat := 0                          -- FRAME_TAG of the next frame, 16 bits (R110)
  requests : List BpiReq := []                 -- oldest first, at most 16 (R101)
  timedOut : List BpiReq := []                 -- requests timed out and not yet answered (R104)
  frames   : List (Nat × HeldFrame) := []      -- by id, in SFD order
  bus      : List (Nat × BusFrame) := []       -- by id, in SFD order: frames on CPI or next to start there
  asked    : Option Nat := none                -- ccyc of the last request (R101)
  returns  : List (Nat × Nat × Nat) := []      -- handles to return: ccyc, place on the ladder, handle (R105)
  nextId   : Nat := 0
deriving DecidableEq, Repr

/-- A CLI record waiting for its rule version (R112). -/
structure CliWait where
  pg     : Nat
  tag    : Nat
  at_    : Nat
  sample : Option Fields := none               -- its sample record, WHAT still to be set
  accept : Option Rec := none                  -- its ACCEPT record
deriving DecidableEq, Repr

/-- A pool of the ladder as presented at BOOT (R101, Table 20-1). -/
structure Pool where
  number : Nat
  size   : Nat
  base   : Nat
  count  : Nat
deriving DecidableEq, Repr

structure Rx where
  ladder : List Pool := []                     -- smallest buffers first (R101)
  groups : Tab RxGroup := []
  cli    : List CliWait := []
deriving DecidableEq, Repr

/-! ## Scheduling (07) -/

/-- Where the crown wheel holds a shaper's entry (R185). -/
inductive Place where
  | none | fine (slot parity : Nat) | coarse (slot : Nat) | overflow
deriving DecidableEq, Repr

/-- A shaper (R183): signed tokens in 1/800,000 byte, and its wheel entry. -/
structure Shaper where
  tok      : Int := 0
  last     : Nat := 0
  eligible : Bool := true
  due      : Nat := 0
  place    : Place := .none
  since    : Nat := 0                          -- first ccyc in which it counts as eligible (R183)
deriving DecidableEq, Repr

/-- An object of the tree (R172): its tag T and, as a parent, its V. `ready`: eligible when last looked at (R174). -/
structure Sched where
  tag    : Nat := 0
  v      : Nat := 0
  ready  : Bool := false
  dead   : Bool := false                       -- uncorrectable state: ineligible until a commit writes it (Table 18-6)
  shaper : Shaper := {}
deriving DecidableEq, Repr

/-- What a leaf's status word or host source says of it (R177). -/
structure LeafWord where
  backlogged : Bool := false
  headLen    : Nat := 0
  backlog    : Nat := 0
  headEnq    : Nat := 0
deriving DecidableEq, Repr

/-- A frame that arrived under a grant: its charge (R175), TX_CPI_LEN, and whether TXM dropped it before a line byte. -/
structure GrantFrame where
  charge  : Int
  cpiLen  : Nat
  dropped : Bool := false
deriving DecidableEq, Repr

/-- An outstanding grant (R173, R176), with the configuration of its epoch (R27). -/
structure Grant where
  id       : Nat
  leaf     : Nat
  node     : Nat
  cls      : Nat
  port     : Nat
  maxBytes : Nat
  est      : Int
  overhead : Int
  wLeaf    : Nat
  wNode    : Nat
  wClass   : Option Nat                        -- none: a strict class is not charged
  wPort    : Nat
  at_      : Nat                               -- ccyc of its grant word
  epoch    : Nat
  cfg      : Cfg
  host     : Bool := false                     -- pulled from a host source (R181)
  begun    : Bool := false                     -- its first slice has come
  released : Option Nat := none                -- RELEASED of its GRANT_DONE
  frames   : List GrantFrame := []
deriving DecidableEq, Repr

/-- A port group's engine. -/
structure Engine where
  v      : Nat := 0
  nextId : Nat := 0
  grants : List Grant := []
  holdTo : Nat := 0                            -- pouncer GRANT_DELAY (Table 16-4)
  late   : List Nat := []                      -- GRANT_IDs whose credit R151 took back
  decided : Option Nat := none                 -- ccyc of its last decision (R171)
  freed  : Nat × Nat := (0, 0)                 -- ccyc, and shapers that the wheel released in it (R186)
  lateAt : Option Nat := none                  -- ccyc of its last late release (Table 12-2)
deriving DecidableEq, Repr

/-- A whole frame that a host ring, CPX or HLK has ready to send (R181, R252). -/
structure HostFrame where
  id        : Nat
  len       : Nat
  enq       : Nat                              -- ccyc at which it became ready
  bytes     : List Byte := []
  desc      : Option Descriptor := none
deriving DecidableEq, Repr

structure Esh where
  leaves  : Tab Sched := []
  nodes   : Tab Sched := []
  classes : Tab Sched := []                    -- PORT × 16 + class
  ports   : Tab Sched := []
  used    : Tab Nat := []                      -- granted or buffered bytes of a port (R158, R176)
  words   : Tab (List (Nat × LeafWord)) := []  -- status words by effective ccyc, newest first (R171)
  engines : Tab Engine := []
  host    : Tab (List HostFrame) := []         -- by SOURCE × 1024 + PORT, oldest first
  turn    : Tab Nat := []                      -- last SOURCE served per leaf (R181)
deriving DecidableEq, Repr

/-! ## Host rings (10) -/

/-- A completion less its cookie and mark (Table 10-8). -/
structure Cpl where
  length  : Nat := 0
  status  : Nat := 0
  tagInfo : Nat := 0
  portErr : Nat := 0
  flags   : Nat := 0
  stamp   : Option Nat := none
  epoch   : Nat := 0
  outer   : Nat := 0
  inner   : Nat := 0
deriving DecidableEq, Repr

/-- An entry taken into processing (R250). -/
structure RingEntry where
  desc  : Descriptor
  data  : List Byte := []                      -- its buffer's bytes, of a transmit descriptor (R252)
  frame : Nat := 0                             -- number of the frame it belongs to
  owed  : Bool := false                        -- a data write's response is outstanding
  bad   : Bool := false                        -- a data access failed (R262)
  fault : Bool := false                        -- the malformed descriptor of its frame (R246)
  wake  : Bool := false                        -- its completion is a wake event (R259)
  cpl   : Cpl := {}                            -- its completion once every data write is answered
  done  : Option Cpl := none
deriving DecidableEq, Repr

/-- A ring (R241, R249). RING_STATE is Table 10-9's value. -/
structure Ring where
  state   : Nat := 0
  p       : Nat := 0
  c       : Nat := 0
  w       : Nat := 0
  a       : Nat := 0
  latched : Nat := 0
  error   : Nat := 0
  cWas    : Nat := 0                           -- C before it advanced in ccyc cAt (Table 10-12)
  cAt     : Nat := 0
  next    : Nat := 0                           -- index of the next entry to take
  taken   : List RingEntry := []               -- entries taken and not completed, C first
  sop     : Bool := false                      -- a transmit frame is being gathered
  back    : List (Nat × Nat) := []             -- C and W before each completion write not yet answered, oldest first
  aborts  : Nat := 0
  stop    : Option ReplyCtx := none
  stallTo : Nat := 0                           -- pouncer RING_STALL (Table 16-4)
deriving DecidableEq, Repr

/-- A frame staged for a receive ring (R255). -/
structure RingFrame where
  ring  : Nat
  id    : Nat
  info  : RxInfo
  ready : Nat
deriving DecidableEq, Repr

structure Hpe where
  rings   : Tab Ring := []                     -- RING_TYPE × 256 + RING
  replies : Tab (List (Nat × Option Reply)) := []  -- by ring: replies in order, none until known (R48)
  staged  : List RingFrame := []
  nextId  : Nat := 0
deriving DecidableEq, Repr

/-! ## Debug (16) -/

inductive DbgLevel where
  | closed | observe | opened
deriving DecidableEq, Repr

/-- A running perturbation (R379). -/
structure Perturb where
  cls    : Nat
  target : Nat
  arg    : Nat
  rate   : Nat
  due    : Option Nat := none                  -- ccyc at which DURATION ends
deriving DecidableEq, Repr

/-- A freeze triggered and not ended (R373 to R375): f, and whether the FREEZE input triggered it. -/
structure Freeze where
  f       : Nat
  byInput : Bool
  time    : Nat                                -- time at f
  tokenAt : Option Nat := none
deriving DecidableEq, Repr

structure Dbg where
  level        : DbgLevel := .closed           -- R371
  expiry       : Nat := 0                      -- TOKEN_EXPIRY
  expiryCcyc   : Option Nat := none            -- expiry counted from loading while SYNC is UNSET (R396)
  mask         : BitVec 16 := 0                -- POUNCER_MASK
  freezePermit : Bool := false
  frozen       : Bool := false                 -- clocks stopped
  freeze       : Option Freeze := none
  input        : Bool := false                 -- the FREEZE input after its filter
  armed        : Nat := 0                      -- 0 none, 1 next error record, 2 next refusal (R373)
  await        : Option (Origin × Nat) := none -- the reply whose writing triggers a freeze (R373)
  q            : Nat := 0                      -- Q of the last freeze
  freezeCcyc   : Nat := 0                      -- FREEZE_CCYC
  discarded    : Nat := 0                      -- DISCARDED_RESPONSES, 8 bits saturating
  frozenFor    : Nat := 0                      -- frozen duration in ccyc (R375)
  pounce       : List Perturb := []            -- at most 16 (R379)
  chain        : BitVec 16 := 0                -- CHAIN_SELECT (Table 16-3)
  rotated      : Tab Nat := []                 -- bits by which a segment stands rotated, by CHAIN_SELECT (R377)
  bypass       : Bool := false                 -- the bypass register
deriving DecidableEq, Repr

/-! ## Hierarchy (19) -/

/-- A partner on HLK: a worker as its manager sees it, or a worker's manager (R422). -/
structure Partner where
  state    : Nat := 0                          -- WORKER_LIST STATE
  port     : Nat := 0
  mac      : Mac := 0
  lk       : Digest := 0
  mgrNonce : BitVec 256 := 0
  wkrNonce : BitVec 256 := 0
  txSeq    : Nat := 0                          -- LINK_SEQ last sent
  rxSeq    : Nat := 0                          -- LINK_SEQ last accepted
  seen     : Nat := 0                          -- ccyc of the last valid frame
  seenSec  : Nat := 0                          -- TSU second of it
  epoch    : Nat := 0
  mode     : Nat := 0
  t3       : Option (Nat × Nat) := none        -- N and time of the last TIME_RESP sent
  t3Frame  : Option (Nat × Nat) := none        -- N and frame number of the TIME_RESP not yet on the line
  page     : Option (Summary × Nat) := none    -- last SUMMARY and the second of its receipt (R429)
deriving DecidableEq, Repr

/-- Times a worker holds of an exchange (R427). -/
structure Exchange where
  n     : Nat
  frame : Nat                                  -- number of the TIME_REQ frame
  t1    : Option Nat := none
  t2    : Option Nat := none
  t4    : Option Nat := none
deriving DecidableEq, Repr

structure Hlk where
  workers  : Tab Partner := []                 -- by INSTANCE
  manager  : Option (Nat × Partner) := none    -- its INSTANCE, while joined
  nonce    : Option (BitVec 256) := none       -- WKR_NONCE of the last HELLO
  timeInt  : Nat := 0                          -- TIME_INTERVAL received, µs
  sumPer   : Nat := 0                          -- SUMMARY_PERIOD received, µs
  timeN    : Nat := 0                          -- N of the last TIME_REQ
  exchange : List Exchange := []               -- newest first, at most two
  theta    : Int := 0                          -- last θ, 2^-64 ns
  helloAt  : Nat := 0                          -- ccyc before which no HELLO is due
  beatAt   : Nat := 0
  reqAt    : Nat := 0
  sumAt    : Nat := 0
  rxAt     : Tab Nat := []                     -- T_RX of the last HLK frame received, by port (R224, R427)
deriving DecidableEq, Repr



/-! ## The block -/

/-- The state of Jumareth, with the queue of commands that wait, first in first out. -/
structure State where
  mode    : ModeSt := {}
  fuses   : Fuses := {}
  tsu     : Tsu := {}
  cpx     : Cpx := {}
  hood    : Hood := {}
  cfg     : Cfg := {}
  err     : Err := {}
  acc     : Tab AccSt := []
  jic     : Jic := {}
  tel     : Tel := {}
  smc     : Smc := {}
  frc     : Frc := {}
  xdma    : Tab XChan := []
  groups  : Tab Group := []
  lanes   : Tab Lane := []
  lif     : Tab LifPins := []                  -- what this ccyc drives on the lanes; a lane not listed is disabled
  ports   : Tab Port := []
  gates   : Tab GateSt := []
  esh     : Esh := {}
  hpe     : Hpe := {}
  dbg     : Dbg := {}
  hlk     : Hlk := {}
  rx      : Rx := {}
  sas     : Tab Sa := []                       -- DIRECTION × 32,768 + PG × 1,024 + SC_INDEX × 4 + AN
  pols    : Tab PolSt := []
  out     : List Output := []                  -- what the last step drove on the boundary (log 6)
  draws   : Nat := 0                           -- the model's own counter of free draws (log 15)
  pending : List Instr := []
deriving DecidableEq, Repr

/-- OFF (00, R365): nothing runs and nothing is retained but the fuses, which hold the values of
Table 17-2's Reset column. Log 5. -/
def State.reset : State := {}

end Sys2Proof.Machine
end

