-- ==== Sys2Proof/Machine/Flags.lean ====
section
/-! DEFINITION. Status computed from the state: presence and power of groups, side memory in service, the
DEGRADED_REASON bits (Table 2-6), the reported mode (R363), TIME_STATE and the lifecycle (Table 17-2). -/
namespace Sys2Proof.Machine

/-- Port group of a data port or data lane (R11, R12). -/
def groupOf (port : Nat) : Nat := port / 16

/-- Port group of a leaf, of a node and of a policer context (Table 7-1, R209). -/
def groupOfLeaf (leaf : Nat) : Nat := leaf / 8192
def groupOfNode (node : Nat) : Nat := node / 512
def groupOfContext (c : Nat) : Nat := if c < 4096 then c / 128 else (c - 4096) / 2048

/-- A service port or lane, 512 to 515 (R12). -/
def isService (port : Nat) : Bool := 512 ≤ port && port ≤ 515

/-- GROUP_STATE of a group (Table 15-1, R368). -/
def groupState (s : State) (g : Nat) : GrpSt :=
  if bit s.fuses.groupPresent g then (tgetD s.groups g {}).state else .absent

/-- GROUP_STATE's code (Table 15-1). -/
def grpCode : GrpSt → Nat
  | .absent => 0 | .gated => 1 | .waking => 2 | .powered => 3 | .gating => 4 | .fenced => 5

/-- Fenced or absent (R444 stage 2). -/
def fencedOrAbsent (s : State) (g : Nat) : Bool :=
  match groupState s g with
  | .absent | .fenced => true
  | _ => false

/-- The same of a port or lane; an absent service lane's port is treated alike (R368). -/
def portFenced (s : State) (p : Nat) : Bool :=
  if p < 512 then fencedOrAbsent s (groupOf p) else !(bit s.fuses.servicePresent (p - 512))

/-- The group of a data port is powered; a service port is when its lane is present. -/
def portPowered (s : State) (p : Nat) : Bool :=
  if p < 512 then decide (groupState s (groupOf p) = .powered) else bit s.fuses.servicePresent (p - 512) && !s.mode.zeroized

/-- Side memory serves requests (R306, R323, R326). -/
def smcUp (s : State) : Bool :=
  s.smc.present && s.smc.filled && !s.smc.lost &&
    s.smc.chans.all (fun c => match c.2.state with
      | .training | .outOfService | .init => false
      | _ => true)

/-- SYNC code (Table 9-2). -/
def syncCode : Sync → Nat
  | .unset => 0 | .set => 1 | .holdover => 2

/-- A cause of R223 holds. -/
def holdCause (s : State) : Bool := s.tsu.refFault || s.tsu.ppsLost || s.tsu.mgrLost

/-- TIME_STATE (Table 9-2). -/
def timeState (s : State) : Nat :=
  syncCode s.tsu.sync + (if s.tsu.slew.isSome then 4 else 0) + (if s.tsu.ppsOk then 8 else 0) +
    (if !s.tsu.tods.isEmpty then 16 else 0) + (if s.tsu.refFault then 32 else 0)

/-- Some unit has ESCALATED (R412). -/
def escalatedAny (s : State) : Bool := s.err.units.any (fun u => u.2.escalated)

/-- Groups fenced by R32. -/
def fencedMask (s : State) : BitVec 32 :=
  (List.range 32).foldl (fun m g => if groupState s g = .fenced then setBit m g else m) 0

/-- DEGRADED_REASON (Table 2-6). Bit [3] never stands alone (log 21). -/
def degraded (s : State) : BitVec 16 :=
  if s.mode.stage ≠ .run then 0 else
  BitVec.ofNat 16
    ((if s.smc.present then 0 else 1) +
     (if s.smc.present && !smcUp s then 2 else 0) +
     (if smcUp s then 0 else 4) +
     (if fencedMask s = 0 then 0 else 16) +
     (if escalatedAny s then 32 else 0) +
     (if s.tsu.mgrLost then 64 else 0) +
     (if s.tsu.sync = .holdover then 128 else 0) +
     (if s.smc.noSpare then 256 else 0))

/-- A maintenance operation runs (R363, R365): a retrain, a channel's full retraining, a migration or a
firmware activation. -/
def maintenance (s : State) : Bool :=
  s.ports.any (fun p => p.2.retrain) || s.smc.chans.any (fun c => c.2.state = .training) ||
    s.smc.migration.isSome || s.cpx.activation.isSome

/-- MODE codes (Table 2-5). -/
def baseCode : Base → Nat
  | .locked => 3 | .service => 4 | .lean => 5

/-- The reported mode (R363). -/
def modeCode (s : State) : Nat :=
  match s.mode.stage with
  | .off => 0
  | .brim => 1
  | .boot => 2
  | .run =>
    if s.mode.zeroized then 0xB
    else if s.dbg.frozen then 0xA
    else if s.mode.quarantine then 9
    else if s.mode.base ≠ .locked && maintenance s then 8
    else if s.mode.drain.isSome then 6
    else if s.mode.base ≠ .locked && degraded s ≠ 0 then 7
    else baseCode s.mode.base

/-- A triggered freeze has reached its ccyc f (R374). -/
def freezeReached (s : State) : Bool := s.dbg.freeze.any (fun z => z.f ≤ s.tsu.now)

/-- From f + 1 nothing new begins (Table 16-2). -/
def halting (s : State) : Bool := s.dbg.freeze.any (fun z => z.f < s.tsu.now)

/-- CPX processes commands (the first line of R46, R374). -/
def processing (s : State) : Bool :=
  decide (s.mode.stage = .run) && !s.mode.zeroized && !s.dbg.frozen && !freezeReached s

/-- The shared domain is clocked. -/
def clocked (s : State) : Bool :=
  (decide (s.mode.stage = .run) || decide (s.mode.stage = .boot)) && !s.dbg.frozen

/-- Perturbations that run: their DURATION has not ended (R379, R380). -/
def running (s : State) : List Perturb := s.dbg.pounce.filter (fun x => x.due.all (fun d => decide (s.tsu.now < d)))

/-- An occasion of a perturbation: whether it fires, by its rate (R379, log 24), and its ARG. -/
def pounceFires (cls tgt : Nat) (s : State) : Option Nat × State :=
  match (running s).find? (fun x => x.cls = cls && x.target = tgt) with
  | none => (none, s)
  | some x =>
    if x.rate = 0 then (some x.arg, s)
    else (if Config.dbgDraw s.draws x.rate then some x.arg else none, { s with draws := s.draws + 1 })

/-- The lifecycle state: the highest bit burnt (Table 17-2), by STATUS_GET's code. -/
def lifecycle (s : State) : Nat :=
  if bit s.fuses.lifecycle 3 then 4 else if bit s.fuses.lifecycle 2 then 3
  else if bit s.fuses.lifecycle 1 then 2 else if bit s.fuses.lifecycle 0 then 1 else 0

/-- DEBUG code. -/
def levelCode : DbgLevel → Nat
  | .closed => 0 | .observe => 1 | .opened => 2

/-- Bits burnt of a thermometer field. -/
def burnt {n : Nat} (b : BitVec n) : Nat := countIf (List.range n) (fun i => bit b i)

/-- One more bit of a thermometer field, lowest first. -/
def burnNext {n : Nat} (b : BitVec n) : BitVec n := setBit b (burnt b)

/-- FUSE_DIGEST (R384): the macro with every field of the integrator or the hood read as 0. -/
def fuseDigest (s : State) : Digest :=
  Config.sha384 (lsbBytes 1024
    (s.fuses.siliconRev.toNat * 2 ^ 56 + s.fuses.manufacturerId.toNat * 2 ^ 60 +
     s.fuses.deviceSerial.toNat * 2 ^ 320 + s.fuses.anchorDigest.toNat * 2 ^ 448 +
     s.fuses.fwKeyDigest.toNat * 2 ^ 832 + s.fuses.pufHelper.toNat * 2 ^ 3200))

/-- INSTANCE of this block: a role never committed is standalone with number 0 (R418). -/
def instOf (s : State) : Nat := match s.cfg.role with | some r => r.inst | none => 0

/-- The hood is blank while the store holds no manager key (R388). -/
def hoodBlank (s : State) : Bool := s.hood.slots.all (fun k => !k.2.manager)

/-! ## Time formats (R216) -/

/-- Units of 2^-64 ns in one ns, one second and one 2^-16 ns. -/
def nsUnit : Nat := 2 ^ 64
def secUnit : Nat := 1000000000 * 2 ^ 64
def fracUnit : Nat := 2 ^ 48

/-- A time of Table 9-1 in units of 2^-64 ns. -/
def ofTime (t : Time96) : Nat := t.sec * secUnit + t.ns * nsUnit + t.frac * fracUnit

/-- Table 9-1 of a time; parts below 2^-16 ns are truncated. -/
def toTime (t : Nat) : Time96 :=
  { sec := t / secUnit % 2 ^ 48, ns := t % secUnit / nsUnit, frac := t % nsUnit / fracUnit }

/-- TSU seconds. -/
def seconds (s : State) : Nat := s.tsu.time / secUnit

/-- A time's fields as a command, reply or ToD carries them (R216). -/
def timeFields (t : Time96) : Fields := [(6, t.sec), (4, t.ns), (2, t.frac)]

/-- A legal time (R216): NANOSECONDS at most 999,999,999, its bits [31:30] zero. -/
def timeOk (t : Time96) : Bool := t.ns ≤ 999999999

/-- CCYC_COUNT (R221). -/
def ccycCount (s : State) : Nat := s.tsu.now % 2 ^ 32

/-- ccyc in a number of ms, µs and s (R4). -/
def ms (n : Nat) : Nat := n * 1600000
def us (n : Nat) : Nat := n * 1600
def secs (n : Nat) : Nat := n * 1600000000
/-- ccyc in a number of ns, rounded up. -/
def nsUp (n : Nat) : Nat := ceilDiv (n * 8) 5

end Sys2Proof.Machine
end

