-- ==== Sys2Proof/Machine/Counters.lean ====
section
/-! DEFINITION. Counters: the groups of Table 12-1, their words in the order the rules list them, and the running
totals (R288, R289). A total is unbounded; a reader sees it modulo its width. -/
namespace Sys2Proof.Machine

/-- The key of a counter: group code, INDEX, word. -/
def ctrKey (code index word : Nat) : Nat := code * 2 ^ 40 + index * 2 ^ 8 + word

/-- The running total of a counter (R289). -/
def total (s : State) (k : Nat) : Nat := tgetD s.tel.ctr k 0

/-- Add `n` to the counter `k`. -/
def count (k n : Nat) (s : State) : State :=
  if n = 0 then s else { s with tel := { s.tel with ctr := tput s.tel.ctr k (total s k + n) } }

/-- Count one. -/
def tally (k : Nat) (s : State) : State := count k 1 s

/-- Count one for port group `g`, whose counters do not advance while it is gated (R15). -/
def tallyIn (g k : Nat) (s : State) : State := if groupState s g = .gated then s else tally k s

/-- Count one for a port or lane; service ports and lanes belong to no group. -/
def tallyAt (p k : Nat) (s : State) : State := if p < 512 then tallyIn (groupOf p) k s else tally k s

/-! PORT, by port -/

def codewordsCtr (p : Nat) : Nat := ctrKey 0x00 p 0
def correctedCwCtr (p : Nat) : Nat := ctrKey 0x00 p 1
def uncorrectedCwCtr (p : Nat) : Nat := ctrKey 0x00 p 2
def correctedSymbolsCtr (p : Nat) : Nat := ctrKey 0x00 p 3
def cwHistogramCtr (p i : Nat) : Nat := ctrKey 0x00 p (4 + i)
def linkFlapsCtr (p : Nat) : Nat := ctrKey 0x00 p 20
def linkDownsCtr (p : Nat) : Nat := ctrKey 0x00 p 21
def bringupFailsCtr (p : Nat) : Nat := ctrKey 0x00 p 22
def rxFramesOkCtr (p : Nat) : Nat := ctrKey 0x00 p 23
def rxBytesOkCtr (p : Nat) : Nat := ctrKey 0x00 p 24
def rxErroredDeliveredCtr (p : Nat) : Nat := ctrKey 0x00 p 25
def rxErroredDroppedCtr (p : Nat) : Nat := ctrKey 0x00 p 26
def rxRuntsCtr (p : Nat) : Nat := ctrKey 0x00 p 27
def rxFcsErrorsCtr (p : Nat) : Nat := ctrKey 0x00 p 28
def rxSymbolErrorsCtr (p : Nat) : Nat := ctrKey 0x00 p 29
def rxOversizeCtr (p : Nat) : Nat := ctrKey 0x00 p 30
def rxTruncatedCtr (p : Nat) : Nat := ctrKey 0x00 p 31
def rxFragmentErrorsCtr (p : Nat) : Nat := ctrKey 0x00 p 32
def rxFaultCutCtr (p : Nat) : Nat := ctrKey 0x00 p 33
def rxPreambleErrorsCtr (p : Nat) : Nat := ctrKey 0x00 p 34
def rxPauseCtr (p : Nat) : Nat := ctrKey 0x00 p 35
def rxPfcCtr (p : Nat) : Nat := ctrKey 0x00 p 36
def rxPauseIgnoredCtr (p : Nat) : Nat := ctrKey 0x00 p 37
def rxMacControlOtherCtr (p : Nat) : Nat := ctrKey 0x00 p 38
def rxUnsteeredCtr (p : Nat) : Nat := ctrKey 0x00 p 39
def rxVerifyHoldExhaustedCtr (p : Nat) : Nat := ctrKey 0x00 p 40
def rxPoolFallbacksCtr (p : Nat) : Nat := ctrKey 0x00 p 41
def rxBpiTimeoutsCtr (p : Nat) : Nat := ctrKey 0x00 p 42
def rxBpiBadHandlesCtr (p : Nat) : Nat := ctrKey 0x00 p 43
def txFramesOkCtr (p : Nat) : Nat := ctrKey 0x00 p 44
def txBytesOkCtr (p : Nat) : Nat := ctrKey 0x00 p 45
def txAbortedCtr (p : Nat) : Nat := ctrKey 0x00 p 46
def txUnderrunsCtr (p : Nat) : Nat := ctrKey 0x00 p 47
def txCoreAbortsCtr (p : Nat) : Nat := ctrKey 0x00 p 48
def txFaultCutCtr (p : Nat) : Nat := ctrKey 0x00 p 49
def txOversizeDropsCtr (p : Nat) : Nat := ctrKey 0x00 p 50
def txMetaErrorsCtr (p : Nat) : Nat := ctrKey 0x00 p 51
def txLengthMismatchCtr (p : Nat) : Nat := ctrKey 0x00 p 52
def txNoScDropsCtr (p : Nat) : Nat := ctrKey 0x00 p 53
def txTagsInsertedCtr (p : Nat) : Nat := ctrKey 0x00 p 54
def txPaddedCtr (p : Nat) : Nat := ctrKey 0x00 p 55
def txCsumSkippedCtr (p : Nat) : Nat := ctrKey 0x00 p 56
def txOnestepDemotedCtr (p : Nat) : Nat := ctrKey 0x00 p 57
def txPauseCtr (p : Nat) : Nat := ctrKey 0x00 p 58
def txPfcCtr (p : Nat) : Nat := ctrKey 0x00 p 59
def txExpressFramesCtr (p : Nat) : Nat := ctrKey 0x00 p 60
def txPreemptableFramesCtr (p : Nat) : Nat := ctrKey 0x00 p 61
def txFragmentsCtr (p : Nat) : Nat := ctrKey 0x00 p 62
def gateCyclesCtr (p : Nat) : Nat := ctrKey 0x00 p 63
def gateSwapsCtr (p : Nat) : Nat := ctrKey 0x00 p 64
def gateCyclesCutCtr (p : Nat) : Nat := ctrKey 0x00 p 65
def gateHoldsCtr (p : Nat) : Nat := ctrKey 0x00 p 66
def preemptVerifyFailsCtr (p : Nat) : Nat := ctrKey 0x00 p 67
def pauseCcycCtr (p i : Nat) : Nat := ctrKey 0x00 p (68 + i)
def txPauseReqErrorsCtr (p : Nat) : Nat := ctrKey 0x00 p 76
def refuseCtr (p i : Nat) : Nat := ctrKey 0x00 p (77 + i)
def inPktsUnknownScCtr (p : Nat) : Nat := ctrKey 0x00 p 87
def inPktsBadTagCtr (p : Nat) : Nat := ctrKey 0x00 p 88
def tsTxCapturesCtr (p : Nat) : Nat := ctrKey 0x00 p 89
def tsOnestepWrittenCtr (p : Nat) : Nat := ctrKey 0x00 p 90
def zelgenNetDropsCtr (p : Nat) : Nat := ctrKey 0x00 p 91
def zelgenNetRefusedCtr (p : Nat) : Nat := ctrKey 0x00 p 92
def zelgenRateDropsCtr (p : Nat) : Nat := ctrKey 0x00 p 93
def drainRxDropsCtr (p : Nat) : Nat := ctrKey 0x00 p 94

/-! CLASS, by port -/

def tcFramesCtr (x i : Nat) : Nat := ctrKey 0x01 x (0 + i)
def tcBytesCtr (x i : Nat) : Nat := ctrKey 0x01 x (16 + i)

/-! SLOT, by port -/

def slotTotalCtr (x : Nat) : Nat := ctrKey 0x02 x 0
def slotRetiredCtr (x : Nat) : Nat := ctrKey 0x02 x 1
def slotWastedCtr (x : Nat) : Nat := ctrKey 0x02 x 2
def slotFrontCtr (x : Nat) : Nat := ctrKey 0x02 x 3
def slotBackCtr (x : Nat) : Nat := ctrKey 0x02 x 4

/-! LANE -/

def fecLaneSymbolsCtr (x : Nat) : Nat := ctrKey 0x03 x 0
def blockErrorsCtr (x : Nat) : Nat := ctrKey 0x03 x 1
def sdGlitchesCtr (x : Nat) : Nat := ctrKey 0x03 x 2
def clockFaultsCtr (x : Nat) : Nat := ctrKey 0x03 x 3
def skewFaultsCtr (x : Nat) : Nat := ctrKey 0x03 x 4

/-! LEAF -/

def leafFramesCtr (x : Nat) : Nat := ctrKey 0x04 x 0
def leafBytesCtr (x : Nat) : Nat := ctrKey 0x04 x 1

/-! NODE -/

def nodeFramesCtr (x : Nat) : Nat := ctrKey 0x05 x 0
def nodeBytesCtr (x : Nat) : Nat := ctrKey 0x05 x 1

/-! POLICER, by context -/

def passedCtr (x : Nat) : Nat := ctrKey 0x06 x 0
def droppedCtr (x : Nat) : Nat := ctrKey 0x06 x 1

/-! RX_SA, by PG × 1,024 + SC_INDEX × 4 + AN -/

def inPktsOkCtr (x : Nat) : Nat := ctrKey 0x07 x 0
def inOctetsValidatedCtr (x : Nat) : Nat := ctrKey 0x07 x 1
def inOctetsDecryptedCtr (x : Nat) : Nat := ctrKey 0x07 x 2
def inPktsInvalidCtr (x : Nat) : Nat := ctrKey 0x07 x 3
def inPktsLateCtr (x : Nat) : Nat := ctrKey 0x07 x 4

/-! TX_SA, as RX_SA -/

def outPktsProtectedCtr (x : Nat) : Nat := ctrKey 0x08 x 0
def outPktsEncryptedCtr (x : Nat) : Nat := ctrKey 0x08 x 1
def outOctetsProtectedCtr (x : Nat) : Nat := ctrKey 0x08 x 2
def outOctetsEncryptedCtr (x : Nat) : Nat := ctrKey 0x08 x 3

/-! SC, by PG × 512 + DIRECTION × 256 + SC_INDEX -/

def scDropsCtr (x : Nat) : Nat := ctrKey 0x09 x 0

/-! PORT_GROUP -/

def cliRvTimeoutsCtr (x : Nat) : Nat := ctrKey 0x0A x 0
def cliRvUnknownCtr (x : Nat) : Nat := ctrKey 0x0A x 1
def schedDecisionsCtr (x : Nat) : Nat := ctrKey 0x0A x 2
def schedGrantsCtr (x : Nat) : Nat := ctrKey 0x0A x 3
def schedEmptyGrantsCtr (x : Nat) : Nat := ctrKey 0x0A x 4
def schedGrantMismatchesCtr (x : Nat) : Nat := ctrKey 0x0A x 5
def schedStatusErrorsCtr (x : Nat) : Nat := ctrKey 0x0A x 6
def schedStatusIgnoredCtr (x : Nat) : Nat := ctrKey 0x0A x 7
def schedWheelLateCtr (x : Nat) : Nat := ctrKey 0x0A x 8
def txUngrantedSlicesCtr (x : Nat) : Nat := ctrKey 0x0A x 9
def txGrantTimeoutsCtr (x : Nat) : Nat := ctrKey 0x0A x 10
def tsEvictedCtr (x : Nat) : Nat := ctrKey 0x0A x 11
def refuseRecordsSuppressedCtr (x : Nat) : Nat := ctrKey 0x0A x 12
def classRefusedCtr (x i : Nat) : Nat := ctrKey 0x0A x (13 + i)

/-! RING, by RING_TYPE × 256 + RING -/

def ringEntriesCtr (x : Nat) : Nat := ctrKey 0x0B x 0
def ringBytesCtr (x : Nat) : Nat := ctrKey 0x0B x 1
def ringAbortedCtr (x : Nat) : Nat := ctrKey 0x0B x 2
def ringBusErrorsCtr (x : Nat) : Nat := ctrKey 0x0B x 3
def ringHoldDropsCtr (x : Nat) : Nat := ctrKey 0x0B x 4
def ringStageDropsCtr (x : Nat) : Nat := ctrKey 0x0B x 5
def ringFlushedCtr (x : Nat) : Nat := ctrKey 0x0B x 6
def ringFrozenDropsCtr (x : Nat) : Nat := ctrKey 0x0B x 7
def ringDoorbellsIgnoredCtr (x : Nat) : Nat := ctrKey 0x0B x 8
def ringRepliesLostCtr (x : Nat) : Nat := ctrKey 0x0B x 9
def rxCsumBadCtr (x : Nat) : Nat := ctrKey 0x0B x 10

/-! IRQ_TARGET -/

def irqCompleteFaultsCtr (x : Nat) : Nat := ctrKey 0x0C x 0
def irqWritesIgnoredCtr (x : Nat) : Nat := ctrKey 0x0C x 1
def irqClaimsEmptyCtr (x : Nat) : Nat := ctrKey 0x0C x 2

/-! IRQ_SOURCE -/

def irqVanishCtr (x : Nat) : Nat := ctrKey 0x0D x 0

/-! EVENT, by event code × 1,024 + unit number -/

def evtCountCtr (event n : Nat) : Nat := ctrKey 0x0E (event * 1024 + n) 0

/-! BLOCK -/

def ppsInEdgesCtr : Nat := ctrKey 0x0F 0 0
def ppsInRejectsCtr : Nat := ctrKey 0x0F 0 1
def todMessagesCtr : Nat := ctrKey 0x0F 0 2
def todErrorsCtr : Nat := ctrKey 0x0F 0 3
def timeStepsCtr : Nat := ctrKey 0x0F 0 4
def timeSlewsCutCtr : Nat := ctrKey 0x0F 0 5
def refFaultsCtr : Nat := ctrKey 0x0F 0 6
def samplesTakenCtr : Nat := ctrKey 0x0F 0 7
def samplesLostCtr : Nat := ctrKey 0x0F 0 8
def windowBadReadsCtr : Nat := ctrKey 0x0F 0 9

/-- Stride in bytes of a counter group (Table 12-1). -/
def strideOf (code : Nat) : Nat :=
  match code with
  | 0x00 => 1024 | 0x01 => 256 | 0x02 => 64 | 0x03 => 64 | 0x04 => 16 | 0x05 => 16 | 0x06 => 16 | 0x07 => 64
  | 0x08 => 32 | 0x09 => 8 | 0x0A => 1024 | 0x0B => 128 | 0x0C => 32 | 0x0D => 8 | 0x0E => 8 | 0x0F => 1024
  | _ => 8

/-- Number of INDEX values of a counter group (Table 12-1). -/
def indexCount (code : Nat) : Nat :=
  match code with
  | 0x00 => 516 | 0x01 => 512 | 0x02 => 516 | 0x03 => 516 | 0x04 => 262144 | 0x05 => 16384 | 0x06 => 69632
  | 0x07 => 32768 | 0x08 => 32768 | 0x09 => 16384 | 0x0A => 32 | 0x0B => 1024 | 0x0C => 32 | 0x0D => 4096
  | 0x0E => 11264 | 0x0F => 1 | _ => 0

/-- Kind of a counter group: C cleared on read, Q queue, S saturating (Table 12-1). -/
inductive CtrKind where
  | c | q | sat
deriving DecidableEq, Repr

def kindOf (code : Nat) : CtrKind := if code = 4 ∨ code = 5 then .q else if code = 0x0D then .sat else .c

end Sys2Proof.Machine
end

