-- ==== Sys2Proof/Machine/Ops.lean ====
section
/-! DEFINITION. Shared operations: outputs, interrupt levels and events (R266, R270), side-memory bytes, flight
recorder admission (R331 to R344), EVENT records (R335), error records and the ladder (R408 to R414), QUARANTINE and
zeroization (R58, R399, R401), draws of the entropy source. -/
namespace Sys2Proof.Machine

/-- Record an output of this step (log 6). -/
def emit (o : Output) (s : State) : State := { s with out := s.out ++ [o] }

/-- Record outputs. -/
def emits (os : List Output) (s : State) : State := { s with out := s.out ++ os }

/-! ## Entropy (R35, R51, R300, R385, R422; log 15) -/

/-- The next draw, and the state after it. -/
def draw (s : State) : Digest × State := (Config.entropy s.draws, { s with draws := s.draws + 1 })

/-! ## Interrupt sources (R266, R270) -/

/-- Level of a source in ccyc `m`, from its changes, newest first. -/
def levelIn (h : List (Nat × Bool)) (m : Nat) : Bool :=
  match h with
  | [] => false
  | (c, b) :: r => if c ≤ m then b else levelIn r m

/-- Present level of a source. -/
def levelNow (h : List (Nat × Bool)) : Bool :=
  match h with
  | [] => false
  | (_, b) :: _ => b

/-- Drop changes that no later sample can see (R270 looks two ccyc back). -/
def levelTrim (h : List (Nat × Bool)) (now : Nat) : List (Nat × Bool) :=
  match h with
  | [] => []
  | (c, b) :: r => if c + 2 ≤ now then [(c, b)] else (c, b) :: levelTrim r now

/-- Set the level of source `n` in this ccyc. -/
def setLevel (n : Nat) (b : Bool) (s : State) : State :=
  let h := tgetD s.jic.levels n []
  if levelNow h = b then s
  else { s with jic := { s.jic with levels := tput s.jic.levels n ((s.tsu.now, b) :: levelTrim h s.tsu.now) } }

/-- An event source occurs: its pending bit, which is its level, is set (R266). -/
def raiseEvent (n : Nat) (s : State) : State :=
  let s1 := setLevel n true s
  { s1 with jic := { s1.jic with raised := tput s1.jic.raised n s.tsu.now } }

/-- A claim clears the pending bit of an event source; an occurrence in the same ccyc sets it again (R266). -/
def clearEvent (n : Nat) (s : State) : State := if tget s.jic.raised n = some s.tsu.now then s else setLevel n false s

def linkSource (p : Nat) : Nat := 0x400 + p

/-! ## Side-memory bytes (R306, R310): an unlisted byte reads 0 -/

/-- Byte at side-memory address `a`. -/
def memRead (m : List Host.Cell) (a : Nat) : Byte := (tget m a).getD 0

/-- Write a byte, keeping the canonical form: addresses rising, no listed zero. -/
def memWrite (m : List Host.Cell) (a : Nat) (b : Byte) : List Host.Cell :=
  if b = 0 then tdel m a else tput m a b

/-- Write bytes from address `a` on. -/
def memWrites (m : List Host.Cell) (a : Nat) (bs : List Byte) : List Host.Cell :=
  match bs with
  | [] => m
  | b :: r => memWrites (memWrite m a b) (a + 1) r

/-- Bytes `a` to `a + n - 1`. -/
def memReads (m : List Host.Cell) (a n : Nat) : List Byte := (List.range n).map (fun i => memRead m (a + i))

/-- The canonical form of a memory. -/
def Memory.wf (m : List Host.Cell) : Bool := Tab.wf m && m.all (fun c => c.2 ≠ 0)

/-- CAPACITY (R307). -/
def capacity (s : State) : Nat := s.smc.table.length * s.smc.rankSize * 7 / 8

/-- Byte `i` of a frame, 0 past its end. -/
def byteAt (f : List Byte) (i : Nat) : Nat := (f.getD i 0).toNat

/-- `n` bytes from `i`, most significant first. -/
def numAt (f : List Byte) (i n : Nat) : Nat := ofMsb ((f.drop i).take n)

/-- MAC address of a port; never written: 0 (log 14). -/
def macOf (cfg : Cfg) (p : Nat) : Mac := tgetD cfg.addr p 0

/-! ## Flight recorder (14) -/

/-- A time as records and batts store it (R296). -/
def timeLsb (t : Nat) : List Byte :=
  lsbBytes 6 (toTime t).sec ++ lsbBytes 4 (toTime t).ns ++ lsbBytes 2 (toTime t).frac

/-- `l` filled with zeros to `n` bytes. -/
def padTo (n : Nat) (l : List Byte) : List Byte := l ++ List.replicate (n - l.length) 0

/-- REC_LEN: the header and the body, rounded up to 8 (R332). -/
def recLen (r : Rec) : Nat := roundUp (32 + r.body.length) 8

/-- The record's bytes with REC_SEQ `q` (Table 14-2). -/
def recBytes (r : Rec) (q word : Nat) : List Byte :=
  padTo (recLen r) (lsbBytes 1 r.kind ++ lsbBytes 1 r.flags ++ lsbBytes 2 (recLen r) ++ lsbBytes 8 q ++
    timeLsb r.time ++ lsbBytes 2 r.epoch ++ lsbBytes 2 r.source ++ lsbBytes 4 word ++ r.body)

/-- CONTENT bit of a record kind (Table 14-1). -/
def contentBit (kind : Nat) : Nat := kind - 0x11

/-- The region whose CONTENT selects a kind (at most one, R337). -/
def regionFor (s : State) (kind : Nat) : Option (Nat × FrcRegionBody) :=
  s.cfg.frc.find? (fun r => bit r.2.content (contentBit kind))

/-- Bytes of one region that are in staging. -/
def regionStaging (r : Region) : Nat := r.granule.length + 512 * r.inFlight.length

/-- Bytes in staging (R346). -/
def staging (s : State) : Nat := (s.frc.regions.map (fun r => regionStaging r.2)).sum

/-- Data rate in MT/s of a code of R328. -/
def megaTransfers (c : Nat) : Nat :=
  match c with
  | 1 => 3200 | 2 => 4267 | 3 => 6400 | 4 => 7500 | 5 => 8533 | _ => 0

/-- Default QOS_TARGETS (Table 13-4). -/
def qosDefault : List QosTarget := [⟨200, 50, 0⟩, ⟨1000, 25, 0⟩, ⟨2000, 5, 0⟩, ⟨10000, 10, 0⟩]

def qosOf (s : State) : List QosTarget := match s.cfg.smc with | some b => b.qosTargets | none => qosDefault

def twoRanks (s : State) : Bool := match s.cfg.smc with | some b => bit b.ranks 0 | none => false

/-- L_FRC in ps (R318). -/
def lFrc (s : State) : Nat :=
  36864 * 1000000 / (2 * max 1 (megaTransfers s.smc.dataRate)) + 9 * Config.tRfcAb * 1000 + 2000000

/-- RATE_CAP in bytes per second (R343). -/
def rateCap (s : State) : Nat :=
  let ranks := s.smc.table.length
  let share := ((qosOf s).headD ⟨200, 50, 0⟩).share
  min (9 * 262144 * 1000000000000 / (10 * lFrc s))
    (share * ranks * 2 * megaTransfers s.smc.dataRate * 1000000 * 8 / (100 * 9 * (if twoRanks s then 2 else 1)))

/-- Rate bucket refilled to this tick, in 10^-8 byte: RATE_CAP bytes per second is RATE_CAP units a tick; depth 64 KiB. -/
def rateTokens (s : State) : Int :=
  min (65536 * 100000000) (s.frc.bucket + rateCap s * (s.tsu.tick - s.frc.bucketTick))

/-- BUDGET in records per second (Table 14-6). -/
def budgetRate (s : State) (kind : Nat) : Nat :=
  match regionFor s kind with
  | some (_, b) => if field b.content 23 16 = 0 then 1000000 else field b.content 23 16 * 50000
  | none => 1000000

/-- Depth of a budget in 10^-8 record (R342). -/
def budgetDepth (rate : Nat) : Nat := max (rate / 1000) 64 * 100000000

/-- A group's budget refilled to this tick. -/
def budgetNow (s : State) (g kind : Nat) : Budget :=
  let b := tgetD s.frc.budgets g { tokens := budgetDepth (budgetRate s kind), tick := s.tsu.tick }
  { b with tokens := min (budgetDepth (budgetRate s kind)) (b.tokens + budgetRate s kind * (s.tsu.tick - b.tick))
           tick := s.tsu.tick }

def putRegion (n : Nat) (r : Region) (s : State) : State :=
  { s with frc := { s.frc with regions := tput s.frc.regions n r } }

def putBudget (g : Nat) (b : Budget) (s : State) : State :=
  { s with frc := { s.frc with budgets := tput s.frc.budgets g b } }

/-- A record is lost (R344). -/
def loseRecord (n : Option Nat) (s : State) : State :=
  let s := { s with frc := { s.frc with unwritten := s.frc.unwritten + 1 } }
  match n with
  | none => s
  | some k => let r := tgetD s.frc.regions k {}
              putRegion k { r with lost := r.lost + 1, gap := r.gap + 1 } s

/-- Close the partly filled granule: zero-filled, it goes to side memory (R332, R340). -/
def closeGranule (now : Nat) (r : Region) : Region :=
  if r.granule = [] then r else { r with granule := [], inFlight := r.inFlight ++ [(now, padTo 512 r.granule)] }

/-- Put a record's bytes into a region's granule (R332, R341). -/
def appendRecord (now : Nat) (bytes : List Byte) (r : Region) : Region :=
  let r := if r.granule.length + bytes.length > 512 then closeGranule now r else r
  let r := { r with granuleAt := if r.granule = [] then now else r.granuleAt
                    granule := r.granule ++ bytes, nextSeq := r.nextSeq + 1, written := r.written + 1 }
  if r.granule.length = 512 then closeGranule now r else r

/-- Room for the next record: a stop-when-full region takes none that would need a granule past its end (R339). -/
def regionRoom (b : FrcRegionBody) (r : Region) (len : Nat) : Bool :=
  b.regionMode = 0 ||
    r.writePtr + 512 * (r.inFlight.length + (if r.granule.length + len > 512 then 2 else 1)) ≤ b.size

/-- A region records this kind and has room for the record (R338, R339, R344). -/
def roomFor (r : Rec) (s : State) : Bool :=
  match regionFor s r.kind with
  | some (n, b) =>
    let g := tgetD s.frc.regions n {}
    decide (g.state = .recording) && g.stopping.isNone && decide (staging s + recLen r + 32 ≤ 262144) && regionRoom b g (recLen r)
  | none => false

/-- Admission past the budget (R343, R344): the record takes its REC_SEQ, a GAP record ahead of it where records
were lost. -/
def admitRecord (r : Rec) (word : Nat) (s : State) : State :=
  match regionFor s r.kind with
  | none => s
  | some (n, b) =>
    let g := tgetD s.frc.regions n {}
    if g.state = .full ∨ g.state = .error then loseRecord (some n) s
    else if g.state ≠ .recording ∨ g.stopping.isSome then s
    else if staging s + recLen r + 32 > 262144 ∨ regionRoom b g (recLen r) = false then loseRecord (some n) s
    else
      let gapRec : Rec := { kind := 0x17, time := s.tsu.time, epoch := s.cpx.epoch, body := [] }
      let g1 := if g.gap = 0 then g else
        { appendRecord s.tsu.now (recBytes gapRec g.nextSeq g.gap) g with gap := 0 }
      let g2 := appendRecord s.tsu.now (recBytes r g1.nextSeq word) g1
      let bytes := recLen r + (if g.gap = 0 then 0 else 32)
      let s1 := putRegion n g2 { s with frc := { s.frc with bucket := rateTokens s - bytes * 100000000
                                                            bucketTick := s.tsu.tick } }
      { s1 with frc := { s1.frc with peak := max s1.frc.peak (staging s1) } }

/-- Suppress a refusal or an acceptance (R342). -/
def suppressRecord (g kind : Nat) (s : State) : State :=
  let b := budgetNow s g kind
  if kind = 0x11 then
    tally (refuseRecordsSuppressedCtr g) (putBudget g { b with suppRefuse := b.suppRefuse + 1 } s)
  else putBudget g { b with suppAccept := b.suppAccept + 1 } s

/-- A region records this kind (R338, R344). -/
def recorded (s : State) (kind : Nat) : Bool :=
  match regionFor s kind with
  | some (n, _) => let g := tgetD s.frc.regions n {}
                   decide (g.state = .recording) && g.stopping.isNone
  | none => false

/-- A record that became ready is admitted, suppressed or lost (R331, R342 to R345). While side memory is absent or out of service it
is counted as unwritten (R31). An admitted record takes from the budget and carries the count suppressed before it (R342); one that no
RECORDING region selects takes from it too (R344). -/
def takeIn (r : Rec) (s : State) : State :=
  if s.mode.zeroized ∨ s.mode.stage ≠ .run then s
  else
    match r.budget with
    | none =>
      if smcUp s then admitRecord r r.word s
      else loseRecord ((regionFor s r.kind).map Prod.fst) s
    | some g =>
      let b := budgetNow s g r.kind
      let s1 := putBudget g b s
      if b.tokens < 100000000 then suppressRecord g r.kind s1
      else if smcUp s = false then loseRecord ((regionFor s r.kind).map Prod.fst) s1
      else if recorded s r.kind = false then admitRecord r 0 (putBudget g { b with tokens := b.tokens - 100000000 } s)
      else if rateTokens s < recLen r * 100000000 then suppressRecord g r.kind s1
      else if roomFor r s = false then admitRecord r 0 s1
      else
        let word := if r.kind = 0x11 then b.suppRefuse else b.suppAccept
        let b1 := { b with tokens := b.tokens - 100000000 }
        let b2 := if r.kind = 0x11 then { b1 with suppRefuse := 0 } else { b1 with suppAccept := 0 }
        admitRecord r word (putBudget g b2 s1)

/-- A record becomes ready: it is admitted as its ccyc ends (R341). -/
def record (r : Rec) (s : State) : State :=
  if s.mode.zeroized ∨ s.mode.stage ≠ .run then s else { s with frc := { s.frc with ready := s.frc.ready ++ [r] } }

/-- Order of admission in a ccyc: by kind, then port group, then port (R341). -/
def recRank (r : Rec) : Nat := r.kind * 65536 + r.source

/-- A record put into its place among those of its ccyc, after its equals. -/
def insertRec (r : Rec) (l : List Rec) : List Rec :=
  match l with
  | [] => [r]
  | q :: t => if recRank r < recRank q then r :: q :: t else q :: insertRec r t

/-- The records of a ccyc are admitted. -/
def admitReady (s : State) : State :=
  (s.frc.ready.foldl (fun l r => insertRec r l) []).foldl (fun a r => takeIn r a) { s with frc := { s.frc with ready := [] } }

/-- An EVENT record (R335): code and DETAIL, least significant byte first. -/
def eventRecord (code : Nat) (detail : List Byte) (s : State) : State :=
  record { kind := 0x14, time := s.tsu.time, epoch := s.cpx.epoch
           body := lsbBytes 2 code ++ lsbBytes 2 0 ++ padTo 28 detail } s

/-! ## Errors (18) -/

/-- The per-unit state of unit `u`. -/
def errUnit (s : State) (u : Nat) : ErrUnit := tgetD s.err.units u {}

def putUnit (u : Nat) (e : ErrUnit) (s : State) : State :=
  { s with err := { s.err with units := tput s.err.units u e } }

/-- The 48 bytes of a record as fields, most significant byte first (Table 18-3, R410). -/
def errFields (r : ErrRec) : Fields :=
  [(1, r.unit), (1, r.sev + r.cls * 8 + (if r.injected then 64 else 0)), (2, r.code), (2, r.inst), (2, r.epoch)] ++
    timeFields (toTime r.time) ++ [(4, r.ccyc % 2 ^ 32), (8, r.detail0), (8, r.detail1), (8, r.seq)]

/-- No record: all zeros. -/
def noErr : Fields := [(48, 0)]

/-- The same record as stored, least significant byte first. -/
def errBytes (r : ErrRec) : List Byte := (errFields r).flatMap (fun f => lsbBytes f.1 f.2)

/-- Write the record to the error log (R413, R414): one 64-byte entry at slot ERR_SEQ mod 262,144 of the top 16 MiB,
from a bucket of 10,000 entries a second and 64 entries deep (100 units of 10^-6 entry a tick). -/
def logError (u : Nat) (r : ErrRec) (s : State) : State :=
  if smcUp s = false then s
  else
    let e := errUnit s u
    let b := min 64000000 (e.bucket + 100 * (s.tsu.tick - e.bucketTick))
    if b < 1000000 then putUnit u { e with bucket := b, bucketTick := s.tsu.tick, suppressed := e.suppressed + 1 } s
    else
      let entry := errBytes r ++ lsbBytes 1 (modeCode s) ++ lsbBytes 1 0 ++ lsbBytes 2 (degraded s).toNat ++
        lsbBytes 4 s.cpx.bootTag.toNat ++ lsbBytes 4 e.suppressed ++ lsbBytes 4 0
      let a := capacity s - 16777216 + r.seq % 262144 * 64
      let s1 := putUnit u { e with bucket := b - 1000000, bucketTick := s.tsu.tick, suppressed := 0 } s
      { s1 with smc := { s1.smc with mem := memWrites s1.smc.mem a entry }
                err := { s1.err with writes := s1.err.writes ++ [(s1.tsu.now, a)] } }

/-- End every session (R52). -/
def endSessions (s : State) : State := { s with cpx := { s.cpx with sessions := [] } }

/-- Cancel a pending commit and discard the staged set (Table 1-4, R58). -/
def discardPending (s : State) : State :=
  if s.cpx.staged.sealed.isSome then { s with cpx := { s.cpx with staged := {} } } else s

/-- The debug level changes (R371, R372, Table 14-5): every perturbation stops. -/
def setDebug (lv : DbgLevel) (s : State) : State :=
  if s.dbg.level = lv then s
  else eventRecord 0x000B (lsbBytes 1 (lifecycle s) ++ lsbBytes 1 (levelCode lv))
    { s with dbg := { s.dbg with level := lv, pounce := [] } }

/-- The level returns to CLOSED; the token is gone. -/
def closeLevel (s : State) : State :=
  let s1 := setDebug .closed s
  { s1 with dbg := { s1.dbg with expiry := 0, expiryCcyc := none, mask := 0, freezePermit := false } }

/-- Enter QUARANTINE (R58, R365, R372, R380): sessions end, a pending commit is cancelled and its set discarded, an
OBSERVE level returns to CLOSED and perturbations stop. -/
def enterQuarantine (s : State) : State :=
  if s.mode.quarantine ∨ s.mode.zeroized then s
  else
    let s1 := endSessions (discardPending s)
    let s2 := if s1.dbg.level = .observe then closeLevel s1 else s1
    { s2 with mode := { s2.mode with quarantine := true }, dbg := { s2.dbg with pounce := [] } }

/-- Store in the error unit and advance ERR_SEQ (R408, R409). -/
def storeError (r : ErrRec) (s : State) : State :=
  let e := errUnit s r.unit
  let n := satInc 32 e.count
  let e1 : ErrUnit :=
    if r.sev = 0 then
      { e with latest := r, count := n, saturated := e.saturated || decide (n = 2 ^ 32 - 1)
               acked := if e.first = none then n else e.acked }
    else
      { e with latest := r, count := n, saturated := e.saturated || decide (n = 2 ^ 32 - 1)
               first := if e.first = none then some r else e.first
               nested := e.nested || e.first.isSome
               escalated := e.escalated || decide (r.sev = 3) ||
                 (match e.first with | some f => decide (f.sev < r.sev) | none => false) }
  putUnit r.unit e1 { s with err := { s.err with nextSeq := s.err.nextSeq + 1 } }

/-- Order of the errors of a ccyc: by generation, then unit code, then INSTANCE (R408). -/
def errRank (e : Nat × ErrRec) : Nat := e.1 * 2 ^ 32 + e.2.unit * 2 ^ 16 + e.2.inst

/-- An error put into its place among those of its ccyc, after its equals. -/
def insertErr (e : Nat × ErrRec) (l : List (Nat × ErrRec)) : List (Nat × ErrRec) :=
  match l with
  | [] => [e]
  | q :: t => if errRank e < errRank q then e :: q :: t else q :: insertErr e t

/-- An error arises: its unit holds it at once, with the number that the order of arrival gives it. -/
def raiseError (gen : Nat) (r : ErrRec) (s : State) : State :=
  storeError r { s with err := { s.err with was := if s.err.fresh = [] then s.err.units else s.err.was
                                            fresh := s.err.fresh ++ [(gen, r)] } }

/-- An error of a ccyc that has ended takes the next number, enters its unit and is logged (R408, R409, R413). -/
def numberError (r : ErrRec) (s : State) : State :=
  let r1 := { r with seq := s.err.nextSeq }
  logError r.unit r1 (storeError r1 s)

/-- As a ccyc ends, its errors are numbered and stored in the order of R408. -/
def numberErrors (s : State) : State :=
  if s.err.fresh = [] then s
  else
    (s.err.fresh.foldl (fun l e => insertErr e l) []).foldl (fun a e => numberError e.2 a)
      { s with err := { s.err with units := s.err.was, nextSeq := s.err.nextSeq - s.err.fresh.length, fresh := [], was := [] } }

/-- ESCALATED once FIRST is 10 ms old (R412). -/
def aged (now : Nat) (e : ErrUnit) : ErrUnit :=
  match e.first with
  | some f => if f.ccyc + ms 10 ≤ now then { e with escalated := true } else e
  | none => e

/-- The debug level permits a freeze (Table 16-1). -/
def freezeAllowed (s : State) : Bool := s.dbg.level = .opened || (s.dbg.level = .observe && s.dbg.freezePermit)

/-- An error record of DBG, 0x1501 (Table 18-5). `gen` is 1 where an error of this ccyc fires it. -/
def dbgNote (gen : Nat) (s : State) : State :=
  let r : ErrRec := { unit := 0x15, sev := 0, cls := 0, code := 0x1501, epoch := s.cpx.epoch, time := s.tsu.time
                      ccyc := s.tsu.now, seq := s.err.nextSeq }
  raiseError gen r s

/-- Trigger a freeze at `f` (R373): the earlier trigger defines f (Table 16-5). -/
def triggerFreeze (f : Nat) (byInput : Bool) (s : State) : State :=
  if s.dbg.freeze.isSome ∨ s.mode.stage ≠ .run ∨ s.mode.zeroized then s
  else { s with dbg := { s.dbg with freeze := some { f, byInput, time := s.tsu.time }, frozenFor := 0 } }

/-- A reply is written: a freeze that waits for it is triggered, if the level permits it (R373). -/
def replyWritten (id : Nat) (s : State) : State :=
  match s.dbg.await with
  | some (_, i) =>
    if i ≠ id then s
    else
      let s1 := { s with dbg := { s.dbg with await := none } }
      if freezeAllowed s1 then triggerFreeze (s1.tsu.now + 1) false s1 else s1
  | none => s

/-- An armed trigger meets its happening (R373): 1 an error record, 2 a refusal. -/
def armedFires (kind : Nat) (s : State) : State :=
  if s.dbg.armed ≠ kind then s
  else
    let s1 := { s with dbg := { s.dbg with armed := 0 } }
    if freezeAllowed s1 then triggerFreeze (s1.tsu.now + 1) false s1 else dbgNote (if kind = 1 then 1 else 0) s1

/-- Record an error (R408 to R413) and take the ladder's steps that need no more than the record: QUARANTINE for a
FATAL error of any unit but hood and SVE (R412). The caller does the unit's containment, and zeroizes for those two.
`gen` is 0 where no other error
of the ccyc raises it. Nothing is recorded while the shared domain is not clocked (Table 18-8). -/
def errorWith (injected : Bool) (gen unit code inst sev cls d0 d1 : Nat) (s : State) : State :=
  if clocked s = false then s
  else
    let r : ErrRec := { unit, sev, cls, injected, code, inst, epoch := s.cpx.epoch, time := s.tsu.time
                        ccyc := s.tsu.now, detail0 := d0, detail1 := d1, seq := s.err.nextSeq }
    let s2 := armedFires 1 (raiseError gen r s)
    if sev = 4 ∧ unit ≠ 0x12 ∧ unit ≠ 0x13 then enterQuarantine s2 else s2

/-- Severities (Table 18-2). -/
def sevNote : Nat := 0
def sevMinor : Nat := 1
def sevMajor : Nat := 2
def sevCritical : Nat := 3
def sevFatal : Nat := 4
/-- Classes (Table 18-2). -/
def clsInput : Nat := 0
def clsTimeout : Nat := 1
def clsInternal : Nat := 2
def clsAccess : Nat := 3
def clsErrorPath : Nat := 4

/-- Record an error that the pouncer did not inject. -/
def errorAt (unit code inst sev cls : Nat) (d0 : Nat := 0) (d1 : Nat := 0) (s : State) : State :=
  errorWith false 0 unit code inst sev cls d0 d1 s

/-! ## Samples and sweeps (R300, R301, R336) -/

/-- A sample record's 32 bytes. -/
def sampleBytes (x : Sample) : List Byte := padTo 32 (x.fields.flatMap (fun e => lsbBytes e.1 e.2))

/-- A record of the rate-held kinds would be admitted now (R341 to R344). -/
def admits (s : State) (r : Rec) : Bool :=
  smcUp s && decide (s.mode.stage = .run) && !s.mode.zeroized && roomFor r s && decide ((recLen r : Int) * 100000000 ≤ rateTokens s)

/-- With SPILL 1 the buffer drains to FRC, at most 15 samples a record (R301, R336). -/
def spillSamples (fuel : Nat) (s : State) : State :=
  match fuel with
  | 0 => s
  | fuel + 1 =>
    let r : Rec := { kind := 0x15, time := s.tsu.time, epoch := s.cpx.epoch
                     body := (s.tel.samples.take 15).flatMap sampleBytes }
    let on : Bool := match s.cfg.sample with | some b => b.spill = 1 | none => false
    if on = false ∨ s.tel.samples = [] ∨ admits s r = false then s
    else spillSamples fuel (admitRecord r 0 { s with tel := { s.tel with samples := s.tel.samples.drop 15 } })

/-- A sample record enters the buffer, or is lost. -/
def pushSample (f : Fields) (s : State) : State :=
  if 65536 ≤ s.tel.samples.length then tally samplesLostCtr s
  else
    let l := s.tel.samples ++ [{ fields := f }]
    let s1 := tally samplesTakenCtr { s with tel := { s.tel with samples := l } }
    if l.length = 49152 then raiseEvent 0x898 s1 else s1

/-- FRC takes the sweep in parts of up to 56 entries; a part waits only for the rate (R336, R343, R344). -/
def takeSweep (fuel : Nat) (s : State) : State :=
  match fuel, s.frc.sweep with
  | 0, _ => s
  | _, none => s
  | fuel + 1, some (h, rest, i) =>
    let r : Rec := { kind := 0x16, time := s.tsu.time, epoch := s.cpx.epoch, body := h ++ rest.take 448 }
    let left := rest.drop 448
    let s1 := { s with frc := { s.frc with sweep := if left = [] then none else some (h, left, i + 56) } }
    if admits s r then takeSweep fuel (admitRecord r i s1)
    else if smcUp s then
      (if rateTokens s < recLen r * 100000000 then s else takeSweep fuel (admitRecord r i s1))
    else takeSweep fuel (loseRecord ((regionFor s 0x16).map Prod.fst) s1)

/-- What FRC records of this ccyc: the records that became ready, then samples and the sweep as far as the rate allows (R341, R343). -/
def recordCcyc (s : State) : State :=
  let s1 := admitReady s
  let s2 := if s1.tel.samples = [] then s1 else spillSamples 4096 s1
  if s2.frc.sweep.isNone then s2 else takeSweep 4682 s2

/-- TS of a sample record: low 16 bits of the seconds, ns, fraction. -/
def stampFields (t : Nat) : Fields := [(2, (toTime t).sec % 65536), (4, (toTime t).ns), (2, (toTime t).frac)]

/-- The D fields; the times of the pipeline's stages are not kept (log 4). -/
def stageFields (s : State) : Fields := (List.range 4).map (fun i => (2, (Config.stageTime s.tsu.now i).toNat))

/-- A frame's receive record is completed and written (Table 12-5): its END, FRAME_TAG and WHAT. -/
def endSample (code tag what : Nat) (f : Option Fields) (s : State) : State :=
  match f with
  | none => s
  | some l => pushSample (l.mapIdx (fun i e =>
      if i = 0 then (1, 1 + 16 * code) else if i = 2 then (2, tag) else if i = 4 then (2, what) else e)) s

/-! ## Link state of a port (R74, R204, R215) -/

def portOf (s : State) (p : Nat) : Port := tgetD s.ports p {}

def putPort (p : Nat) (x : Port) (s : State) : State := { s with ports := tput s.ports p x }

/-- LINK byte of PORT_STATE_GET (Table 3-6): a hidden local fault reads UP (R75). -/
def linkCode (s : State) (p : Nat) : Nat :=
  let x := portOf s p
  if !(thas s.cfg.port p) then 0
  else if p < 512 ∧ groupState s (groupOf p) = .fenced then 9
  else if p < 512 ∧ groupState s (groupOf p) ≠ .powered then 0xA
  else match x.link with
    | .disabled => 0 | .noSignal => 1 | .an => 2 | .training => 3 | .aligning => 4 | .up => 5
    | .localFault => if x.faultAt.isSome then 5 else 6
    | .remoteFault => 7 | .anIncompatible => 8

/-- Counts as UP: a fault hidden by LINK_DOWN_HOLD does (R75, R362). -/
def reportsUp (x : Port) : Bool := decide (x.link = .up) || (decide (x.link = .localFault) && x.faultAt.isSome)

end Sys2Proof.Machine
end

