-- ==== Sys2Proof/Machine/Port.lean ====
section
/-! DEFINITION. Port modes (Table 3-3), line rates and transmit constants (Tables 3-1, 6-4, 8-3), the gate control lists
in force (R194 to R198), pause and preemption as TXM and ESH see them (R197 to R205). -/
namespace Sys2Proof.Machine

/-! ## Port modes (Tables 3-1, 3-3) -/

/-- Speed in Gb/s; 0 for a code that Table 3-3 does not list. -/
def speedOf (mode : Nat) : Nat :=
  match mode with
  | 0x01 => 25 | 0x02 => 50 | 0x03 => 100 | 0x04 => 100 | 0x05 => 100 | 0x06 => 200 | 0x07 => 200 | 0x08 => 200
  | 0x09 => 400 | 0x0A => 400 | 0x0B => 400 | 0x0C => 800 | 0x0D => 800 | 0x0E => 1600 | 0x0F => 1600
  | 0x20 => 1 | 0x21 => 10 | 0x22 => 25 | _ => 0

/-- Lanes of a port. -/
def lanesOf (mode : Nat) : Nat :=
  match mode with
  | 0x03 => 4 | 0x04 => 2 | 0x06 => 4 | 0x07 => 2 | 0x09 => 8 | 0x0A => 4 | 0x0B => 2 | 0x0C => 8 | 0x0D => 4
  | 0x0E => 16 | 0x0F => 8 | _ => 1

/-- FEC_MODE values that Table 3-3 allows. -/
def fecAllowed (mode fec : Nat) : Bool :=
  match mode with
  | 0x01 => fec ≤ 2
  | 0x22 => fec ≤ 2
  | 0x03 => fec = 0 || fec = 2
  | 0x20 => fec = 0
  | 0x21 => fec = 0
  | _ => fec = 3

/-- AN column of Table 3-3. -/
def anAllowed (mode : Nat) : Bool := 1 ≤ mode && mode ≤ 0x0D || mode = 0x0F

/-- Line rate of a lane in bit/s (Table 3-1; service lanes by their mode). -/
def laneRate (mode fec : Nat) : Nat :=
  match mode with
  | 0x01 => 25781250000
  | 0x03 => 25781250000
  | 0x20 => 1250000000
  | 0x21 => 10312500000
  | 0x22 => 25781250000
  | _ => 1062500000 * (speedOf mode / lanesOf mode)

/-- PORT_SET as committed. -/
def portCfg (s : State) (p : Nat) : Option PortSetBody := tget s.cfg.port p

/-- Speed of a configured port, 0 otherwise. -/
def portSpeed (cfg : Cfg) (p : Nat) : Nat := match tget cfg.port p with | some b => speedOf b.portMode | none => 0

/-- Lanes of a configured port, from its lowest (R67). -/
def portLanes (cfg : Cfg) (p : Nat) : List Nat :=
  match tget cfg.port p with
  | some b => (List.range (lanesOf b.portMode)).map (fun i => p + i)
  | none => []

/-- The configured port that a lane belongs to. -/
def portOfLane (cfg : Cfg) (lane : Nat) : Option Nat :=
  (cfg.port.find? (fun e => e.1 ≤ lane && decide (lane < e.1 + lanesOf e.2.portMode))).map (·.1)

/-! ## Lanes (R63, R64, R70, R74) -/

def laneOf (s : State) (n : Nat) : Lane := tgetD s.lanes n {}

def putLane (n : Nat) (l : Lane) (s : State) : State := { s with lanes := tput s.lanes n l }

/-- LANE_FLAGS (Table 3-5). -/
def laneFlags (cfg : Cfg) (n : Nat) : BitVec 16 := tgetD cfg.lane n 0

/-- The lane counts as locked (R64); the pouncer's LANE_DROP forces lock off (Table 16-4). -/
def laneLocked (l : Lane) : Bool := l.rxLock && !l.clockFault && l.dropUntil.isNone

/-- Signal detect as every other rule means it (R63); IGNORE_SD takes it as LANE_RX_LOCK after the filter (Table 3-5). -/
def laneSignal (s : State) (n : Nat) : Bool := if bit (laneFlags s.cfg n) 4 then (laneOf s n).lockSd else (laneOf s n).sd

/-- Every lane of a port has signal detect and lock. -/
def lanesLive (s : State) (p : Nat) : Bool :=
  (portLanes s.cfg p).all (fun n => laneSignal s n && laneLocked (laneOf s n))

/-- Every lane of a port has signal detect, lock and LANE_TX_READY (Table 3-6). -/
def lanesReady (s : State) (p : Nat) : Bool :=
  lanesLive s p && (portLanes s.cfg p).all (fun n => (laneOf s n).txReady)

/-- PORT_FLAGS of a port (Table 3-4). -/
def portFlags (cfg : Cfg) (p : Nat) : BitVec 16 := match tget cfg.port p with | some b => b.portFlags | none => 0

/-- What follows NO_SIGNAL, and what follows auto-negotiation (Table 3-6). -/
def afterAn (cfg : Cfg) (p : Nat) : LinkSt := if bit (portFlags cfg p) 1 then .training else .aligning
def firstState (cfg : Cfg) (p : Nat) : LinkSt := if bit (portFlags cfg p) 0 then .an else afterAn cfg p

/-- TXM may send frames: UP, or with UNIDIRECTIONAL during a fault (R76, Table 3-4). -/
def mayTransmit (s : State) (p : Nat) : Bool :=
  match (portOf s p).link with
  | .up => true
  | .localFault => bit (portFlags s.cfg p) 4
  | .remoteFault => bit (portFlags s.cfg p) 4
  | _ => false

/-- The ccyc, rounded up, in which a port of this speed sends `n` line bytes (Table 6-4: speed × 5 ÷ 64 bytes a ccyc). -/
def lineCcyc (speed n : Nat) : Nat := if speed = 0 then 0 else ceilDiv (n * 64) (speed * 5)

/-- Line bytes that a port has handed over, or begun to, in `d` ccyc (Table 6-4). -/
def lineBytes (speed d : Nat) : Nat := ceilDiv (d * (speed * 5)) 64

/-- Start threshold (Table 6-4). -/
def startThreshold (speed : Nat) : Nat := if 1600 ≤ speed then 1024 else if 800 ≤ speed then 512 else if 400 ≤ speed then 256 else 128

/-- Transmit allotment of a data port (R158). -/
def allotment (speed : Nat) : Nat := max 16384 (8192 * speed / 100)

/-- A pause of `q` quanta in ccyc: a quantum is 819.2 ccyc at 1 Gb/s (Table 8-3). -/
def quantaCcyc (speed q : Nat) : Nat := if speed = 0 then 0 else ceilDiv (q * 4096) (speed * 5)

/-! ## Time per ccyc (R218, R220) -/

/-- INC without a slew, in 2^-64 ns. -/
def incOf (r : Int) : Nat :=
  let x : Int := 5 * 2 ^ 45 * r
  let up : Int := if x % 1000000000 ≠ 0 && Config.incRoundUp r then 1 else 0
  (5 * 2 ^ 61 + x / 1000000000 + up).toNat

/-- What a slew has added after `d` ccyc (R220). The division truncates toward zero (log 9). -/
def slewPart (w : Slew) (d : Nat) : Int :=
  if w.total ≤ d then w.offset else Int.tdiv w.offset w.total * d

/-- What the time base gains over `d` ccyc from a slew that has run for `done` ccyc, at the rate in force. -/
def gainFrom (s : State) (done d : Nat) : Int :=
  (d * incOf s.tsu.rateAdj : Nat) +
    (match s.tsu.slew with | some w => slewPart w (done + d) - slewPart w done | none => 0)

/-- Ccyc that the slew will have run for when `d` more have passed. -/
def slewDone (s : State) (d : Nat) : Nat :=
  match s.tsu.slew with | some w => w.done + d - (if w.fresh then 1 else 0) | none => 0

/-- What the time base gains over the next `d` ccyc: a rate or slew accepted in this ccyc acts from the next one on. -/
def gain (s : State) (d : Nat) : Int :=
  match s.tsu.inc0, d with
  | some i, k + 1 => i + gainFrom s (slewDone s 1) k
  | _, _ => gainFrom s (slewDone s 0) d

/-- The time base `d` ccyc ahead, from time `t` at `at_` ccyc ahead on, with the accepted steps of the list (R196, R219, R221). -/
def timeFrom (s : State) (d at_ : Nat) (t : Int) (l : List StepPend) : Int :=
  match l with
  | [] => t + (gain s d - gain s at_)
  | q :: r =>
    let k := q.due - s.tsu.now
    if d < k then t + (gain s d - gain s at_)
    else
      let u := t + (gain s k - gain s at_)
      timeFrom { s with tsu := { s.tsu with slew := none } } d k (if q.relative then u + q.offset else q.time) r

/-- The time that the time base will show `d` ccyc ahead. -/
def timeAhead (s : State) (d : Nat) : Int := timeFrom s d 0 s.tsu.time s.tsu.step

/-- What the time base gains in this ccyc: its INC. -/
def incNow (s : State) : Nat := (gain s 1).toNat

/-- A change of rate or slew that acts from the next ccyc on. -/
def heldInc (s : State) : Option Nat := some (incNow s)

/-! ## Gate control lists (R192 to R198) -/

/-- One ccyc of TSU time, 0.625 ns (R194). -/
def gateUnit : Nat := 5 * 2 ^ 61

/-- Length of a list's cycle in 2^-64 ns. -/
def GateList.span (g : GateList) : Nat := g.cycle * nsUnit

/-- Entries of a cycle as (end offset, gates): the last stays in force to the cycle's end, and entries past it are
skipped (R194). -/
def gateSegs (cycle start : Nat) (es : List GateEntry) : List (Nat × BitVec 16) :=
  match es with
  | [] => []
  | [e] => if start < cycle then [(cycle, e.gates)] else []
  | e :: r =>
    if cycle ≤ start then []
    else (min cycle (start + e.interval * gateUnit), e.gates) :: gateSegs cycle (start + e.interval * gateUnit) r

def GateList.segs (g : GateList) : List (Nat × BitVec 16) := gateSegs g.span 0 g.entries

/-- Offset of time `t` in the cycles anchored at `a` (R195; also before the anchor). -/
def cycleOffset (t a span : Nat) : Nat := (((t : Int) - a) % (max 1 span : Nat)).toNat

/-- Index of the entry in force at an offset. -/
def entryAt (segs : List (Nat × BitVec 16)) (o : Nat) : Nat := countIf segs (fun e => e.1 ≤ o)

/-- The pending list takes over at S, or a first list starts at A. -/
def takePending (g : GateSt) : GateSt :=
  match g.pending with
  | some q => { g with running := some q, anchor := g.swapAt, pending := none, cycleAt := g.swapAt + q.span }
  | none => g

/-- The gates of a port at time `t`: a pending list runs from its swap instant or anchor on (R195). -/
def inForce (g : GateSt) (t : Nat) : GateSt :=
  if g.pending.isSome ∧ g.swapAt ≤ t then takePending g else g

/-- The gate of class `c` of a port is open at time `t` (R192, R194, R196): a port without a running list has every gate open. -/
def gateAt (s : State) (p c t : Nat) : Bool :=
  match (tget s.gates p).bind (fun g => ((inForce g t).running).map (fun l => (l, (inForce g t).anchor))) with
  | none => true
  | some (l, a) =>
    match l.segs.find? (fun e => cycleOffset t a l.span < e.1) with
    | some e => bit e.2 c
    | none => true

/-- The gate of class `c` is open in every ccyc from `k` to `k + n` ccyc after now (R197, R198, R201). -/
def gateOpenFrom (s : State) (p c k n : Nat) : Bool :=
  !(thas s.gates p) || (List.range (n + 1)).all (fun i => gateAt s p c (timeAhead s (k + i)).toNat)

/-- The same from this ccyc on. -/
def gateOpenFor (s : State) (p c n : Nat) : Bool := gateOpenFrom s p c 0 n

/-- The ccyc, counted from now and at most `n`, in which the gate of class `c` is first closed. -/
def gateClosesIn (s : State) (p c n : Nat) : Option Nat :=
  if thas s.gates p then (List.range (n + 1)).find? (fun i => !gateAt s p c (timeAhead s i).toNat) else none

/-! ## Pause (R203 to R205) -/

/-- Class `c` is stopped by a pause. -/
def classPaused (s : State) (p c : Nat) : Bool :=
  match tget (portOf s p).pause (c / 2) with
  | some l => l.any (fun w => w.1 ≤ s.tsu.now && s.tsu.now ≤ w.2)
  | none => false

/-! ## Preemption (R199) -/

def preemptCfg (cfg : Cfg) (p : Nat) : PreemptBody :=
  (tget cfg.preempt p).getD { port := p, preemptableMask := 0, addFragSize := 0, verify := 0 }

/-- Preemption is active on a port. -/
def preemptActive (s : State) (p : Nat) : Bool :=
  let b := preemptCfg s.cfg p
  b.preemptableMask ≠ 0 && reportsUp (portOf s p) &&
    (b.verify = 0 || decide ((portOf s p).verify = .passed))

/-! ## Frames TXM holds (R159, R160, R197, R201) -/

/-- Bytes that must have come before a frame starts (R159, R230): all, but for a frame cut through from the core. -/
def startNeed (s : State) (p : Nat) (f : TxFrame) : Nat :=
  if f.source = .core then
    let t := startThreshold (portSpeed s.cfg p)
    let t := if f.tsReq = 2 then max t (f.tsOffset + 48) else t
    min f.len t
  else f.len

/-- The gate permits a start of `f` in the ccyc `k` after now (R197; R201 for a preemptable frame while preemption is active). -/
def gatePermitsAt (s : State) (p k : Nat) (f : TxFrame) : Bool :=
  let v := portSpeed s.cfg p
  let frag := (preemptCfg s.cfg p).addFragSize
  gateOpenFrom s p f.tc k (lineCcyc v (f.wire + 8)) ||
    (f.preempt && preemptActive s p && 124 + 64 * frag ≤ f.wire && gateOpenFrom s p f.tc k (lineCcyc v (79 + 64 * frag)))

/-- The same in this ccyc. -/
def gatePermits (s : State) (p : Nat) (f : TxFrame) : Bool := gatePermitsAt s p 0 f

/-- A frame may start in the ccyc `k` after now, as TGU judges it, its threshold met (R160). Service ports have no gates or
pause (R147). -/
def permittedAt (s : State) (p k : Nat) (f : TxFrame) : Bool :=
  (f.action.isSome || startNeed s p f ≤ f.got) && (512 ≤ p || (gatePermitsAt s p k f && !classPaused s p f.tc))

/-- The same in this ccyc. -/
def permitted (s : State) (p : Nat) (f : TxFrame) : Bool := permittedAt s p 0 f

/-! ## Leaves (R177, R181) -/

/-- Host sources bound to a leaf, in SOURCE order. -/
def leafSources (cfg : Cfg) (leaf : Nat) : List HostLeafBody :=
  (cfg.hostLeaf.filter (fun b => decide (b.2.leaf = leaf) && decide (b.2.port < 512))).map (·.2)

/-- The same in round-robin order: those past the source served last come first (R181). -/
def turnSources (s : State) (leaf : Nat) : List HostLeafBody :=
  let l := leafSources s.cfg leaf
  match tget s.esh.turn leaf with
  | none => l
  | some t => l.filter (fun b => t < b.source) ++ l.filter (fun b => b.source ≤ t)

def hostKey (source port : Nat) : Nat := source * 1024 + port

def hostQueue (s : State) (source port : Nat) : List HostFrame := tgetD s.esh.host (hostKey source port) []

/-- The status word in force at ccyc `m`. -/
def wordIn (h : List (Nat × LeafWord)) (m : Nat) : LeafWord :=
  match h with
  | [] => {}
  | (c, w) :: r => if c ≤ m then w else wordIn r m

/-- Depth, head and backlog of a leaf: its latest word in effect, or its host sources'. -/
def leafWord (s : State) (leaf : Nat) : LeafWord :=
  let src := turnSources s leaf
  if src.isEmpty then wordIn (tgetD s.esh.words leaf []) s.tsu.now
  else
    let fs := src.flatMap (fun b => hostQueue s b.source b.port)
    match fs with
    | [] => {}
    | f :: _ => { backlogged := true, headLen := f.len, backlog := (fs.map (·.len)).sum, headEnq := f.enq % 2 ^ 32 }

/-- PORT_SCHED_SET of a port, or R170's values. -/
def schedCfg (cfg : Cfg) (p : Nat) : PortSchedBody :=
  (tget cfg.sched p).getD { port := p, strictClasses := 0, classWeights := List.replicate 16 1, grantQuantum := 2048
                            portShaperRate := 0 }

/-- Class `c` is reported open to ESH (R198). -/
def classOpen (s : State) (p c : Nat) : Bool :=
  gateOpenFor s p c (lineCcyc (portSpeed s.cfg p) ((schedCfg s.cfg p).grantQuantum + 48))

/-- The free allotment that TXM reports (R158), capped by the pouncer's ALLOTMENT_CUT (Table 16-4). -/
def freeAllot (s : State) (p : Nat) : Nat :=
  let f := allotment (portSpeed s.cfg p) - tgetD s.esh.used p 0
  match (running s).find? (fun x => x.cls = 2 && x.target = p && (x.rate = 0 || Config.dbgDraw s.tsu.now x.rate)) with
  | some x => min f x.arg
  | none => f

/-- A shaper counts as eligible: it is off the wheel, from the ccyc after that in which a refund took it off (R183). -/
def shaperOpen (s : State) (x : Shaper) : Bool := x.eligible && x.since ≤ s.tsu.now

/-- A backlogged leaf of the port is ineligible through a shaper on its path or its class (R299). -/
def leafHeld (s : State) (p : Nat) : Bool :=
  !shaperOpen s (tgetD s.esh.ports p {}).shaper ||
  s.cfg.leaf.any (fun l =>
    match tget s.cfg.node l.2.parentNode with
    | none => false
    | some n =>
      decide (n.port = p) && (leafWord s l.1).backlogged &&
      (!shaperOpen s (tgetD s.esh.leaves l.1 {}).shaper || !shaperOpen s (tgetD s.esh.nodes l.2.parentNode {}).shaper ||
        !classOpen s p n.cls || classPaused s p n.cls))

/-- The head of a queue is held by its gate (R197, R201): the GATE_HELD condition. -/
def gateHeld (s : State) (p : Nat) : Bool :=
  let x := portOf s p
  (match x.express with | f :: _ => !gatePermits s p f | [] => false) ||
  (match x.preempts with | f :: _ => !gatePermits s p f | [] => false)

/-- A granted frame waits for pause or a preemption hold. -/
def frameHeld (s : State) (p : Nat) : Bool :=
  let x := portOf s p
  gateHeld s p || x.express.head?.any (fun f => classPaused s p f.tc) || x.preempts.head?.any (fun f => classPaused s p f.tc) ||
    x.broken.isSome

/-- back_held of R299. -/
def backHeld (s : State) (p : Nat) : Bool :=
  !decide ((portOf s p).link = .up) || !portPowered s p || frameHeld s p || leafHeld s p

end Sys2Proof.Machine
end

