-- ==== Sys2Proof/Machine/Batt.lean ====
section
/-! DEFINITION. How readers see a counter (12 R289, R290), and a batt's snapshot (R294 to R297): a section a ccyc, as its ccyc finds
the counters. -/
namespace Sys2Proof.Machine

/-! ## How readers see a counter (R289, R290) -/

/-- A total as COUNTERS_GET returns it. -/
def totalWord (code tot : Nat) : Nat :=
  match kindOf code with
  | .c => tot % 2 ^ 64
  | .q => tot % 2 ^ 48 + min (tot / 2 ^ 48) 0xFFFF * 2 ^ 48
  | .sat => min tot (2 ^ 32 - 1)

/-- A total as a window or the batt stream shows it, from the total at that reader's last read. -/
def readerWord (code tot base : Nat) : Nat :=
  match kindOf code with
  | .c => (tot - base) % 2 ^ 64
  | .q => tot % 2 ^ 48 + (if tot / 2 ^ 48 = base / 2 ^ 48 then 0 else 2 ^ 48)
  | .sat => min tot (2 ^ 32 - 1)

/-- Words of an instance. -/
def wordsOf (code : Nat) : Nat := strideOf code / 8

/-! ## Sections (R297) -/

/-- Port group whose section carries an instance; none: the shared section. -/
def sectionOf (code idx : Nat) : Option Nat :=
  match code with
  | 0x00 | 0x01 | 0x02 | 0x03 => if idx < 512 then some (idx / 16) else none
  | 0x04 => some (idx / 8192)
  | 0x05 => some (idx / 512)
  | 0x06 => some (if idx < 4096 then idx / 128 else (idx - 4096) / 2048)
  | 0x07 | 0x08 => some (idx / 1024)
  | 0x09 => some (idx / 512)
  | 0x0A => some idx
  | _ => none

/-- Instances of a group code in a section, in ascending INDEX. -/
def instsOf (sec : Option Nat) (code : Nat) : List Nat :=
  let run := fun (a n : Nat) => (List.range n).map (fun i => a + i)
  match sec, code with
  | some g, 0x00 | some g, 0x01 | some g, 0x02 | some g, 0x03 => run (16 * g) 16
  | some g, 0x04 => run (8192 * g) 8192
  | some g, 0x05 => run (512 * g) 512
  | some g, 0x06 => run (128 * g) 128 ++ run (4096 + 2048 * g) 2048
  | some g, 0x07 | some g, 0x08 => run (1024 * g) 1024
  | some g, 0x09 => run (512 * g) 512
  | some g, 0x0A => [g]
  | some _, _ => []
  | none, 0x00 | none, 0x02 | none, 0x03 => run 512 4
  | none, c => if 0x0B ≤ c then List.range (indexCount c) else []

/-- Group codes that a CONTENT_MASK selects. -/
def maskCodes (m : BitVec 32) : List Nat := (List.range 16).filter (fun c => bit m c)

/-- Bytes of a section. -/
def sectionLen (m : BitVec 32) (sec : Option Nat) : Nat :=
  32 + ((maskCodes m).map (fun c => (instsOf sec c).length * strideOf c)).sum

/-- BATT_LEN, fixed by CONTENT_MASK (R294). -/
def battLen (m : BitVec 32) : Nat :=
  128 + ((List.range 32).map (fun g => sectionLen m (some g))).sum + sectionLen m none +
    (if bit m 16 then 65536 * 32 else 0) + (if bit m 17 then 32 + 262144 * 8 else 0)

/-- A slot of the area. -/
def battSlotLen (m : BitVec 32) : Nat := roundUp (battLen m) 4096

/-- Slots of the area. -/
def battSlots (b : BattBody) : Nat := b.destSize / battSlotLen b.contentMask

/-- An instance as the batt stream shows it, from the totals that this ccyc found (Table 0-4); an unconfigured port is zero. -/
def battInst (s : State) (code idx : Nat) : List Byte :=
  if code < 3 ∧ idx < 512 ∧ thas s.cfg.port idx = false then List.replicate (strideOf code) 0
  else
    (List.range (wordsOf code)).flatMap (fun w =>
      let k := ctrKey code idx w
      lsbBytes 8 (readerWord code (tgetD s.tel.ctrWas k 0) (tgetD s.tel.battBase k 0)))

/-- One section with its header. -/
def battSection (s : State) (m : BitVec 32) (sec : Option Nat) : List Byte :=
  let st := match sec with | some g => groupState s g | none => .powered
  lsbBytes 1 (sec.getD 0xFF) ++ lsbBytes 1 ((if st = .gated then 1 else 0) + (if st = .fenced then 2 else 0)) ++ lsbBytes 2 0 ++
    lsbBytes 4 (ccycCount s) ++ lsbBytes 4 (sectionLen m sec) ++ List.replicate 20 0 ++
    (maskCodes m).flatMap (fun c => (instsOf sec c).flatMap (battInst s c))

/-- The totals that a section carries. -/
def sectionTotals (s : State) (m : BitVec 32) (sec : Option Nat) : Tab Nat :=
  s.tel.ctrWas.filter (fun e => bit m (e.1 / 2 ^ 40) && decide (sectionOf (e.1 / 2 ^ 40) (e.1 / 256 % 2 ^ 32) = sec))

/-! ## The snapshot (R295) -/

/-- The ccyc of section `k`: PGg's t0 + 2g, the shared one's t0 + 63. -/
def sectionAt (t0 k : Nat) : Nat := t0 + (if k < 32 then 2 * k else 63)

/-- The section of this ccyc is read; after the last the body is written (R298). -/
def battRead (s : State) : State :=
  match s.tel.battBusy with
  | none => s
  | some r =>
    if 32 < r.next ∨ s.tsu.now < sectionAt r.t0 r.next then s
    else
      let sec := if r.next < 32 then some r.next else none
      let mark := fun (x : GrpSt) => match sec with | some g => if groupState s g = x then 2 ^ g else 0 | none => 0
      let r1 := { r with next := r.next + 1, body := r.body ++ battSection s r.mask sec, totals := r.totals ++ sectionTotals s r.mask sec
                         gated := r.gated + mark .gated, fenced := r.fenced + mark .fenced }
      let s1 := { s with tel := { s.tel with battBusy := some r1 } }
      if r1.next ≤ 32 then s1 else emit (.hostWrite r.accessId (r.addr + 128) (r1.body ++ r.tail)) s1

/-- Ccyc until the snapshot in progress has ended. -/
def snapshotLeft (s : State) : Nat :=
  match s.tel.battBusy with
  | some r => if r.next ≤ 32 then r.t0 + 63 - s.tsu.now else 0
  | none => 0

/-- The header (Table 12-3). -/
def battHeader (r : BattRun) : List Byte :=
  padTo 128 (r.head ++ lsbBytes 4 r.gated ++ lsbBytes 4 r.fenced ++ lsbBytes 2 40 ++ r.counts)

/-- A snapshot begins at t0. -/
def battSnapshot (b : BattBody) (s : State) : State :=
  let m := b.contentMask
  let lost := total s samplesLostCtr
  let n := if bit m 16 then s.tel.samples.length else 0
  let run : BattRun :=
    { t0 := s.tsu.now, accessId := b.accessId, addr := b.destAddr + s.tel.battSlot % max 1 (battSlots b) * battSlotLen m, mask := m
      head := lsbBytes 4 0x42415454 ++ lsbBytes 2 1 ++ lsbBytes 2 128 ++ lsbBytes 4 (s.tel.battSeq + 1) ++ lsbBytes 4 (battLen m) ++
        timeLsb s.tsu.time ++ lsbBytes 4 (ccycCount s) ++
        lsbBytes 8 (match s.tel.battT0 with | some t => s.tsu.now - t | none => 0) ++ lsbBytes 2 s.cpx.epoch ++
        lsbBytes 2 (degraded s).toNat ++ lsbBytes 4 m.toNat
      counts := lsbBytes 2 n ++ lsbBytes 4 s.tel.battMissed ++ lsbBytes 4 s.tel.battFailed ++ lsbBytes 4 (lost - s.tel.battLost)
      tail := (if bit m 16 then padTo (65536 * 32) (s.tel.samples.flatMap sampleBytes) else []) ++
        (if bit m 17 then padTo (32 + 262144 * 8) s.tel.sweep else [])
      missed := s.tel.battMissed, failed := s.tel.battFailed, lost }
  battRead
    { s with tel := { s.tel with battBusy := some run, battHold := false, samples := if bit m 16 then [] else s.tel.samples } }

end Sys2Proof.Machine
end

