-- ==== Sys2Proof/Machine/Esh.lean ====
section
/-! DEFINITION. The scheduling tree (07): eligibility (Table 7-2), tags and virtual time (R172 to R174), shapers and the
crown wheel (R183 to R186). -/
namespace Sys2Proof.Machine

/-! ## Objects -/

/-- Key of a traffic class: PORT × 16 + class. -/
def classKey (p k : Nat) : Nat := p * 16 + k

def leafObj (s : State) (n : Nat) : Sched := tgetD s.esh.leaves n {}
def nodeObj (s : State) (n : Nat) : Sched := tgetD s.esh.nodes n {}
def classObj (s : State) (p k : Nat) : Sched := tgetD s.esh.classes (classKey p k) {}
def portObj (s : State) (p : Nat) : Sched := tgetD s.esh.ports p {}

def putLeaf (n : Nat) (x : Sched) (s : State) : State := { s with esh := { s.esh with leaves := tput s.esh.leaves n x } }
def putNode (n : Nat) (x : Sched) (s : State) : State := { s with esh := { s.esh with nodes := tput s.esh.nodes n x } }
def putClass (p k : Nat) (x : Sched) (s : State) : State :=
  { s with esh := { s.esh with classes := tput s.esh.classes (classKey p k) x } }
def putPortObj (p : Nat) (x : Sched) (s : State) : State := { s with esh := { s.esh with ports := tput s.esh.ports p x } }

def engine (s : State) (g : Nat) : Engine := tgetD s.esh.engines g {}
def putEngine (g : Nat) (e : Engine) (s : State) : State :=
  { s with esh := { s.esh with engines := tput s.esh.engines g e } }

/-- The node and port of a configured leaf. -/
def leafNode (cfg : Cfg) (leaf : Nat) : Option (LeafBody × NodeBody) :=
  (tget cfg.leaf leaf).bind (fun l => (tget cfg.node l.parentNode).map (fun n => (l, n)))

/-! ## Virtual time (R172) -/

/-- dF(C, w), for a signed charge. -/
def dF (c : Int) (w : Nat) : Int := -(Int.fdiv (-(c * 2 ^ 24)) w)

/-- before(a, b), modulo 2^64. -/
def before (a b : Nat) : Bool := a ≠ b && ((b : Int) - a) % (2 ^ 64 : Nat) < 2 ^ 63

/-- A tag advanced, modulo 2^64. -/
def addTag (t : Nat) (d : Int) : Nat := (((t : Int) + d) % (2 ^ 64 : Nat)).toNat

/-! ## Eligibility (Table 7-2) -/

/-- Grants outstanding to a leaf. -/
def leafGrants (s : State) (leaf : Nat) : Nat := countIf (engine s (groupOfLeaf leaf)).grants (fun g => g.leaf = leaf)

def leafEligible (s : State) (leaf : Nat) : Bool :=
  match leafNode s.cfg leaf with
  | none => false
  | some (_, n) =>
    let w := leafWord s leaf
    w.backlogged && w.headLen ≤ freeAllot s n.port && leafGrants s leaf < 4 && shaperOpen s (leafObj s leaf).shaper &&
      !(leafObj s leaf).dead

/-- Configured leaves of a node, ascending. -/
def leavesOf (cfg : Cfg) (node : Nat) : List Nat := (cfg.leaf.filter (fun l => l.2.parentNode = node)).map (fun l => l.1)

def nodeEligible (s : State) (node : Nat) : Bool :=
  (tget s.cfg.node node).isSome && shaperOpen s (nodeObj s node).shaper && !(nodeObj s node).dead &&
    (leavesOf s.cfg node).any (leafEligible s)

/-- Configured nodes of a class, ascending. -/
def nodesOf (cfg : Cfg) (p k : Nat) : List Nat :=
  (cfg.node.filter (fun n => n.2.port = p && n.2.cls = k)).map (fun n => n.1)

/-- A strict class of the port (R170). -/
def isStrict (cfg : Cfg) (p k : Nat) : Bool := 16 - (schedCfg cfg p).strictClasses ≤ k

def classWeight (cfg : Cfg) (p k : Nat) : Nat := ((schedCfg cfg p).classWeights)[k]?.getD 0

def classEligible (s : State) (p k : Nat) : Bool :=
  (isStrict s.cfg p k || classWeight s.cfg p k ≠ 0) && classOpen s p k && !classPaused s p k &&
    (nodesOf s.cfg p k).any (nodeEligible s)

/-- A port that a drain closed stays closed to egress until a commit writes it (15 R366). -/
def portEligible (s : State) (p : Nat) : Bool :=
  decide ((portOf s p).link = .up) && decide (p ∉ s.mode.drained) && decide (512 ≤ freeAllot s p) && shaperOpen s (portObj s p).shaper && !(portObj s p).dead &&
    decide (groupState s (groupOf p) = .powered) && (List.range 16).any (classEligible s p)

/-! ## Activation (R173, R174) -/

/-- activate: a tag never starts in the past. -/
def activate (x : Sched) (v : Nat) : Sched := if before x.tag v then { x with tag := v } else x

/-- The object with its readiness noted, activated under `v` where it has just become eligible. -/
def noteReady (x : Sched) (e : Bool) (v : Nat) : Sched :=
  if e = x.ready then x else { (if e then activate x v else x) with ready := e }

/-- Note which objects are eligible, activating those that have become so (R174). -/
def refreshReady (s : State) : State :=
  let s1 := s.cfg.leaf.foldl (fun a l =>
    putLeaf l.1 (noteReady (leafObj a l.1) (leafEligible s l.1) (nodeObj s l.2.parentNode).v) a) s
  let s2 := s.cfg.node.foldl (fun a n =>
    putNode n.1 (noteReady (nodeObj a n.1) (nodeEligible s n.1) (classObj s n.2.port n.2.cls).v) a) s1
  let ports := (s.cfg.port.map (fun e => e.1)).filter (fun p => p < 512)
  let s3 := ports.foldl (fun a p => (List.range 16).foldl (fun b k =>
    if (nodesOf s.cfg p k).isEmpty then b
    else putClass p k (noteReady (classObj b p k) (classEligible s p k) (portObj s p).v) b) a) s2
  ports.foldl (fun a p => putPortObj p (noteReady (portObj a p) (portEligible s p) (engine s (groupOf p)).v) a) s3

/-! ## Shapers (R183, R185) -/

/-- SHAPER_RATE and SHAPER_BURST of an object; rate 0 where unshaped. A port's burst is twice GRANT_QUANTUM. -/
def shaperCfg (cfg : Cfg) (o : ShaperObj) : Nat × Nat :=
  match o with
  | .leaf n => match tget cfg.leaf n with | some b => (b.shaperRate, b.shaperBurst) | none => (0, 0)
  | .node n => match tget cfg.node n with | some b => (b.shaperRate, b.shaperBurst) | none => (0, 0)
  | .port n => let b := schedCfg cfg n; (b.portShaperRate, 2 * b.grantQuantum)

def objOf (s : State) (o : ShaperObj) : Sched :=
  match o with
  | .leaf n => leafObj s n
  | .node n => nodeObj s n
  | .port n => portObj s n

def putObj (o : ShaperObj) (x : Sched) (s : State) : State :=
  match o with
  | .leaf n => putLeaf n x s
  | .node n => putNode n x s
  | .port n => putPortObj n x s

/-- place(E) of R185 at tick `n`. -/
def placeOf (e n : Nat) : Place :=
  let ce := e / 4096
  let cn := n / 4096
  if ce ≤ cn + 1 then .fine (e % 4096) (ce % 2) else if ce ≤ cn + 4095 then .coarse (ce % 4096) else .overflow

/-- The shaper refilled to this tick. -/
def shaperFill (s : State) (o : ShaperObj) : Shaper :=
  let (rate, burst) := shaperCfg s.cfg o
  let x := (objOf s o).shaper
  { x with tok := min (burst * 800000) (x.tok + rate * (s.tsu.tick - x.last : Nat)), last := s.tsu.tick }

/-- Enter a shaper with negative tokens on the wheel. -/
def shaperWait (rate n : Nat) (x : Shaper) : Shaper :=
  let due := n + ceilDiv (-x.tok).toNat (max 1 rate)
  { x with eligible := false, due, place := placeOf due n }

/-- charge(s, C) of R183. An unshaped object keeps none; one that a refund takes off the wheel is eligible in the next ccyc. -/
def shaperCharge (o : ShaperObj) (c : Int) (s : State) : State :=
  let (rate, _) := shaperCfg s.cfg o
  if rate = 0 then s
  else
    let x := shaperFill s o
    let x := { x with tok := x.tok - c * 800000 }
    let y := if x.tok < 0 then shaperWait rate s.tsu.tick x else
      { x with eligible := true, due := 0, place := .none, since := if x.eligible then x.since else s.tsu.now + 1 }
    putObj o { objOf s o with shaper := y } s

/-- Group of an object, and its place in the order of R186: leaves, then nodes, then ports. -/
def groupOfObj : ShaperObj → Nat
  | .leaf n => groupOfLeaf n | .node n => groupOfNode n | .port n => groupOf n
def objRank : ShaperObj → Nat
  | .leaf n => n | .node n => 2 ^ 18 + n | .port n => 2 ^ 19 + n

/-- An entry of the fine ring whose tick has come (R186). -/
def dueNow (n : Nat) (x : Shaper) : Bool :=
  !x.eligible && x.due ≤ n && decide (x.place = .fine (x.due % 4096) (x.due / 4096 % 2))

/-- The due entries of a group, as (due tick, rank). -/
def dueEntries (g : Nat) (s : State) : List (Nat × Nat) :=
  let of := fun (grp : Nat → Nat) (rank : Nat → Nat) (t : Tab Sched) =>
    (t.filter (fun e => grp e.1 = g && dueNow s.tsu.tick e.2.shaper)).map (fun e => (e.2.shaper.due, rank e.1))
  of groupOfLeaf id s.esh.leaves ++ of groupOfNode (2 ^ 18 + ·) s.esh.nodes ++ of groupOf (2 ^ 19 + ·) s.esh.ports

/-- The release engine takes this entry next: the earliest due tick, then ascending leaf, node and port, at most 32 in a ccyc. -/
def releasesNext (o : ShaperObj) (s : State) : Bool :=
  let x := (objOf s o).shaper
  let e := engine s (groupOfObj o)
  dueNow s.tsu.tick x && (e.freed.1 ≠ s.tsu.now || decide (e.freed.2 < 32)) &&
    (dueEntries (groupOfObj o) s).all (fun d => x.due < d.1 || (x.due = d.1 && objRank o ≤ d.2))

/-- The wheel releases a due shaper: eligible, or entered again at its new due tick (R183). A release after the first ccyc of
its tick is late (R186). -/
def shaperRelease (o : ShaperObj) (s : State) : State :=
  if releasesNext o s = false then s
  else
    let x := (objOf s o).shaper
    let y := shaperFill s o
    let rate := (shaperCfg s.cfg o).1
    let y := if 0 ≤ y.tok then { y with eligible := true, due := 0, place := .none } else shaperWait rate s.tsu.tick y
    let g := groupOfObj o
    let e := engine s g
    let s1 := putEngine g { e with freed := (s.tsu.now, if e.freed.1 = s.tsu.now then e.freed.2 + 1 else 1) } s
    let s2 := if x.due = s.tsu.tick ∧ s.tsu.now = s.tsu.tickAt then s1
      else tallyIn g (schedWheelLateCtr g) (putEngine g { engine s1 g with lateAt := some s.tsu.now } s1)
    putObj o { objOf s2 o with shaper := y } s2

/-- Move one entry of the wheel at tick `n` (R186): the next coarse slot into the fine ring, and, during the last coarse
slot of a revolution, the overflow list. -/
def wheelMove (n : Nat) (x : Shaper) : Shaper :=
  match x.place with
  | .coarse c => if c = (n / 4096 + 1) % 4096 ∨ x.due / 4096 ≤ n / 4096 + 1 then { x with place := placeOf x.due n } else x
  | .overflow => if n / 4096 % 4096 = 4095 then { x with place := placeOf x.due n } else x
  | _ => x

/-- A wheel tick of one group (R186). -/
def wheelTick (g : Nat) (s : State) : State :=
  let mv := fun (x : Sched) => { x with shaper := wheelMove s.tsu.tick x.shaper }
  { s with esh := { s.esh with
      leaves := tmap s.esh.leaves (fun k x => if groupOfLeaf k = g then mv x else x)
      nodes := tmap s.esh.nodes (fun k x => if groupOfNode k = g then mv x else x)
      ports := tmap s.esh.ports (fun k x => if groupOf k = g then mv x else x) } }

/-- A shaper written or changed by a commit restarts (R183, R28). -/
def freshShaper (s : State) : Shaper := { tok := 0, last := s.tsu.tick, eligible := true, due := 0, place := .none }

/-! ## Charges of a grant (R173, R175) -/

/-- Advance the tags of a grant's path by f(weight). -/
def moveTags (g : Grant) (f : Nat → Int) (s : State) : State :=
  let up := fun (x : Sched) (w : Nat) => { x with tag := addTag x.tag (f w) }
  let s1 := putLeaf g.leaf (up (leafObj s g.leaf) g.wLeaf) s
  let s2 := putNode g.node (up (nodeObj s1 g.node) g.wNode) s1
  let s3 := match g.wClass with
    | some w => putClass g.port g.cls (up (classObj s2 g.port g.cls) w) s2
    | none => s2
  putPortObj g.port (up (portObj s3 g.port) g.wPort) s3

/-- Charge the three shapers of a path. -/
def chargePath (g : Grant) (c : Int) (s : State) : State :=
  shaperCharge (.port g.port) c (shaperCharge (.node g.node) c (shaperCharge (.leaf g.leaf) c s))

/-- Bytes granted or held for a port change. -/
def useBytes (p : Nat) (d : Int) (s : State) : State :=
  { s with esh := { s.esh with used := tput s.esh.used p (((tgetD s.esh.used p 0 : Nat) : Int) + d).toNat } }

/-- A of R179: the charges of the frames that arrived, 0 for one already dropped (R175). -/
def chargedBytes (g : Grant) : Int := (g.frames.map (fun f => if f.dropped then 0 else f.charge)).sum

/-- settle(g, A): tags, shapers and free allotment, and the grant is outstanding no longer (R173, R176, R179). -/
def settleGrant (pg : Nat) (g : Grant) (s : State) : State :=
  let a := chargedBytes g
  let s1 := chargePath g (a - g.est) (moveTags g (fun w => dF a w - dF g.est w) s)
  let s2 := useBytes g.port (-((g.maxBytes : Int) - ((g.frames.map (fun f => f.cpiLen)).sum : Nat))) s1
  let s3 := if g.released = some 0 then tallyIn pg (schedEmptyGrantsCtr pg) s2 else s2
  let e := engine s3 pg
  putEngine pg { e with grants := e.grants.filter (fun x => x.id ≠ g.id) } s3

/-- Change an outstanding grant. -/
def mapGrant (pg id : Nat) (f : Grant → Grant) (s : State) : State :=
  let e := engine s pg
  putEngine pg { e with grants := e.grants.map (fun g => if g.id = id then f g else g) } s

def grantOf (s : State) (pg id : Nat) : Option Grant := (engine s pg).grants.find? (fun g => g.id = id)

/-- A frame of an unsettled grant was dropped before its first line byte: charged 0 (R175). -/
def markDropped (pg : Nat) (f : TxFrame) (s : State) : State :=
  match grantOf s pg f.grantId with
  | some g =>
    if g.at_ = f.grantAt then
      mapGrant pg g.id (fun g => { g with frames := g.frames.mapIdx (fun i x => if i = f.place then { x with dropped := true } else x) }) s
    else s
  | none => s

/-- OVERHEAD of a leaf's profile (R175). -/
def overheadOf (cfg : Cfg) (leaf : Nat) : Int :=
  match tget cfg.leaf leaf with
  | some l => tgetD cfg.overhead l.overheadProfile 20
  | none => 20

end Sys2Proof.Machine
end

