-- ==== Sys2Proof/Machine/Smc.lean ====
section
/-! DEFINITION. Requests of side memory (13): where an address lies (R308, R309, R325), open rows (R313), activations, refresh management
and hammering (R319, R320), and late requests (R315). A physical rank is named channel × 2 + rank. -/
namespace Sys2Proof.Machine

def rankOf (s : State) (r : Nat) : RankInfo := tgetD s.smc.ranks r {}

def putRank (r : Nat) (x : RankInfo) (s : State) : State := { s with smc := { s.smc with ranks := tput s.smc.ranks r x } }

def chanOf (s : State) (c : Nat) : ChanInfo := tgetD s.smc.chans c {}

def putChan (c : Nat) (x : ChanInfo) (s : State) : State := { s with smc := { s.smc with chans := tput s.smc.chans c x } }

/-- An SMC error; its INSTANCE is the rank. -/
def smcError (r code sev cls d0 d1 : Nat) (s : State) (gen : Nat := 0) : State := errorWith false gen 0x0E code r sev cls d0 d1 s

/-! ## Where an address lies -/

/-- Granules of a rank's data. -/
def rankGranules (s : State) : Nat := s.smc.rankSize * 7 / 8 / 512

/-- Granules that a migration has copied by now. -/
def migratePointer (s : State) : Nat := min (Config.migrateDone s.tsu.now) (rankGranules s)

/-- Physical rank, bank and row of an address (R308, R309, R325). -/
def locate (s : State) (a : Nat) : Nat × Nat × Nat :=
  let n := max 1 s.smc.table.length
  let l := a / 512 % n
  let o := a / 512 / n * 512 + a % 512
  let r := s.smc.table[l]?.getD 0
  let r := match s.smc.migration with
    | some m => if m.logical = l ∧ o / 512 < migratePointer s then m.dst else r
    | none => r
  (r, o / 2048 % 16, o / 32768)

/-- Physical location as an error record's DETAIL1 (log 34). -/
def locationCode (l : Nat × Nat × Nat) : Nat := l.1 * 2 ^ 40 + l.2.1 * 2 ^ 32 + l.2.2

/-! ## Activations, RFM and hammering (R319, R320; log 33) -/

/-- The requester other than FRC with the most activations of a bank. -/
def hammerer (x : RankInfo) (bank : Nat) : Option Nat :=
  [1, 2, 3].foldl (fun a q =>
    let n := tgetD x.acts (bank * 4 + q) 0
    if n = 0 then a
    else match a with
      | some p => if tgetD x.acts (bank * 4 + p) 0 < n then some q else a
      | none => some q) none

/-- A bank reached RAAIMT four times in one refresh interval. -/
def throttle (r bank : Nat) (s : State) : State :=
  match hammerer (rankOf s r) bank with
  | none => s
  | some q =>
    let c := chanOf s (r / 2)
    smcError r 0x0E04 sevNote clsInternal q bank (putChan (r / 2) { c with hammers := satInc 32 c.hammers }
      { s with smc := { s.smc with throttle := tput s.smc.throttle (q * 65536 + r * 256 + bank) (s.tsu.now + ms 1) } })

/-- When the row of an access that began at `act` closes by its PAGE_HINT (Table 13-3) or at the device's maximum row-open time. -/
def rowCloses (s : State) (act hint : Nat) : Nat :=
  match hint with
  | 0 => min (s.tsu.now + nsUp 200) (act + Config.rowOpenMax)
  | 1 => act + Config.rowOpenMax
  | _ => s.tsu.now

/-- The hint of a request (R313): FRC keeps a row open for its next granule; what the other requesters send is free. -/
def pageHint (s : State) (q a : Nat) : Nat :=
  if q = 0 then (if locate s (a + 512) = locate s a then 1 else 2) else (Config.pageHint q).val

/-- What a request puts on DFI: `data`, the bytes of a write. -/
def dfiRequest (r bank row a : Nat) (asleep hit : Bool) (data : Option (List Byte)) (s : State) : State :=
  let l : List DfiCommand := (if asleep then [.selfRefresh false] else []) ++ (if hit then [] else [.activate bank row])
  let x : DfiCommand := match data with | some d => .write a d | none => .read a
  emits ((l ++ [x]).map (fun c => Output.dfi (r / 2) (r % 2) c)) s

/-- A request of requester `q` to an address: its row is activated unless it is open. -/
def touch (q a : Nat) (data : Option (List Byte)) (s0 : State) : State :=
  let (r, bank, row) := locate s0 a
  let open_ : Bool := (tget (rankOf s0 r).rows bank).any (fun o => o.1 = row && s0.tsu.now < o.2.2)
  let s := dfiRequest r bank row a (rankOf s0 r).selfRefresh open_ data s0
  let x := { rankOf s r with selfRefresh := false, lastUse := s.tsu.now, used := true }
  let was := tget x.rows bank
  let hit := open_
  let at_ := if hit then (match was with | some o => o.2.1 | none => 0) else s.tsu.now
  let x := { x with rows := tput x.rows bank (row, at_, rowCloses s at_ (pageHint s q a)) }
  if hit then putRank r x s
  else
    let raa := tgetD x.raa bank 0 + 1
    let due : Bool := max 1 Config.raaImt ≤ raa
    let hits := tgetD x.hits bank 0 + 1
    let k := bank * 4 + q
    let x1 := { x with acts := tput x.acts k (tgetD x.acts k 0 + 1)
                       raa := tput x.raa bank (if due then raa - max 1 Config.raaImt else raa)
                       hits := if due then tput x.hits bank hits else x.hits }
    let s1 := putRank r x1 s
    if due = false then s1
    else
      let c := chanOf s1 (r / 2)
      let s2 := putChan (r / 2) { c with rfm := if Config.rfmRequired then c.rfm + 1 else c.rfm } s1
      if hits = 4 then throttle r bank s2 else s2

/-! ## Late requests (R315) -/

/-- LAT_TARGET of a requester in ccyc. -/
def latTarget (s : State) (q : Nat) : Nat := (match (qosOf s)[q]? with | some t => t.latTarget | none => 0) * 16

/-- A request of requester `q` to an address reached the age of its target in this ccyc: it counts in its channel's LATE_REQUESTS. -/
def noteLate (q a issued : Nat) (s : State) : State :=
  if s.tsu.now ≠ issued + latTarget s q then s
  else
    let c := (locate s a).1 / 2
    putChan c { chanOf s c with late := satInc 16 (chanOf s c).late } s

/-- Side-memory address of a region's `k`-th granule from WRITE_PTR on. -/
def granuleAddr (b : FrcRegionBody) (g : Region) (k : Nat) : Nat :=
  b.base + (if b.regionMode = 0 then (g.writePtr + 512 * k) % max 1 b.size else g.writePtr + 512 * k)

/-- The requests that wait: FRC's granules (requester 0) and the error log's entries (requester 2), which reach their bank in the ccyc
after they are issued. -/
def smcCcyc (s : State) : State :=
  let s1 := s.frc.regions.foldl (fun a e =>
    match tget s.cfg.frc e.1 with
    | some b => (e.2.inFlight.mapIdx (fun k w => (granuleAddr b e.2 k, w.1))).foldl (fun a w => noteLate 0 w.1 w.2 a) a
    | none => a) s
  s.err.writes.foldl (fun a w => noteLate 2 w.2 w.1 (if w.1 + 1 = s.tsu.now then touch 2 w.2 (some (memReads a.smc.mem w.2 64)) a else a)) s1

end Sys2Proof.Machine
end

