-- ==== Sys2Proof/Machine/Export.lean ====
section
/-! DEFINITION. The copies of the export DMA (14): where a descriptor's bytes lie (R348), its reads and writes (R350), and the write
buckets and round robin (R352). -/
namespace Sys2Proof.Machine

def regionOf (s : State) (n : Nat) : Region := tgetD s.frc.regions n {}

def xchan (s : State) (c : Nat) : XChan := tgetD s.xdma c {}

def putX (c : Nat) (x : XChan) (s : State) : State := { s with xdma := tput s.xdma c x }

def xdmaCfg (s : State) (c : Nat) : XdmaChannelBody :=
  (tget s.cfg.xdma c).getD { channel := c, accessId := 0, busShare := 0, descAddr := 0 }

def xWrap (d : XDesc) : Bool := bit d.descCtl 2
def xRegion (d : XDesc) : Nat := field d.descCtl 6 3

/-- Side-memory address of byte `i` of row `r` (R348). -/
def xSrc (s : State) (d : XDesc) (r i : Nat) : Nat :=
  let o := r * d.srcStride + i
  match xWrap d, tget s.cfg.frc (xRegion d) with
  | true, some b => b.base + (d.srcAddr - b.base + o) % max 1 b.size
  | _, _ => d.srcAddr + o

/-- Byte `n` of the copy as its row and place. -/
def xPlace (d : XDesc) (n : Nat) : Nat × Nat := (n / max 1 d.rowBytes, n % max 1 d.rowBytes)

/-- Bytes of a descriptor's copy. -/
def xTotal (d : XDesc) : Nat := d.rows * d.rowBytes

/-- The run that a channel copies now: the oldest with bytes left and no failure. -/
def xRun (x : XChan) : Option XRun :=
  x.begun.find? (fun e => e.done.isNone && !e.noted && e.ecc.isNone && decide (e.sent < xTotal e.desc))

/-- Length of a run's next write: within its row, in an aligned block of 256 bytes. -/
def xLen (e : XRun) : Nat :=
  let p := xPlace e.desc e.sent
  min (e.desc.rowBytes - p.2) (256 - (e.desc.dstAddr + p.1 * e.desc.dstStride + p.2) % 256)

/-- The channel may write now: its state, at most 64 writes outstanding, and tokens for the whole write. -/
def mayExport (s : State) (x : XChan) : Bool :=
  smcUp s && (x.state = .running || x.state = .stopping || x.state = .error) && decide ((x.begun.map (fun e => e.owed)).sum < 64) &&
    (xRun x).any (fun e => decide (4 * xLen e ≤ x.bucket))

/-- Change the run that a channel copies now. -/
def mapRun (f : XRun → XRun) (l : List XRun) : List XRun :=
  match l with
  | [] => []
  | e :: r => if e.done.isNone && !e.noted && e.ecc.isNone && decide (e.sent < xTotal e.desc) then f e :: r else e :: mapRun f r

/-- Reads of side memory that the pouncer's SMC_ECC makes return an error (Table 16-4): the first uncorrectable one, and the corrected
ones before it. -/
def readErrors (s : State) (l : List Nat) : (Option Nat × List Nat) × State :=
  l.foldl (fun a b =>
    if a.1.1.isSome then a
    else match pounceFires 9 ((locate a.2 b).1 / 2) a.2 with
      | (some arg, s1) => (if arg % 2 = 1 then (some b, a.1.2) else (none, a.1.2 ++ [b]), s1)
      | (none, s1) => (a.1, s1)) ((none, []), s)

/-- The next write of a channel: its granules are read, one read a granule, up to the first that is uncorrectable, as poison or the pouncer
makes it; the bytes before that one are written. -/
def exportWrite (c : Nat) (s : State) : State :=
  let x := xchan s c
  match xRun x with
  | none => s
  | some e =>
    let p := xPlace e.desc e.sent
    let src := (List.range (xLen e)).map (fun i => xSrc s e.desc p.1 (p.2 + i))
    let reads := ((src.mapIdx (fun i a => (i, a))).filter (fun w => (w.1 = 0 && p.2 = 0) || w.2 % 512 = 0)).map (fun w => w.2)
    let (hit, s0) := readErrors s reads
    let good := src.takeWhile (fun a => decide (a / 512 ∉ s.smc.poison) && decide (some (a / 512) ≠ hit.1.map (fun b => b / 512)))
    let n := good.length
    let s1 := (reads.filter (fun a => a ∈ good)).foldl (fun a w => touch 1 w none a) s0
    let ecc := if n < src.length then some (e.sent + n) else none
    let s2 := putX c { x with bucket := x.bucket - 4 * n, served := (s.xdma.map (fun w => w.2.served)).foldl max 0 + 1
                              begun := mapRun (fun y => { y with
                                  sent := y.sent + n, ecc, owed := if n = 0 then y.owed else y.owed + 1
                                  injected := ecc.isSome && hit.1.isSome, fixed := y.fixed ++ hit.2 }) x.begun } s1
    if n = 0 then s2
    else emit (.hostWrite (xdmaCfg s c).accessId (e.desc.dstAddr + p.1 * e.desc.dstStride + p.2) (good.map (memRead s.smc.mem))) s2

/-- The channel whose write is next: of those that may write, the one served longest ago. -/
def nextExport (s : State) : Option Nat :=
  (s.xdma.foldl (fun (a : Option (Nat × Nat)) e =>
    if mayExport s e.2 = false then a
    else match a with
      | some (_, t) => if e.2.served < t then some (e.1, e.2.served) else a
      | none => some (e.1, e.2.served)) none).map (fun e => e.1)

/-- Up to `n` writes. -/
def exportWrites (n : Nat) (s : State) : State :=
  match n with
  | 0 => s
  | n + 1 => match nextExport s with
    | none => s
    | some c => exportWrites n (exportWrite c s)

/-- One ccyc: the buckets refill at BUS_SHARE × 0.25 bytes, to 4,096 bytes, and SYP takes what writes it takes. -/
def exportCcyc (s : State) : State :=
  let s1 := { s with xdma := tmap s.xdma (fun c x => match tget s.cfg.xdma c with
    | some b => { x with bucket := min 16384 (x.bucket + b.busShare) }
    | none => x) }
  if (nextExport s1).isSome ∧ halting s1 = false then exportWrites (Config.sypWrites s1.tsu.now) s1 else s1

/-- A data write of a channel is answered: the oldest outstanding one. -/
def writeAnswered (l : List XRun) : List XRun :=
  match l with
  | [] => []
  | e :: r => if 0 < e.owed then { e with owed := e.owed - 1 } :: r else e :: writeAnswered r

end Sys2Proof.Machine
end

