-- ==== Sys2Proof/Machine/Lif.lean ====
section
/-! DEFINITION. What LIF drives on each lane (Table 3-2) and what each port's transmit stream carries (R62, R66, R69 to R73, R76).
The line coding within a stream is IEEE 802.3's, which Table 3-3 names: log 11. -/
namespace Sys2Proof.Machine

/-- LANE_RATE_CLASS of a port's lanes (Table 3-2). -/
def rateClass (mode : Nat) : Nat :=
  match mode with
  | 0x20 => 0
  | 0x21 => 1
  | 0x22 => 2
  | _ => match speedOf mode / lanesOf mode with
    | 25 => 0
    | 50 => 1
    | 100 => 2
    | _ => 3

/-- LANE_RS544: the 25 Gb/s class at 26.5625 Gb/s. -/
def lineRs544 (b : PortSetBody) : Bool := rateClass b.portMode = 0 && b.portMode < 0x20 && b.fecMode = 3

/-- The base page of a port's committed configuration: the one ability of its mode, its FEC and AN_PAUSE (R72). -/
def basePage (cfg : Cfg) (p : Nat) : AnPage :=
  match tget cfg.port p with
  | some b => { abilities := [b.portMode], fecs := [b.fecMode], pause := (b.portFlags >>> 8).setWidth 2 }
  | none => {}

/-- What a port sends (R73, R76). Before UP the reconciliation sublayer sees a local fault and sends remote fault ordered sets
(DEDUCED, log 11). -/
def streamOf (s : State) (p n : Nat) : Stream :=
  let x := portOf s p
  let busy : Stream := if x.line.isSome then .frames else .idle
  match x.link with
  | .disabled => .off
  | .an => if n = p then .page x.page else .off
  | .training => .training (laneOf s n).partnerReq (laneOf s n).ltStatus (laneOf s n).ltRxReady
  | .anIncompatible => .off
  | .up => busy
  | .remoteFault => if mayTransmit s p then busy else .idle
  | .localFault => if mayTransmit s p then busy else .remoteFault
  | .noSignal => .remoteFault
  | .aligning => .remoteFault

/-- The pins of one lane of a configured port: logical lane k goes to lane PORT + k (R71). -/
def lanePins (s : State) (e : Nat × PortSetBody) (n : Nat) : LifPins :=
  { enable := true, rate := rateClass e.2.portMode, rs544 := lineRs544 e.2, logical := n - e.1, stream := streamOf s e.1 n
    invert := bit (laneFlags s.cfg n) 0, update := (laneOf s n).txUpdate }

/-- Every lane of a configured port of a powered group is driven; the others have LANE_TX_ENABLE 0 (R62), and from the second ccyc of a
freeze every lane has (Table 16-2). -/
def drivePins (s : State) : State :=
  { s with lif := if s.dbg.freeze.any (fun z => z.f + 2 ≤ s.tsu.now) then [] else s.cfg.port.flatMap (fun e =>
      if portPowered s e.1 then (portLanes s.cfg e.1).map (fun n => (n, lanePins s e n)) else []) }

end Sys2Proof.Machine
end

