-- ==== Sys2Proof/Machine/Police.lean ====
section
/-! DEFINITION. Policing (08 R209 to R212): token buckets, the decision, and what is taken at the decision and at the frame's end. -/
namespace Sys2Proof.Machine

/-- Tokens refilled to tick `n` (R183): a rate of r kb/s accrues r units a tick. -/
def refill (tok : Int) (last burst rate n : Nat) : Int := min (burst * 800000) (tok + rate * (n - last : Nat))

/-- floor(tok ÷ 800,000) saturated to 32 bits signed (R184, R212). -/
def tokenBytes (tok : Int) : Int := max (-2147483648) (min 2147483647 (Int.fdiv tok 800000))

/-- Tokens of a charged context refilled to this tick; a context that a commit has cleared since fills by the frame's own epoch. -/
def polNow (s : State) (c : Charge) : Int :=
  let x := tgetD s.pols c.ctx {}
  let b := (tget s.cfg.policer c.ctx).getD c.body
  refill x.tok x.last b.burst b.rate s.tsu.tick

/-- A context fails a charge (R211); one with lost storage drops every frame (Table 18-6). -/
def polFails (s : State) (c : Charge) : Bool :=
  c.body.rate = 0 || (tgetD s.pols c.ctx {}).dead || polNow s c < c.k * 800000

/-- Take a passed frame's charge: K now, the rest of L at its end in ccyc `at_` (R211, Table 8-9). -/
def polTake (at_ : Nat) (c : Charge) (s : State) : State :=
  let x := tgetD s.pols c.ctx {}
  tally (passedCtr c.ctx)
    { s with pols := tput s.pols c.ctx { x with tok := polNow s c - c.k * 800000, last := s.tsu.tick
                                                owed := if c.k < c.l then x.owed ++ [(at_, c.l - c.k)] else x.owed } }

def polTakes (at_ : Nat) (cs : List Charge) (s : State) : State := cs.foldl (fun a c => polTake at_ c a) s

/-- DROPPED of each context that fails. -/
def polDrops (cs : List Charge) (s : State) : State := (cs.filter (polFails s)).foldl (fun a c => tally (droppedCtr c.ctx) a) s

/-- Police a frame that ends in ccyc `at_`: none where it is dropped, with DROPPED counted for each failing context (R211). -/
def police (at_ : Nat) (cs : List Charge) (s : State) : Bool × State :=
  if cs.any (polFails s) then (false, polDrops cs s) else (true, polTakes at_ cs s)

end Sys2Proof.Machine
end

