-- ==== Sys2Proof/Machine/Sa.lean ====
section
/-! DEFINITION. Security associations (05): their keys, states, PN and the frames bound to them (R121, R124, R125). -/
namespace Sys2Proof.Machine

/-- Key of an SC: PG × 512 + DIRECTION × 256 + SC_INDEX. -/
def scKey (pg dir sc : Nat) : Nat := pg * 512 + dir * 256 + sc

/-- Key of an SA. -/
def saKey (pg dir sc an : Nat) : Nat := dir * 32768 + pg * 1024 + sc * 4 + an

def saOfKey (s : State) (k : Nat) : Sa := tgetD s.sas k {}

/-- INDEX of an SA's counters: PG × 1,024 + SC_INDEX × 4 + AN. -/
def saIndex (k : Nat) : Nat := k % 32768

/-- Word `j` of an SA's entry in the key array: SAK, GHASH subkey and salt (R121), in that order (log 16). -/
def keyWord (a : Sa) (j : Nat) : BitVec 64 :=
  BitVec.ofNat 64 ((a.sak.toNat + a.hkey.toNat * 2 ^ 256 + a.salt.toNat * 2 ^ 384) / 2 ^ (64 * j))

def saCode : SaSt → Nat
  | .empty => 0 | .installed => 1 | .active => 2 | .retiring => 3 | .exhausted => 4

/-- The EVENT record of an SA change (Table 14-5, 0x0009). -/
def saEvent (k code : Nat) (s : State) : State :=
  eventRecord 0x0009 (lsbBytes 1 (k % 32768 / 1024) ++ lsbBytes 1 (k / 32768) ++ lsbBytes 2 (k % 1024 / 4) ++
    lsbBytes 1 (k % 4) ++ lsbBytes 1 code) s

/-- Write an SA, removing an EMPTY one, and record a change of its state. -/
def putSa (k : Nat) (a : Sa) (s : State) : State :=
  let old := (saOfKey s k).state
  let s1 := { s with sas := if a.state = .empty then tdel s.sas k else tput s.sas k a }
  if old = a.state then s1 else saEvent k (saCode a.state) s1

/-- Take an SA out of use: EMPTY with its key overwritten, or RETIRING while frames are bound (R124, R126). -/
def retireSa (k : Nat) (s : State) : State :=
  let a := saOfKey s k
  if a.state = .empty then s
  else if a.bound = 0 then putSa k {} s else putSa k { a with state := .retiring } s

/-- One frame fewer is bound to an SA; a RETIRING one left without any becomes EMPTY (R124). -/
def unbindSa (k : Nat) (s : State) : State :=
  let a := saOfKey s k
  if a.state = .retiring ∧ a.bound ≤ 1 then putSa k {} s else putSa k { a with bound := a.bound - 1 } s

/-- 75% of the PN space (R125). -/
def pnThreshold (xpn : Bool) : Nat := if xpn then 0xC000000000000000 else 0xC0000000
/-- The last PN. -/
def pnLast (xpn : Bool) : Nat := if xpn then 2 ^ 64 - 1 else 2 ^ 32 - 1

/-- NEXT_PN moves to `n`: EXHAUST_FLAG and the group's source at 75%, EXHAUSTED past the last PN (R125). -/
def movePn (k n : Nat) (s : State) : State :=
  let a := saOfKey s k
  let flag := pnThreshold a.xpn ≤ n
  let s1 := if flag && !a.exhaust then raiseEvent (0x810 + k % 32768 / 1024) s else s
  putSa k { a with nextPn := min n (2 ^ 64 - 1), exhaust := a.exhaust || flag
                   state := if pnLast a.xpn < n ∧ a.state = .active then .exhausted else a.state } s1

/-- The four ANs of an SC. -/
def saKeysOf (pg dir sc : Nat) : List Nat := (List.range 4).map (saKey pg dir sc)

end Sys2Proof.Machine
end

