-- ==== Sys2Proof/Machine/RxBus.lean ====
section
/-! DEFINITION. What RXM does in each ccyc for the frames it has (04): staging and borrowed buffers of held frames (R101 to R105), the
ICV verdict (R128, R140), and the receive segment bus (R106 to R111). -/
namespace Sys2Proof.Machine

/-! ## Receive groups -/

def rxGroup (s : State) (g : Nat) : RxGroup := tgetD s.rx.groups g {}

def putRx (g : Nat) (x : RxGroup) (s : State) : State := { s with rx := { s.rx with groups := tput s.rx.groups g x } }

/-- The ccyc in which byte `n` of a frame, the first being 1, has arrived. -/
def byteCcyc (i : RxInfo) (n : Nat) : Nat := i.sfdCcyc + lineCcyc i.speed n

/-- Bytes of a frame that have arrived. -/
def arrived (s : State) (i : RxInfo) : Nat := min i.frameLen ((s.tsu.now - i.sfdCcyc) * (i.speed * 5) / 64)

/-- The ccyc of the carder's decision on a frame (R98). -/
def carderCcyc (i : RxInfo) : Nat := byteCcyc i (min 256 i.frameLen)

/-- Two frames of one port that R100 keeps in order. -/
def sameStream (a b : RxInfo) : Bool := a.port = b.port && a.dest = b.dest && a.preempt = b.preempt

/-! ## Refusal (R140 to R142) -/

/-- A frame is refused: its reason, class and SA counters (R141), its record, its sample, an armed freeze. `sc`: the SC's
or SA's key that Table 5-13 names for the reason. -/
def refuseFrame (port reason : Nat) (cls : Option Nat) (sc : Option Nat) (r : Rec) (sample : Option Fields) (s : State) : State :=
  let s1 := tally (refuseCtr port (reason - 1)) s
  let s2 := match cls with | some c => tally (classRefusedCtr (c / 64) (c % 64)) s1 | none => s1
  let s3 := match reason, sc with
    | 2, _ => tally (inPktsBadTagCtr port) s2
    | 3, _ => tally (inPktsUnknownScCtr port) s2
    | 4, some k => tally (scDropsCtr k) s2
    | 5, some k => tally (inPktsLateCtr (saIndex k)) s2
    | 6, some k => tally (inPktsInvalidCtr (saIndex k)) s2
    | _, _ => s2
  armedFires 2 (endSample 3 0 0xFFFF sample (record r s3))

/-! ## Held frames and their buffers (R99 to R105) -/

/-- Bytes of the buffers a frame holds. -/
def heldRoom (s : State) (h : HeldFrame) : Nat :=
  (h.buffers.map (fun b => match s.rx.ladder[b.1]? with | some p => p.size | none => 0)).sum

/-- Bytes of a held frame that have come beyond its buffers. -/
def unstored (s : State) (h : HeldFrame) : Nat := arrived s h.info - heldRoom s h

/-- Change one waiting frame. -/
def mapHeld (pg id : Nat) (f : HeldFrame → HeldFrame) (s : State) : State :=
  let g := rxGroup s pg
  putRx pg { g with frames := g.frames.map (fun e => if e.1 = id then (e.1, f e.2) else e) } s

/-- A waiting frame's place is given up. -/
def removeHeld (pg id : Nat) (s : State) : State :=
  let g := rxGroup s pg
  putRx pg { g with frames := g.frames.filter (fun e => e.1 ≠ id) } s

/-- Buffers are returned in the ccyc after this one (R105). -/
def freeBuffers (pg : Nat) (l : List (Nat × Nat)) (s : State) : State :=
  let g := rxGroup s pg
  putRx pg { g with returns := g.returns ++ l.map (fun b => (s.tsu.now + 1, b.1, b.2)) } s

/-- The handles whose ccyc has come go back to their pools. -/
def returnDue (pg : Nat) (s : State) : State :=
  let g := rxGroup s pg
  emits ((g.returns.filter (fun x => x.1 ≤ s.tsu.now)).map (fun x =>
      Output.bpiFree pg (match s.rx.ladder[x.2.1]? with | some p => p.number | none => 0) x.2.2))
    (putRx pg { g with returns := g.returns.filter (fun x => s.tsu.now < x.1) } s)

/-- A frame bound to an SA is bound no longer (R124). -/
def unbindHeld (h : HeldFrame) (s : State) : State :=
  match h.sa with
  | some k => unbindSa k s
  | none => s

/-- A held frame is dropped (R102, R360): its SA unbound, its buffers returned. -/
def dropHeld (pg id ctr : Nat) (h : HeldFrame) (s : State) : State :=
  freeBuffers pg h.buffers (endSample 4 0 0xFFFF h.info.sample (unbindHeld h (tally ctr (removeHeld pg id s))))

/-- The same, of a frame by its id. -/
def exhaustHeld (pg id ctr : Nat) (s : State) : State :=
  match (rxGroup s pg).frames.find? (fun e => e.1 = id) with
  | none => s
  | some (_, h) => dropHeld pg id ctr h s

/-- A frame's bytes of this ccyc enter the group's staging, or it is dropped (R105). -/
def stageHeld (pg : Nat) (e : Nat × HeldFrame) (s : State) : State :=
  let others := (((rxGroup s pg).frames.filter (fun x => x.1 ≠ e.1)).map (fun x => x.2.staged)).sum
  if others + unstored s e.2 ≤ 65536 then mapHeld pg e.1 (fun h => { h with staged := unstored s h }) s
  else exhaustHeld pg e.1 (rxVerifyHoldExhaustedCtr e.2.info.port) s

/-- The held frames of a group that the carder has decided on, in port order. -/
def heldByPort (s : State) (pg : Nat) : List (Nat × HeldFrame) :=
  (List.range 16).flatMap (fun i => (rxGroup s pg).frames.filter (fun e =>
    decide (e.2.info.port % 16 = i) && decide (e.2.need ≠ 0) && decide (e.2.decided ≤ s.tsu.now)))

/-- Frames whose bytes exceed their buffers need one more from this ccyc on (R101). -/
def noteNeeds (pg : Nat) (s : State) : State :=
  (heldByPort s pg).foldl (fun a e =>
    if e.2.asking ∨ e.2.needAt.isSome ∨ unstored a e.2 = 0 then a
    else mapHeld pg e.1 (fun h => { h with needAt := some a.tsu.now }) a) s

/-- The frame whose need came first, ties to the lower port (R101, Table 4-12). -/
def firstNeed (l : List (Nat × HeldFrame)) : Option (Nat × HeldFrame) :=
  l.foldl (fun a e => match e.2.needAt, a with
    | none, _ => a
    | some _, none => some e
    | some n, some b =>
      let m := b.2.needAt.getD 0
      if n < m ∨ (n = m ∧ e.2.info.port < b.2.info.port) then some e else a) none

/-- The request of this ccyc, with fewer than 16 outstanding (R101). -/
def askNext (pg : Nat) (s : State) : State :=
  let g := rxGroup s pg
  if g.asked = some s.tsu.now ∨ 16 ≤ g.requests.length ∨ halting s then s
  else
    match firstNeed g.frames with
    | none => s
    | some (id, h) =>
      match s.rx.ladder[h.pool]? with
      | none => s
      | some p =>
        emit (.bpiReq pg p.number) (mapHeld pg id (fun x => { x with asking := true, needAt := none })
          (putRx pg { g with asked := some s.tsu.now
                             requests := g.requests ++ [{ at_ := s.tsu.now, pool := h.pool, port := h.info.port, frame := id }] } s))

/-- Needs of this ccyc are noted and its request is issued. -/
def pumpBpi (pg : Nat) (s : State) : State := askNext pg (noteNeeds pg s)

/-- The ICV verified: counters and NEXT_PN (R128, Table 5-13). -/
def verified (h : HeldFrame) (s : State) : State :=
  match h.sa with
  | none => s
  | some k =>
    let x := saIndex k
    let s1 := count (if h.crypted then inOctetsDecryptedCtr x else inOctetsValidatedCtr x) h.secure (tally (inPktsOkCtr x) s)
    if (saOfKey s1 k).nextPn ≤ h.pn then movePn k (h.pn + 1) s1 else s1

/-- The ICV compare of a held frame completes: it is verified, or refused with ICV_FAIL and its buffers returned (R99, R140). -/
def icvCompare (pg id : Nat) (h : HeldFrame) (s : State) : State :=
  if h.icvOk then verified h (mapHeld pg id (fun x => { x with settled := true }) s)
  else
    let r := h.info.refuse.getD { kind := 0x11, time := h.info.stamp, epoch := h.info.epoch, body := [] }
    freeBuffers pg h.buffers (refuseFrame h.info.port 6 h.info.cls h.sa r h.info.sample (unbindHeld h (removeHeld pg id s)))

/-- The verdicts of this ccyc. -/
def icvDue (pg : Nat) (s : State) : State :=
  (rxGroup s pg).frames.foldl (fun a e =>
    if e.2.need = 0 ∨ e.2.settled ∨ a.tsu.now < e.2.due then a else icvCompare pg e.1 e.2 a) s

/-! ## The receive segment bus (R106 to R111) -/

/-- The end metadata word (Table 4-8). -/
def endMeta (i : RxInfo) (tag : Nat) : Fields :=
  let b := BitVec.ofNat 6 i.flags
  [(14, i.frameLen), (14, i.bytes.length), (4, 0)] ++ (List.range 6).map (fun n => (1, if bit b n then 1 else 0)) ++
    [(2, 0), (2, if i.abort then 2 else if i.flags ≠ 0 then 1 else 0), (6, 0), (16, tag)]

/-- Slices of a frame on CPI. -/
def sliceCount (b : BusFrame) : Nat := max 1 (ceilDiv b.info.bytes.length 64)

/-- Slices of a frame that may have left by the end of this ccyc: the full ones whose bytes have come, and the last two ccyc after
the last byte, or one after the fault that cut the frame (Tables 4-9, 4-12). -/
def released (s : State) (b : BusFrame) : Nat :=
  if s.tsu.now < b.ready then 0
  else if b.whole ∨ byteCcyc b.info b.info.frameLen + (if 32 ≤ b.info.flags then 1 else 2) ≤ s.tsu.now then sliceCount b
  else min (sliceCount b - 1) ((arrived s b.info - 4 * b.info.stripped.length) / 64)

/-- The next slice of a frame, in place `slot` of this ccyc. -/
def nextSlice (s : State) (pg slot : Nat) (b : BusFrame) : CpiSlice :=
  { pg, ccyc := s.tsu.now, slot, port := b.info.port % 16, bytes := (b.info.bytes.drop (64 * b.sent)).take 64
    sof := if b.sent = 0 then some ([(16, b.info.epoch), (16, b.tag)] ++ b.info.smeta) else none
    eof := if b.sent + 1 = sliceCount b then some (endMeta b.info b.tag) else none }

/-- `k` slices of a frame from place `slot` on. -/
def sendSlices (k pg slot : Nat) (b : BusFrame) (s : State) : BusFrame × State :=
  match k with
  | 0 => (b, s)
  | k + 1 => sendSlices k pg (slot + 1) { b with sent := b.sent + 1 } (emit (.cpiSlice (nextSlice s pg slot b)) s)

/-- A frame starts on CPI: its FRAME_TAG, its CLI record, and what waits for the record's rule version (R110 to R112). -/
def startBus (pg : Nat) (b : BusFrame) (s : State) : BusFrame × State :=
  let g := rxGroup s pg
  let i := b.info
  let s1 := emit (.cliRecord pg ([(16, g.tag), (16, i.epoch)] ++ i.cli)) (putRx pg { g with tag := (g.tag + 1) % 65536 } s)
  let acc := i.accept.map (fun (r : Rec) => { r with flags := r.flags + 4
                                                     body := r.body.take 30 ++ lsbBytes 2 g.tag ++ r.body.drop 32 })
  let smp := i.sample.map (fun l => l.mapIdx (fun n (e : Nat × Nat) => if n = 2 then (2, g.tag) else e))
  let w : CliWait := { pg, tag := g.tag, at_ := s.tsu.now, sample := smp, accept := acc }
  ({ b with tag := g.tag }, { s1 with rx := { s1.rx with cli := s1.rx.cli ++ [w] } })

/-- A frame's last slice has left: its counts (R113). -/
def endBus (i : RxInfo) (s : State) : State :=
  if i.flags = 0 then count (rxBytesOkCtr i.port) i.frameLen (tally (rxFramesOkCtr i.port) s)
  else if i.abort then tally (rxErroredDroppedCtr i.port) s
  else tally (rxErroredDeliveredCtr i.port) s

def putBus (pg id : Nat) (b : BusFrame) (s : State) : State :=
  let g := rxGroup s pg
  putRx pg { g with bus := g.bus.map (fun e => if e.1 = id then (id, b) else e) } s

def removeBus (pg id : Nat) (s : State) : State :=
  let g := rxGroup s pg
  putRx pg { g with bus := g.bus.filter (fun e => e.1 ≠ id) } s

/-- An earlier frame of the same stream has not left (R100). -/
def behind (g : RxGroup) (id : Nat) (i : RxInfo) : Bool :=
  g.frames.any (fun e => decide (e.1 < id) && sameStream e.2.info i) || g.bus.any (fun e => decide (e.1 < id) && sameStream e.2.info i)

/-- A frame's turn on the bus from place `a.1` on (R107). A frame whose error is found before it starts is dropped (R88). -/
def busTurn (pg : Nat) (a : Nat × State) (id : Nat) : Nat × State :=
  let s := a.2
  match (rxGroup s pg).bus.find? (fun e => e.1 = id) with
  | none => a
  | some (_, b) =>
    let n := min (4 - a.1) (released s b - b.sent)
    if b.sent = 0 ∧ b.info.abort ∧ b.info.errAt ≤ s.tsu.now then
      (a.1, freeBuffers pg b.buffers (endSample 4 0 0xFFFF b.info.sample (tally (rxErroredDroppedCtr b.info.port) (removeBus pg id s))))
    else if n = 0 ∨ (b.sent = 0 ∧ behind (rxGroup s pg) id b.info) then a
    else
      let (b1, s1) := if b.sent = 0 then startBus pg b s else (b, s)
      let (b2, s2) := sendSlices n pg a.1 b1 s1
      (a.1 + n, if b2.sent = sliceCount b2 then freeBuffers pg b2.buffers (endBus b2.info (removeBus pg id s2)) else putBus pg id b2 s2)

/-- The bus in one ccyc: frames in progress first, then starts, each in the order of their SFDs (R107). -/
def busCcyc (pg : Nat) (s : State) : State :=
  let l := (rxGroup s pg).bus
  ((l.filter (fun e => e.2.sent ≠ 0) ++ l.filter (fun e => e.2.sent = 0)).foldl (fun a e => busTurn pg a e.1) (0, s)).2

/-- A frame joins the bus, kept in the order of the SFDs. -/
def joinBus (pg id : Nat) (b : BusFrame) (s : State) : State :=
  let g := rxGroup s pg
  putRx pg { g with bus := g.bus.filter (fun e => e.1 < id) ++ [(id, b)] ++ g.bus.filter (fun e => id < e.1) } s

/-- A frame on its way to CPI at a fault: the bytes that have come still leave, and it ends with ERR_FAULT, delivered so or aborted
(Table 4-12). -/
def cutBus (s : State) (b : BusFrame) : BusFrame :=
  let i := b.info
  let n := arrived s i
  if b.whole ∨ i.frameLen ≤ n then b
  else
    { b with info := { i with frameLen := n, bytes := i.bytes.take (n - 4 * i.stripped.length), flags := i.flags % 32 + 32
                              abort := !bit (portFlags s.cfg i.port) 2, errAt := s.tsu.now } }

/-- Every frame of a group on its way to CPI at a fault. -/
def cutBuses (pg : Nat) (s : State) : State :=
  let g := rxGroup s pg
  (g.bus.filter (fun e => !(decide (cutBus s e.2 = e.2)))).foldl (fun a e => tally (rxFaultCutCtr e.2.info.port) a)
    (putRx pg { g with bus := g.bus.map (fun e => (e.1, cutBus s e.2)) } s)

/-! ## One ccyc -/

/-- What RXM does in this ccyc for a group; in a freeze it only sends what has come (Table 16-2). -/
def rxGroupCcyc (pg : Nat) (s : State) : State :=
  if halting s then busCcyc pg (returnDue pg s) else
  let s1 := (heldByPort s pg).foldl (fun a e => stageHeld pg e a) (returnDue pg s)
  busCcyc pg (icvDue pg (pumpBpi pg s1))

/-- What RXM does in this ccyc. -/
def rxCcyc (s : State) : State := s.rx.groups.foldl (fun a g => rxGroupCcyc g.1 a) s

end Sys2Proof.Machine
end

