-- ==== Sys2Proof/Machine/Clock.lean ====
section
/-! DEFINITION. The passing of time before a command (log 3): the time base (R218, R220), the tick count (R185), eligibility in the scheduling tree (R174), interrupt
levels and presentation (R266 to R282), event conditions (R291), pause counts (R214) and idle slots (R299). -/
namespace Sys2Proof.Machine

/-! ## Interrupt presentation (R269, R270, R275, R276) -/

/-- Whether an access ID is frozen (R400). -/
def accFrozen (s : State) (id : Nat) : Bool := (tgetD s.acc id {}).frozen

def target (s : State) (t : Nat) : TgtSt := tgetD s.jic.targets t {}

def putTarget (t : Nat) (x : TgtSt) (s : State) : State :=
  { s with jic := { s.jic with targets := tput s.jic.targets t x } }

/-- An event source (Table 11-1): its pending bit is its level. -/
def isEventSource (n : Nat) : Bool := (0x400 ≤ n && n ≤ 0x899) || n = 0xFE0

/-- The source is in service on some stack. -/
def inService (s : State) (n : Nat) : Bool := s.jic.targets.any (fun t => t.2.stack.any (fun e => e.1 = n))

/-- A host target that is configured and not frozen (R275, R284). -/
def targetUsable (s : State) (t : Nat) : Bool :=
  match tget s.cfg.irqTarget t with
  | some b => !accFrozen s b.accessId
  | none => false

/-- Order of R275 among targets: sleeping last, lower running priority, TARGET itself, lower number. -/
def routeRank (s : State) (home t : Nat) : Nat :=
  let x := target s t
  (if x.state = 2 then 2 ^ 20 else 0) + (match x.stack with | (_, p) :: _ => (p + 1) * 2 ^ 12 | [] => 0) +
    (if t = home then 0 else 2 ^ 10) + t

/-- The target with the least rank. -/
def leastBy (f : Nat → Nat) (l : List Nat) : Option Nat :=
  l.foldl (fun a t => match a with
    | none => some t
    | some u => if f t < f u then some t else some u) none

/-- Where a source is routed now (R275). CPX is 0x20. -/
def routeOf (s : State) (n : Nat) (b : IrqSourceBody) : Option Nat :=
  if bit b.sourceFlags 1 then
    let home := (tget s.cfg.irqTarget b.target).map (·.accessId)
    let cands := (s.cfg.irqTarget.filter (fun t => some t.2.accessId = home && targetUsable s t.1)).map (·.1)
    match tget s.jic.stay n with
    | some t => if t ∈ cands then some t else leastBy (routeRank s b.target) cands
    | none => leastBy (routeRank s b.target) cands
  else if b.target = 0x20 then some 0x20
  else if targetUsable s b.target then some b.target else none

/-- Eligibility of a source at target `t` in ccyc `c` (R269, R281, R282). -/
def eligibleAt (s : State) (c t n : Nat) (b : IrqSourceBody) : Bool :=
  let x := target s t
  let thr := match tget s.cfg.irqTarget t with | some q => q.threshold | none => 0
  levelIn (tgetD s.jic.levels n []) (c - 2) &&
  (tgetD s.jic.enable n false || tgetD s.jic.kept n false) &&
  !inService s n &&
  (thr ≤ b.priority && (match x.stack with | (_, p) :: _ => p < b.priority | [] => true)) &&
  (tgetD s.jic.modDue n 0 ≤ c || x.state = 1 || (x.state = 2 && !bit b.sourceFlags 0)) &&
  decide (routeOf s n b = some t)

/-- The eligible source of highest priority, ties to the lower number. -/
def bestAt (s : State) (c t : Nat) : Option Nat :=
  (s.cfg.irqSource.foldl (fun (a : Option (Nat × Nat)) e =>
    if eligibleAt s c t e.1 e.2 then
      match a with
      | some (_, p) => if p < e.2.priority then some (e.1, e.2.priority) else a
      | none => some (e.1, e.2.priority)
    else a) none).map (·.1)

/-- A ROUTE_LP source that ceases to be eligible at the target it was presented to may go to another (R275). -/
def endStays (c : Nat) (s : State) : State :=
  { s with jic := { s.jic with stay := s.jic.stay.filter (fun e =>
      match tget s.cfg.irqSource e.1 with
      | some b => bit b.sourceFlags 1 && eligibleAt s c e.2 e.1 b
      | none => false) } }

/-- A source with ROUTE_LP stays with the target that it is presented to. -/
def noteStay (t n : Nat) (s : State) : State :=
  match tget s.cfg.irqSource n with
  | some b => if bit b.sourceFlags 1 then { s with jic := { s.jic with stay := tput s.jic.stay n t } } else s
  | none => s

/-- CPX's firmware claims an event source, which starts its moderation (R268, R274). -/
def cpxClaim (c n : Nat) (s : State) : State :=
  let m := match tget s.cfg.irqSource n with | some b => b.modTime | none => 0
  let s1 := if m = 0 then s else { s with jic := { s.jic with modDue := tput s.jic.modDue n (c + nsUp m) } }
  clearEvent n s1

/-- A latched level is withdrawn before the claim (IRQ_VANISH of Table 16-4): it falls for one ccyc. -/
def vanish (n : Nat) (s : State) : State :=
  let h := tgetD s.jic.levels n []
  if levelNow h = false then s
  else if isEventSource n then setLevel n false s
  else { s with jic := { s.jic with levels := tput s.jic.levels n ((s.tsu.now + 1, true) :: (s.tsu.now, false) :: levelTrim h s.tsu.now) } }

/-- The occasion of IRQ_VANISH: the source has been latched. -/
def vanishes (n : Nat) (s : State) : State :=
  match pounceFires 7 n s with
  | (some _, s1) => vanish n s1
  | (none, s1) => s1

/-- Re-choose the presented source of target `t` in ccyc `c`; IRQ_OUT and WAKE_REQ follow one ccyc later (R270, R282). CPX's firmware
takes an event source at once (log 23). -/
def presentOne (c t : Nat) (s : State) : State :=
  let x := target s t
  let best := if s.mode.zeroized || (t < 0x20 && !targetUsable s t) then none else bestAt s c t
  let gone : Option Nat :=
    match x.presented with
    | some (m, _) =>
      if best ≠ some m && !isEventSource m && !levelIn (tgetD s.jic.levels m []) (c - 2) then some m else x.withdrawn
    | none => x.withdrawn
  let now : Option (Nat × Nat) :=
    match best, x.presented with
    | some n, some (m, l) => if n = m then some (m, l) else some (n, c)
    | some n, none => some (n, c)
    | none, _ => none
  let out := x.presented.isSome && !s.mode.zeroized
  let fresh : Bool := decide (now.map (fun e => e.1) ≠ x.presented.map (fun e => e.1))
  let x1 := { x with presented := now, withdrawn := gone, irqOut := out, wakeReq := decide (x.state = 2) && now.isSome && out }
  let s1 := if gone = x.withdrawn then s
    else match gone with | some m => { s with jic := { s.jic with kept := tdel s.jic.kept m } } | none => s
  match now with
  | some (n, _) =>
    if t = 0x20 ∧ isEventSource n then cpxClaim c n s1
    else
      let s2 := noteStay t n (if x1 = x then s1 else putTarget t x1 s1)
      if fresh then vanishes n s2 else s2
  | none => if x1 = x then s1 else putTarget t x1 s1

/-- Source 0xFE0, fixed to CPX at priority 15 (Table 11-1): CPX takes it at once (log 23). -/
def takeFault (c : Nat) (s : State) : State :=
  if levelIn (tgetD s.jic.levels 0xFE0 []) (c - 2) then clearEvent 0xFE0 s else s

/-- Presentation at ccyc `c` for every configured target and CPX. -/
def presentAt (s : State) (c : Nat) : State :=
  takeFault c ((s.cfg.irqTarget.map (fun (e : Nat × IrqTargetBody) => e.1) ++ [0x20]).foldl (fun a t => presentOne c t a) (endStays c s))

/-! ## Levels and conditions of the ccyc just ended -/

/-- Level of a host-ring source (R243): some ring that names it has A ≠ W or is in ERROR. -/
def ringLevel (s : State) (n : Nat) : Bool :=
  s.cfg.ring.any (fun r => r.2.irqSource = n &&
    (let x := tgetD s.hpe.rings r.1 {}; x.a ≠ x.w || x.state = 4))

/-- Take the levels of every level source (R266, R273). -/
def syncLevels (s : State) : State :=
  let s1 := s.cfg.ring.foldl (fun a r => if r.2.irqSource < 0x400 then setLevel r.2.irqSource (ringLevel s r.2.irqSource) a else a) s
  let s2 := s.err.units.foldl (fun a u => setLevel (0x8C0 + u.1) u.2.first.isSome a) s1
  s.jic.soft.foldl (fun a b => setLevel b.1 b.2 a) s2

/-- A port group's instances of an event count: not while it is gated, fenced or waking (R291). -/
def evCounts (s : State) (g : Nat) : Bool := decide (groupState s g = .powered) || decide (groupState s g = .gating)

/-- Port group of an instance of an event. -/
def evGroup (e : Nat × Nat) : Option Nat :=
  if e.1 ≤ 5 then (if e.2 < 512 then some (groupOf e.2) else none) else if e.1 = 6 ∨ e.1 = 0xA then some e.2 else none

/-- The conditions of Table 12-2 that hold, as (event, unit number), but SVE_BUSY. -/
def heldConditions (s : State) : List (Nat × Nat) :=
  s.cfg.port.flatMap (fun e =>
    let p := e.1
    let x := portOf s p
    (if x.link = .localFault ∨ x.link = .remoteFault then [(1, p)] else []) ++
    (if 512 ≤ p then [] else
      (if gateHeld s p then [(2, p)] else []) ++
      (if (List.range 16).any (fun c => classPaused s p c) then [(3, p)] else []) ++
      (if freeAllot s p < 512 then [(4, p)] else []) ++
      (if preemptActive s p then [(5, p)] else []))) ++
  s.rx.groups.flatMap (fun g => if g.2.frames.any (fun f => f.2.asking || f.2.needAt.isSome) then [(6, g.1)] else []) ++
  s.cfg.ring.flatMap (fun r => if s.hpe.staged.any (fun f => f.ring = r.1 && f.ready ≤ s.tsu.now) then [(7, r.1)] else []) ++
  (if 1024 ≤ s.cpx.queue.length then [(8, 0)] else []) ++
  s.esh.engines.flatMap (fun g => if g.2.lateAt = some s.tsu.now then [(0xA, g.1)] else [])

/-- Those of instances that count. -/
def conditions (s : State) : List (Nat × Nat) := (heldConditions s).filter (fun e => (evGroup e).all (evCounts s))

/-- Counting mode of an event: 0 edge, 1 level (R291, Table 12-2). -/
def eventMode (s : State) (e : Nat) : Nat := tgetD s.cfg.evMode e (if e = 1 ∨ e = 7 ∨ e = 8 ∨ e = 0xA then 0 else 1)

/-- Edges since the previous ccyc: a condition that a wake finds at 1 is none. -/
def countEdges (s : State) : State :=
  let c := conditions s
  let s1 := c.foldl (fun a e => if eventMode s e.1 = 0 ∧ e ∉ s.tel.evPrev ∧ (evGroup e).all (fun g => decide (g ∈ s.tel.evUp)) then
    tally (evtCountCtr e.1 e.2) a else a) s
  { s1 with tel := { s1.tel with evPrev := c, evUp := (List.range 32).filter (evCounts s) } }

/-- The EVENT record of a mode change (R365, Table 14-5 code 0x0002), whose cause's coding is free (log 22). Perturbations
stop at entry into DRAIN, MAINTENANCE and QUARANTINE (R380). -/
def noteMode (s : State) : State :=
  let m := modeCode s
  if m = s.mode.shown then s
  else
    let s1 := eventRecord 0x0002 (lsbBytes 1 s.mode.shown ++ lsbBytes 1 m ++
      lsbBytes 2 (Config.modeCause s.mode.shown m).toNat) s
    { s1 with mode := { s1.mode with shown := m }
              dbg := if m = 6 ∨ m = 8 ∨ m = 9 then { s1.dbg with pounce := [] } else s1.dbg }

/-- What the command before leaves to be seen. -/
def note (s0 : State) : State :=
  let s := numberErrors s0
  if clocked s then countEdges (syncLevels (noteMode s)) else { s with mode := { s.mode with shown := modeCode s } }

/-! ## Advancing -/

/-- The time base gains this ccyc's INC; N and a slew's progress follow (R185, R218, R220). -/
def advanceTime (s : State) : State :=
  let t := (s.tsu.time + gain s 1).toNat
  let k := t / (10 * nsUnit) - s.tsu.time / (10 * nsUnit)
  { s with tsu := { s.tsu with now := s.tsu.now + 1, time := t, inc0 := none, tick := s.tsu.tick + k
                               tickAt := if k = 0 then s.tsu.tickAt else s.tsu.now + 1
                               slew := s.tsu.slew.map (fun w => { w with done := slewDone s 1, fresh := false }) } }

/-- PAUSE_CCYC of every port: its timers that run in this ccyc (Table 8-8). -/
def countPause (s : State) : State :=
  s.ports.foldl (fun a p => p.2.pause.foldl (fun a q =>
    if q.2.any (fun w => w.1 ≤ s.tsu.now && s.tsu.now ≤ w.2) then tally (pauseCcycCtr p.1 q.1) a else a) a) s

/-- Pause timers that ended before this ccyc are dropped. -/
def endedPauses (s : State) : State :=
  { s with ports := tmap s.ports (fun _ x =>
      { x with pause := (tmap x.pause (fun _ l => l.filter (fun w => s.tsu.now ≤ w.2))).filter (fun e => !e.2.isEmpty) }) }

/-- What R211 takes at the end of a frame that was passed before it: from the bucket as it then is (Table 8-9). -/
def takeOwed (s : State) : State :=
  { s with pols := tmap s.pols (fun _ x =>
      if x.owed.any (fun o => o.1 ≤ s.tsu.now) then
        { x with tok := x.tok - (((x.owed.filter (fun o => o.1 ≤ s.tsu.now)).map (fun o => o.2 * 800000)).sum : Nat)
                 owed := x.owed.filter (fun o => s.tsu.now < o.1) }
      else x) }

/-- Level-mode events (R291). -/
def countLevels (s : State) : State :=
  s.tel.evPrev.foldl (fun a e => if eventMode s e.1 = 1 then tally (evtCountCtr e.1 e.2) a else a) s

/-- SVE_BUSY: SVE's load is not kept, so that its condition is free (log 4). -/
def countSve (s : State) : State :=
  let hit := Config.sveBusy s.tsu.now && (eventMode s 9 = 1 || !Config.sveBusy (s.tsu.now - 1))
  let k := evtCountCtr 9 0
  { s with tel := { s.tel with ctr := if hit then tput s.tel.ctr k (total s k + 1) else s.tel.ctr } }

/-- Idle slots of one port in this ccyc (R299, R29): a frame on the line is classed at its end. -/
def idleSlots (p speed : Nat) (s : State) : State :=
  let x := portOf s p
  if x.line.isSome ∨ (p < 512 ∧ fencedOrAbsent s (groupOf p)) then s
  else
    let acc := x.slotFrac + speed * 80
    let used := min acc x.overhead
    let n := (acc - used) / 1024
    let s1 := putPort p { x with slotFrac := (acc - used) % 1024, overhead := x.overhead - used } s
    let k := if 512 ≤ p then slotFrontCtr p else if backHeld s p then slotBackCtr p else slotFrontCtr p
    count k n (count (slotTotalCtr p) n s1)

def countSlots (s : State) : State :=
  s.cfg.port.foldl (fun a p => idleSlots p.1 (speedOf p.2.portMode) a) s

/-- One ccyc of a port that waits: a port in NO_SIGNAL whose lanes are ready starts its bring-up; a local fault past its
hold restarts from NO_SIGNAL (Table 3-6, R75). -/
def bringUp (s : State) (p : Nat) (x : Port) : Port :=
  if thas s.cfg.port p = false ∨ portPowered s p = false then x
  else if x.link = .noSignal ∧ lanesReady s p then
    { x with link := firstState s.cfg p, since := s.tsu.now, page := basePage s.cfg p, monitor := 0, highErr := false }
  else if x.link = .localFault ∧ x.faultAt = none then { x with link := .noSignal, since := s.tsu.now }
  else x

def bringUps (s : State) : State := { s with ports := tmap s.ports (bringUp s) }

/-! ## The sweep in progress (R188, R302) -/

/-- Entry of a leaf as this ccyc has it: depth and delay. -/
def sweepEntry (s : State) (leaf : Nat) : List Byte :=
  let w := leafWord s leaf
  lsbBytes 4 w.backlog ++ lsbBytes 4 (if w.backlogged then (((s.tsu.now : Int) - w.headEnq) % 2 ^ 32).toNat else 0)

/-- The block's 32-byte header. -/
def sweepHead (r : SweepRun) (seq : Nat) : List Byte :=
  lsbBytes 1 3 ++ lsbBytes 1 0 ++ lsbBytes 2 r.epoch ++ lsbBytes 4 (seq % 2 ^ 32) ++ lsbBytes 4 r.base ++ lsbBytes 4 r.count ++
    lsbBytes 4 r.ccyc ++ lsbBytes 4 ((toTime r.time).sec % 2 ^ 32) ++ lsbBytes 4 (toTime r.time).ns ++
    lsbBytes 4 (r.changed.getD 0xFFFFFFFF)

/-- A completed sweep goes to the batt's place and, where a region selects it, to FRC (R302, R336). -/
def endSweep (r : SweepRun) (s : State) : State :=
  let head := sweepHead r s.tel.sweepSeq
  let s1 := { s with tel := { s.tel with sweep := head ++ r.taken, sweepRun := none, sweepSeq := s.tel.sweepSeq + 1 } }
  let wanted : Bool := match regionFor s 0x16 with
    | some (n, _) => (tgetD s.frc.regions n {}).state ≠ .stopped && (tgetD s.frc.regions n {}).state ≠ .unconfigured
    | none => false
  if wanted = false then s1
  else if s.frc.sweep.isSome then { s1 with frc := { s1.frc with skipped := s1.frc.skipped + 1 } }
  else { s1 with frc := { s1.frc with sweep := some (head, r.taken, 0) } }

/-- The sweep reads the leaves of this ccyc, 64 at most. -/
def sweepRead (s : State) : State :=
  match s.tel.sweepRun with
  | none => s
  | some r =>
    let n := min 64 (r.count - r.next)
    let r1 := { r with next := r.next + n
                       taken := r.taken ++ (List.range n).flatMap (fun i => sweepEntry s (r.base + r.next + i))
                       changed := if r.changed = none ∧ s.cpx.epoch ≠ r.epoch then some r.next else r.changed }
    if r1.next < r1.count then { s with tel := { s.tel with sweepRun := some r1 } } else endSweep r1 s

/-- The totals that a clear-on-read reader of this ccyc sees (Table 0-4), and the captures that TS_READ does (Table 9-6). -/
def keepTotals (s : State) : State :=
  { s with tel := { s.tel with ctrWas := s.tel.ctr }, tsu := { s.tsu with capsWas := s.tsu.caps } }

/-- The ladder's check of every unit in every ccyc (R412). -/
def ageErrors (s : State) : State := { s with err := { s.err with units := tmap s.err.units (fun _ e => aged s.tsu.now e) } }

/-- In the ccyc after f the frames being received are cut (Table 16-2); those that FAE holds go at the stop of the clocks. -/
def freezeCut (s : State) : State :=
  if s.dbg.freeze.any (fun z => z.f + 1 = s.tsu.now) then (List.range 32).foldl (fun a g => cutBuses g a) s else s

/-- What ends this ccyc while the shared domain runs, and begins the next. -/
def nextCcyc (s : State) : State :=
  let s1 := advanceTime (recordCcyc (countSve (countPause (countLevels (countSlots (refreshReady s))))))
  battRead (keepTotals (ageErrors (exportCcyc (smcCcyc (rxCcyc (freezeCut (sweepRead (bringUps (presentAt (takeOwed (endedPauses s1)) s1.tsu.now)))))))))

/-- One ccyc passes. -/
def tick (s : State) : State :=
  let s1 := note s
  if s1.dbg.frozen then { s1 with dbg := { s1.dbg with frozenFor := s1.dbg.frozenFor + 1 } }
  else if clocked s1 then nextCcyc s1 else s1

/-- `d` ccyc pass. -/
def advance (d : Nat) (s : State) : State :=
  match d with
  | 0 => s
  | d + 1 => advance d (tick s)

/-- Eligibility and the lanes' pins as this ccyc has them. -/
def settled (s : State) : State := drivePins (if clocked s then refreshReady s else s)

/-- Time passes up to a command: its outputs start empty (log 6). -/
def start (d : Nat) (s : State) : State := settled (advance d { s with out := [] })

end Sys2Proof.Machine
end

