-- ==== Sys2Proof/Machine/Operands.lean ====
section
/-! DEFINITION. What a command is to the check of R46: its opcode, kind, authority, body fields, ranges, the objects it names,
its consistency checks and its effect (`Op`); headers, replies and their trailers (Tables 2-1, 2-4, 2-5). -/
namespace Sys2Proof.Machine

/-- Kinds of R49. -/
inductive Kind where
  | q | s | i | p
deriving DecidableEq, Repr

/-- Authority codes of R50. -/
inductive Auth where
  | a | o | m
deriving DecidableEq, Repr

/-- Status codes (Table 2-8). -/
def stOk : Nat := 0x0000
def stStaged : Nat := 0x0001
def stPending : Nat := 0x0002
def stBadVersion : Nat := 0x0101
def stBadLength : Nat := 0x0102
def stReservedSet : Nat := 0x0103
def stUnknownOpcode : Nat := 0x0104
def stBadParameter : Nat := 0x0105
def stOutOfRange : Nat := 0x0106
def stAuthFailed : Nat := 0x0201
def stUnknownKey : Nat := 0x0202
def stNotAuthorised : Nat := 0x0203
def stReplayed : Nat := 0x0204
def stExpired : Nat := 0x0205
def stWrongBoot : Nat := 0x0206
def stWrongMode : Nat := 0x0301
def stWrongLifecycle : Nat := 0x0302
def stBusy : Nat := 0x0303
def stSealed : Nat := 0x0304
def stEpochMismatch : Nat := 0x0305
def stDigestMismatch : Nat := 0x0306
def stTooSoon : Nat := 0x0307
def stTimePast : Nat := 0x0308
def stNotStaged : Nat := 0x0309
def stFenced : Nat := 0x030A
def stNoResource : Nat := 0x0401
def stOverload : Nat := 0x0402
def stInternal : Nat := 0x0501
def stNoRoute : Nat := 0x0601
def stTargetTimeout : Nat := 0x0602

/-- What carrying a command out gives: the state, the status and the reply body. `later`: the reply comes when the effect
is complete (R49). `sk`: the session whose tag the reply carries (SESSION_OPEN, R39). -/
structure Done where
  state  : State
  status : Nat := 0
  detail : Nat := 0
  body   : Fields := []
  later  : Bool := false
  sk     : Option (Nat × Digest) := none

/-- A refusal's status and DETAIL. -/
abbrev Refused := Option (Nat × Nat)

/-- A command as R46 and R444 see it. -/
structure Op where
  opcode    : Nat
  unknown   : Bool := false                 -- no table lists the opcode (R60)
  kind      : Kind
  auth      : Auth
  session   : Bool := false                 -- session only (R50)
  signed    : Bool := false                 -- signature only
  body      : Fields := []
  lenOk     : Bool := true                  -- the body has a length that the opcode takes (R34)
  rsvZero   : Bool := true                  -- no reserved bit or byte of the body is set (R8)
  ranges    : List (Nat × Bool) := []       -- (offset, within its own range), in body order
  groups    : List Nat := []                -- port groups named
  ports     : List Nat := []                -- ports or lanes named
  lifecycle : State → Bool := fun _ => true -- lifecycle and debug level permit it (Table 17-9)
  mode      : State → Refused := fun _ => none   -- further limits of the mode (WRONG_MODE, BUSY)
  check     : ReplyCtx → State → Refused := fun _ _ => none   -- consistency, in the order of its rules
  edit      : Option Edit := none           -- kind S: what it stages
  run       : ReplyCtx → State → Done := fun _ s => { state := s }

/-- First refusal of a list. -/
def firstOf (l : List Refused) : Refused := l.foldr (fun r a => match r with | some x => some x | none => a) none

/-- Refuse with a status when a condition fails. -/
def need (ok : Bool) (status : Nat) (detail : Nat := 0) : Refused := if ok then none else some (status, detail)

/-- BAD_PARAMETER at an offset when a condition fails. -/
def param (ok : Bool) (detail : Nat := 0) : Refused := need ok stBadParameter detail

/-- AUTH_KIND of a command (Table 2-2). -/
def authKind (z : Zelgen) : Nat := field z.flags 7 6

/-- REPLY_ON_ERROR. -/
def replyOnError (z : Zelgen) : Bool := bit z.flags 5

/-- The 32 bytes of the command's header (Table 2-1). -/
def headerOf (op : Op) (z : Zelgen) : List Byte :=
  fieldBytes [(1, z.version), (1, z.flags.toNat), (2, op.opcode), (2, z.bodyLen), (1, z.target.toNat), (1, z.rsv7.toNat),
    (8, z.sequence), (4, z.bootTag.toNat), (2, z.keyId), (6, z.notAfter), (4, z.correlation.toNat)]

/-- Header and body, the message that is signed, tagged and hashed (R37, R54). -/
def messageOf (op : Op) (z : Zelgen) : List Byte :=
  headerOf op z ++ fieldBytes op.body ++ List.replicate (z.bodyLen - fieldLen op.body) 0

/-- The command with the opcode it carries: an opcode that no table lists comes on a NOP row with its body (R60). -/
def seenAs (op : Op) (z : Zelgen) : Op :=
  match z.undefined with
  | some (code, body) => { opcode := code, unknown := true, kind := .q, auth := .a, body := body.map (fun b => (1, b.toNat)) }
  | none => op

/-- SK of the open session that a KEY_ID names. -/
def sessionSk (s : State) (keyId : Nat) : Option Digest :=
  if 0x8000 ≤ keyId then (tget s.cpx.sessions (keyId - 0x8000)).map (fun x => x.sk) else none

/-- What the reply needs of a command. One with a session tag is answered under its session, as long as that is open (R39): a
tag that names no open session has no key to answer under (DEDUCED, log 42). -/
def ctxOf (op : Op) (z : Zelgen) (w : Waiting) (s : State) : ReplyCtx :=
  { origin := z.origin, opcode := op.opcode, sequence := z.sequence, correlation := z.correlation, keyId := z.keyId
    onError := replyOnError z, key := if authKind z = 2 then sessionSk s z.keyId else none
    digest := Config.sha384 (messageOf op z), header := headerOf op z, slot := w.slot, path := w.path }

/-- The bytes of a command as it is forwarded: header, body, and the trailer, whose content the row does not carry (log 1). -/
def commandBytes (op : Op) (z : Zelgen) : List Byte :=
  messageOf op z ++ (if authKind z = 0 then [] else
    fieldBytes [(1, z.trailer.typ), (1, z.trailer.rsv), (2, z.trailer.len)] ++
      (List.range (z.trailer.len - 4)).map (Config.trailerByte (messageOf op z)))

/-- What the reply to a command that is not queued needs, read from the command's own bytes (R39, R43). -/
def bytesCtx (origin : Origin) (cmd : List Byte) (s : State) : ReplyCtx :=
  let n := 32 + numAt cmd 4 2
  { origin, opcode := numAt cmd 2 2, sequence := numAt cmd 8 8, correlation := BitVec.ofNat 32 (numAt cmd 28 4)
    keyId := numAt cmd 20 2, onError := false
    key := if field (cmd.getD 1 0) 7 6 = 2 then sessionSk s (numAt cmd 20 2) else none
    digest := Config.sha384 (cmd.take n), header := cmd.take 32 }

/-! ## Replies (R39, R40) -/

/-- BODY_LEN of a reply: its fields rounded up to 4. -/
def replyBodyLen (body : Fields) : Nat := roundUp (fieldLen body) 4

/-- The reply header's bytes (Table 2-5). -/
def replyHeader (r : Reply) : List Byte :=
  fieldBytes [(1, 1), (1, (if r.degraded = 0 then 0 else 128) + (if r.quarantine then 64 else 0)), (2, r.opcode),
    (2, replyBodyLen r.body), (1, r.inst), (1, r.mode), (8, r.sequence), (2, r.status), (2, r.degraded.toNat),
    (2, r.epoch), (2, r.detail), (4, r.correlation.toNat), (4, 0)]

/-- The message a reply's session tag covers. -/
def replyMessage (r : Reply) : List Byte := replyHeader r ++ padTo (replyBodyLen r.body) (fieldBytes r.body)

/-- A reply as built in state `s` (R39, R40). -/
def mkReply (ctx : ReplyCtx) (status detail : Nat) (body : Fields) (s : State) : Reply :=
  let r : Reply :=
    { opcode := ctx.opcode, quarantine := s.mode.quarantine, inst := instOf s, mode := modeCode s
      sequence := ctx.sequence, status, degraded := degraded s, epoch := s.cpx.epoch
      detail := if status = stBadParameter ∨ status = stOutOfRange then detail else 0
      correlation := ctx.correlation, body, trailer := .digest ctx.digest }
  match ctx.key with
  | some k => { r with trailer := .tag ctx.keyId (Config.hmac384 (msbBytes 48 k.toNat) (replyMessage r)) }
  | none => r

/-- The trailer of a reply (Table 2-4). -/
def trailerBytes (t : ReplyTrailer) : List Byte :=
  match t with
  | .tag _ v => fieldBytes [(1, 2), (1, 0), (2, 52), (48, v.toNat)]
  | .digest v => fieldBytes [(1, 3), (1, 0), (2, 52), (48, v.toNat)]

/-- The bytes of a whole reply. -/
def replyBytes (r : Reply) : List Byte := replyMessage r ++ trailerBytes r.trailer

/-- Bytes of a whole reply. -/
def replyLen (r : Reply) : Nat := 32 + replyBodyLen r.body + 52

/-- Ring key: RING_TYPE × 256 + RING. -/
def ringKey (t n : Nat) : Nat := t * 256 + n

def ringOf (s : State) (k : Nat) : Ring := tgetD s.hpe.rings k {}

def putRing (k : Nat) (r : Ring) (s : State) : State := { s with hpe := { s.hpe with rings := tput s.hpe.rings k r } }

def repliesOf (s : State) (n : Nat) : List (Nat × Option Reply) := tgetD s.hpe.replies n []

def putReplies (n : Nat) (l : List (Nat × Option Reply)) (s : State) : State :=
  { s with hpe := { s.hpe with replies := tput s.hpe.replies n l } }

/-- Take a place among the replies of reply ring `n` (R48). -/
def takeSlot (n : Nat) (s : State) : Nat × State :=
  let s1 := putReplies n (repliesOf s n ++ [(s.hpe.nextId, none)]) s
  (s.hpe.nextId, { s1 with hpe := { s1.hpe with nextId := s1.hpe.nextId + 1 } })

/-- A frame that CPX or HLK has ready on a port (R146, R147, R181). -/
def queueHost (source port : Nat) (bytes : List Byte) (s : State) : State :=
  let k := hostKey source port
  let f : HostFrame := { id := s.hpe.nextId, len := bytes.length, enq := s.tsu.now, bytes }
  { s with esh := { s.esh with host := tput s.esh.host k (tgetD s.esh.host k [] ++ [f]) }
           hpe := { s.hpe with nextId := s.hpe.nextId + 1 } }

/-- Drop the place a reply would have taken. -/
def dropSlot (n : Nat) (slot : Option Nat) (s : State) : State :=
  match slot with
  | some i => putReplies n ((repliesOf s n).filter (fun e => e.1 ≠ i)) s
  | none => s

/-- The manager a worker has joined. -/
def managerOf (s : State) : Option (Nat × Partner) := s.hlk.manager

/-- Addresses and what stands before the Ethertype of a frame that CPX sends on a port. -/
def etherHead (s : State) (port : Nat) (mac : Mac) (tags : List Byte) : List Byte :=
  msbBytes 6 mac.toNat ++ msbBytes 6 (macOf s.cfg port).toNat ++ tags

/-- An HLK frame to a partner at `mac` on a port (R419, R420): `frame` is its header, payload and TAG. -/
def sendHlk (port : Nat) (mac : Mac) (kind : Nat) (frame : Fields) (s : State) : State :=
  queueHost 0x0101 port (etherHead s port mac [] ++ msbBytes 2 0x88B6 ++ fieldBytes frame) (emit (.hlkFrame port mac kind frame) s)

/-- The header of an HLK frame (Table 19-1). -/
def hlkHeader (s : State) (kind dst len seq : Nat) : Fields :=
  [(1, 1), (1, kind), (1, instOf s), (1, dst), (2, len), (2, 0), (8, seq)]

/-- Header, payload and TAG under the link key (R420, R421). -/
def hlkTagged (s : State) (lk : Digest) (kind dst len seq : Nat) (payload : Fields) : Fields :=
  let l := hlkHeader s kind dst len seq ++ payload
  l ++ [(48, (Config.hmac384 (msbBytes 48 lk.toNat) (fieldBytes l)).toNat)]

/-- A frame from a manager to its worker `i`, with the next LINK_SEQ. -/
def sendWorker (i kind len : Nat) (payload : Fields) (s : State) : State :=
  match tget s.hlk.workers i with
  | none => s
  | some w =>
    sendHlk w.port w.mac kind (hlkTagged s w.lk kind i len (w.txSeq + 1) payload)
      { s with hlk := { s.hlk with workers := tput s.hlk.workers i { w with txSeq := w.txSeq + 1 } } }

/-- A frame from a worker to the manager it has joined. -/
def sendManager (kind len : Nat) (payload : Fields) (s : State) : State :=
  match s.hlk.manager with
  | none => s
  | some (i, m) =>
    sendHlk m.port m.mac kind (hlkTagged s m.lk kind i len (m.txSeq + 1) payload)
      { s with hlk := { s.hlk with manager := some (i, { m with txSeq := m.txSeq + 1 }) } }

/-- Bytes as fields of one byte each. -/
def rawFields (bs : List Byte) : Fields := bs.map (fun b => (1, b.toNat))

/-- The UDP datagram of a reply, from the port's own address and UDP port to the command's source (Table 2-7); its checksums are
written as it is sent (R153). -/
def udpReply (s : State) (p : Nat) (n : NetPath) (r : Reply) : List Byte :=
  let (own, port) := match tget s.cfg.transport p with | some b => (b.ipAddr, b.udpPort) | none => (0, 0)
  let free := fun (i : Nat) => (Config.ipOpen s.hpe.nextId i).toNat
  let u := fieldBytes [(2, port), (2, n.udp), (2, 8 + replyLen r), (2, 0)] ++ replyBytes r
  if n.v4 then
    fieldBytes [(2, 0x0800), (1, 0x45), (1, free 1), (2, 28 + replyLen r), (1, free 4), (1, free 5), (1, free 6 / 64 % 2 * 64), (1, 0),
      (1, free 8), (1, 17), (2, 0), (4, own.toNat % 2 ^ 32), (4, n.ip.toNat % 2 ^ 32)] ++ u
  else
    fieldBytes [(2, 0x86DD), (1, 0x60 + free 0 % 16), (1, free 1), (1, free 2), (1, free 3), (2, 8 + replyLen r), (1, 17), (1, free 7),
      (16, own.toNat), (16, n.ip.toNat)] ++ u

/-- A network reply is queued on the command's port, with the command's tags; while the port has no link it is dropped and
counted (R61, Table 2-25; the table names no counter: log 40). -/
def sendNet (p : Nat) (n : NetPath) (rest : List Byte) (s : State) : State :=
  if (portOf s p).link = .up then queueHost 0x0100 p (etherHead s p n.mac n.tags ++ rest) s
  else tally (zelgenNetDropsCtr p) s

/-- The replies that CPX still holds for a port whose link is lost are dropped and counted (R61). -/
def dropReplies (p : Nat) (s : State) : State :=
  let k := hostKey 0x0100 p
  count (zelgenNetDropsCtr p) (tgetD s.esh.host k []).length { s with esh := { s.esh with host := tdel s.esh.host k } }

/-- Send a reply by its command's transport (Table 2-7, R44, R260). -/
def deliverReply (ctx : ReplyCtx) (r : Reply) (s : State) : State :=
  match ctx.origin with
  | .ring n =>
    if (ringOf s (ringKey 3 n)).state ≠ 2 then
      dropSlot n ctx.slot (tally (ringRepliesLostCtr (ringKey 3 n)) (emit (.reply ctx.origin r) s))
    else
      let s1 := emit (.reply ctx.origin r) s
      match ctx.slot with
      | some i => putReplies n ((repliesOf s1 n).map (fun e => if e.1 = i then (i, some r) else e)) s1
      | none => s1
  | .eth p => sendNet p ctx.path (msbBytes 2 0x88B5 ++ replyBytes r) (emit (.reply ctx.origin r) s)
  | .udp p => sendNet p ctx.path (udpReply s p ctx.path r) (emit (.reply ctx.origin r) s)
  | .hlk _ => sendManager 6 (replyLen r) (rawFields (replyBytes r)) (emit (.reply ctx.origin r) s)

/-- Whether a reply stays away: R44 leaves an authentication refusal over the network unanswered. -/
def unanswered (ctx : ReplyCtx) (status : Nat) : Bool :=
  (match ctx.origin with | .eth _ => true | .udp _ => true | _ => false) && decide (0x0201 ≤ status) && decide (status ≤ 0x0206)

/-- A refusal that R44 leaves unanswered is counted at its port. -/
def countRefused (ctx : ReplyCtx) (s : State) : State :=
  match ctx.origin with
  | .eth p => tally (zelgenNetRefusedCtr p) s
  | .udp p => tally (zelgenNetRefusedCtr p) s
  | _ => s

/-- Answer a command: no reply where REPLY_ON_ERROR asks for none (Table 2-2) or R44 forbids one. -/
def answer (ctx : ReplyCtx) (status detail : Nat) (body : Fields) (s : State) : State :=
  if ctx.onError && status ≤ 2 then
    match ctx.origin with
    | .ring n => dropSlot n ctx.slot s
    | _ => s
  else if unanswered ctx status then countRefused ctx s
  else deliverReply ctx (mkReply ctx status detail body s) s

/-- The COMMAND record of a checked command (R334, Table 14-4). -/
def commandRecord (ctx : ReplyCtx) (status : Nat) (s : State) : State :=
  let (t, c) : Nat × Nat := match ctx.origin with
    | .ring n => (0, n)
    | .eth _ => (1, 0)
    | .udp _ => (2, 0)
    | .hlk u => (3, u)
  record { kind := 0x13, time := s.tsu.time, epoch := s.cpx.epoch
           source := (match ctx.origin with | .eth p => p | .udp p => p | _ => 0xFFFF)
           body := lsbBytes 1 t ++ lsbBytes 1 c ++ lsbBytes 2 status ++ ctx.header ++ msbBytes 48 ctx.digest.toNat ++
             List.replicate 12 0 } s

end Sys2Proof.Machine
end

