-- ==== Sys2Proof/Machine/Zelgen.lean ====
section
/-! DEFINITION. The check of R46 in its order, sequence and replay (R47), the limits of the mode (R58), the parameter
check (R444), staging (R54, R57), and the carrying out of a command (R48, R49). -/
namespace Sys2Proof.Machine

/-! ## Keys (Table 2-3, R50) -/

/-- Who stands behind a KEY_ID. -/
structure Who where
  manager : Bool
  anchor  : Bool := false
  mask    : Option (BitVec 16) := none
  session : Option Session := none

/-- The live key or open session that KEY_ID names. -/
def whoOf (s : State) (keyId : Nat) : Option Who :=
  if keyId = 0x0001 then some { manager := false, anchor := true }
  else if 0x8000 ≤ keyId then
    (tget s.cpx.sessions (keyId - 0x8000)).map (fun x => { manager := x.manager, mask := some x.mask, session := some x })
  else if 0x0100 ≤ keyId then
    (tget s.hood.delegated keyId).map (fun d => { manager := false, mask := some d.mask })
  else (tget s.hood.slots keyId).map (fun k => { manager := k.manager })

/-- A command came as COMMAND from the joined manager (R423). -/
def fromManager (s : State) (o : Origin) : Bool :=
  match o, managerOf s with
  | .hlk u, some (m, _) => u = m
  | _, _ => false

/-- This block is a worker (R418). -/
def isWorker (s : State) : Bool := match s.cfg.role with | some r => r.role = 2 | none => false

/-- The key's class, or the session's or certificate's mask, permits the opcode (R46, R50, R388, R423, R425). A delegated key
carries no session secret. -/
def permits (op : Op) (z : Zelgen) (w : Who) (s : State) : Bool :=
  let mgr := w.manager || (w.anchor && hoodBlank s)
  (match w.mask with | some m => bit m (op.opcode / 256) | none => true) &&
  (op.auth = .a || (!(w.anchor && !hoodBlank s) && (op.auth = .o || mgr))) &&
  (!op.session || w.session.isSome) && (!op.signed || w.session.isNone) &&
  (!(isWorker s && w.manager) || fromManager s z.origin) &&
  !(op.opcode = 0x0010 && 0x0100 ≤ z.keyId)

/-- The combinations of R36. -/
def keyFormOk (z : Zelgen) : Bool :=
  (match authKind z with
   | 0 => z.keyId = 0
   | 1 => (0x0001 ≤ z.keyId && z.keyId ≤ 0x0007) || (0x0010 ≤ z.keyId && z.keyId ≤ 0x00FF) ||
          (0x0100 ≤ z.keyId && z.keyId ≤ 0x013F)
   | 2 => 0x8000 ≤ z.keyId && z.keyId ≤ 0x803F
   | _ => false) && (!replyOnError z || authKind z = 2)

/-- `fresh` of R47. -/
def fresh (s : State) (z : Zelgen) : Bool :=
  z.sequence ≠ 0 &&
  (if 0x8000 ≤ z.keyId then
    match tget s.cpx.sessions (z.keyId - 0x8000) with
    | some x => x.seqHigh < z.sequence || (x.seqHigh - z.sequence < 64 && !bit x.window (x.seqHigh - z.sequence))
    | none => false
   else tgetD s.cpx.keySeq z.keyId 0 < z.sequence)

/-- The session's window after accepting a sequence. -/
def Session.accept (x : Session) (q : Nat) : Session :=
  if x.seqHigh < q then { x with seqHigh := q, window := setBit (x.window <<< (q - x.seqHigh)) 0 }
  else { x with window := setBit x.window (x.seqHigh - q) }

/-- `consume` of R46 and R47; a session whose sequence reaches 2^64 − 1 ends (R52). -/
def consume (z : Zelgen) (s : State) : State :=
  if 0x8000 ≤ z.keyId then
    let n := z.keyId - 0x8000
    match tget s.cpx.sessions n with
    | none => s
    | some x =>
      let l := if z.sequence = 2 ^ 64 - 1 then tdel s.cpx.sessions n else tput s.cpx.sessions n (x.accept z.sequence)
      { s with cpx := { s.cpx with sessions := l } }
  else { s with cpx := { s.cpx with keySeq := tput s.cpx.keySeq z.keyId z.sequence } }

/-- The trailer verifies (R37, R38): its form, its reserved byte and its cryptographic verdict (log 1). That a nonzero reserved byte
1 of the trailer fails here is the model's choice (log 39). -/
def trailerOk (z : Zelgen) : Bool :=
  z.trailer.rsv = 0 &&
  (if authKind z = 1 then
    z.trailer.typ = 1 && z.trailer.len = 4728 && z.trailer.ecdsaOk && z.trailer.mldsaOk
   else z.trailer.typ = 2 && z.trailer.len = 52 && z.trailer.tagOk)

/-! ## Mode and parameters -/

/-- In LOCKED (R58). -/
def lockedOk (op : Op) : Bool :=
  let g := op.opcode / 256
  g = 0 || g = 0x0D || g = 0x0E || g = 0x0F || op.opcode = 0x0C01 ||
    (g = 1 && op.ports ≠ [] && op.ports.all isService)

/-- A named port is being retrained (R58, R81). -/
def touchesRetrain (op : Op) (s : State) : Bool :=
  op.ports.any (fun p => match portOfLane s.cfg p with
    | some q => (portOf s q).retrain
    | none => (portOf s p).retrain)

/-- Limits of the mode (R58), then of the lifecycle (Table 17-9), then those the command's own rules state. -/
def modeCheck (op : Op) (s : State) : Refused :=
  firstOf
    [need (!s.mode.quarantine || !(op.kind = .s || op.opcode = 0x0020 || op.opcode = 0x0010)) stWrongMode,
     need (modeCode s ≠ 3 || lockedOk op) stWrongMode,
     need (op.lifecycle s) stWrongLifecycle,
     op.mode s,
     need (s.cpx.activation.isNone) stBusy,
     need (!touchesRetrain op s) stBusy]

/-- Stages 1 and 2 of R444, the presence of side memory (R305), then the opcode's own checks. -/
def paramCheck (op : Op) (ctx : ReplyCtx) (s : State) : Refused :=
  match op.ranges.find? (fun r => !r.2) with
  | some (off, _) => some (stOutOfRange, off)
  | none =>
    if op.kind ≠ .q ∧ op.opcode ≠ 0x0C02 ∧ op.opcode ≠ 0x0C03 ∧
        (op.groups.any (fencedOrAbsent s) ∨ op.ports.any (portFenced s)) then some (stFenced, 0)
    else if op.opcode / 256 = 0x0B ∧ op.opcode ≠ 0x0B08 ∧ s.smc.present = false then some (stBadParameter, 0)
    else op.check ctx s

/-! ## The order of R46 -/

/-- How the check of a command ends. -/
inductive Verdict where
  | dropped (s : State)
  | forwarded (s : State)
  | refused (status detail : Nat) (s : State)
  | passed (key : Option Digest) (signer : Nat) (s : State)

/-- The commands that R46 carries out without authentication. -/
def isOpen (op : Op) : Bool := op.opcode = 0x0001 || op.opcode = 0x0002

/-- Rate limit of R45: 100 answers in a second, per port. None: the request is dropped. -/
def unauthLimit (p : Nat) (s : State) : Option State :=
  let (sec, n) := tgetD s.cpx.unauth p (0, 0)
  let n := if sec = seconds s then n else 0
  if 100 ≤ n then none
  else some { s with cpx := { s.cpx with unauth := tput s.cpx.unauth p (seconds s, n + 1) } }

/-- Forwarding to a worker (R42, R420). None: NO_ROUTE. -/
def forward (op : Op) (ctx : ReplyCtx) (z : Zelgen) (s : State) : Option State :=
  let t := field z.target 5 0
  match s.cfg.role, tget s.hlk.workers t with
  | some r, some w =>
    if r.role = 1 ∧ w.state = 1 ∧
        82 + z.carrierLen ≤ (match portCfg s w.port with | some b => b.mtu | none => 0) then
      let s1 := sendWorker t 5 z.carrierLen (rawFields (commandBytes op z)) (emit (.forward t ctx) s)
      some { s1 with cpx := { s1.cpx with forwarded := s1.cpx.forwarded ++ [{ ctx, target := t, due := s1.tsu.now + ms 100 }] } }
    else none
  | _, _ => none

/-- From the key check to the authentication check (R46); the sequence is consumed on success. -/
def authCheck (op : Op) (z : Zelgen) (s : State) : Verdict :=
  match whoOf s z.keyId with
  | none => .refused stUnknownKey 0 s
  | some w =>
    if permits op z w s = false then .refused stNotAuthorised 0 s
    else if s.mode.quarantine ∧ !(authKind z = 1 && (w.manager || (w.anchor && hoodBlank s))) then
      .refused stNotAuthorised 0 s
    else if fresh s z = false then .refused stReplayed 0 s
    else if trailerOk z = false then .refused stAuthFailed 0 s
    else .passed (w.session.map (·.sk)) (match w.session with | some x => x.keyId | none => z.keyId) (consume z s)

/-- The whole order of R46 up to the consumption of the sequence. -/
def checkZ (op : Op) (ctx : ReplyCtx) (z : Zelgen) (s : State) : Verdict :=
  if z.version ≠ 1 then .refused stBadVersion 0 s
  else if z.carrierLen ≠ 32 + z.bodyLen + (if authKind z = 0 then 0 else z.trailer.len) ∨ (authKind z ≠ 0 ∧ z.trailer.len < 4) then .refused stBadLength 0 s
  else if z.bodyLen ≠ roundUp (fieldLen op.body) 4 ∨ z.padZero = false ∨ op.lenOk = false then .refused stBadLength 0 s
  else if field z.flags 4 0 ≠ 0 ∨ field z.target 7 6 ≠ 0 ∨ z.rsv7 ≠ 0 ∨ keyFormOk z = false ∨ op.rsvZero = false then
    .refused stReservedSet 0 s
  else if op.unknown then .refused stUnknownOpcode 0 s
  else if field z.target 5 0 ≠ instOf s then
    match forward op ctx z s with
    | some s1 => .forwarded s1
    | none => .refused stNoRoute 0 s
  else if authKind z = 0 then
    if isOpen op = false then .refused stNotAuthorised 0 s
    else
      match z.origin with
      | .eth p => match unauthLimit p s with
        | some s1 => .passed none 0 s1
        | none => .dropped (tally (zelgenRateDropsCtr p) s)
      | .udp p => match unauthLimit p s with
        | some s1 => .passed none 0 s1
        | none => .dropped (tally (zelgenRateDropsCtr p) s)
      | _ => .passed none 0 s
  else if z.bootTag ≠ s.cpx.bootTag then .refused stWrongBoot 0 s
  else if z.notAfter ≠ 0xFFFFFFFFFFFF ∧ z.notAfter < seconds s then .refused stExpired 0 s
  else authCheck op z s

/-! ## Staging (R54, R57) -/

/-- Put an edit into the staged set: SEALED, then NO_RESOURCE, else the set with its new digest and count. -/
def stage (op : Op) (z : Zelgen) (e : Edit) (s : State) : Done :=
  let g := s.cpx.staged
  if g.sealed.isSome then { state := s, status := stSealed }
  else if 65536 ≤ g.count ∨ 1048576 < g.bytes + z.bodyLen then { state := s, status := stNoResource }
  else
    { state := { s with cpx := { s.cpx with staged :=
        { g with edits := g.edits ++ [e], count := g.count + 1, bytes := g.bytes + z.bodyLen
                 digest := Config.sha384 (msbBytes 48 g.digest.toNat ++ messageOf op z) } } }
      status := stStaged }

/-- Carry out a command that passed authentication: mode, parameters, then its effect (R46). -/
def carryOut (op : Op) (ctx : ReplyCtx) (z : Zelgen) (s : State) : Done :=
  match (if authKind z = 0 then none else modeCheck op s) with
  | some (st, d) => { state := s, status := st, detail := d }
  | none =>
    match paramCheck op ctx s with
    | some (st, d) => { state := s, status := st, detail := d }
    | none =>
      match op.edit with
      | some e => stage op z e s
      | none => op.run ctx s

/-! ## The whole command -/

/-- Who a command's transport is in the round robin of R43: each command ring, HLK, the network share. -/
def shareOf (o : Origin) : Nat := match o with | .ring n => n | .hlk _ => 64 | .eth _ => 65 | .udp _ => 65

/-- The round after serving a share once more: none while a share that waits has not had its turn in this round (R43). Within a
round the order is open (R48). Log 30. -/
def nextRound (s : State) (o : Origin) : Option (List Nat) :=
  if shareOf o ∉ s.cpx.round then some (shareOf o :: s.cpx.round)
  else if s.cpx.queue.any (fun w => shareOf w.origin ∉ s.cpx.round) then none
  else some [shareOf o]

/-- The entry of the CPX queue that this command is, where its share may be served (R41, R43), and the state without it. -/
def takeWaiting (o : Origin) (s : State) : Option (Waiting × State) :=
  match s.cpx.queue.find? (fun w => w.origin = o), nextRound s o with
  | some w, some round => some (w, { s with cpx := { s.cpx with queue := s.cpx.queue.eraseP (fun w => w.origin = o), round } })
  | _, _ => none

/-- A frame that its class sent TO_CPX ends here (R137, R138): refused with ZELGEN_VERIFY, or delivered, and only then
charged (R140). -/
def settleFrame (w : Waiting) (ok : Bool) (s : State) : State :=
  let port := match w.origin with | .eth p => p | .udp p => p | _ => 0
  match w.cls with
  | none =>
    match w.origin with
    | .eth _ => endSample 2 0 0xFFFF w.sample (count (rxBytesOkCtr port) w.length (tally (rxFramesOkCtr port) s))
    | .udp _ => endSample 2 0 0xFFFF w.sample (count (rxBytesOkCtr port) w.length (tally (rxFramesOkCtr port) s))
    | _ => s
  | some c =>
    if ok then
      let s1 := endSample 2 0 0xFFFF w.sample (count (rxBytesOkCtr port) w.length (tally (rxFramesOkCtr port) (polTakes 0 w.charge s)))
      match w.accept with | some r => record r s1 | none => s1
    else
      let s1 := tally (refuseCtr port 9) (tally (classRefusedCtr (c / 64) (c % 64)) s)
      let s2 := match w.refuse with | some r => record r s1 | none => s1
      armedFires 2 (endSample 3 0 0xFFFF w.sample s2)

/-- A field of `n` bytes of the staged image, least significant byte first (Table 17-4). -/
def staged (s : State) (at_ n : Nat) : Nat := ofMsb (memReads s.cpx.staging at_ n).reverse

/-- A thermometer field with at least `n` bits burnt. -/
def burnTo {w : Nat} (n : Nat) (b : BitVec w) : BitVec w := if burnt b < n then BitVec.ofNat w (2 ^ n - 1) else b

/-- Steps 3 and 4 of R392, once the CPX queue is empty: with BURN_SVN the hood burns FW_SVN, and CPX restarts into the new
image; every session ends. -/
def activationRestart (s : State) : State :=
  match s.cpx.activation with
  | some a =>
    if a.restarting ∨ s.cpx.queue ≠ [] then s
    else
      let s1 := if staged s 13 1 % 2 = 1 ∧ burnt s.fuses.fwSvn < staged s 7 1 then
          emit .fuseBurn { s with fuses := { s.fuses with fwSvn := burnTo (staged s 7 1) s.fuses.fwSvn } }
        else s
      { endSessions s1 with cpx := { (endSessions s1).cpx with activation := some { a with restarting := true }, restart := some s1.tsu.now } }
  | none => s

/-- One command, checked and carried out or refused (R33 to R61): it is the one that waits in the queue for its transport. During
a CPX restart none is taken (R392, Table 18-6). -/
def zelgen (op : Op) (z : Zelgen) (s : State) : State :=
  if processing s = false ∨ s.cpx.restart.isSome then s
  else
    match takeWaiting z.origin s with
    | none => s
    | some (w, s1) => activationRestart (checked (seenAs op z) z w s1)
where
  /-- The command with its entry of the queue. The frame of a forwarded command ends as taken by CPX (R138, log 40). -/
  checked (op : Op) (z : Zelgen) (w : Waiting) (s2 : State) : State :=
    let ctx := ctxOf op z w s2
    match checkZ op ctx z s2 with
    | .dropped s3 => endSample 4 0 0xFFFF w.sample s3
    | .forwarded s3 => settleFrame w true s3
    | .refused st d s3 => commandRecord ctx st (answer ctx st d [] (settleFrame w (st < 0x0201 || 0x0206 < st) s3))
    | .passed key signer s3 =>
      let s4 := settleFrame w true s3
      let ctx := { ctx with key, signer }
      let r := carryOut op ctx z s4
      if r.later then commandRecord ctx r.status r.state
      else
        let ctx := match r.sk with | some (id, k) => { ctx with keyId := id, key := some k } | none => ctx
        commandRecord ctx r.status (answer ctx r.status r.detail r.body r.state)

/-- What a meaning answers. -/
abbrev Result := Host.Outcome State Fault Refusal

/-- Fuses `t` burnt over fuses `f`: only the hood's fields are burnt, and a burnt bit stays burnt (R383). -/
def burnFuses (f t : Fuses) : Fuses :=
  { f with
      lifecycle := f.lifecycle ||| t.lifecycle
      fuseLock := f.fuseLock || t.fuseLock
      fwKeyRevoked := f.fwKeyRevoked ||| t.fwKeyRevoked
      fwSvn := f.fwSvn ||| t.fwSvn
      revokeCount := f.revokeCount ||| t.revokeCount
      zeroizeCount := f.zeroizeCount ||| t.zeroizeCount }

/-- What a row that was to leave `t` leaves: its fuses are burnt over those of `s`, and the queue waits as it did. -/
def within (s t : State) : State := { t with fuses := burnFuses s.fuses t.fuses, pending := s.pending }

/-- A command's meaning: time passes, then the command is checked and carried out or refused. -/
def command (op : Op) (z : Zelgen) (s : State) : Result := .next (within s (zelgen op z (start z.dt s)))

/-- A happening's meaning: time passes, then its effect. -/
def happen (dt : Nat) (f : State → State) (s : State) : Result := .next (within s (f (start dt s)))

end Sys2Proof.Machine
end

