-- ==== Sys2Proof/Machine/Macsec.lean ====
section
/-! DEFINITION. MACsec tables and their commands (05, group 0x02): SecY, SC and SA (R115 to R126). -/
namespace Sys2Proof.Machine

/-- A suite with 64-bit PNs; a suite with 256-bit keys. -/
def suiteXpn (c : Nat) : Bool := c = 3 || c = 4
def suite256 (c : Nat) : Bool := c = 2 || c = 4

/-- PORT_MODE that the staged set gives a port so far (R116): none where it would be unconfigured. -/
def stagedMode (s : State) (p : Nat) : Option Nat :=
  s.cpx.staged.edits.foldl (fun a e => match e with
    | .portSet b => if b.port = p then some b.portMode else a
    | .portClear q => if q = p then none else a
    | _ => a) ((portCfg s p).map (·.portMode))

/-! ## Commands -/

def opSecySet (b : SecyBody) : Op :=
  { opcode := 0x0201, kind := .s, auth := .o
    body := [(2, b.port), (1, b.cipherSuite), (1, b.secyFlags.toNat), (8, b.sci.toNat), (4, b.replayWindow)]
    ranges := [(0, b.port ≤ 511), (2, 1 ≤ b.cipherSuite && b.cipherSuite ≤ 4), (3, field b.secyFlags 4 3 ≠ 3),
      (12, b.replayWindow ≤ 1073741824)]
    ports := [b.port]
    check := fun _ s =>
      need (suiteXpn b.cipherSuite || (match stagedMode s b.port with | some m => speedOf m < 100 | none => true))
        stOutOfRange 2
    edit := some (.secy b) }

def opScSet (b : ScSetBody) : Op :=
  { opcode := 0x0202, kind := .s, auth := .o
    body := [(1, b.portGroup), (1, b.direction), (2, b.scIndex), (2, b.port), (8, b.sci.toNat)]
    ranges := [(0, b.portGroup ≤ 31), (1, b.direction ≤ 1), (2, b.scIndex ≤ 255), (4, b.port ≤ 511)]
    groups := [b.portGroup], ports := [b.port]
    edit := some (.scSet b) }

def opScClear (b : ScName) : Op :=
  { opcode := 0x0203, kind := .s, auth := .o
    body := [(1, b.portGroup), (1, b.direction), (2, b.scIndex)]
    ranges := [(0, b.portGroup ≤ 31), (1, b.direction ≤ 1), (2, b.scIndex ≤ 255)]
    groups := [b.portGroup]
    edit := some (.scClear b) }

/-- The SC's port and its SecY, for a committed SC. -/
def scSecy (s : State) (pg dir sc : Nat) : Option SecyBody :=
  (tget s.cfg.sc (scKey pg dir sc)).bind (fun c => tget s.cfg.secy c.port)

/-- The checks of R123 from the SC on. -/
def saInstallCheck (b : SaInstallBody) (s : State) : Refused :=
  let a := saOfKey s (saKey b.portGroup b.direction b.scIndex b.an)
  match scSecy s b.portGroup b.direction b.scIndex with
  | none => some (stBadParameter, 2)
  | some y =>
    let xpn := suiteXpn y.cipherSuite
    firstOf
      [need (a.state = .empty) stBusy,
       param (b.keyLen = if suite256 y.cipherSuite then 32 else 16) 5,
       param (xpn || b.ssci = 0) 6,
       param (xpn || b.salt = 0) 10,
       need (xpn || b.nextPn ≤ 0xFFFFFFFF) stOutOfRange 22,
       param b.unwrapped.isSome 30,
       param (b.keyLen = 32 || field b.wrappedSak 127 0 = 0) 30]

def opSaInstall (b : SaInstallBody) : Op :=
  { opcode := 0x0204, kind := .i, auth := .o, session := true
    body := [(1, b.portGroup), (1, b.direction), (2, b.scIndex), (1, b.an), (1, b.keyLen), (4, b.ssci),
      (12, b.salt.toNat), (8, b.nextPn), (40, b.wrappedSak.toNat)]
    ranges := [(0, b.portGroup ≤ 31), (1, b.direction ≤ 1), (2, b.scIndex ≤ 255), (4, b.an ≤ 3),
      (5, b.keyLen = 16 || b.keyLen = 32), (22, 1 ≤ b.nextPn)]
    groups := [b.portGroup]
    check := fun _ s => saInstallCheck b s
    run := fun _ s =>
      let xpn := match scSecy s b.portGroup b.direction b.scIndex with
        | some y => suiteXpn y.cipherSuite
        | none => false
      let a : Sa := { nextPn := b.nextPn, ssci := b.ssci, state := .installed
                      exhaust := pnThreshold xpn ≤ b.nextPn, key256 := b.keyLen = 32, xpn
                      sak := b.unwrapped.getD 0, hkey := Config.ghashKey (b.unwrapped.getD 0) (b.keyLen = 32), salt := b.salt }
      let s1 := if a.exhaust then raiseEvent (0x810 + b.portGroup) s else s
      { state := putSa (saKey b.portGroup b.direction b.scIndex b.an) a s1 } }

def saNameRanges (b : SaName) : List (Nat × Bool) :=
  [(0, b.portGroup ≤ 31), (1, b.direction ≤ 1), (2, b.scIndex ≤ 255), (4, b.an ≤ 3)]

def saNameBody (b : SaName) : Fields := [(1, b.portGroup), (1, b.direction), (2, b.scIndex), (1, b.an)]

def saNameKey (b : SaName) : Nat := saKey b.portGroup b.direction b.scIndex b.an

/-- SA_ENABLE's effect: on transmit the SC's previous ACTIVE SA becomes INSTALLED (R124). -/
def enableSa (b : SaName) (s : State) : State :=
  let k := saNameKey b
  let s1 := if b.direction = 0 then s else
    (saKeysOf b.portGroup b.direction b.scIndex).foldl (fun t j =>
      if j ≠ k ∧ (saOfKey t j).state = .active then putSa j { saOfKey t j with state := .installed } t else t) s
  putSa k { saOfKey s1 k with state := .active } s1

def opSaEnable (b : SaName) : Op :=
  { opcode := 0x0205, kind := .i, auth := .o, body := saNameBody b, ranges := saNameRanges b, groups := [b.portGroup]
    check := fun _ s => param ((saOfKey s (saNameKey b)).state = .installed) 0
    run := fun _ s => { state := enableSa b s } }

def opSaRetire (b : SaName) : Op :=
  { opcode := 0x0206, kind := .i, auth := .o, body := saNameBody b, ranges := saNameRanges b, groups := [b.portGroup]
    check := fun _ s => firstOf
      [param ((saOfKey s (saNameKey b)).state ≠ .empty) 0, need ((saOfKey s (saNameKey b)).state ≠ .retiring) stBusy]
    run := fun _ s => { state := retireSa (saNameKey b) s } }

def opSaStateGet (b : SaName) : Op :=
  { opcode := 0x0207, kind := .q, auth := .o, body := saNameBody b, ranges := saNameRanges b, groups := [b.portGroup]
    run := fun _ s =>
      let a := saOfKey s (saNameKey b)
      { state := s, body := [(1, saCode a.state), (8, a.nextPn), (1, if a.exhaust then 1 else 0)] } }

def execSecySet (z : Zelgen) (b : SecyBody) (s : State) : Result := command (opSecySet b) z s
def execScSet (z : Zelgen) (b : ScSetBody) (s : State) : Result := command (opScSet b) z s
def execScClear (z : Zelgen) (b : ScName) (s : State) : Result := command (opScClear b) z s
def execSaInstall (z : Zelgen) (b : SaInstallBody) (s : State) : Result := command (opSaInstall b) z s
def execSaEnable (z : Zelgen) (b : SaName) (s : State) : Result := command (opSaEnable b) z s
def execSaRetire (z : Zelgen) (b : SaName) (s : State) : Result := command (opSaRetire b) z s
def execSaStateGet (z : Zelgen) (b : SaName) (s : State) : Result := command (opSaStateGet b) z s

end Sys2Proof.Machine
end

