-- ==== Sys2Proof/Machine/Classes.lean ====
section
/-! DEFINITION. Class entries, sender identity and refusal counts (05, group 0x03); policer contexts and their commands
(08 R209 to R212, group 0x04). -/
namespace Sys2Proof.Machine

/-! ## Group 0x03 -/

/-- CLASS_ENTRY as fields (Table 5-8). -/
def classFields (e : ClassEntry) : Fields :=
  [(1, e.entryFlags.toNat), (1, e.headerKind), (2, e.portMask.toNat), (2, e.secy), (2, e.matchEn.toNat), (6, e.da.toNat),
   (6, e.daMask.toNat), (6, e.sa.toNat), (2, e.ethertype), (2, e.vidPcp.toNat), (2, e.vidPcpMask.toNat), (1, e.ipProto),
   (1, e.ipSrcBits), (2, e.l4DstPort.toNat), (2, e.l4DstMask.toNat), (16, e.ipSrc.toNat), (1, e.parseStatusMask.toNat),
   (1, e.trailerKeys.toNat), (8, e.rsv.toNat)]

/-- No reserved bit of an entry is set (Tables 5-8, 5-9). -/
def classRsvZero (e : ClassEntry) : Bool :=
  field e.entryFlags 3 0 = 0 && field e.matchEn 15 10 = 0 && !bit e.vidPcp 12 && !bit e.vidPcpMask 12 &&
    field e.parseStatusMask 7 6 = 0 && field e.trailerKeys 7 4 = 0 && e.rsv = 0

def opClassSet (b : ClassSetBody) : Op :=
  { opcode := 0x0301, kind := .s, auth := .o
    body := [(1, b.portGroup), (1, b.entry)] ++ classFields b.cls
    rsvZero := classRsvZero b.cls
    ranges := [(0, b.portGroup ≤ 31), (1, b.entry ≤ 63), (3, b.cls.headerKind ≤ 0x0E),
      (6, b.cls.secy ≤ 511 || b.cls.secy = 0xFFFF), (35, b.cls.ipSrcBits ≤ 128)]
    groups := [b.portGroup]
    edit := some (.classSet b) }

def opClassClear (pg entry : Nat) : Op :=
  { opcode := 0x0302, kind := .s, auth := .o, body := [(1, pg), (1, entry)], ranges := [(0, pg ≤ 31), (1, entry ≤ 63)]
    groups := [pg], edit := some (.classClear pg entry) }

/-- An entry never written reads as zeros (R49). -/
def opClassGet (pg entry : Nat) : Op :=
  { opcode := 0x0303, kind := .q, auth := .o, body := [(1, pg), (1, entry)], ranges := [(0, pg ≤ 31), (1, entry ≤ 63)]
    groups := [pg]
    run := fun _ s => { state := s, body := match tget s.cfg.cls (pg * 64 + entry) with
      | some e => classFields e
      | none => [(64, 0)] } }

def opSenderIdSet (b : SenderIdBody) : Op :=
  { opcode := 0x0304, kind := .s, auth := .o
    body := [(1, b.portGroup), (1, b.entry), (1, b.senderSource), (2, b.senderBase)]
    ranges := [(0, b.portGroup ≤ 31), (1, b.entry ≤ 63), (2, b.senderSource ≤ 7), (3, b.senderBase ≤ 2047)]
    groups := [b.portGroup], edit := some (.senderId b) }

def opRefusalCountsGet (pg : Nat) : Op :=
  { opcode := 0x0305, kind := .q, auth := .o, body := [(1, pg)], ranges := [(0, pg ≤ 31)], groups := [pg]
    run := fun _ s => { state := s, body := (List.range 64).map (fun i => (8, total s (classRefusedCtr pg i) % 2 ^ 64)) } }

/-! ## Policers (R209 to R212) -/

/-- A legal nonzero or zero rate in kb/s (R170, R183, R210). -/
def rateOk (r : Nat) : Bool := r = 0 || (1000 ≤ r && r ≤ 1600000000)
/-- A legal burst in bytes. -/
def burstOk (n : Nat) : Bool := 64 ≤ n && n ≤ 16777216

def opPolicerSet (b : PolicerBody) : Op :=
  { opcode := 0x0401, kind := .s, auth := .o
    body := [(4, b.context), (4, b.rate), (4, b.burst), (1, b.policerFlags.toNat)]
    rsvZero := field b.policerFlags 7 1 = 0
    ranges := [(0, b.context ≤ 69631), (4, rateOk b.rate)]
    groups := [groupOfContext b.context]
    check := fun _ _ => need (b.rate = 0 || burstOk b.burst) stOutOfRange 8
    edit := some (.policer b) }

def opPolicerClear (c : Nat) : Op :=
  { opcode := 0x0402, kind := .s, auth := .o, body := [(4, c)], ranges := [(0, c ≤ 69631)], groups := [groupOfContext c]
    edit := some (.policerClear c) }

/-- Tokens of a context as refilled at this tick; 0 for RATE 0 (R210). -/
def policerTokens (s : State) (c : Nat) (b : PolicerBody) : Int :=
  if b.rate = 0 then 0
  else
    let x := tgetD s.pols c {}
    tokenBytes (refill x.tok x.last b.burst b.rate s.tsu.tick)

/-- Reply of POLICER_GET (R212); a context that the committed configuration does not hold reads as zeros (R49). -/
def policerReply (s : State) (c : Nat) : Fields :=
  match tget s.cfg.policer c with
  | some b => [(4, signedCode 4 (policerTokens s c b)), (8, total s (passedCtr c) % 2 ^ 64), (8, total s (droppedCtr c) % 2 ^ 64)]
  | none => [(4, 0), (8, 0), (8, 0)]

def opPolicerGet (c : Nat) : Op :=
  { opcode := 0x0403, kind := .q, auth := .o, body := [(4, c)], ranges := [(0, c ≤ 69631)], groups := [groupOfContext c]
    run := fun _ s => { state := s, body := policerReply s c } }

def execClassSet (z : Zelgen) (b : ClassSetBody) (s : State) : Result := command (opClassSet b) z s
def execClassClear (z : Zelgen) (portGroup entry : Nat) (s : State) : Result := command (opClassClear portGroup entry) z s
def execClassGet (z : Zelgen) (portGroup entry : Nat) (s : State) : Result := command (opClassGet portGroup entry) z s
def execSenderIdSet (z : Zelgen) (b : SenderIdBody) (s : State) : Result := command (opSenderIdSet b) z s
def execRefusalCountsGet (z : Zelgen) (portGroup : Nat) (s : State) : Result := command (opRefusalCountsGet portGroup) z s
def execPolicerSet (z : Zelgen) (b : PolicerBody) (s : State) : Result := command (opPolicerSet b) z s
def execPolicerClear (z : Zelgen) (context : Nat) (s : State) : Result := command (opPolicerClear context) z s
def execPolicerGet (z : Zelgen) (context : Nat) (s : State) : Result := command (opPolicerGet context) z s

end Sys2Proof.Machine
end

