-- ==== Sys2Proof/Machine/Scheduler.lean ====
section
/-! DEFINITION. Group 0x05: leaves, nodes, port scheduling, overhead profiles, host leaves (07), and the happenings of the
scheduler that need no transmit path: status words, settlement, the wheel. -/
namespace Sys2Proof.Machine

def opLeafSet (b : LeafBody) : Op :=
  { opcode := 0x0501, kind := .s, auth := .o
    body := [(4, b.leaf), (2, b.parentNode), (1, b.cls), (2, b.weight), (4, b.shaperRate), (4, b.shaperBurst),
      (1, b.overheadProfile)]
    ranges := [(0, b.leaf ≤ 262143), (4, b.parentNode ≤ 16383), (6, b.cls ≤ 15), (7, 1 ≤ b.weight && b.weight ≤ 65535),
      (9, rateOk b.shaperRate), (17, b.overheadProfile ≤ 63)]
    groups := [groupOfLeaf b.leaf, groupOfNode b.parentNode]
    check := fun _ _ => need (b.shaperRate = 0 || burstOk b.shaperBurst) stOutOfRange 13
    edit := some (.leafSet b) }

def opLeafClear (leaf : Nat) : Op :=
  { opcode := 0x0502, kind := .s, auth := .o, body := [(4, leaf)], ranges := [(0, leaf ≤ 262143)]
    groups := [groupOfLeaf leaf], edit := some (.leafClear leaf) }

def opNodeSet (b : NodeBody) : Op :=
  { opcode := 0x0503, kind := .s, auth := .o
    body := [(2, b.node), (2, b.port), (1, b.cls), (2, b.weight), (4, b.shaperRate), (4, b.shaperBurst)]
    ranges := [(0, b.node ≤ 16383), (2, b.port ≤ 511), (4, b.cls ≤ 15), (5, 1 ≤ b.weight && b.weight ≤ 65535),
      (7, rateOk b.shaperRate)]
    groups := [groupOfNode b.node], ports := [b.port]
    check := fun _ _ => need (b.shaperRate = 0 || burstOk b.shaperBurst) stOutOfRange 11
    edit := some (.nodeSet b) }

def opNodeClear (node : Nat) : Op :=
  { opcode := 0x0504, kind := .s, auth := .o, body := [(2, node)], ranges := [(0, node ≤ 16383)]
    groups := [groupOfNode node], edit := some (.nodeClear node) }

def opPortSchedSet (b : PortSchedBody) : Op :=
  { opcode := 0x0505, kind := .s, auth := .o
    body := [(2, b.port), (1, b.strictClasses)] ++ b.classWeights.map (fun w => (2, w)) ++
      [(2, b.grantQuantum), (4, b.portShaperRate)]
    ranges := [(0, b.port ≤ 511), (2, b.strictClasses ≤ 4), (35, 512 ≤ b.grantQuantum && b.grantQuantum ≤ 16384),
      (37, rateOk b.portShaperRate)]
    ports := [b.port], edit := some (.portSched b) }

def opOverheadProfileSet (b : OverheadBody) : Op :=
  { opcode := 0x0506, kind := .s, auth := .o, body := [(1, b.profile), (1, signedCode 1 b.overhead)]
    ranges := [(0, b.profile ≤ 63), (1, -32 ≤ b.overhead && b.overhead ≤ 127)]
    edit := some (.overhead b) }

def opHostLeafSet (b : HostLeafBody) : Op :=
  { opcode := 0x0507, kind := .s, auth := .o, body := [(2, b.source), (2, b.port), (4, b.leaf)]
    ranges := [(0, b.source ≤ 0x0101), (2, b.port ≤ 515), (4, b.leaf ≤ 262143)]
    groups := if b.port < 512 then [groupOfLeaf b.leaf] else [], ports := [b.port]
    check := fun _ _ => need (b.port < 512 || b.leaf = 0) stOutOfRange 4
    edit := some (.hostLeaf b) }

/-- Reply of SCHED_STATE_GET (R184). -/
def schedReply (s : State) (kind index : Nat) : Fields :=
  let o : ShaperObj := if kind = 0 then .leaf index else if kind = 1 then .node index else .port index
  let x := objOf s o
  let shaped : Bool := (shaperCfg s.cfg o).1 ≠ 0
  let known : Bool := match o with
    | .leaf n => thas s.cfg.leaf n
    | .node n => thas s.cfg.node n
    | .port n => thas s.cfg.port n
  if known = false then [(20, 0)]
  else
    [(8, if kind = 2 then x.v else x.tag), (8, if shaped && !x.shaper.eligible then x.shaper.due else 0),
     (4, if shaped then signedCode 4 (tokenBytes (shaperFill s o).tok) else 0x7FFFFFFF)]

def opSchedStateGet (kind index : Nat) : Op :=
  { opcode := 0x0508, kind := .q, auth := .o, body := [(1, kind), (4, index)]
    ranges := [(0, kind ≤ 2)]
    check := fun _ _ => need (index ≤ (if kind = 0 then 262143 else if kind = 1 then 16383 else 511)) stOutOfRange 1
    run := fun _ s => { state := s, body := schedReply s kind index } }

/-! ## Happenings -/

/-- A CPI input error (Table 18-5): code 0x1701 to 0x1704, MINOR. -/
def cpiError (pg code cls d0 : Nat) (s : State) : State := errorAt 0x17 code pg sevMinor cls d0 0 s

/-- A new status word takes effect two ccyc later (R171). -/
def pushWord (leaf : Nat) (w : LeafWord) (s : State) : State :=
  let h := tgetD s.esh.words leaf []
  let keep := h.takeWhile (fun e => s.tsu.now < e.1) ++ (h.dropWhile (fun e => s.tsu.now < e.1)).take 1
  { s with esh := { s.esh with words := tput s.esh.words leaf ((s.tsu.now + 2, w) :: keep) } }

/-- GRANT_DONE of a status word: kept with its grant, or counted (R180). -/
def grantDone (pg : Nat) (w : LeafStatus) (s : State) : State :=
  match grantOf s pg w.grantId with
  | some g =>
    if g.leaf = w.leaf ∧ g.released = none then mapGrant pg g.id (fun x => { x with released := some w.released }) s
    else cpiError pg 0x1703 clsInput w.leaf (tallyIn pg (schedStatusErrorsCtr pg) s)
  | none => cpiError pg 0x1703 clsInput w.leaf (tallyIn pg (schedStatusErrorsCtr pg) s)

/-- A core leaf status word (R177, R180). ESH lies in the shared domain and takes the words of a gated group too (Table 1-2). -/
def leafStatusWord (pg : Nat) (w : LeafStatus) (s : State) : State :=
  if clocked s = false ∨ fencedOrAbsent s pg then s
  else if groupOfLeaf w.leaf ≠ pg then cpiError pg 0x1703 clsInput w.leaf (tallyIn pg (schedStatusErrorsCtr pg) s)
  else if thas s.cfg.leaf w.leaf = false ∨ (leafSources s.cfg w.leaf).isEmpty = false then
    tallyIn pg (schedStatusIgnoredCtr pg) s
  else
    let s1 := if w.grantDone then grantDone pg w s else s
    if w.backlogged ∧ (w.headLen < 14 ∨ 16379 < w.headLen) then
      cpiError pg 0x1703 clsInput w.leaf (tallyIn pg (schedStatusErrorsCtr pg) (pushWord w.leaf {} s1))
    else
      pushWord w.leaf { backlogged := w.backlogged, headLen := w.headLen, backlog := w.backlogBytes, headEnq := w.headEnq } s1

/-- RELEASED differs from the frames that arrived (R180). -/
def grantMismatch (pg : Nat) (g : Grant) (s : State) : State :=
  match g.released with
  | some n =>
    if n = g.frames.length then s else cpiError pg 0x1703 clsInput g.leaf (tallyIn pg (schedGrantMismatchesCtr pg) s)
  | none => s

/-- A grant that holds its GRANT_DONE and all released start metadata is settled (R179); a RELEASED that the frames
exceed is a mismatch (R180). -/
def grantSettle (pg id : Nat) (s : State) : State :=
  match grantOf s pg id with
  | none => s
  | some g =>
    match g.released with
    | none => s
    | some n =>
      if g.frames.length < n then s
      else if g.frames.length = n then settleGrant pg g s
      else settleGrant pg g (grantMismatch pg g s)

/-- 512 ccyc after its grant word an unsettled grant is settled with what arrived (R151, R179); a host leaf's grant has no grant
word and waits for its turn (R146, R181). -/
def grantTimeout (pg id : Nat) (s : State) : State :=
  match grantOf s pg id with
  | none => s
  | some g =>
    if s.tsu.now < g.at_ + 512 ∨ (g.host ∧ g.released = none) then s
    else
      let s1 := if g.begun ∨ g.released = some 0 ∨ g.host then s else
        let s2 := cpiError pg 0x1702 clsTimeout g.leaf (tallyIn pg (txGrantTimeoutsCtr pg) s)
        let e := engine s2 pg
        putEngine pg { e with late := (g.id :: e.late).take 4096 } s2
      settleGrant pg g (grantMismatch pg g s1)

def execLeafSet (z : Zelgen) (b : LeafBody) (s : State) : Result := command (opLeafSet b) z s
def execLeafClear (z : Zelgen) (leaf : Nat) (s : State) : Result := command (opLeafClear leaf) z s
def execNodeSet (z : Zelgen) (b : NodeBody) (s : State) : Result := command (opNodeSet b) z s
def execNodeClear (z : Zelgen) (node : Nat) (s : State) : Result := command (opNodeClear node) z s
def execPortSchedSet (z : Zelgen) (b : PortSchedBody) (s : State) : Result := command (opPortSchedSet b) z s
def execOverheadProfileSet (z : Zelgen) (b : OverheadBody) (s : State) : Result := command (opOverheadProfileSet b) z s
def execHostLeafSet (z : Zelgen) (b : HostLeafBody) (s : State) : Result := command (opHostLeafSet b) z s
def execSchedStateGet (z : Zelgen) (leafOrNode index : Nat) (s : State) : Result := command (opSchedStateGet leafOrNode index) z s
def execWheelTick (dt pg : Nat) (s : State) : Result := happen dt (wheelTick pg) s
def execShaperRelease (dt : Nat) (obj : ShaperObj) (s : State) : Result := happen dt (shaperRelease obj) s

end Sys2Proof.Machine
end

