-- ==== Sys2Proof/Machine/Carder.lean ====
section
/-! DEFINITION. The carder (05): the header list of Table 5-6, PARSE_STATUS of Table 5-7, class matching (R133), and the
destination of Table 4-5. Offsets count from the destination address. -/
namespace Sys2Proof.Machine

/-- A SecTAG as read (IEEE 802.1AE; R127). -/
structure SecTag where
  offset : Nat                 -- of its Ethertype
  tci    : BitVec 8            -- V ES SC SCB E C AN
  sl     : Nat
  pn     : Nat                 -- the 32 bits of the frame
  sci    : Option (BitVec 64)
deriving DecidableEq, Repr

def SecTag.len (t : SecTag) : Nat := if bit t.tci 5 then 16 else 8

/-- What the carder read. -/
structure Parse where
  status    : Nat := 0
  kind      : Nat := 0
  tags      : List Nat := []             -- TCIs of recognised tags, outer first
  ethertype : Nat := 0                   -- the last Ethertype read
  etOffset  : Nat := 12                  -- offset of that Ethertype
  secTag    : Option SecTag := none
  ipSrc     : Option (BitVec 128) := none
  ipProto   : Option Nat := none
  ipDst     : Option (BitVec 128) := none
  l3        : Option Nat := none
  l4        : Option Nat := none
  l4Dst     : Option Nat := none
  udp       : Bool := false
  zelgen    : Option Nat := none         -- offset of a Zelgen header
  hlk       : Bool := false
  appId     : Option Nat := none
deriving DecidableEq, Repr

/-- What bounds a parse: the frame, where the parse must end (FCS and ICV excluded), where bytes are encrypted, and the
port's TPIDs, CONF_OFFSET and Zelgen UDP port. -/
structure ParseCtx where
  frame : List Byte
  limit : Nat
  clear : Nat
  outer : Nat
  inner : Nat
  conf  : Option Nat
  udp   : Option Nat
deriving DecidableEq, Repr

/-- Why `n` bytes from `i` cannot be parsed (Table 5-7), or none: ENCRYPTED, WINDOW, MALFORMED. The window of a frame shorter than 256
bytes ends with the frame; a header past that end is taken as MALFORMED, not as WINDOW (DESIGN CHOICE, log 40). -/
def blocked (c : ParseCtx) (i n : Nat) : Option Nat :=
  if c.clear < i + n then some 1 else if 256 < i + n then some 3 else if c.limit < i + n then some 4 else none

/-- End the parse with a status. -/
def stop (p : Parse) (st : Nat) : Parse := { p with status := st }

/-- TCP or UDP at `o` with protocol `proto`. -/
def parseL4 (c : ParseCtx) (p : Parse) (proto o : Nat) : Parse :=
  if proto = 17 then
    match blocked c o 8 with
    | some st => stop p st
    | none =>
      let dst := numAt c.frame (o + 2) 2
      let p := { p with kind := 4, l4 := some o, l4Dst := some dst, udp := true }
      if dst = 319 ∨ dst = 320 then
        match blocked c (o + 8) 34 with
        | some st => stop p st
        | none => { p with kind := 7 }
      else if c.udp = some dst then
        match blocked c (o + 8) 32 with
        | some st => stop p st
        | none => { p with kind := 0x0D, zelgen := some (o + 8) }
      else p
  else if proto = 6 then
    match blocked c o 20 with
    | some st => stop p st
    | none =>
      if byteAt c.frame (o + 12) / 16 < 5 then stop p 4
      else { p with kind := 5, l4 := some o, l4Dst := some (numAt c.frame (o + 2) 2) }
  else p

/-- A parse that stops at an IPv6 extension header: with DEPTH, WINDOW or MALFORMED it has not reached the final next header, and
IP_PROTO compares unequal (Table 5-8). -/
def stopExt (p : Parse) (st : Nat) : Parse := if st = 1 then stop p st else { stop p st with ipProto := none }

/-- IPv6 extension headers from `o`, `n` parsed so far, `used` bytes of the payload length passed. A payload length that does not
cover an extension header counts as an IP length field shorter than its own header (DESIGN CHOICE, log 40). -/
def parseExt (fuel : Nat) (c : ParseCtx) (p : Parse) (next o n payload used : Nat) : Parse :=
  match fuel with
  | 0 => p
  | fuel + 1 =>
    if next = 0 ∨ next = 43 ∨ next = 44 ∨ next = 60 then
      if 2 ≤ n then stopExt p 2
      else
        match blocked c o 8 with
        | some st => stopExt p st
        | none =>
          let len := if next = 44 then 8 else (byteAt c.frame (o + 1) + 1) * 8
          match blocked c o len with
          | some st => stopExt p st
          | none =>
            let nh := byteAt c.frame o
            if payload < used + len then stopExt p 4
            else if next = 44 then { stop p 5 with ipProto := some nh }
            else parseExt fuel c { p with ipProto := some nh } nh (o + len) (n + 1) payload (used + len)
    else parseL4 c p next o

/-- IPv4 at `o`. -/
def parseIp4 (c : ParseCtx) (p : Parse) (o : Nat) : Parse :=
  match blocked c o 1 with
  | some st => stop p st
  | none =>
    if byteAt c.frame o / 16 ≠ 4 then p
    else
      let ihl := byteAt c.frame o % 16
      match blocked c o (ihl * 4) with
      | some st => stop p st
      | none =>
        if ihl < 5 ∨ numAt c.frame (o + 2) 2 < ihl * 4 then stop p 4
        else
          let proto := byteAt c.frame (o + 9)
          let p := { p with kind := 2, l3 := some o, ipProto := some proto
                            ipSrc := some (BitVec.ofNat 128 (0xFFFF * 2 ^ 32 + numAt c.frame (o + 12) 4))
                            ipDst := some (BitVec.ofNat 128 (0xFFFF * 2 ^ 32 + numAt c.frame (o + 16) 4)) }
          if numAt c.frame (o + 6) 2 % 0x4000 ≠ 0 then stop p 5
          else parseL4 c p proto (o + ihl * 4)

/-- IPv6 at `o`. -/
def parseIp6 (c : ParseCtx) (p : Parse) (o : Nat) : Parse :=
  match blocked c o 1 with
  | some st => stop p st
  | none =>
    if byteAt c.frame o / 16 ≠ 6 then p
    else match blocked c o 40 with
    | some st => stop p st
    | none =>
      let next := byteAt c.frame (o + 6)
      parseExt 4 c { p with kind := 3, l3 := some o, ipProto := some next
                            ipSrc := some (BitVec.ofNat 128 (numAt c.frame (o + 8) 16))
                            ipDst := some (BitVec.ofNat 128 (numAt c.frame (o + 24) 16)) }
        next (o + 40) 0 (numAt c.frame (o + 4) 2) 0

/-- A header that needs `n` bytes after its Ethertype. -/
def parseFixed (c : ParseCtx) (p : Parse) (o n kind : Nat) : Parse :=
  match blocked c o n with
  | some st => stop p st
  | none => { p with kind := kind }

/-- From the Ethertype at `o` on (Table 5-6). -/
def parseEth (fuel : Nat) (c : ParseCtx) (p : Parse) (o : Nat) : Parse :=
  match fuel with
  | 0 => p
  | fuel + 1 =>
    let et := numAt c.frame o 2
    let p := { p with ethertype := et, etOffset := o }
    if (p.tags = [] ∧ (et = c.outer ∨ et = 0x8100)) ∨ (p.tags.length = 1 ∧ et = c.inner) then
      match blocked c (o + 2) 4 with
      | some st => stop p st
      | none => parseEth fuel c { p with tags := p.tags ++ [numAt c.frame (o + 2) 2] } (o + 4)
    else if 2 ≤ p.tags.length ∧ (et = c.outer ∨ et = c.inner ∨ et = 0x8100 ∨ et = 0x88A8) then stop p 2
    else if et = 0x88E5 ∧ p.secTag = none then
      match blocked c o 8 with
      | some st => stop p st
      | none =>
        let tci := BitVec.ofNat 8 (byteAt c.frame (o + 2))
        let n := if bit tci 5 then 16 else 8
        match blocked c o n with
        | some st => stop p st
        | none =>
          let t : SecTag := { offset := o, tci, sl := byteAt c.frame (o + 3) % 64, pn := numAt c.frame (o + 4) 4
                              sci := if bit tci 5 then some (BitVec.ofNat 64 (numAt c.frame (o + 8) 8)) else none }
          let p := { p with secTag := some t, kind := 1 }
          let c := { c with limit := if t.sl = 0 then c.limit - 16 else min (c.limit - 16) (o + n + t.sl)
                            clear := if bit tci 3 then o + n + c.conf.getD 0 else c.clear }
          match blocked c (o + n) 2 with
          | some st => stop p st
          | none => parseEth fuel c p (o + n)
    else if et = 0x0800 then parseIp4 c p (o + 2)
    else if et = 0x86DD then parseIp6 c p (o + 2)
    else if et = 0x88F7 then parseFixed c p (o + 2) 34 6
    else if et = 0x88B8 ∨ et = 0x88BA then
      match blocked c (o + 2) 8 with
      | some st => stop p st
      | none => { p with kind := if et = 0x88B8 then 8 else 9, appId := some (numAt c.frame (o + 2) 2) }
    else if et = 0x88CC then { p with kind := 0x0A }
    else if et = 0x8809 then parseFixed c p (o + 2) 1 0x0B
    else if et = 0x88B5 then
      match blocked c (o + 2) 32 with
      | some st => stop p st
      | none => { p with kind := 0x0C, zelgen := some (o + 2) }
    else if et = 0x88B6 then
      match blocked c (o + 2) 16 with
      | some st => stop p st
      | none => { p with kind := 0x0E, hlk := true }
    else p

/-- A port's VLAN settings; never written: R89's text. -/
def vlanOf (cfg : Cfg) (p : Nat) : PortVlanBody :=
  (tget cfg.vlan p).getD { port := p, tagMode := 0, outerTpid := 0x88A8, innerTpid := 0x8100, vid := 0, pcp := 0 }

/-- CONF_OFFSET of a port's SecY (Table 5-1). -/
def confOffset (cfg : Cfg) (p : Nat) : Option Nat :=
  (tget cfg.secy p).map (fun y => match field y.secyFlags 4 3 with | 1 => 30 | 2 => 50 | _ => 0)

/-- UDP_PORT of a port with UDP_ENABLE. -/
def zelgenUdp (cfg : Cfg) (p : Nat) : Option Nat :=
  match tget cfg.transport p with
  | some t => if t.udpEnable = 1 then some t.udpPort else none
  | none => none

/-- The carder's parse of a frame that ends with its FCS (R130, R131). -/
def parse (cfg : Cfg) (port : Nat) (f : List Byte) : Parse :=
  let v := vlanOf cfg port
  parseEth 6 { frame := f, limit := f.length - 4, clear := 2 ^ 20, outer := v.outerTpid, inner := v.innerTpid
               conf := confOffset cfg port, udp := zelgenUdp cfg port } {} 12

/-! ## Destination (Table 4-5) -/

/-- Destination and source address of a frame. -/
def daOf (f : List Byte) : Mac := BitVec.ofNat 48 (numAt f 0 6)
def saOf (f : List Byte) : Mac := BitVec.ofNat 48 (numAt f 6 6)

/-- The ring a port's steering entries give a destination address (rule 4), lowest MATCH_INDEX first. An entry with address 0 is
disabled (R254). -/
def steerOf (cfg : Cfg) (p : Nat) (da : Mac) : Option Nat :=
  ((List.range 16).filterMap (fun i => tget cfg.steer (p * 16 + i))).find? (fun b => decide (b.da = da) && decide (b.da ≠ 0)) |>.map (·.ring)

/-- The first rule of Table 4-5 that matches. Rules 1 to 3 go by the last Ethertype that the carder reads: also one behind a SecTAG
that FAE does not remove, where the payload is clear (DESIGN CHOICE, log 40). -/
def destOf (cfg : Cfg) (port : Nat) (f : List Byte) (p : Parse) : Dest :=
  let t := tget cfg.transport port
  let mine : Bool := daOf f = macOf cfg port
  let ethOn : Bool := match t with | some b => b.ethEnable = 1 | none => false
  let udpOn : Bool := match t with
    | some b => decide (b.udpEnable = 1) && p.udp && decide (p.l4Dst = some b.udpPort) &&
        decide (p.ipDst = some b.ipAddr) &&
        (match p.l3 with | some o => byteAt f o = 0x45 || byteAt f o / 16 = 6 | none => false)
    | none => false
  if p.ethertype = 0x88B5 ∧ ethOn ∧ mine then .zelgenEth
  else if udpOn ∧ mine then .zelgenUdp
  else if p.ethertype = 0x88B6 ∧ tget cfg.hlkPort port = some 1 then .hlk
  else match steerOf cfg port (daOf f) with
    | some n => .ring n
    | none => if port < 512 then .core else .nowhere

/-- LOCAL: rules 1 to 3 send the frame to CPX (R137). -/
def Dest.isLocal : Dest → Bool
  | .zelgenEth | .zelgenUdp | .hlk => true
  | _ => false

/-! ## Class matching (R133) -/

/-- Compare an optional field under a mask; a field the parse did not reach compares unequal. -/
def maskEq {n : Nat} (v : Option (BitVec n)) (want mask : BitVec n) : Bool :=
  match v with
  | some x => x &&& mask = want &&& mask
  | none => false

/-- Outer tag's PCP and VID, DEI excluded (Table 5-8 bytes 28-31). -/
def vidPcpOf (p : Parse) : Option (BitVec 16) := p.tags.head?.map (fun t => clearBit (BitVec.ofNat 16 t) 12)

/-- The first `len` bits of two addresses agree. -/
def addrMatch (len : Nat) (want : BitVec 128) (v : Option (BitVec 128)) : Bool :=
  match v with
  | some x => x.toNat / 2 ^ (128 - len) = want.toNat / 2 ^ (128 - len)
  | none => false

/-- The frame carries a SecTAG, be it cut short (R127). -/
def hasSecTag (p : Parse) : Bool := p.secTag.isSome || p.ethertype = 0x88E5

/-- Whether a frame matches an entry (R133, Table 5-9). -/
def entryMatches (e : ClassEntry) (lane : Nat) (f : List Byte) (p : Parse) (isLocal : Bool) : Bool :=
  bit e.entryFlags 7 && bit e.portMask lane && bit e.parseStatusMask p.status &&
  (!bit e.matchEn 0 || maskEq (some (daOf f)) e.da e.daMask) &&
  (!bit e.matchEn 1 || decide (saOf f = e.sa)) &&
  (!bit e.matchEn 2 || decide (p.ethertype = e.ethertype)) &&
  (!bit e.matchEn 3 || maskEq (vidPcpOf p) e.vidPcp e.vidPcpMask) &&
  (!bit e.matchEn 4 || decide (p.kind = e.headerKind)) &&
  (!bit e.matchEn 5 || decide (p.ipProto = some e.ipProto)) &&
  (!bit e.matchEn 6 || maskEq (p.l4Dst.map (BitVec.ofNat 16)) e.l4DstPort e.l4DstMask) &&
  (!bit e.matchEn 7 || addrMatch e.ipSrcBits e.ipSrc p.ipSrc) &&
  (!bit e.matchEn 8 || hasSecTag p) &&
  (!bit e.matchEn 9 || isLocal)

/-- The frame's class: the lowest-numbered matching entry of its port's group. -/
def classOf (cfg : Cfg) (port : Nat) (f : List Byte) (p : Parse) (isLocal : Bool) : Option (Nat × ClassEntry) :=
  ((List.range 64).filterMap (fun i => (tget cfg.cls (groupOf port * 64 + i)).map (fun e => (i, e)))).find?
    (fun ie => entryMatches ie.2 (port % 16) f p isLocal)

/-- AUTH_REQ of an entry (Table 5-9). -/
def authReq (e : ClassEntry) : Nat := field e.entryFlags 6 5

end Sys2Proof.Machine
end

