-- ==== Sys2Proof/Machine/Wire.lean ====
section
/-! DEFINITION. A frame's bytes on the line (06): checksum offload (R153), the inserted tag (R152), SecTAG, encryption and ICV
(R154), a time written into it (R157, R229), padding and the CRC-32 FCS (R156). -/
namespace Sys2Proof.Machine

/-! ## CRC-32 (R156, as IEEE 802.3 has it) -/

def crcBits (n : Nat) (c : BitVec 32) : BitVec 32 :=
  match n with
  | 0 => c
  | n + 1 => crcBits n (if c.getLsbD 0 then (c >>> 1) ^^^ 0xEDB88320#32 else c >>> 1)

def crc32 (bs : List Byte) : BitVec 32 := ~~~(bs.foldl (fun c b => crcBits 8 (c ^^^ b.zeroExtend 32)) 0xFFFFFFFF#32)

/-- The FCS of a frame's bytes. -/
def fcsOf (bs : List Byte) : List Byte := lsbBytes 4 (crc32 bs).toNat

/-- A frame with its FCS. -/
def withFcs (bs : List Byte) : List Byte := bs ++ fcsOf bs

/-- The last four bytes are the FCS of those before them. -/
def fcsGood (f : List Byte) : Bool := decide (f.drop (f.length - 4) = fcsOf (f.take (f.length - 4)))

/-! ## Internet checksums (R153) -/

/-- Sum of the 16-bit words of a byte string. -/
def wordSum : List Byte → Nat
  | [] => 0
  | [a] => a.toNat * 256
  | a :: b :: r => a.toNat * 256 + b.toNat + wordSum r

/-- A sum folded to 16 bits with end-around carry. -/
def fold16 (n : Nat) : Nat :=
  let m := n % 65536 + n / 65536
  let k := m % 65536 + m / 65536
  k % 65536 + k / 65536

/-- The checksum of words with this sum. -/
def checksum (n : Nat) : Nat := 65535 - fold16 n

/-- Bytes written over a frame's from offset `i` on. -/
def putAt (f : List Byte) (i : Nat) (bs : List Byte) : List Byte := f.take i ++ bs ++ f.drop (i + bs.length)

/-- What the parse for offload accepts (R153): the offset of the IP header, its version and header length, the protocol that
follows the extension headers, where that begins and how many bytes it has. -/
structure IpFrame where
  at_   : Nat
  v4    : Bool
  head  : Nat
  proto : Nat
  l4    : Nat
  len   : Nat
deriving DecidableEq, Repr

/-- Offset of the Ethertype after at most two tags. -/
def pastTags (fuel outer inner : Nat) (f : List Byte) (o : Nat) : Nat :=
  match fuel with
  | 0 => o
  | fuel + 1 =>
    let et := numAt f o 2
    if et = 0x8100 ∨ et = 0x88A8 ∨ et = outer ∨ et = inner then pastTags fuel outer inner f (o + 4) else o

/-- At most two IPv6 extension headers, of next-header values 0 and 60: the next header, its offset, and the bytes passed. -/
def pastExt (fuel : Nat) (f : List Byte) (next o used : Nat) : Nat × Nat × Nat :=
  match fuel with
  | 0 => (next, o, used)
  | fuel + 1 =>
    if next = 0 ∨ next = 60 then
      let n := (byteAt f (o + 1) + 1) * 8
      pastExt fuel f (byteAt f o) (o + n) (used + n)
    else (next, o, used)

/-- The IP header of a frame, within the limits of R153. -/
def ipFrame (cfg : Cfg) (p : Nat) (f : List Byte) : Option IpFrame :=
  let v := vlanOf cfg p
  let o := pastTags 2 v.outerTpid v.innerTpid f 12
  let et := numAt f o 2
  let i := o + 2
  if et = 0x0800 then
    let head := byteAt f i % 16 * 4
    if byteAt f i / 16 = 4 ∧ 20 ≤ head ∧ i + head ≤ f.length ∧ numAt f (i + 6) 2 % 0x4000 = 0 then
      some { at_ := i, v4 := true, head, proto := byteAt f (i + 9), l4 := i + head, len := numAt f (i + 2) 2 - head }
    else none
  else if et = 0x86DD then
    let (next, l4, used) := pastExt 2 f (byteAt f (i + 6)) (i + 40) 0
    if byteAt f i / 16 = 6 ∧ i + 40 ≤ f.length then
      some { at_ := i, v4 := false, head := 40, proto := next, l4, len := numAt f (i + 4) 2 - used }
    else none
  else none

/-- The pseudo header's sum: addresses, protocol and length. -/
def pseudoSum (f : List Byte) (h : IpFrame) : Nat :=
  (if h.v4 then wordSum ((f.drop (h.at_ + 12)).take 8) else wordSum ((f.drop (h.at_ + 8)).take 32)) + h.proto + h.len

/-- The IPv4 header checksum computed. -/
def sumIp4 (f : List Byte) (h : IpFrame) : List Byte :=
  let g := putAt f (h.at_ + 10) [0, 0]
  putAt g (h.at_ + 10) (msbBytes 2 (checksum (wordSum ((g.drop h.at_).take h.head))))

/-- Offset of the checksum in a frame's TCP or UDP header, which begins within the first 256 bytes and lies in the frame. -/
def l4Place (f : List Byte) (h : IpFrame) : Option Nat :=
  let (at_, least) := if h.proto = 6 then (16, 20) else (6, 8)
  if (h.proto = 6 ∨ h.proto = 17) ∧ h.l4 < 256 ∧ least ≤ h.len ∧ h.l4 + h.len ≤ f.length then some at_ else none

/-- The TCP or UDP checksum computed; a UDP checksum of 0 is sent as 0xFFFF. -/
def sumL4 (f : List Byte) (h : IpFrame) (at_ : Nat) : List Byte :=
  let g := putAt f (h.l4 + at_) [0, 0]
  let c := checksum (wordSum ((g.drop h.l4).take h.len) + pseudoSum f h)
  putAt g (h.l4 + at_) (msbBytes 2 (if h.proto = 17 ∧ c = 0 then 0xFFFF else c))

/-- Checksum offload of a host or CPX frame (R153): the frame with the checksums asked for, and whether it lies outside the
limits, and is sent as it is. -/
def offload (cfg : Cfg) (p : Nat) (ip4 l4 : Bool) (f : List Byte) : List Byte × Bool :=
  if !ip4 && !l4 then (f, false)
  else
    match ipFrame cfg p f with
    | none => (f, true)
    | some h =>
      if ip4 && !h.v4 then (f, true)
      else
        let g := if ip4 then sumIp4 f h else f
        if !l4 then (g, false)
        else
          match l4Place f h with
          | some at_ => (sumL4 g h at_, false)
          | none => (f, true)

/-- A sum that includes its own checksum is right. -/
def sumOk (n : Nat) : Bool := n % 65535 = 0

/-- CPL_FLAGS [7:3] of a received frame as written (R258): the IPv4 header's and the TCP or UDP checksum's results, or CSUM_SKIPPED. -/
def csumFlags (cfg : Cfg) (p : Nat) (f : List Byte) : Nat :=
  match ipFrame cfg p f with
  | none => 128
  | some h =>
    (if h.v4 = false then 0 else if sumOk (wordSum ((f.drop h.at_).take h.head)) then 8 else 16) +
      (match l4Place f h with
      | none => 128
      | some at_ =>
        if h.proto = 17 ∧ h.v4 ∧ numAt f (h.l4 + at_) 2 = 0 then 0
        else if sumOk (pseudoSum f h + wordSum ((f.drop h.l4).take h.len)) then 32 else 64)

/-! ## Tag and SecTAG (R152, R154) -/

/-- SECY_FLAGS of a port that protects its frames. -/
def protecting (cfg : Cfg) (p : Nat) : Option (BitVec 8) :=
  match tget cfg.secy p with
  | some y => if bit y.secyFlags 0 then some y.secyFlags else none
  | none => none

/-- TXM inserts a tag into a frame of this Ethertype on a port (TX_INSERT, R152). -/
def inserts (cfg : Cfg) (p : Nat) (f : List Byte) : Bool :=
  let v := vlanOf cfg p
  let etype := numAt f 12 2
  match field v.tagMode 3 2 with
  | 1 => etype ≠ v.outerTpid && etype ≠ 0x8100
  | 2 => true
  | _ => false

/-- Bytes of the SecTAG that FAE inserts on a port, and of the ICV. -/
def secTagLen (cfg : Cfg) (p : Nat) : Nat := match protecting cfg p with | some y => (if bit y 5 then 16 else 8) | none => 0
def icvLen (cfg : Cfg) (p : Nat) : Nat := if (protecting cfg p).isSome then 16 else 0

/-- W of a frame of `n` bytes, with an inserted tag or without (R156). -/
def wireLen (cfg : Cfg) (p n : Nat) (ins : Bool) : Nat :=
  max 64 (n + (if ins then 4 else 0) + secTagLen cfg p + icvLen cfg p + 4)

/-! ## Frames that end (R163 to R167) -/

/-- The causes of R167, in its order: 0 oversize, 1 metadata, 2 length mismatch, 3 no SC, 4 SA exhausted, 5 underrun,
6 core abort, 7 fault cut. TX_SA_EXHAUSTED_DROPS is counted per SC and, without a word in Table 12-1, per port (log 26). -/
def countCause (p cause : Nat) (sc : Option Nat) (s : State) : State :=
  match cause with
  | 0 => tally (txOversizeDropsCtr p) s
  | 1 => tally (txMetaErrorsCtr p) s
  | 2 => tally (txLengthMismatchCtr p) s
  | 3 => tally (txNoScDropsCtr p) s
  | 4 =>
    let s1 := putPort p { portOf s p with saDrops := (portOf s p).saDrops + 1 } s
    match sc with | some k => tally (scDropsCtr k) s1 | none => s1
  | 5 => tally (txUnderrunsCtr p) s
  | 6 => tally (txCoreAbortsCtr p) s
  | _ => tally (txFaultCutCtr p) s

/-- The inserted tag: OUTER_TPID, then PCP, DEI and VID of TAG_OVERRIDE, or the port's with DEI 0. -/
def tagBytes (v : PortVlanBody) (tci : Option (BitVec 16)) : List Byte :=
  msbBytes 2 v.outerTpid ++ msbBytes 2 (match tci with | some t => t.toNat | none => v.pcp * 2 ^ 13 + v.vid)

/-- The SecTAG: Ethertype, TCI and AN, SL, the low 32 bits of the PN, and the SCI where SECY_FLAGS include it (Table 5-1). SL is
the length of secure data shorter than 48 octets, and 0 otherwise (IEEE 802.1AE). -/
def secTagBytes (flags : BitVec 8) (an pn len : Nat) (sci : BitVec 64) : List Byte :=
  let sc := bit flags 5
  let tci := (if !sc && bit flags 6 then 64 else 0) + (if sc then 32 else 0) + (if !sc && bit flags 7 then 16 else 0) +
    (if bit flags 2 then 12 else 0) + an
  msbBytes 2 0x88E5 ++ msbBytes 1 tci ++ msbBytes 1 (if len < 48 then len else 0) ++ msbBytes 4 pn ++
    (if sc then msbBytes 8 sci.toNat else [])

/-- The IV of a frame (IEEE 802.1AE): SCI and PN, or, for XPN, the salt combined with SSCI and PN. -/
def saIv (a : Sa) (sci : BitVec 64) (pn : Nat) : BitVec 96 :=
  if a.xpn then a.salt ^^^ BitVec.ofNat 96 (a.ssci * 2 ^ 64 + pn) else BitVec.ofNat 96 (sci.toNat * 2 ^ 32 + pn)

/-- CONF_OFFSET (Table 5-1). -/
def confFrom (flags : BitVec 8) : Nat := match field flags 4 3 with | 1 => 30 | 2 => 50 | _ => 0

/-- The frame bound to an SA: its SecTAG and what FAE needs for it. -/
def bindTx (a : Sa) (k : Nat) (flags : BitVec 8) (sci : BitVec 64) (f : TxFrame) : TxFrame :=
  { f with secTag := secTagBytes flags (k % 4) a.nextPn (f.len - 12) sci
           crypt := some { sak := a.sak, long := a.key256, iv := saIv a sci a.nextPn
                           offset := if bit flags 2 then some (confFrom flags) else none } }

/-- The data after the two addresses as FAE sends it: encrypted from its offset on. -/
def securedData (c : TxCrypt) (data : List Byte) : List Byte :=
  match c.offset with
  | none => data
  | some o => data.take o ++ (data.drop o).mapIdx (fun i b => b ^^^ Config.gcmStream c.sak c.long c.iv i)

/-- The ICV: it covers addresses and SecTAG, and the data in clear ahead of the encrypted octets or, unencrypted, all of it. -/
def icvOf (c : TxCrypt) (head secured : List Byte) : List Byte :=
  msbBytes 16 (match c.offset with
    | none => Config.gcmIcv c.sak c.long c.iv (head ++ secured) []
    | some o => Config.gcmIcv c.sak c.long c.iv (head ++ secured.take o) (secured.drop o)).toNat

/-! ## A time written into a PTP message (R157, R229) -/

/-- An incremental update of a one's complement checksum for words changed from sum `was` to sum `is` (RFC 1624). -/
def reSum (c was is n : Nat) : Nat := 65535 - fold16 (65535 - c + (65535 * n - was) + is)

/-- SECONDS and NANOSECONDS of `t` into originTimestamp and FRACTION onto correctionField of the message at `o`, and the update of
a nonzero UDP checksum, where the message follows a UDP header. -/
def writeTime (cfg : Cfg) (p o t : Nat) (f : List Byte) : List Byte :=
  let x := toTime t
  let corr := (numAt f (o + 8) 8 + x.frac) % 2 ^ 64
  let g := putAt (putAt f (o + 8) (msbBytes 8 corr)) (o + 34) (msbBytes 6 x.sec ++ msbBytes 4 x.ns)
  let sums := fun (b : List Byte) => wordSum ((b.drop (o + 8)).take 8) + wordSum ((b.drop (o + 34)).take 10)
  let old := numAt f (o - 2) 2
  match udpBefore cfg p o f with
  | false => g
  | true => if old = 0 then g else putAt g (o - 2) (msbBytes 2 (let c := reSum old (sums f) (sums g) 9; if c = 0 then 0xFFFF else c))
where
  /-- A UDP header ends at `o` (R229); the frame's later bytes need not have come. -/
  udpBefore (cfg : Cfg) (p o : Nat) (f : List Byte) : Bool :=
    match ipFrame cfg p (f ++ List.replicate 16384 0) with
    | some h => decide (h.proto = 17) && decide (h.l4 + 8 = o)
    | none => false

/-! ## The frame on the line -/

/-- The frame's bytes as far as they have come, with tag, SecTAG and secured data. -/
def lineHead (f : TxFrame) : List Byte :=
  f.bytes.take 12 ++ f.tag ++ f.secTag ++
    (match f.crypt with | some c => securedData c (f.bytes.drop 12) | none => f.bytes.drop 12)

/-- The whole frame on the line: ICV, zeros to 60 bytes, FCS. -/
def lineWhole (f : TxFrame) : List Byte :=
  let icv := match f.crypt with
    | some c => icvOf c (f.bytes.take 12 ++ f.secTag) (securedData c (f.bytes.drop 12))
    | none => []
  withFcs (padTo 60 (lineHead f ++ icv))

/-- What TXM can send of the frame: all of it once its end word has come. -/
def lineBytesOf (f : TxFrame) : List Byte := if f.action = some 0 then lineWhole f else lineHead f

end Sys2Proof.Machine
end

