-- ==== Sys2Proof/Machine/Rings.lean ====
section
/-! DEFINITION. Host rings (10): indices, malformed entries, completions, ring errors and freezing, group 0x08, and the
processing of posted entries. -/
namespace Sys2Proof.Machine

/-! ## Indices (R241) -/

def idxSlot (i : Nat) : Nat := i % 65536
def idxWrap (i : Nat) : Nat := i / 65536 % 2

/-- The index `n` places on, on a ring of 2^k slots. -/
def idxAdd (k i n : Nat) : Nat :=
  let l := (idxWrap i * 2 ^ k + idxSlot i + n) % 2 ^ (k + 1)
  l / 2 ^ k * 65536 + l % 2 ^ k

/-- span(a, b). -/
def span (k a b : Nat) : Int :=
  if idxWrap a = idxWrap b then (idxSlot a : Int) - idxSlot b else 2 ^ k - (idxSlot b : Int) + idxSlot a

/-- A span that R241 calls valid. -/
def spanValid (k : Nat) (v : Int) : Bool := 0 ≤ v && v ≤ 2 ^ k

/-- SIZE_LOG2 and flags of a configured ring. -/
def ringCfg (s : State) (key : Nat) : Option RingConfigBody := tget s.cfg.ring key
def ringLog (s : State) (key : Nat) : Nat := match ringCfg s key with | some b => b.sizeLog2 | none => 6
def ringBatched (s : State) (key : Nat) : Bool := match ringCfg s key with | some b => bit b.ringFlags 0 | none => false
def ringAccess (s : State) (key : Nat) : Nat := match ringCfg s key with | some b => b.accessId | none => 0

/-- Entries posted and not taken. -/
def ringFree (s : State) (key : Nat) : Nat := (span (ringLog s key) (ringOf s key).p (ringOf s key).next).toNat

/-! ## Malformed entries (Table 10-7) -/

def dSop (d : Descriptor) : Bool := bit d.flags 0
def dEop (d : Descriptor) : Bool := bit d.flags 1
def dBatchEnd (d : Descriptor) : Bool := bit d.flags 2
def dTsReq (d : Descriptor) : Nat := field d.flags 6 5

/-- The conditions of any ring type. -/
def badAny (batched : Bool) (d : Descriptor) : Bool :=
  d.rsv ≠ 0 || d.mark ≠ 0 || field d.flags 15 8 ≠ 0 || (dBatchEnd d && !batched)

/-- Transmit-only fields set on another ring type (R246). -/
def txFieldsSet (d : Descriptor) : Bool :=
  field d.flags 7 3 ≠ 0 || d.tsId ≠ 0 || d.tsOffset ≠ 0 || d.txTci ≠ 0

def badReceive (batched : Bool) (d : Descriptor) : Bool :=
  badAny batched d || dSop d || dEop d || txFieldsSet d || d.bufAddr % 64 ≠ 0 || d.bufLen % 64 ≠ 0 || d.bufLen < 256 ||
    16384 < d.bufLen

def badCommand (batched : Bool) (d : Descriptor) : Bool :=
  badAny batched d || !dSop d || !dEop d || txFieldsSet d || d.bufAddr % 8 ≠ 0 || d.bufLen < 32 || 12920 < d.bufLen

/-- A transmit descriptor after the earlier ones of its frame, whose number and BUF_LEN sum are given. -/
def badTransmit (batched : Bool) (count sum : Nat) (d : Descriptor) : Bool :=
  badAny batched d || d.bufLen = 0 || (count = 0) ≠ dSop d || 64 ≤ count || 16379 < sum + d.bufLen ||
    (dEop d && sum + d.bufLen < 14) || (dBatchEnd d && !dEop d) || dTsReq d = 3

/-! ## Errors of a ring (R249, R251, R257) -/

/-- CODE of a ring error (R251's list). -/
def ringErrorCode (code : Nat) (timeout : Bool) : Nat :=
  if code ≤ 4 then 0x0A01 else if code = 5 then 0x0A02 else if code = 8 then 0x0A03 else if timeout then 0x0B02 else 0x0B01

/-- Answer a RING_STOP that waited (R250). -/
def answerStop (key : Nat) (s : State) : State :=
  let r := ringOf s key
  match r.stop with
  | some ctx => answer ctx stOk 0 [(4, r.aborts)] (putRing key { r with stop := none } s)
  | none => s

/-- A frame bound for a ring is dropped: its own counter, R113's for an errored one, its sample. -/
def ringDrop (ctr : Nat) (i : RxInfo) (s : State) : State :=
  let s1 := tally ctr s
  endSample 4 0 0xFFFF i.sample (if i.flags = 0 then s1 else tally (rxErroredDroppedCtr i.port) s1)

/-- Drop every frame staged for a ring, counting each. -/
def dropStaged (key ctr : Nat) (s : State) : State :=
  let mine := s.hpe.staged.filter (fun f => f.ring = key)
  mine.foldl (fun a f => ringDrop ctr f.info a) { s with hpe := { s.hpe with staged := s.hpe.staged.filter (fun f => f.ring ≠ key) } }

/-- A reply ring that is no longer RUNNING: the replies that wait on it are discarded and counted; places of commands not
yet answered stay (R260, R264). -/
def discardReplies (key : Nat) (s : State) : State :=
  if key < 768 then s
  else
    let l := repliesOf s (key % 256)
    count (ringRepliesLostCtr key) (countIf l (fun e => e.2.isSome)) (putReplies (key % 256) (l.filter (fun e => e.2.isNone)) s)

/-- A transmit ring that processes nothing: its leaf reports not backlogged (R249, R264). -/
def dropHostFrames (key : Nat) (s : State) : State :=
  { s with esh := { s.esh with host := s.esh.host.filter (fun e => 256 ≤ e.1 / 1024 || e.1 / 1024 + 256 ≠ key) } }

/-- The ring enters ERROR (R242 to R246, R262, R264) and is recorded once. -/
def ringError (key code latched : Nat) (timeout : Bool) (s : State) : State :=
  let s1 := answerStop key s
  let s2 := putRing key { ringOf s1 key with state := 4, error := code, latched } s1
  let s3 := discardReplies key (if key < 256 then dropStaged key (ringFlushedCtr key) s2 else dropHostFrames key s2)
  let s3 := if code = 6 ∨ code = 7 then tally (ringBusErrorsCtr key) s3 else s3
  errorAt 0x0A (ringErrorCode code timeout) key (if code = 8 then sevNote else sevMinor)
    (if code = 8 then clsAccess else if code = 6 ∨ code = 7 then (if timeout then clsTimeout else clsInput) else clsInput)
    latched 0 s3

/-! ## Completions (R247, R248) -/

/-- The 32 bytes of a completion (Table 10-8), least significant byte first. -/
def cplBytes (e : RingEntry) (c : Cpl) (idx : Nat) : List Byte :=
  let t := toTime (c.stamp.getD 0)
  lsbBytes 8 e.desc.cookie.toNat ++ lsbBytes 2 c.length ++ lsbBytes 1 c.status ++ lsbBytes 1 c.tagInfo ++
    lsbBytes 2 c.portErr ++ lsbBytes 2 c.flags ++ lsbBytes 2 (t.sec % 65536) ++ lsbBytes 4 t.ns ++ lsbBytes 2 t.frac ++
    lsbBytes 2 c.epoch ++ lsbBytes 2 c.outer ++ lsbBytes 2 c.inner ++ lsbBytes 1 0 ++
    lsbBytes 1 (if idxWrap idx = 0 then 1 else 2)

/-- Host address of a slot. -/
def slotAddr (s : State) (key idx : Nat) : Nat := (match ringCfg s key with | some b => b.baseAddr | none => 0) + 32 * idxSlot idx

/-- A wake event: a sleeping target's source need not wait for its moderation (R259, R282). -/
def wakeEvent (key : Nat) (s : State) : State :=
  match ringCfg s key with
  | none => s
  | some b =>
    match tget s.cfg.irqSource b.irqSource with
    | some q => if (target s q.target).state = 2 then
        { s with jic := { s.jic with modDue := tdel s.jic.modDue b.irqSource } } else s
    | none => s

/-- Complete the entry at C: written unless its ring batches it silently (R248). -/
def completeEntry (key : Nat) (e : RingEntry) (c : Cpl) (s : State) : State :=
  let r := ringOf s key
  let k := ringLog s key
  let written := !ringBatched s key || dBatchEnd e.desc || c.status ≠ 0 || r.state = 3
  let c1 := idxAdd k r.c 1
  let cpl := if written && r.w ≠ r.c then { c with flags := c.flags ||| 4 } else c
  let r1 := { r with c := c1, w := if written then c1 else r.w, taken := r.taken.drop 1
                     cWas := if r.cAt = s.tsu.now then r.cWas else r.c, cAt := s.tsu.now
                     back := if written then r.back ++ [(r.c, r.w)] else r.back
                     aborts := if c.status = 1 then r.aborts + 1 else r.aborts }
  let s1 := putRing key r1 s
  let s2 := if written then emit (.hostWrite (ringAccess s key) (slotAddr s key r.c) (cplBytes e cpl r.c)) s1 else s1
  let s3 := tally (ringEntriesCtr key) s2
  let s4 := if c.status = 1 then tally (ringAbortedCtr key) s3 else if c.status = 3 then tally (ringBusErrorsCtr key) s3 else s3
  let s5 := if written ∧ e.wake then wakeEvent key s4 else s4
  if e.fault then ringError key 5 r.c false s5 else s5

/-- Complete entries in index order as far as they are done. -/
def flushEntries (key : Nat) (l : List RingEntry) (s : State) : State :=
  match l with
  | [] => s
  | e :: r =>
    match e.done with
    | none => s
    | some c => let s1 := completeEntry key e c s
                if e.fault then s1 else flushEntries key r s1

/-- A ring in ERROR completes nothing more (R249, R251). -/
def flushRing (key : Nat) (s : State) : State :=
  let r := ringOf s key
  if r.state = 2 ∨ r.state = 3 then flushEntries key r.taken s else s

/-- Change the taken entries of one frame. -/
def mapFrame (key frame : Nat) (f : RingEntry → RingEntry) (s : State) : State :=
  let r := ringOf s key
  putRing key { r with taken := r.taken.map (fun e => if e.frame = frame then f e else e) } s

/-- Take an entry into processing. -/
def takeEntry (key : Nat) (e : RingEntry) (s : State) : State :=
  let r := ringOf s key
  putRing key { r with taken := r.taken ++ [e], next := idxAdd (ringLog s key) r.next 1 } s

/-- SOP and EOP flags of each completion of a frame: all descriptors carry the same bytes 10 to 29 but for these. -/
def frameCpls (n : Nat) (c : Cpl) (l : List RingEntry) (i : Nat) : List RingEntry :=
  match l with
  | [] => []
  | e :: r => { e with done := some { c with flags := c.flags + (if i = 0 then 1 else 0) + (if i + 1 = n then 2 else 0) } } ::
      frameCpls n c r (i + 1)

/-- Complete every entry of a transmit frame (R247, R253). -/
def completeFrame (key frame : Nat) (c : Cpl) (s : State) : State :=
  let r := ringOf s key
  let mine := r.taken.filter (fun e => e.frame = frame)
  let l := r.taken.takeWhile (fun e => e.frame ≠ frame) ++ frameCpls mine.length c mine 0 ++
    (r.taken.dropWhile (fun e => e.frame ≠ frame)).filter (fun e => e.frame ≠ frame)
  flushRing key (putRing key { r with taken := l } s)

/-- A fresh frame number. -/
def freshId (s : State) : Nat × State := (s.hpe.nextId, { s with hpe := { s.hpe with nextId := s.hpe.nextId + 1 } })

/-! ## Freezing (R264) -/

/-- TXM drops the frames of transmit ring `n` that have not started (R264). R167 counts each under one cause and the spec does
not say which: it is free (log 40). -/
def discardRingFrames (n : Nat) (s : State) : State :=
  s.ports.foldl (fun a e =>
    let x := portOf a e.1
    let gone := (x.express ++ x.preempts).filter (fun f => f.source = .ring n)
    let keep := fun (l : List TxFrame) => l.filter (fun f => f.source ≠ .ring n)
    let a1 := putPort e.1 { x with express := keep x.express, preempts := keep x.preempts } a
    gone.foldl (fun b f =>
      let c := markDropped (groupOf e.1) f (useBytes e.1 (-(f.len : Int)) (countCause e.1 (Config.frozenCause e.1).toNat none b))
      match f.sa with
      | some k => unbindSa k c
      | none => c) a1) s

/-- One ring enters FROZEN; a RING_STOP that waits replies OK with the aborts written so far (Table 10-12). -/
def freezeRing (key : Nat) (s : State) : State :=
  let r := ringOf s key
  if r.state = 0 then s
  else
    let s1 := answerStop key s
    let s2 := putRing key { ringOf s1 key with state := 5, taken := [], back := [], sop := false } s1
    let n := key % 256
    if key < 256 then dropStaged key (ringFrozenDropsCtr key) s2
    else if key < 512 then
      discardRingFrames n (dropHostFrames key s2)
    else if key < 768 then
      let gone := s2.cpx.queue.filter (fun w => w.origin = .ring n)
      gone.foldl (fun a w => dropSlot n w.slot a)
        { s2 with cpx := { s2.cpx with queue := s2.cpx.queue.filter (fun w => w.origin ≠ .ring n) } }
    else discardReplies key s2

/-- Every ring of an access ID enters FROZEN. -/
def freezeRings (id : Nat) (s : State) : State :=
  s.cfg.ring.foldl (fun a r => if r.2.accessId = id then freezeRing r.1 a else a) s

/-- MASTER_UNFREEZE moves each frozen ring of the ID to ERROR with WAS_FROZEN. -/
def unfreezeRings (id : Nat) (s : State) : State :=
  s.cfg.ring.foldl (fun a r => if r.2.accessId = id ∧ (ringOf a r.1).state = 5 then
    ringError r.1 8 (ringOf a r.1).c false a else a) s

/-! ## Group 0x08 -/

def opRingConfig (b : RingConfigBody) : Op :=
  { opcode := 0x0801, kind := .s, auth := .o
    body := [(1, b.ringType), (1, b.ring), (8, b.baseAddr), (1, b.sizeLog2), (2, b.accessId), (2, b.ringFlags.toNat),
      (4, b.holdTime), (2, b.irqSource)]
    rsvZero := field b.ringFlags 15 4 = 0
    ranges := [(0, b.ringType ≤ 3), (1, b.ring ≤ 255), (2, b.baseAddr % 4096 = 0), (10, 6 ≤ b.sizeLog2 && b.sizeLog2 ≤ 16),
      (11, b.accessId ≤ 4095), (13, field b.ringFlags 3 2 ≠ 3),
      (15, b.holdTime = 0 || (100 ≤ b.holdTime && b.holdTime ≤ 1000000)),
      (19, b.irqSource ≤ 0x3FF || b.irqSource = 0xFFFF)]
    check := fun ctx _ => firstOf
      [need (b.ringType ≤ 1 || b.ring ≤ 63) stOutOfRange 1,
       param (!(2 ≤ b.ringType && ctx.origin = .ring b.ring)) 1,
       need (!bit b.ringFlags 0 || b.ringType = 1 || b.ringType = 2) stOutOfRange 13,
       need (field b.ringFlags 3 1 = 0 || b.ringType = 0) stOutOfRange 13,
       need (b.holdTime = 0 || b.ringType = 0) stOutOfRange 15]
    edit := some (.ring b) }

/-- A sealed set changes the ring's configuration (R240): the last of its edits of the ring decides. -/
def sealedTouchesRing (s : State) (key : Nat) : Bool :=
  s.cpx.staged.sealed.isSome &&
    (match (s.cpx.staged.edits.filterMap (fun e => match e with
      | .ring b => if ringKey b.ringType b.ring = key then some b else none
      | _ => none)).getLast? with
    | some b => decide (tget s.cfg.ring key ≠ some b)
    | none => false)

def ringNameRanges (t n : Nat) : List (Nat × Bool) := [(0, t ≤ 3), (1, n ≤ 255)]

/-- A ring number that its type has (R239). -/
def ringNumberOk (t n : Nat) : Refused := need (t ≤ 1 || n ≤ 63) stOutOfRange 1

/-- The command would act on the ring it came on or its reply ring (Table 2-25). -/
def ownRing (ctx : ReplyCtx) (t n : Nat) : Bool := 2 ≤ t && ctx.origin = .ring n

def opRingStart (t n : Nat) : Op :=
  { opcode := 0x0802, kind := .i, auth := .o, body := [(1, t), (1, n)], ranges := ringNameRanges t n
    check := fun _ s => firstOf
      [ringNumberOk t n,
       need (!sealedTouchesRing s (ringKey t n)) stBusy,
       param ((ringOf s (ringKey t n)).state = 1) 0,
       param (t ≠ 2 || (ringOf s (ringKey 3 n)).state = 2) 0]
    run := fun _ s => { state := putRing (ringKey t n) { ringOf s (ringKey t n) with state := 2 } s } }

/-- RING_STOP of a running ring: frames staged for a receive ring are dropped, and the reply waits (R250). -/
def stopRing (key : Nat) (ctx : ReplyCtx) (s : State) : State :=
  let s1 := putRing key { ringOf s key with state := 3, stop := some ctx, aborts := 0 } s
  discardReplies key (if key < 256 then dropStaged key (ringFlushedCtr key) s1 else s1)

def opRingStop (t n : Nat) : Op :=
  { opcode := 0x0803, kind := .i, auth := .o, body := [(1, t), (1, n)], ranges := ringNameRanges t n
    check := fun ctx s => firstOf
      [ringNumberOk t n,
       param (!ownRing ctx t n) 1,
       param ((ringOf s (ringKey t n)).state = 1 || (ringOf s (ringKey t n)).state = 2) 0]
    run := fun ctx s =>
      if (ringOf s (ringKey t n)).state = 1 then { state := s, body := [(4, 0)] }
      else { state := stopRing (ringKey t n) ctx s, later := true } }

/-- RING_RESET's effect (R251). -/
def resetRing (key : Nat) (s : State) : State :=
  let s1 := dropHostFrames key { s with hpe := { s.hpe with staged := s.hpe.staged.filter (fun f => f.ring ≠ key) } }
  putRing key { state := 1 } s1

def opRingReset (t n : Nat) : Op :=
  { opcode := 0x0804, kind := .i, auth := .o, body := [(1, t), (1, n)], ranges := ringNameRanges t n
    check := fun ctx s =>
      let st := (ringOf s (ringKey t n)).state
      firstOf [ringNumberOk t n, param (!ownRing ctx t n) 1, need (st ≠ 2 && st ≠ 3) stBusy, param (st = 1 || st = 4) 0]
    run := fun _ s => { state := resetRing (ringKey t n) s } }

def opRingStateGet (t n : Nat) : Op :=
  { opcode := 0x0805, kind := .q, auth := .o, body := [(1, t), (1, n)], ranges := ringNameRanges t n
    check := fun _ _ => ringNumberOk t n
    run := fun _ s =>
      let r := ringOf s (ringKey t n)
      { state := s, body := [(1, r.state), (4, r.p), (4, r.c), (4, r.latched), (2, r.error)] } }

def opRxSteerSet (b : RxSteerBody) : Op :=
  { opcode := 0x0806, kind := .s, auth := .o, body := [(2, b.port), (1, b.matchIndex), (6, b.da.toNat), (1, b.ring)]
    ranges := [(0, b.port ≤ 515), (2, b.matchIndex ≤ 15), (9, b.ring ≤ 255)], ports := [b.port]
    edit := some (.rxSteer b) }

/-! ## Processing posted entries -/

/-- The ring takes entries now: RUNNING, something posted, no malformed entry taken (what follows one is left untouched, R246),
not held by the pouncer. -/
def ringReady (s : State) (key : Nat) : Bool :=
  processing s && (ringOf s key).state = 2 && 0 < ringFree s key && !(ringOf s key).taken.any (fun e => e.fault) && (ringOf s key).stallTo ≤ s.tsu.now && s.dbg.freeze.isNone

/-- RING_STALL before a descriptor fetch (Table 16-4): a firing holds the ring for ARG ns. A ring held before fetches
now. True: fetch. -/
def stallCheck (key : Nat) (s : State) : Bool × State :=
  let r := ringOf s key
  if r.stallTo ≠ 0 then (true, putRing key { r with stallTo := 0 } s)
  else
    match pounceFires 4 key s with
    | (some ns, s1) => (false, putRing key { ringOf s1 key with stallTo := s1.tsu.now + nsUp ns } s1)
    | (none, s1) => (true, s1)

/-- A malformed entry that stands alone. -/
def takeMalformed (key : Nat) (d : Descriptor) (s : State) : State :=
  flushRing key (takeEntry key { desc := d, done := some { status := 2, length := if 512 ≤ key ∧ key < 768 then d.bufLen else 0, flags := if key < 512 then 0 else 3 }, fault := true } s)

/-- The binding of a transmit ring (R252). -/
def bindingOf (cfg : Cfg) (source : Nat) : Option HostLeafBody := (cfg.hostLeaf.find? (fun b => b.2.source = source)).map (fun b => b.2)

/-- A transmit descriptor (R246, R252, R262). `ok`: its data read; `data`: the bytes of its buffer. -/
def txEntry (key : Nat) (d : Descriptor) (ok : Bool) (data : List Byte) (s : State) : State :=
  let r := ringOf s key
  let open_ : Option Nat := if r.sop then r.taken.getLast?.map (fun (e : RingEntry) => e.frame) else none
  let mine : List RingEntry := match open_ with | some f => r.taken.filter (fun (e : RingEntry) => e.frame = f) | none => []
  let sum := (mine.map (fun (e : RingEntry) => e.desc.bufLen)).sum
  let (fresh, s0) := freshId s
  let frame := open_.getD fresh
  let own := padTo d.bufLen (data.take d.bufLen)
  let s1 := takeEntry key { desc := d, data := own, frame, bad := !ok } s0
  let bound := bindingOf s.cfg (key - 256)
  let port := match bound with | some b => b.port | none => 0
  let bytes := mine.flatMap (fun e => e.data) ++ own
  let wire := match bound with
    | some b => wireLen s.cfg b.port (sum + d.bufLen) (inserts s.cfg b.port bytes)
    | none => max 64 (sum + d.bufLen + 4)
  let cpl : Cpl := { length := wire, portErr := port, epoch := s.cpx.epoch }
  if badTransmit (ringBatched s key) mine.length sum d then
    let r1 := ringOf s1 key
    let n := r1.taken.length
    let taken := r1.taken.mapIdx (fun i e => if i + 1 = n then { e with fault := true } else e)
    completeFrame key frame { cpl with status := 2, length := 0 } (putRing key { r1 with sop := false, taken } s1)
  else if dEop d = false then putRing key { ringOf s1 key with sop := true } s1
  else
    let s2 := putRing key { ringOf s1 key with sop := false } s1
    let first := (mine.head?.map (fun e => e.desc)).getD d
    if (mine.any (fun e => e.bad)) ∨ ok = false then completeFrame key frame { cpl with status := 3 } s2
    else
      match bound with
      | none => completeFrame key frame { cpl with status := 7 } s2
      | some b =>
        let f : HostFrame := { id := frame, len := sum + d.bufLen, enq := s2.tsu.now, desc := some first, bytes }
        let k := hostKey b.source b.port
        { s2 with esh := { s2.esh with host := tput s2.esh.host k (tgetD s2.esh.host k [] ++ [f]) } }

/-- RING_ENTRY_PROCESS (R238): a transmit descriptor; on other ring types, an entry found malformed. -/
def ringEntry (t n : Nat) (d : Descriptor) (ok : Bool) (data : List Byte) (s : State) : State :=
  let key := ringKey t n
  if ringReady s key = false then s
  else
    match stallCheck key s with
    | (false, s1) => s1
    | (true, s1) =>
      if t = 1 then txEntry key d ok data s1
      else if t = 2 then (if badCommand (ringBatched s key) d then takeMalformed key d s1 else s1)
      else (if badReceive false d then takeMalformed key d s1 else s1)

/-- The CPX queue takes no more (R43). -/
def queueFull (s : State) : Bool := 1024 ≤ s.cpx.queue.length

/-- CMD_RING_FETCH (R260): `cmd` is the command that the entry's buffer holds. A reply waiting without a free reply descriptor holds the ring. -/
def cmdFetch (n : Nat) (d : Descriptor) (ok : Bool) (cmd : List Byte) (s : State) : State :=
  let key := ringKey 2 n
  let waits : Bool := (match repliesOf s n with | (_, some _) :: _ => true | _ => false) && ringFree s (ringKey 3 n) = 0
  if ringReady s key = false ∨ waits ∨ s.cpx.restart.isSome then s
  else
    match stallCheck key s with
    | (false, s1) => s1
    | (true, s1) =>
      if badCommand (ringBatched s key) d then takeMalformed key d s1
      else if ok = false then flushRing key (takeEntry key { desc := d, done := some { status := 3, length := d.bufLen, flags := 3 } } s1)
      else
        let (slot, s2) := takeSlot n s1
        let s3 := count (ringBytesCtr key) d.bufLen
          (flushRing key (takeEntry key { desc := d, done := some { status := 0, length := d.bufLen, flags := 3 } } s2))
        if queueFull s then
          let ctx := { bytesCtx (.ring n) cmd s3 with slot := some slot }
          deliverReply ctx (mkReply ctx stOverload 0 [] s3) s3
        else { s3 with cpx := { s3.cpx with queue := s3.cpx.queue ++ [{ origin := .ring n, length := d.bufLen, slot := some slot }] } }

/-- REPLY_RING_WRITE (R260): the head reply into the next free descriptor. -/
def replyWrite (n : Nat) (d : Descriptor) (ok : Bool) (s : State) : State :=
  let key := ringKey 3 n
  match repliesOf s n with
  | (id, some r) :: rest =>
    if ringReady s key = false then s
    else
      match stallCheck key s with
      | (false, s1) => s1
      | (true, s1) =>
        if badReceive false d then takeMalformed key d s1
        else
          let len := replyLen r
          let st := if ok = false then 3 else if d.bufLen < len then 9 else 0
          let s2 := emit (.hostWrite (ringAccess s key) d.bufAddr ((replyBytes r).take d.bufLen)) s1
          replyWritten id (count (ringBytesCtr key) (min len d.bufLen)
            (flushRing key (takeEntry key { desc := d, done := some { status := st, length := len, flags := 3 } } (putReplies n rest s2))))
  | _ => s

/-- RING_STOP_DONE (R250): once every taken entry is complete, the rest is completed ABORTED up to P. -/
def abortRest (fuel : Nat) (key : Nat) (s : State) : State :=
  match fuel with
  | 0 => s
  | fuel + 1 =>
    let r := ringOf s key
    let d : Descriptor := { cookie := Config.hostWord (slotAddr s key r.next) s.draws }
    let s1 := flushRing key (takeEntry key { desc := d, done := some { status := 1, flags := if key < 512 then 0 else 3 } } s)
    abortRest fuel key { s1 with draws := s1.draws + 1 }

def ringStopDone (t n : Nat) (s : State) : State :=
  let key := ringKey t n
  let r := ringOf s key
  let replyWaits : Bool := t = 2 && (ringOf s (ringKey 3 n)).state = 2 &&
    ((repliesOf s n).any (fun e => e.2.isSome))
  if processing s = false ∨ r.state ≠ 3 ∨ replyWaits ∨ r.taken.any (fun e => e.done = none && (dEop e.desc || t ≠ 1)) then s
  else
    let back := if t = 1 ∧ r.sop then
        let f := r.taken.getLast?.map (fun e => e.frame)
        putRing key { r with sop := false, taken := r.taken.map (fun e => if some e.frame = f then { e with done := some { status := 1 } } else e) } s
      else s
    let s1 := flushRing key back
    let s2 := abortRest (ringFree s1 key) key s1
    let r2 := ringOf s2 key
    answerStop key (putRing key { r2 with state := 1, w := r2.c, next := r2.c } s2)

def execRingConfig (z : Zelgen) (b : RingConfigBody) (s : State) : Result := command (opRingConfig b) z s
def execRingStart (z : Zelgen) (ringType ring : Nat) (s : State) : Result := command (opRingStart ringType ring) z s
def execRingStop (z : Zelgen) (ringType ring : Nat) (s : State) : Result := command (opRingStop ringType ring) z s
def execRingReset (z : Zelgen) (ringType ring : Nat) (s : State) : Result := command (opRingReset ringType ring) z s
def execRingStateGet (z : Zelgen) (ringType ring : Nat) (s : State) : Result := command (opRingStateGet ringType ring) z s
def execRxSteerSet (z : Zelgen) (b : RxSteerBody) (s : State) : Result := command (opRxSteerSet b) z s
def execCmdRingFetch (dt ring : Nat) (desc : Descriptor) (readOk : Bool) (s : State) (cmd : List Byte := []) : Result :=
  happen dt (cmdFetch ring desc readOk cmd) s
def execReplyRingWrite (dt ring : Nat) (desc : Descriptor) (writeOk : Bool) (s : State) : Result :=
  happen dt (replyWrite ring desc writeOk) s
def execRingEntryProcess (dt ringType ring : Nat) (desc : Descriptor) (dataOk : Bool) (s : State) (data : List Byte := []) : Result :=
  happen dt (ringEntry ringType ring desc dataOk data) s
def execRingStopDone (dt ringType ring : Nat) (s : State) : Result := happen dt (ringStopDone ringType ring) s

end Sys2Proof.Machine
end

