-- ==== Sys2Proof/Machine/Access.lean ====
section
/-! DEFINITION. Access-ID policy (17): POLICY, the classes of Table 17-8, violations and freezes (R398, R399), the unfreeze
(R400), and the doorbells (R242 to R244). -/
namespace Sys2Proof.Machine

/-! ## Policy (R397) -/

/-- POLICY of an access ID. -/
def policyOf (s : State) (id : Nat) : BitVec 32 :=
  tgetD s.cfg.policy id (if id = s.fuses.bootAccessId.toNat then 0x1F else 0)

/-- STATUS_READ. -/
def statusRead (s : State) (id : Nat) : Bool := bit (policyOf s id) 0

/-- Ordinary violations within 1 s that freeze the ID. -/
def violationLimit (s : State) (id : Nat) : Nat :=
  match field (policyOf s id) 6 5 with | 0 => 1 | 1 => 4 | _ => 16

def accOf (s : State) (id : Nat) : AccSt := tgetD s.acc id {}

def putAcc (id : Nat) (a : AccSt) (s : State) : State := { s with acc := tput s.acc id a }

/-- Violation codes of Table 17-8. -/
def vioRing : Nat := 0x0001
def vioTarget : Nat := 0x0002
def vioWindow : Nat := 0x0003
def vioStatus : Nat := 0x0004
def vioWrite : Nat := 0x0005
def vioUnmapped : Nat := 0x0006
def vioSealed : Nat := 0x0101

/-- A SYP access answered with error. -/
def sypError (s : State) : State := emit (.sypAnswer true 0) s

/-- A SYP access answered. -/
def sypOk (v : Nat) (s : State) : State := emit (.sypAnswer false v) s

/-! ## Freezing (R23, R264, R284, R354, R399) -/

/-- Access ID of an XDMA channel. -/
def xdmaId (cfg : Cfg) (c : Nat) : Option Nat := (tget cfg.xdma c).map (fun b => b.accessId)

/-- The channels of an ID enter FROZEN; a waiting XDMA_STOP is answered (log 25). -/
def freezeChannels (id : Nat) (s : State) : State :=
  s.cfg.xdma.foldl (fun a e =>
    if e.2.accessId ≠ id then a
    else
      let x := xchan a e.1
      let a1 := putX e.1 { x with state := .frozen, begun := [], stop := none, stopOf := false } a
      match x.stop with
      | some ctx => answer ctx stOk 0 [(8, x.cur)] a1
      | none => a1) s

/-- The targets of an ID present nothing, IRQ_OUT and WAKE_REQ fall, and no presentation that R279 kept outlasts it (R284). -/
def maskTargets (id : Nat) (s : State) : State :=
  let s1 := s.cfg.irqTarget.foldl (fun a e =>
    if e.2.accessId ≠ id then a
    else putTarget e.1 { target a e.1 with presented := none, wakeReq := false, irqOut := false } a) s
  { s1 with jic := { s1.jic with kept := s1.jic.kept.filter (fun e =>
      match tget s.cfg.irqSource e.1 with
      | some b => decide ((tget s.cfg.irqTarget b.target).map (fun q => q.accessId) ≠ some id)
      | none => true) } }

/-- Freeze an access ID (R399). -/
def freezeId (id code : Nat) (security : Bool) (s : State) : State :=
  let a := accOf s id
  let s1 := putAcc id { times := [], freezes := a.freezes + 1, frozen := true } s
  let s2 := maskTargets id (freezeChannels id (freezeRings id s1))
  let s3 := eventRecord 0x0004 (lsbBytes 2 id ++ lsbBytes 2 code) s2
  let s4 := errorAt 0x1B (if security then 0x1B02 else 0x1B01) id (if security then sevCritical else sevMajor) clsAccess code 0 s3
  if security ∨ 3 ≤ a.freezes + 1 then enterQuarantine s4 else s4

/-- A violation: the access has been answered with error, and may freeze its ID (R398, R399). -/
def violate (id code : Nat) (s : State) : State :=
  if code = vioSealed then freezeId id code true s
  else
    let a := accOf s id
    let t := s.tsu.now :: a.times.filter (fun x => s.tsu.now < x + secs 1)
    if violationLimit s id ≤ t.length then freezeId id code false s else putAcc id { a with times := t.take 16 } s

/-- A SYP access that fails a check of Table 17-8: not answered while the block is off, in BRIM or FROZEN; answered with
error; a violation unless the ID is frozen or the mode is BOOT or ZEROIZED (R398, R399, Table 17-10). `status`: a status
read, a violation in those modes too. -/
def denied (id code : Nat) (status : Bool) (s : State) : State :=
  if clocked s = false then s
  else if accFrozen s id ∨ ((s.mode.stage = .boot ∨ s.mode.zeroized) ∧ status = false) then sypError s
  else violate id code (sypError s)

/-! ## Unfreezing (R400) -/

/-- The stack of each target of the ID is emptied (R284). -/
def emptyTargets (id : Nat) (s : State) : State :=
  s.cfg.irqTarget.foldl (fun a e => if e.2.accessId ≠ id then a else putTarget e.1 { target a e.1 with stack := [] } a) s

/-- A frozen XDMA channel enters ERROR with WAS_FROZEN and raises its source (R353, Table 14-10). -/
def unfreezeChannels (id : Nat) (s : State) : State :=
  s.cfg.xdma.foldl (fun a e =>
    if e.2.accessId = id ∧ (xchan a e.1).state = .frozen then
      raiseEvent (0x870 + e.1) (putX e.1 { xchan a e.1 with state := .error, cause := 3, latched := (xchan a e.1).cur } a)
    else a) s

/-- MASTER_UNFREEZE's effect. -/
def unfreezeId (id keyId : Nat) (s : State) : State :=
  let s1 := putAcc id { accOf s id with frozen := false, times := [] } s
  eventRecord 0x0005 (lsbBytes 2 id ++ lsbBytes 2 keyId) (emptyTargets id (unfreezeChannels id (unfreezeRings id s1)))

def opMasterUnfreeze (id : Nat) : Op :=
  { opcode := 0x0E05, kind := .i, auth := .m, body := [(2, id)], ranges := [(0, id ≤ 4095)]
    check := fun _ s => param (accFrozen s id) 0
    run := fun ctx s => { state := unfreezeId id ctx.keyId s } }

def opAccessPolicySet (b : AccessPolicyBody) : Op :=
  { opcode := 0x0E04, kind := .s, auth := .m, body := [(2, b.accessId), (4, b.policy.toNat)]
    rsvZero := field b.policy 31 7 = 0
    ranges := [(0, b.accessId ≤ 4095), (2, field b.policy 6 5 ≠ 3)]
    edit := some (.accessPolicy b) }

/-! ## Doorbells (R242 to R244) -/

/-- The requester owns the ring's page. -/
def ringOwner (s : State) (key id : Nat) : Bool := match ringCfg s key with | some b => b.accessId = id | none => false

/-- A ring page exists (Table 20-3). -/
def ringPage (t n : Nat) : Bool := t ≤ 3 && (if t ≤ 1 then n ≤ 255 else n ≤ 63)

/-- PRODUCER written as `p` (R242), checked against C before an advance in the same ccyc (Table 10-12). -/
def postProducer (key p : Nat) (s : State) : State :=
  let r := ringOf s key
  let k := ringLog s key
  let c := if r.cAt = s.tsu.now then r.cWas else r.c
  if 2 ^ k ≤ idxSlot p then ringError key 1 p false s
  else if spanValid k (span k p c) = false then ringError key 2 p false s
  else if span k p c < span k r.p c then ringError key 3 p false s
  else putRing key { r with p := p } s

/-- CPL_ACK written as `a` (R243). -/
def postAck (key a : Nat) (s : State) : State :=
  let r := ringOf s key
  let k := ringLog s key
  if idxSlot a < 2 ^ k ∧ spanValid k (span k a r.a) ∧ spanValid k (span k r.w a) then putRing key { r with a := a } s
  else ringError key 4 a false s

/-- A doorbell write: PRODUCER first, and a failure there ignores CPL_ACK. One to an UNCONFIGURED ring is counted as ignored
(R244) and, since no ID owns the ring, is a violation too (Table 17-8). -/
def doorbell (id t n : Nat) (producer ack : Option Nat) (s : State) : State :=
  let key := ringKey t n
  if clocked s = false then s
  else if ringPage t n = false then denied id vioUnmapped false s
  else if ringOwner s key id = false then
    denied id vioRing false (if thas s.cfg.ring key ∨ s.mode.stage ≠ .run ∨ s.mode.zeroized then s else tally (ringDoorbellsIgnoredCtr key) s)
  else if accFrozen s id ∨ s.mode.stage = .boot ∨ s.mode.zeroized then sypError s
  else
    let s1 := sypOk 0 s
    let st := (ringOf s key).state
    if st = 1 ∨ st = 2 then
      let s2 := match producer with | some p => postProducer key p s1 | none => s1
      match ack with
      | some a => if (ringOf s2 key).state = st then postAck key a s2 else s2
      | none => s2
    else tally (ringDoorbellsIgnoredCtr key) s1

def execMasterUnfreeze (z : Zelgen) (accessId : Nat) (s : State) : Result := command (opMasterUnfreeze accessId) z s
def execAccessPolicySet (z : Zelgen) (b : AccessPolicyBody) (s : State) : Result := command (opAccessPolicySet b) z s
def execDoorbellProducer (dt accessId ringType ring producer : Nat) (cplAck : Option Nat) (s : State) : Result :=
  happen dt (doorbell accessId ringType ring (some producer) cplAck) s
def execDoorbellCplAck (dt accessId ringType ring cplAck : Nat) (s : State) : Result :=
  happen dt (doorbell accessId ringType ring none (some cplAck)) s

end Sys2Proof.Machine
end

