-- ==== Sys2Proof/Machine/Transmit.lean ====
section
/-! DEFINITION. The transmit path (06): frames handed to TXM (R146 to R158), the start of a frame and preemption (R160,
R166, R200, R201), its end (R163 to R167), and the decision of ESH that grants them (R171 to R181). -/
namespace Sys2Proof.Machine

/-! ## The line (R162, R299) -/

def modeOf (s : State) (p : Nat) : Nat := match portCfg s p with | some b => b.portMode | none => 0

/-- Bytes of a line column. -/
def column (mode : Nat) : Nat := if mode = 0x20 then 1 else 8

/-- The gap after a transmission of `len` line bytes at deficit `d`, and the deficit after it (R162). -/
def gapAfter (mode d len : Nat) : Nat × Nat :=
  if mode = 0x20 then (12, 0)
  else
    let down := (len + 12) % 8
    if down = 0 then (12, d)
    else if d + down ≤ 7 then (12 - down, d + down)
    else (12 + (8 - down), d - (8 - down))

/-- A transmission of `len` line bytes from ccyc `start` ends: its gap, and the line free again after it. `idle`: bytes
of it that no frame on the line has covered. -/
def closeLine (p start len idle : Nat) (s : State) : Nat × State :=
  let x := portOf s p
  let m := modeOf s p
  let (g, d) := gapAfter m x.deficit len
  (g, putPort p { x with deficit := d, lineFree := start + (len + g) * 64 / max 1 (speedOf m * 5)
                         overhead := x.overhead + (g + idle) * 1024 } s)

/-- Classed slots of a transmission that ended. -/
def classSlots (p retired wasted : Nat) (s : State) : State :=
  count (slotTotalCtr p) (retired + wasted) (count (slotRetiredCtr p) retired (count (slotWastedCtr p) wasted s))

/-- A frame of 64 bytes that TXM or TGU makes itself, from ccyc `at_` on. -/
def sendShort (p at_ : Nat) (s : State) : State :=
  let (g, s1) := closeLine p at_ 72 72 s
  classSlots p 0 (72 + g) s1

/-! ## Samples (R300, R301) -/

/-- The transmit record of a sampled frame (Table 12-5). -/
def txSample (p code : Nat) (f : TxFrame) (s : State) : State :=
  if f.sampled = false then s
  else
    pushSample ([(1, 2 + code * 16), (1, f.samplePg), (2, f.sampleTag), (2, f.epoch), (2, f.tc + f.grantId * 16),
      (2, p + (if f.merged then 2048 else 0)), (2, if code = 10 then 0 else f.wire), (4, f.grantAt % 2 ^ 32)] ++
      (if f.started.isSome then stampFields f.stamp else [(8, 0)]) ++ stageFields s) s

/-! ## Frames that end (R163 to R167) -/

/-- STATUS of a ring's frame that was not sent whole (Table 10-10). -/
def causeStatus (cause : Nat) : Nat := if cause = 0 then 4 else if cause = 3 ∨ cause = 4 then 5 else 6

/-- The completion of a ring's frame (R247, R253). -/
def completeTx (p status : Nat) (f : TxFrame) (s : State) : State :=
  match f.source with
  | .ring n => completeFrame (ringKey 1 n) f.hostId
      { length := f.wire, status, portErr := p, stamp := if f.tsValid then some f.stamp else none, epoch := f.epoch
        flags := (if f.skipped then 128 else 0) + (if f.tsValid then 256 else 0) } s
  | _ => s

/-- The frame leaves the transmit buffer (R158, R124). -/
def releaseTx (p : Nat) (f : TxFrame) (s : State) : State :=
  let s1 := if p < 512 then useBytes p (-(f.len : Int)) s else s
  match f.sa with
  | some k => unbindSa k s1
  | none => s1

/-- A frame ends before its first line byte. -/
def dropTx (p cause : Nat) (sc : Option Nat) (f : TxFrame) (s : State) : State :=
  txSample p 10 f (completeTx p (causeStatus cause) f
    (markDropped (groupOf p) f (releaseTx p f (countCause p cause sc s))))

/-- The rest of a frame is discarded to its EOF: ungranted (each slice counted) or already counted. -/
def discardRest (p : Nat) (f : TxFrame) (done : Bool) (s : State) : State :=
  putPort p { portOf s p with opening := if done then none else some f } s

/-- The mark of the fragment in progress (R166). -/
def smdOf (f : TxFrame) : Smd :=
  if f.merged = false then .e else if f.fragments = 0 then .s f.smd else .c f.smd ((f.fragments - 1) % 4)

/-- With PCS_LOOPBACK what a port sends also reaches its receive PCS (Table 3-4). -/
def loopBack (p : Nat) (m : MPacket) (bytes : List Byte) (s : State) : State :=
  if bit (portFlags s.cfg p) 3 then putPort p { portOf s p with looped := (portOf s p).looped ++ [(m, bytes)] } s else s

/-- A transmission of `n` frame bytes from those already sent on. -/
def driveLine (p n : Nat) (ending : LineEnd) (f : TxFrame) (s : State) : State :=
  let s1 := emit (.lineFrame p (smdOf f) (((lineBytesOf f).drop f.sent).take n) ending) s
  match ending with
  | .mcrc => s1
  | _ => loopBack p .none ((lineBytesOf f).take (f.sent + n)) s1

/-- The frame on the line ends as aborted (R163): `n` line bytes of its fragment, then the error column and a gap. -/
def abortLine (p cause n : Nat) (s : State) : State :=
  match (portOf s p).line with
  | none => s
  | some f =>
    let c := column (modeOf s p)
    let len := roundUp n c + c
    let (g, s1) := closeLine p f.fragAt len 0 (putPort p { portOf s p with line := none } s)
    let s2 := classSlots p 0 (f.sent + f.extra + len + g) s1
    let s3 := driveLine p (roundUp n c - 8) (.error c) f (tally (txAbortedCtr p) (countCause p cause none s2))
    txSample p 9 f (completeTx p 6 f (releaseTx p f (if f.opened then discardRest p { f with dropAs := some cause } false s3 else s3)))

/-- Line bytes of the fragment in progress by the end of ccyc `t`. -/
def fragmentBytes (s : State) (p t : Nat) (f : TxFrame) : Nat :=
  min (8 + (f.wire - f.sent)) (lineBytes (portSpeed s.cfg p) (t + 1 - f.fragAt))

/-- A preempted frame awaiting continuation ends as aborted (R163). -/
def abortBroken (p cause : Nat) (f : TxFrame) (s : State) : State :=
  let s1 := classSlots p 0 (f.sent + f.extra) (putPort p { portOf s p with broken := none } s)
  let s2 := tally (txAbortedCtr p) (countCause p cause none s1)
  txSample p 9 f (completeTx p 6 f (releaseTx p f (if f.opened then discardRest p { f with dropAs := some cause } false s2 else s2)))

/-- The frames that a fault in ccyc `t` cuts (R76, R163): the one on the line, and one awaiting continuation. -/
def cutLineAt (t p : Nat) (s : State) : State :=
  let s1 := match (portOf s p).line with
    | some f => abortLine p 7 (fragmentBytes s p t f) s
    | none => s
  match (portOf s1 p).broken with
  | some f => abortBroken p 7 f s1
  | none => s1

def cutLine (p : Nat) (s : State) : State := cutLineAt s.tsu.now p s

/-- The frames that TXM holds for a port whose link has failed or is gated leave with the fault (Tables 7-5, 6-8). -/
def cutQueue (p : Nat) (s : State) : State :=
  let x := portOf s p
  (x.express ++ x.preempts).foldl (fun a f => dropTx p 7 none f a) (putPort p { x with express := [], preempts := [] } s)

/-! ## Frames handed to TXM (R151 to R157) -/

/-- Valid transmit SCs of a port, lowest index first. -/
def txScs (cfg : Cfg) (p : Nat) : List Nat :=
  (cfg.sc.filter (fun e => e.2.port = p && e.2.direction = 1 && e.2.portGroup = groupOf p)).map (fun e => e.1)

/-- The ACTIVE SA of a transmit SC. -/
def activeSa (s : State) (sc : Nat) : Option Nat :=
  (saKeysOf (sc / 512) 1 (sc % 256)).find? (fun k => (saOfKey s k).state = .active)

/-- The SC of a frame (R154). -/
def scOf (cfg : Cfg) (p : Nat) (sc : Option Nat) : Option Nat :=
  match sc with
  | some i => (txScs cfg p).find? (fun k => k % 256 = i)
  | none => (txScs cfg p).head?

/-- The frame as it will be on the wire under the configuration of its grant, the SC it uses, and why it is dropped on
arrival, if it is (R151 to R157). `bad`: a check of its metadata failed; `short`: its length disagrees. -/
def fitFrame (s : State) (cfg : Cfg) (p : Nat) (sc : Option Nat) (bad short : Bool) (f : TxFrame) :
    TxFrame × Option Nat × Option Nat :=
  let ins := inserts cfg p f.bytes
  let flags := protecting cfg p
  let wire := wireLen cfg p f.len ins
  let chan := if flags.isSome then scOf cfg p sc else none
  let sa := chan.bind (activeSa s)
  let mtu := match tget cfg.port p with | some b => b.mtu | none => 0
  let cause : Option Nat :=
    if mtu < wire then some 0
    else if bad ∨ (flags.isSome ∧ sc.isSome ∧ chan = none) then some 1
    else if short then some 2
    else if flags.isSome ∧ chan = none then some 3
    else if flags.isSome ∧ sa = none then some 4
    else none
  let cal := match tget cfg.cal p with | some b => b.txCal | none => 0
  ({ f with wire, inserted := ins, cal, head := (if ins then 4 else 0) + secTagLen cfg p, sa := if cause.isNone then sa else none
            tag := if ins then tagBytes (vlanOf cfg p) f.tci else []
            encrypted := match flags with | some y => bit y 2 | none => false
            preempt := p < 512 && bit (preemptCfg cfg p).preemptableMask f.tc }, chan, cause)

/-- The frame with the SecTAG of the SA it binds to, under the SecY and SC of its grant (R154). -/
def secureTx (cfg : Cfg) (p : Nat) (sc : Option Nat) (f : TxFrame) (s : State) : TxFrame :=
  match f.sa, protecting cfg p with
  | some k, some flags =>
    bindTx (saOfKey s k) k flags (match sc.bind (tget cfg.sc) with | some c => c.sci | none => 0) f
  | _, _ => f

/-- TXM takes a frame into its queue, binding its SA and taking its PN (R124, R125, R161), or drops it. -/
def takeTx (cfg : Cfg) (p : Nat) (f : TxFrame) (sc cause : Option Nat) (s : State) : State :=
  match cause with
  | some c => dropTx p c sc f s
  | none =>
    let g := secureTx cfg p sc f s
    let s1 := match f.sa with
      | some k => movePn k ((saOfKey s k).nextPn + 1) (putSa k { saOfKey s k with bound := (saOfKey s k).bound + 1 } s)
      | none => s
    let x := portOf s1 p
    putPort p (if f.preempt then { x with preempts := x.preempts ++ [g] } else { x with express := x.express ++ [g] }) s1

/-- Note a frame under its grant, with the overhead of its own leaf (R175). -/
def noteArrival (pg : Nat) (g : Grant) (f : TxFrame) (s : State) : State :=
  mapGrant pg g.id (fun x => { x with begun := true
                                      frames := x.frames ++ [{ charge := f.wire + overheadOf g.cfg f.leaf, cpiLen := f.len }] }) s

/-! ## The decision (R171 to R181) -/

/-- The child of least tag, ties to the earliest listed (R172). -/
def select (l : List (Nat × Nat)) : Option (Nat × Nat) :=
  l.foldl (fun a x => match a with
    | none => some x
    | some b => if before x.2 b.2 then some x else some b) none

/-- The path of R171's decision in one group: port, class, node, leaf. -/
def choose (pg : Nat) (s : State) : Option (Nat × Nat × Nat × Nat) :=
  let ports := (s.cfg.port.map (fun e => e.1)).filter (fun p => p < 512 && groupOf p = pg && portEligible s p)
  match select (ports.map (fun p => (p, (portObj s p).tag))) with
  | none => none
  | some (p, _) =>
    let cs := (List.range 16).filter (fun k => classEligible s p k)
    let k := match (cs.filter (fun k => isStrict s.cfg p k)).getLast? with
      | some k => some k
      | none => (select (cs.map (fun k => (k, (classObj s p k).tag)))).map (fun (x : Nat × Nat) => x.1)
    match k with
    | none => none
    | some k =>
      match select (((nodesOf s.cfg p k).filter (nodeEligible s)).map (fun n => (n, (nodeObj s n).tag))) with
      | none => none
      | some (n, _) =>
        (select (((leavesOf s.cfg n).filter (leafEligible s)).map (fun f => (f, (leafObj s f).tag)))).map
          (fun (f : Nat × Nat) => (p, k, n, f.1))

/-- The virtual times move to the tags served (R173). -/
def serve (pg p k n f : Nat) (s : State) : State :=
  let s1 := putEngine pg { engine s pg with v := (portObj s p).tag } s
  let s2 := if isStrict s.cfg p k then s1 else putPortObj p { portObj s1 p with v := (classObj s1 p k).tag } s1
  let s3 := putClass p k { classObj s2 p k with v := (nodeObj s2 n).tag } s2
  putNode n { nodeObj s3 n with v := (leafObj s3 f).tag } s3

/-- The next GRANT_ID, skipping those outstanding (R179). -/
def freeGrantId (fuel n : Nat) (l : List Grant) : Nat :=
  match fuel with
  | 0 => n
  | fuel + 1 => if l.any (fun g => g.id = n) then freeGrantId fuel ((n + 1) % 4096) l else n

/-- The timestamp field lies outside the frame (Table 6-3). -/
def stampOutside (req off len : Nat) : Bool := req ≠ 0 && len < off + 44

/-- The frame that a host source hands over under a grant (R181, R252), its checksums computed as its descriptor or CPX asks
(R153): CPX asks for both (log 41). -/
def hostTx (g : Grant) (source place : Nat) (h : HostFrame) : TxFrame :=
  let d := h.desc.getD {}
  let (bytes, skipped) := match h.desc with
    | some d => offload g.cfg g.port (bit d.flags 3) (bit d.flags 4) h.bytes
    | none => if source = 0x100 then ((offload g.cfg g.port true true h.bytes).1, false) else (h.bytes, false)
  let bad := stampOutside (dTsReq d) d.tsOffset h.len
  { source := if source = 0x100 then .cpx else if source = 0x101 then .hlk else .ring source
    grantId := g.id, leaf := g.leaf, node := g.node, tc := g.cls, len := h.len, wire := 0, epoch := g.epoch
    grantAt := g.at_, place, tsReq := if bad then 0 else dTsReq d, tsBad := bad, tsOffset := d.tsOffset, tsId := d.tsId
    bytes, action := some 0, desc := h.desc, hostId := h.id, skipped
    tci := if bit d.flags 7 then some d.txTci else none
    first := g.at_, arrived := h.enq }

/-- A failed timestamp check of a host frame is a CPI input error of its group (R151); a service port has none. DETAIL0, which
Table 18-5 fills with the word of a frame from the core, is free (log 35). -/
def hostStampError (p : Nat) (f : TxFrame) (s : State) : State :=
  if f.tsBad ∧ p < 512 then
    cpiError (groupOf p) 0x1701 clsInput (Config.injected 0x17 3 s.draws).toNat { s with draws := s.draws + 1 }
  else s

/-- Whole frames pulled from a leaf's host sources in round robin, within the bytes left (R181). -/
def pullHost (fuel : Nat) (g : Grant) (left : Nat) (s : State) : State :=
  match fuel with
  | 0 => s
  | fuel + 1 =>
    match (turnSources s g.leaf).find? (fun b => !(hostQueue s b.source b.port).isEmpty) with
    | none => s
    | some b =>
      match hostQueue s b.source b.port with
      | [] => s
      | h :: rest =>
        if left < h.len then s
        else
          let s1 := { s with esh := { s.esh with host := tput s.esh.host (hostKey b.source b.port) rest
                                                 turn := tput s.esh.turn g.leaf b.source } }
          let n := match grantOf s1 (groupOf g.port) g.id with | some x => x.frames.length | none => 0
          let (f, sc, cause) := fitFrame s1 g.cfg g.port none false false (hostTx g b.source n h)
          pullHost fuel g (left - h.len) (takeTx g.cfg g.port f sc cause
            (noteArrival (groupOf g.port) g f (hostStampError g.port f s1)))

/-- An earlier grant of the port still has frames to come (R146). -/
def awaits (l : List Grant) (g : Grant) : Bool :=
  (l.takeWhile (fun x => x.id ≠ g.id)).any (fun x => x.port = g.port &&
    (match x.released with | some n => decide (x.frames.length < n) | none => true))

/-- The host leaves' grants whose turn has come are pulled, in the order of the grants (R146). -/
def pullGrants (pg : Nat) (s : State) : State :=
  (engine s pg).grants.foldl (fun a g =>
    if g.host && g.released.isNone && !awaits (engine a pg).grants g then
      let a1 := pullHost ((turnSources a g.leaf).map (fun b => (hostQueue a b.source b.port).length)).sum g g.maxBytes a
      mapGrant pg g.id (fun x => { x with released := some x.frames.length }) a1
    else a) s

/-- Speed weight of a port (R171). -/
def portWeight (s : State) (p : Nat) : Nat := max 1 (portSpeed s.cfg p / 25)

/-- The grant word (Table 7-3). -/
def grantWord (g : Grant) : Fields :=
  [(8, g.id * 2 ^ 52 + g.leaf * 2 ^ 34 + g.port % 16 * 2 ^ 30 + g.cls * 2 ^ 26 + g.maxBytes * 2 ^ 11)]

/-- Issue the grant of a decision (R173, R176). -/
def issueGrant (pg p k n f : Nat) (s : State) : State :=
  let w := leafWord s f
  let cap := max w.headLen (min (schedCfg s.cfg p).grantQuantum (freeAllot s p))
  let o := overheadOf s.cfg f
  let e := engine s pg
  let id := freeGrantId 4096 e.nextId e.grants
  let host := !(leafSources s.cfg f).isEmpty
  let g : Grant :=
    { id, leaf := f, node := n, cls := k, port := p, maxBytes := cap, est := min cap w.backlog + o, overhead := o
      wLeaf := (match tget s.cfg.leaf f with | some b => b.weight | none => 1)
      wNode := (match tget s.cfg.node n with | some b => b.weight | none => 1)
      wClass := if isStrict s.cfg p k then none else some (classWeight s.cfg p k)
      wPort := portWeight s p, at_ := s.tsu.now + 1, epoch := s.cpx.epoch, cfg := s.cfg, host
      begun := host, released := none }
  let s1 := chargePath g g.est (moveTags g (fun w => dF g.est w) (serve pg p k n f s))
  let s2 := useBytes p cap (putEngine pg { engine s1 pg with nextId := (id + 1) % 4096, grants := e.grants ++ [g]
                                                             late := e.late.filter (fun x => x ≠ id)
                                                             decided := some s.tsu.now } s1)
  let s3 := tally (schedDecisionsCtr pg) (tally (schedGrantsCtr pg) s2)
  if host then pullGrants pg s3 else emit (.grant pg (grantWord g)) s3

/-- SCHED_DECISION (R171): at most one in a ccyc. The pouncer's GRANT_DELAY holds a decision (Table 16-4). -/
def schedDecision (pg : Nat) (s : State) : State :=
  let e := engine s pg
  if clocked s = false ∨ halting s ∨ s.mode.zeroized ∨ groupState s pg ≠ .powered ∨ 4096 ≤ e.grants.length ∨ s.tsu.now < e.holdTo ∨
      e.decided = some s.tsu.now then s
  else
    match choose pg s with
    | none => s
    | some (p, k, n, f) =>
      if e.holdTo ≠ 0 then issueGrant pg p k n f (putEngine pg { e with holdTo := 0 } s)
      else
        match pounceFires 1 pg s with
        | (some d, s1) => putEngine pg { e with holdTo := s.tsu.now + d, decided := some s.tsu.now } s1
        | (none, s1) => issueGrant pg p k n f s1

/-! ## Frames from the core (R148 to R151, R165) -/

/-- The start word (Table 6-1); a record's DETAIL0 holds its low 64 bits. -/
def startWord (m : TxMeta) : Nat :=
  m.grantId * 2 ^ 116 + (if m.grantLast then 2 ^ 115 else 0) + m.leaf * 2 ^ 97 + m.tc * 2 ^ 93 + m.len * 2 ^ 79 +
    (if m.scValid then 2 ^ 78 else 0) + m.scIndex * 2 ^ 70 + (if m.tagOverride then 2 ^ 69 else 0) + m.pcp * 2 ^ 66 +
    (if m.dei then 2 ^ 65 else 0) + m.vid * 2 ^ 53 + m.tsReq * 2 ^ 51 + m.tsOffset * 2 ^ 43 + m.tsId * 2 ^ 27 +
    (if m.sampled then 2 ^ 26 else 0) + m.samplePg * 2 ^ 21 + m.sampleTag * 2 ^ 5 + m.rsv

/-- A CPI transmit input error (Table 18-5). -/
def txInputError (pg word : Nat) (s : State) : State := cpiError pg 0x1701 clsInput (word % 2 ^ 64) s

/-- Reserved bits or encodings of the start word (Tables 6-1, 6-3). -/
def startReserved (m : TxMeta) : Bool :=
  m.rsv ≠ 0 || m.tsReq = 3 || (!m.sampled && (m.samplePg ≠ 0 || m.sampleTag ≠ 0))

/-- Reserved bits or encodings of the end word (Table 6-2). -/
def endReserved (e : TxEof) : Bool := e.rsv ≠ 0 || e.action = 1 || e.action = 3

/-- The frame of a port that still has slices to come, if TXM holds it: in a queue, on the line, or preempted. -/
def openFrame (x : Port) : Option TxFrame :=
  match x.line with
  | some f => if f.opened then some f else (x.broken.toList ++ x.express ++ x.preempts).find? (fun f => f.opened)
  | none => (x.broken.toList ++ x.express ++ x.preempts).find? (fun f => f.opened)

/-- Change that frame. -/
def mapOpen (g : TxFrame → TxFrame) (x : Port) : Port :=
  let h := fun (f : TxFrame) => if f.opened then g f else f
  { x with line := x.line.map h, broken := x.broken.map h, express := x.express.map h, preempts := x.preempts.map h }

/-- End the open frame of a port for a cause: aborted if it has started, dropped otherwise (R151, R165). -/
def endOpen (p cause : Nat) (s : State) : State :=
  let x := portOf s p
  match openFrame x with
  | none => s
  | some f =>
    if x.line.any (fun g => g.opened) then abortLine p cause (fragmentBytes s p s.tsu.now f) s
    else if x.broken.any (fun g => g.opened) then abortBroken p cause f s
    else
      dropTx p cause none f (putPort p { x with express := x.express.filter (fun g => !g.opened)
                                                preempts := x.preempts.filter (fun g => !g.opened) } s)

/-- A frame from CPI as its start word describes it. -/
def coreTx (m : TxMeta) (t : TxSlices) (g : Grant) (now : Nat) : TxFrame :=
  { source := .core, grantId := g.id, leaf := m.leaf, node := g.node, tc := m.tc, len := m.len, wire := 0, epoch := g.epoch
    grantAt := g.at_, place := g.frames.length
    tsReq := if m.tsReq = 3 || stampOutside m.tsReq m.tsOffset m.len then 0 else m.tsReq
    tsBad := m.tsReq ≠ 3 && stampOutside m.tsReq m.tsOffset m.len
    tsOffset := m.tsOffset, tsId := m.tsId, sampled := m.sampled, samplePg := m.samplePg
    tci := if m.tagOverride then some (BitVec.ofNat 16 (m.pcp * 2 ^ 13 + (if m.dei then 2 ^ 12 else 0) + m.vid)) else none
    sampleTag := m.sampleTag, arrived := now, first := now, bytes := t.bytes, opened := t.eof.isNone
    action := t.eof.map (fun e => e.action) }

/-- The frame is whole or its length disagrees (Table 6-3). -/
def lengthWrong (len got : Nat) (eof : Option TxEof) : Bool := if eof.isSome then got ≠ len else len ≤ got

/-- LEAF is a leaf of the port, and SC_INDEX, where the port protects frames, one of its transmit SCs (Table 6-3). -/
def startNames (cfg : Cfg) (p : Nat) (m : TxMeta) : Bool :=
  (match leafNode cfg m.leaf with | some (_, n) => decide (n.port = p) | none => false) &&
    (!m.scValid || (protecting cfg p).isNone || (scOf cfg p (some m.scIndex)).isSome)

/-- A check of Table 6-3 on the frame's metadata fails, but for its length and its timestamp field. -/
def startBad (cfg : Cfg) (p : Nat) (m : TxMeta) (t : TxSlices) : Bool :=
  startReserved m || t.eof.any endReserved || m.len < 14 || 16379 < m.len || !startNames cfg p m

/-- The start of a frame under its grant (R151): the first cause of R167 that holds ends it. -/
def coreStart (pg p : Nat) (m : TxMeta) (t : TxSlices) (g : Grant) (s : State) : State :=
  let bad := startBad g.cfg p m t
  let short := lengthWrong m.len t.nbytes t.eof
  let (f, sc, cause) := fitFrame s g.cfg p (if m.scValid then some m.scIndex else none) bad short (coreTx m t g s.tsu.now)
  let cause := match cause with
    | some c => some c
    | none => if t.eof.any (fun e => e.action = 2) then some 6 else if mayTransmit s p then none else some 7
  let s1 := noteArrival pg g f s
  let s2 := if bad || short || f.tsBad then txInputError pg (startWord m) s1 else s1
  let s3 := takeTx g.cfg p { f with sa := if cause.isSome then none else f.sa } sc cause s2
  if cause.isSome then discardRest p { f with dropAs := cause } t.eof.isSome s3 else s3

/-- A slice with SOF. -/
def sofSlices (pg p : Nat) (m : TxMeta) (t : TxSlices) (s : State) : State :=
  let s0 := if (openFrame (portOf s p)).isSome then txInputError pg (startWord m) (endOpen p 2 s) else s
  let s1 := putPort p { portOf s0 p with opening := none } s0
  let blank : TxFrame := { source := .core, grantId := m.grantId, leaf := m.leaf, tc := m.tc, len := m.len, wire := 0 }
  match grantOf s1 pg m.grantId with
  | some g =>
    if g.port = p then coreStart pg p m t g s1
    else discardRest p blank t.eof.isSome (txInputError pg (startWord m) (count (txUngrantedSlicesCtr pg) t.slices s1))
  | none =>
    if m.grantId ∈ (engine s1 pg).late ∧ (engine s1 pg).grants.any (fun g => g.port = p) then discardRest p { blank with dropAs := some 7 } t.eof.isSome s1
    else discardRest p blank t.eof.isSome (txInputError pg (startWord m) (count (txUngrantedSlicesCtr pg) t.slices s1))

/-- Further slices of the port's frame. -/
def nextSlices (pg p : Nat) (t : TxSlices) (s : State) : State :=
  let x := portOf s p
  match x.opening with
  | some f =>
    let s1 := if f.dropAs.isNone then count (txUngrantedSlicesCtr pg) t.slices s else s
    if t.eof.isSome then putPort p { portOf s1 p with opening := none } s1 else s1
  | none =>
    match openFrame x with
    | none => s
    | some f =>
      let started := x.line.any (fun g => g.opened) || x.broken.any (fun g => g.opened)
      let got := f.got + t.nbytes
      let cause : Option Nat :=
        if t.eof.any endReserved then some 1
        else if lengthWrong f.len got t.eof then some 2
        else if t.eof.any (fun e => e.action = 2) && !started then some 6
        else none
      match cause with
      | some c =>
        let s1 := if c = 6 then s else txInputError pg (match t.eof with | some e => e.action * 2 ^ 30 + e.rsv * 2 ^ 12 + e.grantId | none => 0) s
        discardRest p { f with dropAs := some c } t.eof.isSome (endOpen p c s1)
      | none =>
        putPort p (mapOpen (fun f => { f with bytes := f.bytes ++ t.bytes, opened := t.eof.isNone
                                              action := t.eof.map (fun e => e.action) }) x) s

/-- CPI_TX_FRAME (R148 to R151). -/
def cpiTxFrame (pg : Nat) (t : TxSlices) (s : State) : State :=
  if clocked s = false ∨ groupState s pg ≠ .powered then s else pullGrants pg (taken pg t s)
where
  /-- The slices go to the frame of their port. -/
  taken (pg : Nat) (t : TxSlices) (s : State) : State :=
  let p := pg * 16 + t.portOff
  if 16 ≤ t.portOff ∨ thas s.cfg.port p = false then
    txInputError pg (match t.start with | some m => startWord m | none => 0) (count (txUngrantedSlicesCtr pg) t.slices s)
  else
    match t.start with
    | some m => sofSlices pg p m t s
    | none => nextSlices pg p t s

/-! ## Pause and verify frames (R199, R207) -/

def pauseCfg (cfg : Cfg) (p : Nat) : PauseBody :=
  (tget cfg.pause p).getD { port := p, pauseMode := 0, obeyMask := 0, genMask := 0, quanta := 0, refresh := 0 }

/-- A MAC control frame (R207). -/
def controlFrame (src : Mac) (opcode : Nat) (fields : List Byte) : List Byte :=
  withFcs (padTo 60 (msbBytes 6 0x0180C2000001 ++ msbBytes 6 src.toNat ++ msbBytes 2 0x8808 ++ msbBytes 2 opcode ++ fields))

/-- An 802.3x pause, or a priority pause enabling `en` with QUANTA for the priorities in `on`. -/
def pauseFrame (src : Mac) (mode quanta : Nat) (en on : BitVec 8) : List Byte :=
  if mode = 1 then controlFrame src 0x0001 (msbBytes 2 (if on = 0 then 0 else quanta))
  else controlFrame src 0x0101 (msbBytes 2 en.toNat ++
    (List.range 8).flatMap (fun i => msbBytes 2 (if bit on i then quanta else 0)))

/-- XOFF ∧ GEN_MASK of a port. -/
def xoffState (s : State) (p : Nat) : BitVec 8 := (portOf s p).xoff &&& (pauseCfg s.cfg p).genMask

/-- The MAC control frame due on a port: a generated one first (Table 8-9), then PAUSE_SEND's. -/
def controlDue (s : State) (p : Nat) : Option (List Byte × Bool) :=
  let x := portOf s p
  let b := pauseCfg s.cfg p
  let st := xoffState s p
  if x.genDue = 2 ∨ (x.genDue = 1 ∧ st ≠ x.told) then
    some (pauseFrame (macOf s.cfg p) b.pauseMode b.quanta (st ||| x.told) st, true)
  else x.macDue.head?.map (fun f => (f, false))

/-- Send the MAC control frame that is due, from ccyc `at_` on. -/
def sendControl (p at_ : Nat) (fr : List Byte) (generated : Bool) (s : State) : State :=
  let x := portOf s p
  let x1 := if generated then { x with genDue := 0, told := xoffState s p, xoffAt := s.tsu.now }
            else { x with genDue := 0, macDue := x.macDue.drop 1 }
  let s1 := loopBack p .none fr (emit (.macControl p fr) (putPort p x1 s))
  let pfc : Bool := numAt fr 14 2 = 0x0101
  sendShort p at_ (tally (if pfc then txPfcCtr p else txPauseCtr p) s1)

/-- Send a verify or respond mPacket that is due, from ccyc `at_` on. -/
def sendMpacket (p at_ : Nat) (s : State) : State :=
  let x := portOf s p
  let respond := x.respondDue
  let x1 := if respond then { x with respondDue := false } else { x with verifyDue := false, verifyAt := s.tsu.now }
  sendShort p at_ (loopBack p (if respond then .respond else .verify) [] (emit (.mpacket p respond) (putPort p x1 s)))

/-! ## Starting a frame (R157, R160, R224 to R230) -/

/-- A_tx in ccyc (Table 20-7): the encode time from the line start to LIF. The table's modes without FEC have 8; a service port's mode
that it does not list is taken as one of them (DESIGN CHOICE, log 40). -/
def encodeTime (fec : Nat) : Nat := if fec = 0 then 8 else if fec = 1 then 12 else 20

/-- T_TX of a frame that starts in ccyc `at_` (R224): its timestamp bit lies `k` bits into a lane word whose first bit crosses LIF
`phase`/64 ccyc after the frame's first preamble byte does. The scale is that of the crossing (R221). -/
def txStamp (s : State) (p at_ phase k : Nat) (cal : Int) : Nat :=
  let b := (portCfg s p).getD { port := p, portMode := 0, fecMode := 0, mtu := 0, portFlags := 0 }
  let rate := laneRate b.portMode b.fecMode
  let k := if 50000000000 < rate then k / 2 * 2 else k
  let d := at_ - s.tsu.now + encodeTime b.fecMode + phase / 64
  let inc := (gain s (d + 1) - gain s d).toNat
  let t : Int := timeAhead s d + phase % 64 * inc / 64 + k * inc * 1600000000 / max 1 rate + cal * 2 ^ 48
  t.toNat / fracUnit * fracUnit

/-- Keep a two-step capture (R228). A service port belongs to no group; its capture lives in its completion only (log 27). -/
def keepCapture (p tsId t : Nat) (s : State) : State :=
  if 512 ≤ p then s
  else
    let g := groupOf p
    let l := (tgetD s.tsu.caps g []).filter (fun c => !(c.port = p && c.tsId = tsId))
    let full := 4096 ≤ l.length
    let s1 := { s with tsu := { s.tsu with caps := tput s.tsu.caps g ((if full then l.drop 1 else l) ++ [{ port := p, tsId, time := t }]) } }
    raiseEvent (0x830 + g) (tally (tsTxCapturesCtr p) (if full then tally (tsEvictedCtr g) s1 else s1))

/-- A frame is a TIME_REQ or TIME_RESP whose transmit time is wanted. -/
def wantsTime (f : TxFrame) (s : State) : Bool :=
  s.hlk.exchange.any (fun e => e.frame = f.hostId) ||
    s.hlk.workers.any (fun w => match w.2.t3Frame with | some (_, i) => i = f.hostId | none => false)

/-- The transmit times of HLK's time exchange: t1 of a TIME_REQ, t3 of a TIME_RESP (R427). CPX asks for them as two-step captures, which
use the same store (R228). -/
def hlkCapture (p : Nat) (f : TxFrame) (s0 : State) : State :=
  if f.source ≠ .hlk ∨ wantsTime f s0 = false then s0
  else
    let s := keepCapture p (Config.hlkTsId f.hostId).toNat f.stamp s0
    { s with hlk := { s.hlk with
        exchange := s.hlk.exchange.map (fun e => if e.frame = f.hostId then { e with t1 := some f.stamp } else e)
        workers := tmap s.hlk.workers (fun _ w => match w.t3Frame with
          | some (n, i) => if i = f.hostId then { w with t3 := some (n, f.stamp), t3Frame := none } else w
          | none => w) } }

/-- The timestamp of a frame that starts (R157, R228, R229). -/
def stampTx (p : Nat) (f : TxFrame) (s : State) : TxFrame × State :=
  let two := ({ f with tsValid := true }, keepCapture p f.tsId f.stamp s)
  match f.tsReq with
  | 1 => two
  | 2 =>
    if f.sa.isSome ∨ 2 < byteAt f.bytes f.tsOffset % 16 then
      ({ f with tsValid := true }, keepCapture p f.tsId f.stamp (tally (txOnestepDemotedCtr p) s))
    else ({ f with bytes := writeTime s.cfg p f.tsOffset f.stamp f.bytes }, tally (tsOnestepWrittenCtr p) s)
  | _ => (f, s)

/-- A frame's first preamble byte goes to the line in ccyc `at_`. -/
def beginTx (p : Nat) (f : TxFrame) (at_ phase k : Nat) (s : State) : State :=
  let m := f.preempt && preemptActive s p
  let f1 := { f with started := some at_, fragAt := at_, stamp := txStamp s p at_ phase k f.cal, merged := m }
  let (f2, s1) := stampTx p { f1 with smd := (portOf s p).smdNext } (hlkCapture p f1 s)
  let s2 := if p < 512 then tally (if f.preempt then txPreemptableFramesCtr p else txExpressFramesCtr p) s1 else s1
  let x := portOf s2 p
  putPort p { x with line := some f2, smdNext := if m then (x.smdNext + 1) % 4 else x.smdNext } s2

/-- Count the heads that their gate holds, once each (R197). -/
def countHolds (p : Nat) (s : State) : State :=
  let x := portOf s p
  let one := fun (l : List TxFrame) => match l with
    | f :: r => if !f.held && (f.action.isSome || startNeed s p f ≤ f.got) && !gatePermits s p f then some ({ f with held := true } :: r) else none
    | [] => none
  let s1 := match one x.express with
    | some l => tally (gateHoldsCtr p) (putPort p { portOf s p with express := l } s)
    | none => s
  match one x.preempts with
  | some l => tally (gateHoldsCtr p) (putPort p { portOf s1 p with preempts := l } s1)
  | none => s1

/-- Where a preempted frame may go on: its gate as for a start of what remains (R201). -/
def mayContinue (s : State) (p k : Nat) (f : TxFrame) : Bool :=
  gatePermitsAt s p k { f with wire := f.wire - f.sent, preempt := true }

/-- The first line column of the fragment in progress that `d` ccyc from this one on leave uncommitted. -/
def nextColumn (s : State) (p : Nat) (f : TxFrame) (d : Nat) : Nat :=
  roundUp (lineBytes (portSpeed s.cfg p) (s.tsu.now + d - f.fragAt)) 8

/-- The fragment in progress is broken at the first permissible column from the bytes committed on (R166, R200): the
frame bytes it then holds, or none. -/
def breakAt (s : State) (p : Nat) (f : TxFrame) : Option Nat :=
  let least := 60 + 64 * (preemptCfg s.cfg p).addFragSize
  let n := max (nextColumn s p f 1) (roundUp (8 + least) 8) - 8
  if f.merged && f.sent + n + 64 ≤ f.wire then some n else none

/-- The last permissible break whose mCRC is on the line before the gate of the frame's class closes (R201), taken once no
later row could take it: its column lies before the first of the next ccyc. -/
def gateBreak (s : State) (p : Nat) (f : TxFrame) : Option Nat :=
  let v := portSpeed s.cfg p
  match gateClosesIn s p f.tc (lineCcyc v (8 + f.wire - f.sent) - (s.tsu.now - f.fragAt)) with
  | none => none
  | some i =>
    let least := roundUp (60 + 64 * (preemptCfg s.cfg p).addFragSize) 8
    let line := (s.tsu.now + i - f.fragAt) * (v * 5) / 64
    let n := min ((line - 12) / 8 * 8) ((f.wire - f.sent - 64) / 8 * 8)
    if f.merged ∧ least ≤ n ∧ f.sent + n + 64 ≤ f.wire ∧ 12 ≤ line ∧ nextColumn s p f 1 ≤ 8 + n ∧ 8 + n < nextColumn s p f 2 then some n
    else none

/-- Break the frame on the line after `n` bytes of its fragment, which its mCRC ends. -/
def breakTx (p n : Nat) (f : TxFrame) (s : State) : State :=
  let (g, s1) := closeLine p f.fragAt (8 + n + 4) 0 (driveLine p n .mcrc f (putPort p { portOf s p with line := none } s))
  putPort p { portOf s1 p with broken := some { f with sent := f.sent + n, extra := f.extra + 12 + g } } s1

/-- Host sources bound to a service port, in round-robin order (R147). -/
def serviceSources (s : State) (p : Nat) : List Nat :=
  let l := (s.esh.host.filter (fun e => e.1 % 1024 = p && !e.2.isEmpty)).map (fun e => e.1 / 1024)
  l.filter (fun n => (portOf s p).nextSource ≤ n) ++ l.filter (fun n => n < (portOf s p).nextSource)

/-- A service port's next whole frame (R147). An oversize one is dropped. -/
def startService (p phase k : Nat) (s : State) : State :=
  match serviceSources s p with
  | [] => s
  | n :: _ =>
    match hostQueue s n p with
    | [] => s
    | h :: rest =>
      let g : Grant := { id := 0, leaf := 0, node := 0, cls := 0, port := p, maxBytes := 0, est := 0, overhead := 0, wLeaf := 1
                         wNode := 1, wClass := none, wPort := 1, at_ := s.tsu.now, epoch := s.cpx.epoch, cfg := s.cfg }
      let s1 := putPort p { portOf s p with nextSource := n + 1 }
        { s with esh := { s.esh with host := tput s.esh.host (hostKey n p) rest } }
      let (f, sc, cause) := fitFrame s1 s1.cfg p none false false (hostTx g n 0 h)
      match cause with
      | some c => dropTx p c sc f s1
      | none => beginTx p f s1.tsu.now phase k s1

/-- The first source of Table 6-5 that is ready and permitted starts at a frame boundary, in ccyc `at_`. -/
def startNext (p at_ phase k : Nat) (s : State) : State :=
  let x := portOf s p
  match (if x.link = .up then controlDue s p else none) with
  | some (fr, gen) => sendControl p at_ fr gen s
  | none =>
    if x.link = .up ∧ (x.verifyDue ∨ x.respondDue) then sendMpacket p at_ s
    else if 512 ≤ p then startService p phase k s
    else
      match x.express with
      | f :: r =>
        if permittedAt s p (at_ - s.tsu.now) f then beginTx p f at_ phase k (putPort p { x with express := r } s)
        else startRest p x at_ phase k s
      | [] => startRest p x at_ phase k s
where
  /-- Sources 4 and 5. -/
  startRest (p : Nat) (x : Port) (at_ phase k : Nat) (s : State) : State :=
    match x.broken with
    | some f =>
      if mayContinue s p (at_ - s.tsu.now) f then
        tally (txFragmentsCtr p) (putPort p { x with broken := none, line := some { f with fragAt := at_, fragments := f.fragments + 1 } } s)
      else s
    | none =>
      match x.preempts with
      | f :: r =>
        if permittedAt s p (at_ - s.tsu.now) f then beginTx p f at_ phase k (putPort p { x with preempts := r } s) else s
      | [] => s

/-- An express frame or a MAC control frame is ready and permitted (R166). -/
def breakCause (s : State) (p : Nat) : Bool :=
  ((portOf s p).link = .up && (controlDue s p).isSome) || (match (portOf s p).express with | f :: _ => permitted s p f | [] => false)

/-- TX_FRAME_START (R160): at a frame boundary, or breaking a preemptable frame that is on the line. -/
def txFrameStart (p phase k : Nat) (s : State) : State :=
  let x := portOf s p
  if clocked s = false ∨ halting s ∨ thas s.cfg.port p = false ∨ portPowered s p = false ∨ mayTransmit s p = false ∨
      p ∈ s.mode.drained then s
  else
    match x.line with
    | none => if s.tsu.now < x.lineFree then s else startNext p s.tsu.now phase k (countHolds p s)
    | some f =>
      match (if breakCause s p then breakAt s p f else gateBreak s p f) with
      | none => s
      | some n =>
        let s1 := breakTx p n f s
        if breakCause s1 p then startNext p (max s1.tsu.now (portOf s1 p).lineFree) phase k (countHolds p s1) else s1

/-! ## The end of a frame -/

/-- Counters of a frame sent whole (R167; one whose timestamp field failed counts so: Table 6-3, Tables 5-13, 12-1). Octets of a protected frame: those after its addresses (log 28). -/
def countSent (p : Nat) (f : TxFrame) (s : State) : State :=
  let s1 := count (txBytesOkCtr p) f.wire (tally (txFramesOkCtr p) s)
  let s2 := if f.inserted then tally (txTagsInsertedCtr p) s1 else s1
  let s3 := if f.len + f.head + (if f.sa.isSome then 16 else 0) + 4 < 64 then tally (txPaddedCtr p) s2 else s2
  let s4 := if f.skipped then tally (txCsumSkippedCtr p) s3 else s3
  let s4 := if f.tsBad then tally (txMetaErrorsCtr p) s4 else s4
  let s5 := match f.sa with
    | some k =>
      if f.encrypted then count (outOctetsEncryptedCtr (saIndex k)) (f.len - 12) (tally (outPktsEncryptedCtr (saIndex k)) s4)
      else count (outOctetsProtectedCtr (saIndex k)) (f.len - 12) (tally (outPktsProtectedCtr (saIndex k)) s4)
    | none => s4
  if 512 ≤ p then s5
  else
    count (nodeBytesCtr f.node) f.wire (tally (nodeFramesCtr f.node)
      (count (leafBytesCtr f.leaf) f.wire (tally (leafFramesCtr f.leaf)
        (count (tcBytesCtr p f.tc) f.wire (tally (tcFramesCtr p f.tc) s5)))))

/-- A frame was sent whole. -/
def finishTx (p : Nat) (f : TxFrame) (s : State) : State :=
  let len := 8 + (f.wire - f.sent)
  let (g, s1) := closeLine p f.fragAt len 0 (putPort p { portOf s p with line := none } s)
  let s2 := countSent p f (classSlots p f.wire (8 + f.extra + g) s1)
  let s3 := match f.source with
    | .ring n => count (ringBytesCtr (ringKey 1 n)) f.len s2
    | _ => s2
  let s4 := txSample p 8 f (completeTx p 0 f (releaseTx p f (driveLine p (f.wire - f.sent) .whole f s3)))
  match f.source with
  | .cpx => replyWritten f.hostId s4
  | .hlk => replyWritten f.hostId s4
  | _ => s4

/-- TX_FRAME_END (R163 to R167): the frame on the line ends once its bytes have gone and its end word has come. -/
def txFrameEnd (p : Nat) (s : State) : State :=
  match (portOf s p).line with
  | none => s
  | some f =>
    if clocked s = false ∨ halting s then s
    else
      let sent := lineBytes (portSpeed s.cfg p) (s.tsu.now + 1 - f.fragAt)
      match f.action with
      | none => s
      | some a =>
        if a = 2 then
          let n := 8 + (f.head + f.len - f.sent)
          if sent < n then s else abortLine p 6 n s
        else if sent < 8 + (f.wire - f.sent) then s
        else finishTx p f s

/-- TX_UNDERRUN (R164): the line needs a byte, or the end word, that has not come. -/
def txUnderrun (p : Nat) (s : State) : State :=
  match (portOf s p).line with
  | none => s
  | some f =>
    let n := 8 + (f.head + f.got - f.sent)
    if clocked s = false ∨ halting s ∨ f.action.isSome ∨ lineBytes (portSpeed s.cfg p) (s.tsu.now + 1 - f.fragAt) < n then s
    else
      abortLine p 5 (n / column (modeOf s p) * column (modeOf s p)) s

def execSchedDecision (dt pg : Nat) (s : State) : Result := happen dt (schedDecision pg) s
def execLeafStatusWord (dt pg : Nat) (w : LeafStatus) (s : State) : Result :=
  happen dt (fun u => pullGrants pg (leafStatusWord pg w u)) s
def execGrantSettle (dt pg grantId : Nat) (s : State) : Result := happen dt (fun u => pullGrants pg (grantSettle pg grantId u)) s
def execGrantTimeout (dt pg grantId : Nat) (s : State) : Result := happen dt (fun u => pullGrants pg (grantTimeout pg grantId u)) s
def execCpiTxFrame (dt pg : Nat) (t : TxSlices) (s : State) : Result := happen dt (cpiTxFrame pg t) s
def execTxFrameStart (dt port _lane phase bit : Nat) (s : State) : Result := happen dt (txFrameStart port phase bit) s
def execTxFrameEnd (dt port : Nat) (s : State) : Result := happen dt (txFrameEnd port) s
def execTxUnderrun (dt port : Nat) (s : State) : Result := happen dt (txUnderrun port) s

end Sys2Proof.Machine
end

