-- ==== Sys2Proof/Machine/Links.lean ====
section
/-! DEFINITION. Lanes, link states and bring-up (03 R63 to R82), preemption verification (R199), and group 0x01 of
the commands. -/
namespace Sys2Proof.Machine

/-! ## Changes of a port's link state (R74 to R76) -/

/-- Verification starts, or preemption needs none (R199). -/
def startVerify (p : Nat) (s : State) : State :=
  if (preemptCfg s.cfg p).verify = 0 then putPort p { portOf s p with verify := .off, verifyDue := false } s
  else putPort p { portOf s p with verify := .running 1, verifyDue := true, verifyAt := s.tsu.now } s

/-- Entry into UP: a fresh deficit (R162), verification (R199), a nonzero XOFF state told at once (R207). -/
def enterUp (p : Nat) (s : State) : State :=
  let s1 := putPort p { portOf s p with deficit := 0, told := 0, genDue := if xoffState s p = 0 then 0 else 2, faultAt := none } s
  if p < 512 then startVerify p s1 else s1

/-- Leaving UP: pause timers are cleared, verification and due control frames end (R204, R207, R215), and replies that CPX holds for
the port are dropped (R61). -/
def leaveUp (p : Nat) (s : State) : State :=
  dropReplies p (putPort p { portOf s p with pause := [], verify := .off, macDue := [], verifyDue := false, respondDue := false
                                             genDue := 0, told := 0 } s)

/-- A failed bring-up attempt, which ends a retrain (Table 3-7, R81). -/
def bringupFail (p : Nat) (s : State) : State :=
  tally (bringupFailsCtr p) (putPort p { portOf s p with retrain := false } s)

/-- The report of UP changes: the port's link-change source, an EVENT record, LINK_DOWNS on leaving (R74, Table 14-5). -/
def noteUp (p : Nat) (was : Bool) (s : State) : State :=
  let is := reportsUp (portOf s p)
  if was = is then s
  else
    let s1 := eventRecord 0x0008 (lsbBytes 2 p ++ lsbBytes 1 (linkCode s p)) (raiseEvent (linkSource p) s)
    if was then
      let g := tgetD s1.groups (groupOf p) {}
      let s2 := tally (linkDownsCtr p) s1
      if p < 512 then { s2 with groups := tput s2.groups (groupOf p) { g with lastUp := s2.tsu.now } } else s2
    else s1

/-- The port goes to a link state. `hidden`: a local fault that LINK_DOWN_HOLD hides. -/
def setLink (p : Nat) (new : LinkSt) (hidden : Bool) (s : State) : State :=
  let x := portOf s p
  let was := reportsUp x
  let trying : Bool := x.link = .an || x.link = .training || x.link = .aligning
  let s1 := putPort p { x with link := new, since := s.tsu.now, faultAt := if hidden then some s.tsu.now else none } s
  let s2 := if x.link = .up ∧ new ≠ .up then leaveUp p s1 else s1
  let s3 := if new ≠ .up ∧ mayTransmit s2 p = false then cutQueue p (cutLine p s2) else s2
  let s4 := if new = .up ∧ x.link ≠ .up then enterUp p { s3 with ports := tput s3.ports p { portOf s3 p with retrain := false } } else s3
  let s5 := if (new = .noSignal ∧ trying) ∨ new = .anIncompatible then bringupFail p s4 else s4
  noteUp p was s5

/-- The port stops because its group is gated (R360): no LINK_DOWN_HOLD and no return to NO_SIGNAL to count; a retrain
in progress ends as failed (Table 15-5). -/
def gateLink (p : Nat) (s : State) : State :=
  let x := portOf s p
  let was := reportsUp x
  let s1 := putPort p { x with link := .noSignal, since := s.tsu.now, faultAt := none } s
  let s2 := cutQueue p (cutLine p (if x.link = .up then leaveUp p s1 else s1))
  let s3 := if x.retrain then bringupFail p s2 else s2
  noteUp p was s3

/-- A local fault begins (R75, R76): hidden while LINK_DOWN_HOLD lasts when the port was UP. -/
def beginFault (p : Nat) (s : State) : State :=
  match (portOf s p).link with
  | .up => setLink p .localFault (field (portFlags s.cfg p) 7 5 ≠ 0) s
  | .remoteFault => setLink p .localFault false s
  | _ => s

/-- What a port does when one of its lanes may have lost signal detect, lock or LANE_TX_READY (R74, Table 3-6). -/
def laneCheck (p : Nat) (s : State) : State :=
  if clocked s = false ∨ thas s.cfg.port p = false ∨ portPowered s p = false then s
  else match (portOf s p).link with
    | .an => if lanesReady s p then s else setLink p .noSignal false s
    | .training => if lanesReady s p then s else setLink p .noSignal false s
    | .aligning => if lanesReady s p then s else setLink p .noSignal false s
    | .up => if lanesLive s p then s else beginFault p s
    | .remoteFault => if lanesLive s p then s else beginFault p s
    | _ => s

/-- The same for the port of a lane. -/
def lanePortCheck (lane : Nat) (s : State) : State :=
  match portOfLane s.cfg lane with
  | some p => laneCheck p s
  | none => s

/-- A happening on a port that is configured and powered. -/
def onPort (p : Nat) (f : State → State) (s : State) : State :=
  if clocked s = false ∨ thas s.cfg.port p = false ∨ portPowered s p = false then s else f s

/-! ## Lanes -/

/-- A word clock is out of limits (R64): a lane clock fault, the lane not locked. -/
def laneClockFault (lane : Nat) (s : State) : State :=
  if clocked s = false ∨ (laneOf s lane).clockFault then s
  else
    lanePortCheck lane (errorAt 0x00 0x0101 lane sevMinor clsInput 0 0
      (tallyAt lane (clockFaultsCtr lane) (putLane lane { laneOf s lane with clockFault := true } s)))

/-- The clock is back within the limit for 10 µs with LANE_RX_LOCK 1 (R64). -/
def laneClockRecover (lane : Nat) (s : State) : State :=
  if (laneOf s lane).rxLock then putLane lane { laneOf s lane with clockFault := false } s else s

/-- The pouncer's hold on a lane ends (Table 16-4). -/
def laneDropExpiry (lane : Nat) (s : State) : State :=
  match (laneOf s lane).dropUntil with
  | some t => if t ≤ s.tsu.now then putLane lane { laneOf s lane with dropUntil := none } s else s
  | none => s

/-! ## Bring-up (R72 to R77) -/

/-- The partner advertises what this port does, and an FEC that its own matches (R72). -/
def sameAbility (own partner : AnPage) : Bool :=
  own.abilities.all (fun m => decide (m ∈ partner.abilities)) && own.fecs.all (fun m => decide (m ∈ partner.fecs))

/-- Auto-negotiation ends with the partner's page: common ability, or none (R72). -/
def anComplete (p : Nat) (partner : AnPage) (s : State) : State :=
  if (portOf s p).link ≠ .an then s
  else setLink p (if sameAbility (portOf s p).page partner then afterAn s.cfg p else .anIncompatible) false
    (putPort p { portOf s p with partnerPause := partner.pause } s)

/-- AN is retried 50 ms after an AN_INCOMPATIBLE, with the configuration of then (R80). -/
def anRetry (p : Nat) (s : State) : State :=
  let x := portOf s p
  if x.link = .anIncompatible ∧ x.since + ms 50 ≤ s.tsu.now then setLink p .an false (putPort p { x with page := basePage s.cfg p } s)
  else s

/-- The maximum wait time of training expired (R73). -/
def trainingTimeout (p : Nat) (s : State) : State :=
  if (portOf s p).link = .training ∧ (portOf s p).since + Config.trainWait (modeOf s p) ≤ s.tsu.now then setLink p .noSignal false s
  else s

/-- Training ends once every lane has finished (R73). -/
def trainingComplete (p : Nat) (s : State) : State :=
  if (portOf s p).link = .training ∧ (portLanes s.cfg p).all (fun n => (laneOf s n).ltRxReady) then setLink p .aligning false s
  else s

/-- 200 ns in units of 2^-16 ns (R77). -/
def skewLimit : Nat := 200 * 65536

/-- Hold the measured skew of each lane of a port, in 2^-16 ns as given; 0 on a port of one lane (R77, R224). -/
def storeSkews (p : Nat) (skews : List Nat) (s : State) : State :=
  (portLanes s.cfg p).foldl (fun a n =>
    putLane n { laneOf a n with skew := if (portLanes s.cfg p).length = 1 then 0 else skews.getD (n - p) 0 * fracUnit } a) s

/-- An order of a port's lanes: each of them once (R71). -/
def laneOrder (n : Nat) (o : List Nat) : Bool := o.length = n && (List.range n).all (fun k => decide (k ∈ o))

/-- The modes whose PCS has alignment markers: all but 1000BASE-X and 10GBASE-R (R71). -/
def hasMarkers (mode : Nat) : Bool := mode ≠ 0x20 && mode ≠ 0x21

/-- Alignment is achieved with every skew within 200 ns and the markers giving an order of the lanes: UP, or REMOTE_FAULT (R71, R74,
R77). -/
def alignComplete (p : Nat) (remote : Bool) (order skews : List Nat) (s : State) : State :=
  let o := if hasMarkers (modeOf s p) then order else [0]
  if (portOf s p).link ≠ .aligning ∨ skews.any (fun k => skewLimit < k) ∨ laneOrder (portLanes s.cfg p).length o = false then s
  else
    let s1 := storeSkews p skews (putPort p { portOf s p with remote, order := o } s)
    setLink p (if remote then .remoteFault else .up) false s1

/-- 100 ms in ALIGNING without success; a skew beyond the limit counts for its lane (R77). -/
def alignTimeout (p : Nat) (bad : List Nat) (s : State) : State :=
  let x := portOf s p
  if x.link = .aligning ∧ x.since + ms 100 ≤ s.tsu.now then
    let s1 := bad.foldl (fun a n => tally (skewFaultsCtr n) a) s
    let s2 := if bad = [] then s1 else errorAt 0x01 0x0201 p sevNote clsInput 0 0 s1
    setLink p .noSignal false s2
  else s

/-! ## Faults (R75, R76) -/

/-- LINK_DOWN_HOLD of a port in ccyc. -/
def downHold (cfg : Cfg) (p : Nat) : Nat :=
  let n := field (portFlags cfg p) 7 5
  if n = 0 then 0 else ms (2 ^ (n - 1))

/-- The hold ends with the fault still present. -/
def holdExpiry (p : Nat) (s : State) : State :=
  let x := portOf s p
  match x.link, x.faultAt with
  | .localFault, some t => if t + downHold s.cfg p ≤ s.tsu.now then setLink p .localFault false s else s
  | _, _ => s

/-- The fault clears: within the hold the port is UP again, also where remote fault ordered sets are being received (DESIGN CHOICE: the
spec does not say which of Table 3-6's rows comes first, log 40); once the hold is over, it has ended with the fault present. -/
def faultClear (p : Nat) (s : State) : State :=
  let x := portOf s p
  match x.link, x.faultAt with
  | .localFault, some t =>
    if t + downHold s.cfg p ≤ s.tsu.now then setLink p .localFault false s
    else if lanesLive s p ∧ x.highErr = false then tally (linkFlapsCtr p) (setLink p .up false s)
    else s
  | _, _ => s

/-- Remote fault ordered sets begin or cease. -/
def remoteChange (p : Nat) (begins : Bool) (s : State) : State :=
  let s1 := putPort p { portOf s p with remote := begins } s
  match (portOf s p).link with
  | .up => if begins then setLink p .remoteFault false s1 else s1
  | .remoteFault => if begins then s1 else setLink p .up false s1
  | _ => s1

/-! ## Preemption verification (R199) -/

/-- The outcome of verification raises the port's source. -/
def verifyOutcome (p : Nat) (v : Verify) (s : State) : State :=
  raiseEvent (0x610 + p) (putPort p { portOf s p with verify := v, verifyDue := false } s)

/-- VERIFY ms without a respond mPacket: the next of three attempts, or failure. -/
def verifyTimeout (p : Nat) (s : State) : State :=
  let x := portOf s p
  match x.verify with
  | .running n =>
    if x.verifyDue ∨ s.tsu.now < x.verifyAt + ms (preemptCfg s.cfg p).verify then s
    else if n < 3 then putPort p { x with verify := .running (n + 1), verifyDue := true } s
    else verifyOutcome p .failed (tally (preemptVerifyFailsCtr p) s)
  | _ => s

/-! ## Commands -/

/-- The mode's own limits (R65, R67, Table 3-4). -/
def portSetCheck (b : PortSetBody) : Refused :=
  firstOf
    [need (isService b.port = (32 ≤ b.portMode : Bool)) stOutOfRange 2,
     param (b.port % 16 % lanesOf b.portMode = 0) 0,
     need (fecAllowed b.portMode b.fecMode) stOutOfRange 3,
     need (anAllowed b.portMode || field b.portFlags 1 0 = 0) stOutOfRange 6]

def opPortSet (b : PortSetBody) : Op :=
  { opcode := 0x0101, kind := .s, auth := .o
    body := [(2, b.port), (1, b.portMode), (1, b.fecMode), (2, b.mtu), (2, b.portFlags.toNat)]
    rsvZero := field b.portFlags 15 10 = 0
    ranges := [(0, b.port ≤ 515), (2, speedOf b.portMode ≠ 0), (3, b.fecMode ≤ 3), (4, 64 ≤ b.mtu && b.mtu ≤ 16383)]
    ports := [b.port]
    check := fun _ _ => portSetCheck b
    edit := some (.portSet b) }

def opPortClear (p : Nat) : Op :=
  { opcode := 0x0102, kind := .s, auth := .o, body := [(2, p)], ranges := [(0, p ≤ 515)], ports := [p]
    edit := some (.portClear p) }

def opPortAddrSet (b : PortAddrBody) : Op :=
  { opcode := 0x0103, kind := .s, auth := .o, body := [(2, b.port), (6, b.addr.toNat)], ranges := [(0, b.port ≤ 515)]
    ports := [b.port], edit := some (.portAddr b) }

/-- A TPID that a tag may carry: no length, and no Ethertype that the block uses itself (R89). -/
def tpidOk (t : Nat) : Bool := 0x0600 ≤ t && t ≠ 0x8808 && t ≠ 0x88E5 && t ≠ 0x88B5 && t ≠ 0x88B6

def opPortVlanSet (b : PortVlanBody) : Op :=
  { opcode := 0x0104, kind := .s, auth := .o
    body := [(2, b.port), (1, b.tagMode.toNat), (2, b.outerTpid), (2, b.innerTpid), (2, b.vid), (1, b.pcp)]
    rsvZero := field b.tagMode 7 4 = 0
    ranges := [(0, b.port ≤ 515), (2, field b.tagMode 1 0 ≠ 3 && field b.tagMode 3 2 ≠ 3), (3, tpidOk b.outerTpid),
      (5, tpidOk b.innerTpid), (7, b.vid ≤ 4095), (9, b.pcp ≤ 7)]
    ports := [b.port], edit := some (.portVlan b) }

def opLaneSet (b : LaneSetBody) : Op :=
  { opcode := 0x0105, kind := .s, auth := .o, body := [(2, b.lane), (2, b.laneFlags.toNat)]
    rsvZero := field b.laneFlags 15 5 = 0
    ranges := [(0, b.lane ≤ 515)], ports := [b.lane], edit := some (.laneSet b) }

def opZelgenTransportSet (b : TransportBody) : Op :=
  { opcode := 0x0106, kind := .s, auth := .m
    body := [(2, b.port), (1, b.ethEnable), (1, b.udpEnable), (2, b.udpPort), (16, b.ipAddr.toNat)]
    ranges := [(0, b.port ≤ 515), (2, b.ethEnable ≤ 1), (3, b.udpEnable ≤ 1)]
    ports := [b.port], edit := some (.transport b) }

/-- LINK_RETRAIN's effect (R81, R82): a gated group is given a cause to wake. -/
def retrain (p : Nat) (s : State) : State :=
  let s1 := setLink p .noSignal false s
  let s2 := putPort p { portOf s1 p with retrain := true } s1
  let g := tgetD s2.groups (groupOf p) {}
  if p < 512 ∧ groupState s2 (groupOf p) ≠ .powered then
    { s2 with groups := tput s2.groups (groupOf p) { g with cause := true } }
  else s2

def opLinkRetrain (p : Nat) : Op :=
  { opcode := 0x0107, kind := .p, auth := .o, body := [(2, p)], ranges := [(0, p ≤ 515)], ports := [p]
    check := fun _ s => param (thas s.cfg.port p) 0
    run := fun _ s => { state := retrain p s, status := stPending } }

/-- PORT_STATE_GET. Table 2-10 gives its reply no field for the partner's pause bits, which R72 says it reports: the reply has Table 2-10's
fields (DESIGN CHOICE, log 40). -/
def opPortStateGet (p : Nat) : Op :=
  { opcode := 0x0108, kind := .q, auth := .o, body := [(2, p)], ranges := [(0, p ≤ 515)], ports := [p]
    run := fun _ s =>
      { state := s
        body := [(1, linkCode s p), (1, modeOf s p), (8, total s (correctedCwCtr p) % 2 ^ 64),
          (8, total s (uncorrectedCwCtr p) % 2 ^ 64), (8, total s (correctedSymbolsCtr p) % 2 ^ 64),
          (8, total s (codewordsCtr p) % 2 ^ 64), (2, s.cpx.epoch)] } }

def execPortSet (z : Zelgen) (b : PortSetBody) (s : State) : Result := command (opPortSet b) z s
def execPortClear (z : Zelgen) (port : Nat) (s : State) : Result := command (opPortClear port) z s
def execPortAddrSet (z : Zelgen) (b : PortAddrBody) (s : State) : Result := command (opPortAddrSet b) z s
def execPortVlanSet (z : Zelgen) (b : PortVlanBody) (s : State) : Result := command (opPortVlanSet b) z s
def execLaneSet (z : Zelgen) (b : LaneSetBody) (s : State) : Result := command (opLaneSet b) z s
def execZelgenTransportSet (z : Zelgen) (b : TransportBody) (s : State) : Result := command (opZelgenTransportSet b) z s
def execLinkRetrain (z : Zelgen) (port : Nat) (s : State) : Result := command (opLinkRetrain port) z s
def execPortStateGet (z : Zelgen) (port : Nat) (s : State) : Result := command (opPortStateGet port) z s
def execLaneClockFault (dt lane : Nat) (s : State) : Result := happen dt (laneClockFault lane) s
def execLaneClockRecover (dt lane : Nat) (s : State) : Result := happen dt (laneClockRecover lane) s
def execLtPartnerReq (dt lane : Nat) (coef : BitVec 16) (s : State) : Result :=
  happen dt (fun a => putLane lane { laneOf a lane with partnerReq := coef } a) s
def execLtRxReady (dt lane : Nat) (ready : Bool) (s : State) : Result :=
  happen dt (fun a => putLane lane { laneOf a lane with ltRxReady := ready } a) s
def execLtTxStatus (dt lane : Nat) (status : BitVec 2) (s : State) (update : BitVec 16 := 0) : Result :=
  happen dt (fun a => putLane lane { laneOf a lane with ltStatus := status, txUpdate := update } a) s
def execAnComplete (dt port : Nat) (abilities fecs : List Nat) (s : State) (pause : BitVec 2 := 0) : Result :=
  happen dt (onPort port (anComplete port { abilities, fecs, pause })) s
def execAnIncompatibleRetry (dt port : Nat) (s : State) : Result := happen dt (onPort port (anRetry port)) s
def execTrainingTimeout (dt port : Nat) (s : State) : Result := happen dt (onPort port (trainingTimeout port)) s
def execTrainingComplete (dt port : Nat) (s : State) : Result := happen dt (onPort port (trainingComplete port)) s
def execAlignComplete (dt port : Nat) (remoteFault : Bool) (skews : List Nat) (s : State) (order : List Nat := []) : Result :=
  happen dt (onPort port (alignComplete port remoteFault order skews)) s
def execAlignTimeout (dt port : Nat) (skewLanes : List Nat) (s : State) : Result :=
  happen dt (onPort port (alignTimeout port skewLanes)) s
def execLocalFault (dt port : Nat) (s : State) : Result := happen dt (onPort port (beginFault port)) s
def execLinkDownHoldExpiry (dt port : Nat) (s : State) : Result := happen dt (onPort port (holdExpiry port)) s
def execFaultClear (dt port : Nat) (s : State) : Result := happen dt (onPort port (faultClear port)) s
def execRemoteFault (dt port : Nat) (begins : Bool) (s : State) : Result := happen dt (onPort port (remoteChange port begins)) s
def execPreemptVerifyTimeout (dt port : Nat) (s : State) : Result := happen dt (onPort port (verifyTimeout port)) s
def execLaneDropExpiry (dt lane : Nat) (s : State) : Result := happen dt (laneDropExpiry lane) s

end Sys2Proof.Machine
end

