-- ==== Sys2Proof/Machine/RxRings.lean ====
section
/-! DEFINITION. Receive rings (10 R254 to R259): staging, allotment of descriptors, the hold time, and the responses to data
writes. -/
namespace Sys2Proof.Machine

/-! ## Staging (R255, R257) -/

/-- Bytes staged for the frames of a list. -/
def stagedBytes (l : List RingFrame) : Nat := (l.map (fun f => f.info.bytes.length)).sum

/-- HOLD_TIME of a receive ring in ccyc; 0 gives 2,000 ns. -/
def holdCcyc (s : State) (ring : Nat) : Nat :=
  match ringCfg s ring with
  | some b => nsUp (if b.holdTime = 0 then 2000 else b.holdTime)
  | none => nsUp 2000

/-- A frame for receive ring `n` becomes ready at ccyc `at_`, or is dropped. -/
def stageRing (n : Nat) (i : RxInfo) (at_ : Nat) (s : State) : State :=
  let st := (ringOf s n).state
  let mine := s.hpe.staged.filter (fun f => f.ring = n)
  if st = 5 then ringDrop (ringFrozenDropsCtr n) i s
  else if st ≠ 2 then ringDrop (ringFlushedCtr n) i s
  else if 65536 < stagedBytes mine + i.bytes.length ∨ 1048576 < stagedBytes s.hpe.staged + i.bytes.length then
    ringDrop (ringStageDropsCtr n) i s
  else
    { s with hpe := { s.hpe with staged := s.hpe.staged ++ [{ ring := n, id := s.hpe.nextId, info := i, ready := at_ }]
                                 nextId := s.hpe.nextId + 1 } }

/-- The frame a ring serves next: the one that became ready first, ties to the lower MAC context (R255, R256). -/
def headFrame (s : State) (n : Nat) : Option RingFrame :=
  (s.hpe.staged.filter (fun f => f.ring = n)).foldl (fun a f => match a with
    | none => some f
    | some g => if f.ready < g.ready ∨ (f.ready = g.ready ∧ f.info.port < g.info.port) then some f else some g) none

/-- Remove a staged frame. -/
def unstage (f : RingFrame) (s : State) : State :=
  { s with hpe := { s.hpe with staged := s.hpe.staged.filter (fun g => g.id ≠ f.id) } }

/-! ## Allotment -/

/-- The descriptors that cover `len` bytes, from the first on; none: they do not. -/
def coverOf (len : Nat) (l : List Descriptor) : Option (List Descriptor) :=
  match l with
  | [] => none
  | d :: r => if len ≤ d.bufLen then some [d] else (coverOf (len - d.bufLen) r).map (fun x => d :: x)

/-- WAKE_MODE of a ring marks the frame (R259). -/
def wakes (s : State) (n : Nat) (f : List Byte) : Bool :=
  match ringCfg s n with
  | some b => match field b.ringFlags 3 2 with
    | 1 => true
    | 2 => !bit (BitVec.ofNat 8 (byteAt f 0)) 0
    | _ => false
  | none => false

/-- What every completion of a received frame carries (Table 10-8). -/
def rxCpl (i : RxInfo) : Cpl :=
  { status := if i.flags = 0 then 0 else 8, tagInfo := i.stripped.length, portErr := i.port + i.flags * 1024
    flags := i.csum + 256, stamp := some i.stamp, epoch := i.epoch, outer := i.stripped.getD 0 0, inner := i.stripped.getD 1 0 }

/-- Write a frame's bytes into its descriptors; each entry waits for its response. -/
def writeEntries (n frame : Nat) (c : Cpl) (wake first : Bool) (bytes : List Byte) (ds : List Descriptor) (s : State) : State :=
  match ds with
  | [] => s
  | d :: r =>
    let part := bytes.take d.bufLen
    let cpl := { c with length := part.length, flags := c.flags + (if first then 1 else 0) + (if r.isEmpty then 2 else 0) }
    let s1 := emit (.hostWrite (ringAccess s n) d.bufAddr part)
      (takeEntry n { desc := d, frame, owed := true, wake := wake && r.isEmpty, cpl } s)
    writeEntries n frame c wake false (bytes.drop d.bufLen) r s1

/-- A received frame takes its descriptors (R255); R113's counts of a frame taken by a host ring. -/
def giveFrame (n : Nat) (f : RingFrame) (ds : List Descriptor) (s : State) : State :=
  let i := f.info
  let s1 := writeEntries n f.id (rxCpl i) (wakes s n i.bytes) true i.bytes ds (unstage f s)
  let s2 := count (ringBytesCtr n) i.bytes.length s1
  let s3 := if i.csum &&& 80 = 0 then s2 else tally (rxCsumBadCtr n) s2
  let s4 := if i.flags = 0 then count (rxBytesOkCtr i.port) i.frameLen (tally (rxFramesOkCtr i.port) s3)
            else tally (rxErroredDeliveredCtr i.port) s3
  endSample 1 0 0xFFFF i.sample s4

/-- RX_RING_ALLOT (R255, R256): the head frame takes the descriptors read from the ring's next slots, as far as none is
malformed. A malformed one that stands first is completed as such (R246; log 29). -/
def rxRingAllot (n : Nat) (descs : List Descriptor) (s : State) : State :=
  match headFrame s n with
  | none => s
  | some f =>
    let ds := (descs.take (ringFree s n)).take 64
    let good := ds.takeWhile (fun d => !badReceive false d)
    if ringReady s n = false ∨ s.tsu.now < f.ready then s
    else
      match stallCheck n s with
      | (false, s1) => s1
      | (true, s1) =>
        match coverOf f.info.bytes.length good, ds with
        | some use, _ => giveFrame n f use s1
        | none, [] => s1
        | none, d :: _ =>
          if badReceive false d then takeMalformed n d s1
          else if 64 ≤ good.length then ringDrop (ringStageDropsCtr n) f.info (unstage f s1)
          else s1

/-- RX_RING_HOLD_EXPIRY (R255). -/
def rxHoldExpiry (n id : Nat) (s : State) : State :=
  match s.hpe.staged.find? (fun f => f.ring = n && f.id = id) with
  | none => s
  | some f =>
    if clocked s = false ∨ s.tsu.now < f.ready + holdCcyc s n then s
    else ringDrop (ringHoldDropsCtr n) f.info (unstage f s)

/-! ## Responses (R262) -/

/-- The oldest data write of a ring is answered. -/
def answerOwed (bad : Bool) (l : List RingEntry) : List RingEntry :=
  match l with
  | [] => []
  | e :: r => if e.owed then { e with owed := false, bad := bad } :: r else e :: answerOwed bad r

/-- The completion of an entry whose frame's writes are all answered; one error makes the frame's STATUS BUS_ERROR. -/
def settleEntry (l : List RingEntry) (e : RingEntry) : RingEntry :=
  let mine := l.filter (fun x => x.frame = e.frame)
  if e.done.isSome ∨ mine.any (fun x => x.owed) then e
  else { e with done := some (if mine.any (fun x => x.bad) then { e.cpl with status := 3 } else e.cpl) }

/-- A data write's response on a receive ring. -/
def dataWritten (key : Nat) (ok : Bool) (s : State) : State :=
  let r := ringOf s key
  if (r.state ≠ 2 ∧ r.state ≠ 3) ∨ r.taken.any (fun e => e.owed) = false ∨ 256 ≤ key then s
  else
    let l := answerOwed (!ok) r.taken
    flushRing key (putRing key { r with taken := l.map (settleEntry l) } s)

def execRxRingAllot (dt ring : Nat) (descs : List Descriptor) (s : State) : Result := happen dt (rxRingAllot ring descs) s
def execRxRingHoldExpiry (dt ring frameId : Nat) (s : State) : Result := happen dt (rxHoldExpiry ring frameId) s

end Sys2Proof.Machine
end

