-- ==== Sys2Proof/Machine/Receive.lean ====
section
/-! DEFINITION. The receive path (04, 05): a frame's checks (R83 to R88), MAC control (R93 to R95), the refusal decision
(R127, R128, R137), policing, delivery on CPI, to a ring or to CPX, frames held in BPI buffers (R99 to R105), and the
classifier's returns (R112). What goes on by itself in each ccyc is in RxBus. -/
namespace Sys2Proof.Machine

/-! ## Records (R142) -/

/-- What the carder and FAE know of a frame, for its records and metadata. -/
structure Known where
  parse  : Parse
  cls    : Option (Nat × ClassEntry)
  keyId  : Option Nat := none
  pn     : Nat := 0
  sa     : Option Nat := none

/-- The record of a refused or accepted frame (Table 14-3). -/
def frameRec (kind reason verdict : Nat) (held : Bool) (port frameLen stamp epoch : Nat) (bytes : List Byte) (k : Known) : Rec :=
  let p := k.parse
  let x := bytes.take 128
  { kind, time := stamp, epoch, source := port, budget := some (groupOf port)
    flags := (if p.secTag.isSome then 1 else 0) + (if k.keyId.isSome then 2 else 0) + (if held then 8 else 0)
    body := lsbBytes 1 (match k.cls with | some (i, _) => i | none => 0xFF) ++ lsbBytes 1 reason ++
      lsbBytes 1 (verdict + (if verdict = 1 then 4 else if verdict = 2 then 8 else 0) + p.status * 16) ++ lsbBytes 1 p.kind ++
      lsbBytes 2 0xFFFF ++ lsbBytes 2 frameLen ++
      lsbBytes 8 (match p.secTag with
        | some t => (match t.sci with | some v => v.toNat | none => numAt bytes 6 6 * 65536 + 1)
        | none => 0) ++
      lsbBytes 1 (match p.secTag with | some t => field t.tci 1 0 | none => 0) ++ lsbBytes 1 0 ++
      lsbBytes 2 (k.keyId.getD 0) ++ lsbBytes 8 k.pn ++ lsbBytes 2 x.length ++ lsbBytes 2 0 ++ x }

/-! ## Verification (R127, R128) -/

/-- Length of the secure data of a frame of `len` bytes. An SL below what the frame holds ahead of ICV and FCS is taken as matching only
in a frame of 64 bytes, whose rest is padding (DESIGN CHOICE, log 40). -/
def secureLen (t : SecTag) (len : Nat) : Nat :=
  let all := len - (t.offset + t.len) - 20
  if t.sl ≠ 0 ∧ len = 64 ∧ t.sl < all then t.sl else all

/-- The SecTAG is malformed. -/
def badSecTag (t : SecTag) (len : Nat) : Bool :=
  bit t.tci 7 || (bit t.tci 6 && bit t.tci 5) || (bit t.tci 5 && bit t.tci 4) || (bit t.tci 3 && !bit t.tci 2) ||
    len < t.offset + t.len + 20 || (t.sl ≠ 0 && t.sl ≠ secureLen t len)

/-- The receive SC of a port with an SCI. -/
def rxSc (cfg : Cfg) (port : Nat) (sci : Nat) : Option Nat :=
  (cfg.sc.find? (fun e => e.2.port = port && e.2.direction = 0 && e.2.portGroup = groupOf port && e.2.sci.toNat = sci)).map (fun e => e.1)

/-- The recovered PN. -/
def recoverPn (a : Sa) (pn : Nat) : Nat :=
  if !a.xpn ∨ a.nextPn < 2 ^ 31 then pn
  else
    let base := a.nextPn - 2 ^ 31
    base + (pn + 2 ^ 32 - base % 2 ^ 32) % 2 ^ 32

/-- How FAE's check from the carder window ends. -/
inductive Fae where
  | pass | toCpx
  | verify (sa pn : Nat)
  | refuse (reason : Nat) (key : Option Nat) (pn : Nat)

/-- The check of a SecTAG before its ICV. -/
def checkSecTag (s : State) (port : Nat) (bytes : List Byte) (p : Parse) : Fae :=
  match p.secTag with
  | none => .refuse 2 none 0
  | some t =>
    if badSecTag t bytes.length then .refuse 2 none t.pn
    else
      match rxSc s.cfg port (match t.sci with | some v => v.toNat | none => numAt bytes 6 6 * 65536 + 1) with
      | none => .refuse 3 none t.pn
      | some sc =>
        let k := saKey (sc / 512) 0 (sc % 256) (field t.tci 1 0)
        let a := saOfKey s k
        if a.state ≠ .active then .refuse 4 (some sc) (recoverPn a t.pn)
        else
          let pn := recoverPn a t.pn
          match tget s.cfg.secy port with
          | none => .refuse 3 none t.pn
          | some y => if bit y.secyFlags 1 && pn + y.replayWindow < a.nextPn then .refuse 5 (some k) pn else .verify k pn

/-! ## The decision (R137) -/

/-- The KEY_ID range bit of TRAILER_KEYS (Table 5-9). -/
def keyRangeBit (k : Nat) : Option Nat :=
  if k = 1 then some 0 else if 2 ≤ k ∧ k ≤ 7 then some 1 else if (0x10 ≤ k ∧ k ≤ 0xFF) ∨ (0x100 ≤ k ∧ k ≤ 0x13F) then some 2
  else if 0x8000 ≤ k ∧ k ≤ 0x803F then some 3 else none

/-- KEY_ID of a Zelgen header in the window. -/
def zelgenKey (bytes : List Byte) (p : Parse) : Option Nat := p.zelgen.map (fun o => numAt bytes (o + 20) 2)

/-- PN of the SecTAG, where one was parsed. -/
def tagPn (p : Parse) : Nat := match p.secTag with | some t => t.pn | none => 0

/-- Whether a class asks that its frames be held (R99). -/
def heldClass (cls : Option (Nat × ClassEntry)) : Bool :=
  match cls with | some (_, e) => authReq e = 1 || authReq e = 3 | none => false

def faeDecide (s : State) (port : Nat) (bytes : List Byte) (p : Parse) (isLocal : Bool) (cls : Option (Nat × ClassEntry)) : Fae :=
  match cls with
  | none => .pass
  | some (_, e) =>
    let req := authReq e
    if req = 0 then .pass
    else if (req = 1 ∨ req = 3) ∧ hasSecTag p then
      if e.secy ≠ 0xFFFF ∧ e.secy ≠ port then .refuse 7 none (tagPn p) else checkSecTag s port bytes p
    else if req = 2 ∨ (req = 3 ∧ isLocal) then
      if isLocal = false then .refuse 8 none (tagPn p)
      else if p.ethertype = 0x88B6 then .toCpx
      else
        match p.zelgen, zelgenKey bytes p with
        | some o, some k =>
          let kind := byteAt bytes (o + 1) / 64
          let allowed : Bool := match keyRangeBit k with | some i => bit e.trailerKeys i | none => false
          if kind = 0 ∨ allowed = false then .refuse 9 none (tagPn p)
          else .toCpx
        | _, _ => .refuse 9 none (tagPn p)
    else .refuse 1 none 0

/-! ## Metadata (R90 to R92, R108, R111, R135) -/

/-- TCIs of the recognised tags of a frame as FAE passes it on. -/
def rxTags (cfg : Cfg) (port : Nat) (f : List Byte) : List Nat :=
  let v := vlanOf cfg port
  let t := numAt f 12 2
  if t = v.outerTpid ∨ t = 0x8100 then
    numAt f 14 2 :: (if numAt f 16 2 = v.innerTpid then [numAt f 18 2] else [])
  else []

/-- PRIORITY (R92). -/
def rxPriority (cfg : Cfg) (port : Nat) (tags : List Nat) : Nat :=
  match tags with
  | t :: _ => t / 8192
  | [] => (vlanOf cfg port).pcp

/-- SENDER_ID of a frame of class entry `i`, or none (R135, Table 5-10). -/
def senderId (cfg : Cfg) (pg i : Nat) (k : Known) (bytes : List Byte) : Option Nat :=
  match tget cfg.sender (pg * 64 + i) with
  | none => none
  | some b =>
    let p := k.parse
    let off : Option Nat := match b.senderSource with
      | 1 => k.sa.map (fun a => a % 1024 / 4)
      | 2 => k.sa.map (fun a => a % 1024)
      | 3 => k.keyId.map (fun n => n % 2048)
      | 4 => some (numAt bytes 6 6 % 2048)
      | 5 => p.ipSrc.map (fun a => a.toNat % 2048)
      | 6 => p.tags.head?.map (fun t => t % 2048)
      | 7 => p.appId.map (fun n => n % 2048)
      | _ => none
    off.map (fun o => pg * 2048 + (b.senderBase + o) % 2048)

/-- A header's offset on CPI, or 0xFF. -/
def cpiOffset (o : Option Nat) (cut : Nat) : Nat :=
  match o with
  | some n => if n - cut ≤ 254 then n - cut else 0xFF
  | none => 0xFF

/-- Where a reply to a command in this frame goes (Table 2-7). -/
def netPath (p : Parse) (f : List Byte) : NetPath :=
  { mac := saOf f, tags := (f.drop 12).take (4 * p.tags.length)
    v4 := match p.l3 with | some o => byteAt f o / 16 = 4 | none => false
    ip := p.ipSrc.getD 0, udp := match p.l4 with | some o => numAt f o 2 | none => 0 }

/-- Everything delivery needs of a frame that FAE passes: `out` is the frame as passed on, FCS excluded. -/
def infoOf (s : State) (f : RxFrame) (frameLen stamp flags errAt : Nat) (abort held : Bool) (sample : Option Fields) (k : Known)
    (p2 : Parse) (dest : Dest) (out : List Byte) : RxInfo :=
  let port := f.port
  let v := vlanOf s.cfg port
  let tags := rxTags s.cfg port out
  let n := min (match field v.tagMode 1 0 with | 1 => 1 | 2 => 2 | _ => 0) tags.length
  let sent := out.take 12 ++ out.drop (12 + 4 * n)
  let prio := rxPriority s.cfg port tags
  let pg := groupOf port
  let sender := match k.cls with | some (i, _) => senderId s.cfg pg i k f.bytes | none => none
  let outer := tags.getD 0 v.vid
  let inner := tags.getD 1 0
  let et := numAt out (12 + 4 * tags.length) 2
  let hit := if k.cls.isSome then 1 else 0
  let cls := match k.cls with | some (i, _) => i | none => 0
  let req := match k.cls with | some (_, e) => authReq e | none => 0
  let verdict := if k.sa.isSome then 1 else 0
  let t := toTime stamp
  let l3 := cpiOffset p2.l3 (4 * n)
  let ring := match dest with | .ring r => some r | _ => none
  { port, epoch := s.cpx.epoch, dest, bytes := sent, frameLen, stamp, sfdCcyc := s.tsu.now, preempt := f.preemptable, held
    flags, errAt, abort, sample, speed := portSpeed s.cfg port, path := netPath p2 out
    smeta := [(16, t.sec % 65536), (2, 0), (30, t.ns), (16, t.frac), (9, port), (3, prio), (1, if sample.isSome then 1 else 0),
      (1, if held then 1 else 0), (2, tags.length), (2, n), (12, outer % 4096), (3, if tags = [] then 0 else outer / 8192),
      (1, if tags = [] then 0 else outer / 4096 % 2), (12, inner % 4096), (3, inner / 8192), (1, inner / 4096 % 2), (6, cls),
      (1, hit), (2, req), (2, verdict), (1, if f.preemptable then 1 else 0), (2, 0), (16, et), (8, l3), (8, 0)]
    cli := [(9, port), (6, cls), (1, hit), (2, req), (2, verdict), (2, verdict), (2, 0),
      (16, match k.sa with | some a => a % 1024 | none => 0), (16, sender.getD 0), (1, if sender.isSome then 1 else 0),
      (3, prio), (1, if held then 1 else 0), (1, if sample.isSome then 1 else 0), (2, 0), (16, et), (8, l3),
      (8, cpiOffset p2.l4 (4 * n))]
    charged := ((port * 8 + prio) :: (match sender with | some x => [4096 + x] | none => [])).filterMap (tget s.cfg.policer)
    accept := match k.cls with
      | some (_, e) => if bit e.entryFlags 4 then some (frameRec 0x12 0 verdict held port frameLen stamp s.cpx.epoch f.bytes k) else none
      | none => none
    cls := k.cls.map (fun c => pg * 64 + c.1)
    stripped := tags.take n
    csum := match ring with
      | some r => (match ringCfg s r with
        | some b => if bit b.ringFlags 1 ∧ flags = 0 then csumFlags s.cfg port sent else 0
        | none => 0)
      | none => 0 }

/-! ## Errored frames (R84, R87, R113) -/

/-- Each check that a frame fails, and the drop. -/
def countErrs (port flags : Nat) (runt : Bool) (s : State) : State :=
  let b := BitVec.ofNat 6 flags
  let one := fun (i : Nat) (c : Nat) (a : State) => if bit b i then tally c a else a
  let s1 := one 0 (rxFcsErrorsCtr port) (one 1 (rxSymbolErrorsCtr port) (one 2 (rxOversizeCtr port)
    (one 3 (rxTruncatedCtr port) (one 4 (rxFragmentErrorsCtr port) (one 5 (rxFaultCutCtr port) s)))))
  if runt then tally (rxRuntsCtr port) s1 else s1

def dropErrored (port flags : Nat) (runt : Bool) (sample : Option Fields) (s : State) : State :=
  endSample 4 0 0xFFFF sample (tally (rxErroredDroppedCtr port) (countErrs port flags runt s))

/-! ## Delivery (R97, R106 to R113) -/

/-- What a frame is charged (R211): it has wholly arrived at the decision when it is at most 256 bytes long or is held. A frame given
TO_CPX is charged once CPX's checks have passed it, since a refused frame takes no tokens (R140). -/
def chargesOf (i : RxInfo) : List Charge :=
  i.charged.map (fun b =>
    let x := if bit b.policerFlags 0 then 20 else 0
    { ctx := b.context, body := b, l := i.frameLen + x, k := if i.held ∨ i.frameLen ≤ 256 then i.frameLen + x else 256 + x })

/-- The CPX queue takes a network command with its frame's timestamp (R227), or it is dropped and counted (R43). -/
def queueNet (i : RxInfo) (o : Origin) (s : State) : State :=
  let net := countIf s.cpx.queue (fun w => match w.origin with | .eth _ => true | .udp _ => true | _ => false)
  if 64 ≤ net ∨ queueFull s ∨ s.cpx.restart.isSome ∨ processing s = false then
    endSample 4 0 0xFFFF i.sample (tally (zelgenNetDropsCtr i.port) s)
  else
    let w : Waiting := { origin := o, length := i.frameLen, sample := i.sample, path := i.path, stamp := some i.stamp
                         charge := if i.toCpx then (chargesOf i).map (fun c => { c with k := c.l }) else []
                         cls := if i.toCpx then i.cls else none, refuse := i.refuse, accept := i.accept }
    let s1 := if i.toCpx then s else match i.accept with | some r => record r s | none => s
    { s1 with cpx := { s1.cpx with queue := s1.cpx.queue ++ [w] } }

/-- A frame bound for the core joins the bus: its first slice leaves once the carder has decided (R98), a held one's at once. -/
def deliverCore (i : RxInfo) (id : Option Nat) (s : State) : State :=
  let pg := groupOf i.port
  let g := rxGroup s pg
  let b : BusFrame := { info := i, ready := max s.tsu.now (carderCcyc i), whole := i.held || decide (i.frameLen ≤ 256) }
  match id with
  | some n => joinBus pg n b s
  | none => joinBus pg g.nextId b (putRx pg { g with nextId := g.nextId + 1 } s)

/-- Stage 6: the frame goes to its destination. `id`: its number among the group's waiting frames, if it was one. -/
def deliver (i : RxInfo) (id : Option Nat) (s : State) : State :=
  let acc := fun (a : State) => match i.accept with | some r => record r a | none => a
  match i.dest with
  | .core => deliverCore i id s
  | .ring n => stageRing n i (max s.tsu.now (byteCcyc i i.frameLen) + 1) (acc s)
  | .zelgenEth => queueNet i (.eth i.port) s
  | .zelgenUdp => queueNet i (.udp i.port) s
  | .hlk =>
    let s1 := { s with hlk := { s.hlk with rxAt := tput s.hlk.rxAt i.port i.stamp } }
    endSample 2 0 0xFFFF i.sample (count (rxBytesOkCtr i.port) i.frameLen (tally (rxFramesOkCtr i.port)
      (if i.toCpx then polTakes 0 ((chargesOf i).map (fun c => { c with k := c.l })) (acc s1) else acc s1)))
  | .nowhere => tally (rxUnsteeredCtr i.port) s

/-- Stage 5: the frame is charged, or dropped (R211). -/
def policeInfo (i : RxInfo) (s : State) : Bool × State :=
  let cs := chargesOf i
  if i.toCpx then (if cs.any (polFails s) then (false, polDrops cs s) else (true, s))
  else police (byteCcyc i i.frameLen) cs s

/-! ## Held frames (R99 to R105) -/

/-- A held frame's stages 5 and 6, a follower's stage 6. -/
def passOn (i : RxInfo) (id : Nat) (s : State) : State :=
  if i.port < 512 ∧ i.held then
    match policeInfo i s with
    | (true, s1) => deliver i (some id) s1
    | (false, s1) => endSample 4 0 0xFFFF i.sample s1
  else deliver i (some id) s

/-- The buffers of a held frame that leaves are returned after its last slice on CPI, at once where it goes elsewhere (R105). -/
def keepBuffers (pg id : Nat) (l : List (Nat × Nat)) (s : State) : State :=
  let g := rxGroup s pg
  if g.bus.any (fun e => e.1 = id) then
    putRx pg { g with bus := g.bus.map (fun e => if e.1 = id then (e.1, { e.2 with buffers := l }) else e) } s
  else freeBuffers pg l s

/-- A waiting frame leaves: a held one is read back from its buffers. -/
def finishHeld (pg id : Nat) (h : HeldFrame) (s : State) : State :=
  let s1 := removeHeld pg id s
  if h.need = 0 then passOn h.info id s1
  else
    let reads := h.buffers.map (fun b => Output.bpiReadReq pg b.2)
    keepBuffers pg id h.buffers (passOn h.info id (emits reads (unbindHeld h s1)))

/-- The frame may leave: a follower wholly here, a held one verified and stored. -/
def mayLeave (s : State) (h : HeldFrame) : Bool :=
  h.due ≤ s.tsu.now && (h.need = 0 || (h.settled && h.need ≤ heldRoom s h && !h.asking))

/-- The first frame of a port that is first in its stream and may leave. -/
def nextToLeave (s : State) (port : Nat) (done l : List (Nat × HeldFrame)) : Option (Nat × HeldFrame) :=
  match l with
  | [] => none
  | e :: r =>
    if e.2.info.port = port ∧ mayLeave s e.2 ∧ !(done.any (fun d => sameStream d.2.info e.2.info)) then some e
    else nextToLeave s port (done ++ [e]) r

/-- Followers that may now leave do (R100). -/
def releaseFollowers (fuel pg port : Nat) (s : State) : State :=
  match fuel with
  | 0 => s
  | fuel + 1 =>
    match nextToLeave s port [] (rxGroup s pg).frames with
    | some (id, h) => if h.need = 0 then releaseFollowers fuel pg port (finishHeld pg id h s) else s
    | none => s

/-- HELD_FRAME_RELEASE (R99, R100). -/
def heldRelease (port : Nat) (s : State) : State :=
  let pg := groupOf port
  if clocked s = false ∨ halting s then s
  else match nextToLeave s port [] (rxGroup s pg).frames with
    | none => s
    | some (id, h) =>
      let s1 := finishHeld pg id h s
      releaseFollowers (rxGroup s1 pg).frames.length pg port s1

/-- A waiting frame at a fault in ccyc `t`: a follower that is wholly here leaves, the rest end with ERR_FAULT and are dropped (Table 4-6; that a
follower wholly received leaves is a DESIGN CHOICE, log 40). -/
def cutHeld (pg t : Nat) (e : Nat × HeldFrame) (s : State) : State :=
  let p := e.2.info.port
  if e.2.need = 0 ∧ e.2.due ≤ t then finishHeld pg e.1 e.2 s
  else tally (rxErroredDroppedCtr p) (dropHeld pg e.1 (rxFaultCutCtr p) e.2 s)

/-- Every waiting frame of a group at a fault in ccyc `t`. -/
def cutHolds (pg t : Nat) (s : State) : State := (rxGroup s pg).frames.foldl (fun a e => cutHeld pg t e a) s

/-- Reception of a gated group is cut (R360, Tables 4-6, 4-12). -/
def cutReception (pg : Nat) (s : State) : State := cutHolds pg s.tsu.now (cutBuses pg s)

/-- A frame starts to be held: its slot, its SA (R102, R124). Its first request follows the carder's decision (R101). -/
def holdFrame (i : RxInfo) (icvOk crypted : Bool) (sa : Option Nat) (pn secure : Nat) (s : State) : State :=
  let pg := groupOf i.port
  let g := rxGroup s pg
  if s.rx.ladder = [] ∨ 128 ≤ countIf g.frames (fun e => decide (e.2.need ≠ 0)) then
    endSample 4 0 0xFFFF i.sample (tally (rxVerifyHoldExhaustedCtr i.port) s)
  else
    let h : HeldFrame :=
      { info := i, need := i.frameLen, icvOk, sa, pn, secure, crypted, decided := carderCcyc i, due := byteCcyc i i.frameLen + 24 }
    let s1 := putRx pg { g with frames := g.frames ++ [(g.nextId, h)], nextId := g.nextId + 1 } s
    match sa with
    | some k => putSa k { saOfKey s1 k with bound := (saOfKey s1 k).bound + 1 } s1
    | none => s1

/-- A frame that is not held passes on, or waits behind a held one of its stream (R100): the bus keeps that order itself. It has been
charged. -/
def passOrFollow (i : RxInfo) (s : State) : State :=
  let pg := groupOf i.port
  let g := rxGroup s pg
  if i.dest ≠ .core ∧ g.frames.any (fun e => sameStream e.2.info i) then
    let h : HeldFrame := { info := i, need := 0, due := byteCcyc i i.frameLen }
    putRx pg { g with frames := g.frames ++ [(g.nextId, h)], nextId := g.nextId + 1 } s
  else deliver i none s

/-! ## BPI responses (R104) -/

/-- The handle lies in a pool's range. Handles number whole buffers, so every one is aligned (log 40). -/
def handleOk (p : Pool) (h : Nat) : Bool := p.base ≤ h && h < p.base + p.count

/-- A BPI input error (Table 18-5). -/
def bpiError (pg code cls d : Nat) (s : State) : State := errorAt 0x18 code pg sevMinor cls d 0 s

/-- An empty answer for a need: the next larger pool is asked at once, or none is left (R101, R102). -/
def bpiFallback (pg : Nat) (q : BpiReq) (s : State) : State :=
  if (rxGroup s pg).frames.any (fun e => e.1 = q.frame) = false then pumpBpi pg s
  else
    match s.rx.ladder[q.pool + 1]? with
    | some _ =>
      pumpBpi pg (tally (rxPoolFallbacksCtr q.port)
        (mapHeld pg q.frame (fun h => { h with asking := false, needAt := some 0, pool := q.pool + 1 }) s))
    | none => pumpBpi pg (exhaustHeld pg q.frame (rxVerifyHoldExhaustedCtr q.port) s)

/-- A good handle for an outstanding request: stored with its frame, or returned where the frame has ended. -/
def bpiTake (pg : Nat) (q : BpiReq) (handle : Nat) (s : State) : State :=
  let number := match s.rx.ladder[q.pool]? with | some p => p.number | none => 0
  if (rxGroup s pg).frames.any (fun e => e.1 = q.frame) then
    pumpBpi pg (emit (.bpiWrite pg handle) (mapHeld pg q.frame (fun h =>
      let h1 := { h with asking := false, pool := 0, buffers := h.buffers ++ [(q.pool, handle)] }
      { h1 with staged := min h.staged (unstored s h1) }) s))
  else pumpBpi pg (emit (.bpiFree pg number handle) s)

/-- A handle that its pool does not have. -/
def bpiBad (pg : Nat) (q : BpiReq) (handle : Nat) (s : State) : State :=
  bpiError pg 0x1802 clsInput handle (tally (rxBpiBadHandlesCtr q.port) s)

/-- BPI_RESPONSE: for the oldest request not yet answered, timed-out ones first (R103, R104). -/
def bpiResponse (pg : Nat) (isEmpty : Bool) (handle : Nat) (s : State) : State :=
  let g := rxGroup s pg
  let good := fun (q : BpiReq) => match s.rx.ladder[q.pool]? with | some p => handleOk p handle | none => false
  if clocked s = false then s
  else match g.timedOut with
    | q :: r =>
      let s1 := putRx pg { g with timedOut := r } s
      if isEmpty then s1
      else if good q then
        emit (.bpiFree pg (match s.rx.ladder[q.pool]? with | some p => p.number | none => 0) handle) s1
      else bpiBad pg q handle s1
    | [] =>
      match g.requests with
      | q :: r =>
        let (cut, s0) := pounceFires 3 pg s
        let s1 := putRx pg { rxGroup s0 pg with requests := r } s0
        if isEmpty ∨ cut.isSome then bpiFallback pg q s1
        else if good q then bpiTake pg q handle s1
        else bpiFallback pg q (bpiBad pg q handle s1)
      | [] =>
        let s1 := bpiError pg 0x1804 clsInput handle s
        if isEmpty then s1
        else match s.rx.ladder.find? (fun p => handleOk p handle) with
          | some p => emit (.bpiFree pg p.number handle) s1
          | none => s1

/-- BPI_RESPONSE_TIMEOUT: the oldest request, 128 ccyc after its issue (R104). -/
def bpiTimeout (pg : Nat) (s : State) : State :=
  let g := rxGroup s pg
  match g.requests with
  | [] => s
  | q :: r =>
    if clocked s = false ∨ s.tsu.now < q.at_ + 128 then s
    else
      bpiFallback pg q (bpiError pg 0x1803 clsTimeout 0 (tally (rxBpiTimeoutsCtr q.port)
        (putRx pg { g with requests := r, timedOut := g.timedOut ++ [q] } s)))

/-- BPI_RDDATA_TIMEOUT: the read-back of a verified frame is missing after 128 ccyc (R434). -/
def bpiReadTimeout (port : Nat) (s : State) : State :=
  let pg := groupOf port
  if clocked s = false then s
  else match nextToLeave s port [] (rxGroup s pg).frames with
    | none => s
    | some (id, h) =>
      if h.need = 0 ∨ s.tsu.now < h.due + 128 then s
      else exhaustHeld pg id (rxBpiTimeoutsCtr port) (bpiError pg 0x1803 clsTimeout 0 s)

/-! ## MAC control (R93 to R95, R203, R204) -/

/-- A pause event that reaches TGU in ccyc `m`: the timer of each obeyed priority takes its new value. -/
def pauseEvent (p m : Nat) (obey : BitVec 8) (quanta : Nat → Nat) (s : State) : State :=
  let v := portSpeed s.cfg p
  (List.range 8).foldl (fun a i =>
    if bit obey i = false then a
    else
      let x := portOf a p
      let old := ((tgetD x.pause i []).map (fun w => (w.1, min w.2 m))).filter (fun w => a.tsu.now ≤ w.2 && w.1 ≤ w.2)
      let n := quantaCcyc v (quanta i)
      let l := if n = 0 then old else old ++ [(m + 1, m + n)]
      putPort p { x with pause := if l = [] then tdel x.pause i else tput x.pause i l } a) s

/-- A MAC control frame that passed every check. -/
def macControl (p : Nat) (f : List Byte) (s : State) : State :=
  let b := pauseCfg s.cfg p
  let op := numAt f 14 2
  let mine : Bool := numAt f 0 6 = 0x0180C2000001 || daOf f = macOf s.cfg p
  let m := s.tsu.now + lineCcyc (portSpeed s.cfg p) f.length + 2
  if op = 0x0001 then
    if b.pauseMode = 1 then
      let s1 := tally (rxPauseCtr p) s
      if mine then pauseEvent p m b.obeyMask (fun _ => numAt f 16 2) s1 else s1
    else tally (rxPauseIgnoredCtr p) s
  else if op = 0x0101 then
    if b.pauseMode = 2 then
      let s1 := tally (rxPfcCtr p) s
      if mine then pauseEvent p m (b.obeyMask &&& BitVec.ofNat 8 (numAt f 16 2)) (fun i => numAt f (18 + 2 * i) 2) s1 else s1
    else tally (rxPauseIgnoredCtr p) s
  else tally (rxMacControlOtherCtr p) s

/-! ## RX_FRAME -/

/-- T_RX (R224). -/
def rxStamp (s : State) (f : RxFrame) : Nat :=
  let b := (portCfg s f.port).getD { port := f.port, portMode := 0, fecMode := 0, mtu := 0, portFlags := 0 }
  let rate := laneRate b.portMode b.fecMode
  let k := if 50000000000 < rate then f.bit / 2 * 2 else f.bit
  let inc := incNow s
  let cal : Int := match tget s.cfg.cal f.port with | some c => c.rxCal | none => 0
  let t : Int := s.tsu.time + f.phase * inc / 64 + k * inc * 1600000000 / max 1 rate - (laneOf s f.lane).skew - cal * 2 ^ 48
  t.toNat / fracUnit * fracUnit

/-- The LFSR of a group steps at an SFD; whether the frame is tagged (R300). -/
def stepLfsr (port : Nat) (s : State) : Bool × State :=
  if 512 ≤ port then (false, s)
  else
    let g := groupOf port
    let x := tgetD s.tel.lfsr g 0
    let y : BitVec 31 := (x <<< 1) ||| (if bit x 30 != bit x 27 then 1 else 0)
    let n := match s.cfg.sample with | some b => b.rateLog2 | none => 0
    (n ≠ 0 && y.toNat % 2 ^ n = 2 ^ n - 1, { s with tel := { s.tel with lfsr := tput s.tel.lfsr g y } })

/-- The sample record of a tagged frame, END, FRAME_TAG and WHAT to be set. -/
def sampleOf (s : State) (f : RxFrame) (tagged held : Bool) (frameLen stamp : Nat) : Option Fields :=
  if tagged then
    some ([(1, 1), (1, groupOf f.port), (2, 0), (2, s.cpx.epoch), (2, 0xFFFF),
      (2, f.port + (if held then 1024 else 0) + (if f.preemptable then 2048 else 0)), (2, frameLen), (4, ccycCount s)] ++
      stampFields stamp ++ stageFields s)
  else none

/-- The passed-on frame of a verified one (R129): addresses and tags, then the secure data. -/
def unwrapFrame (f : RxFrame) (t : SecTag) : List Byte :=
  f.bytes.take t.offset ++
    (if bit t.tci 3 then f.plain else (f.bytes.drop (t.offset + t.len)).take (secureLen t f.bytes.length))

/-- Bytes ahead of the first of R96's failures: a fragment count out of sequence, a wrong mCRC, a new SMD-S. -/
def fragmentAt (f : RxFrame) : Option Nat :=
  match (f.fragments.mapIdx (fun i x => (i, x))).find? (fun e => e.2.count ≠ e.1 % 4 || !e.2.mcrcOk) with
  | some e => some e.2.ahead
  | none => if f.replaced then some f.bytes.length else none

/-- A failed check lies ahead of the cut. -/
def failsBy (n : Nat) (x : Option Nat) : Bool := match x with | some k => k ≤ n | none => false

/-- The checks of Table 4-1 that a frame cut after `n` bytes fails: FCS, SYMBOL, OVERSIZE, TRUNCATED, FRAGMENT, FAULT from bit 0 up.
`deliver`: DELIVER_ERRORED. A cut frame has no FCS to check (DESIGN CHOICE, log 40). -/
def rxFlags (f : RxFrame) (mtu n : Nat) (deliver : Bool) : Nat :=
  let len := f.bytes.length
  (if n = len ∧ !f.faultCut ∧ !fcsGood f.bytes then 1 else 0) +
    (if failsBy (n - 1) f.symbolAt ∨ f.codewords.any Option.isNone then 2 else 0) + (if mtu < len then 4 else 0) +
    (if 16383 < len ∧ deliver then 8 else 0) + (if failsBy n (fragmentAt f) then 16 else 0) +
    (if n = len ∧ f.faultCut then 32 else 0)

/-- The ccyc in which RXM finds the first of a frame's errors (R88, Table 4-12): where it stands, or once the frame has ended. -/
def errorCcyc (s : State) (f : RxFrame) (mtu n : Nat) : Nat :=
  let v := portSpeed s.cfg f.port
  let last := lineCcyc v n + (if f.faultCut then 0 else 1)
  s.tsu.now + min last (min (match f.symbolAt with | some k => lineCcyc v (k + 1) | none => last) (lineCcyc v (mtu + 1)))

/-- Stages 3 to 6 of a frame. `rx`: the bytes received up to a cut; `flags`: the checks it fails, found in ccyc `errAt`, after the
carder's decision; `no`: an errored frame that is never delivered (R87). A refused frame that fails checks counts in them and in
RX_ERRORED_DROPPED (R113; log 40). -/
def rxDecide (f : RxFrame) (rx : List Byte) (p : Parse) (dest : Dest) (cls : Option (Nat × ClassEntry)) (flags errAt stamp : Nat)
    (cut no : Bool) (sample : Option Fields) (s : State) : State :=
  let port := f.port
  let held := heldClass cls
  let key := if port < 512 then zelgenKey rx p else none
  let ci := cls.map (fun c => groupOf port * 64 + c.1)
  let recOf := fun (reason pn : Nat) =>
    frameRec 0x11 reason 0 held port rx.length stamp s.cpx.epoch rx { parse := p, cls, keyId := key, pn }
  match faeDecide s port rx p dest.isLocal cls with
  | .refuse reason sc pn =>
    let s1 := if flags = 0 then s else tally (rxErroredDroppedCtr port) (countErrs port flags false s)
    refuseFrame port reason ci sc (recOf reason pn) sample s1
  | .verify sa pn =>
    if flags ≠ 0 then dropErrored port flags false sample s
    else
      match p.secTag with
      | none => s
      | some t =>
        let out := unwrapFrame f t
        let p2 := parse s.cfg port (out ++ [0, 0, 0, 0])
        let k : Known := { parse := p, cls, keyId := key, pn, sa := some sa }
        let i := infoOf s f rx.length stamp 0 0 false true sample k p2 (destOf s.cfg port (out ++ [0, 0, 0, 0]) p2) out
        let i := { i with refuse := some (recOf 6 pn) }
        holdFrame i f.icvOk (bit t.tci 3) (some sa) pn (secureLen t rx.length) s
  | r =>
    if flags ≠ 0 ∧ no ∧ (dest ≠ .core ∨ held) then dropErrored port flags false sample s
    else
      let out := if cut then rx else rx.take (rx.length - 4)
      let k : Known := { parse := p, cls, keyId := key }
      let i := infoOf s f rx.length stamp flags errAt (flags ≠ 0 && no) held sample k p dest out
      let toCpx : Bool := match r with | .toCpx => true | _ => false
      let i := { i with toCpx, refuse := if toCpx then some (recOf 0x0A 0) else none }
      let i := if toCpx then { i with accept := i.accept.map (fun (x : Rec) =>
        { x with body := x.body.take 2 ++ lsbBytes 1 (2 + 8 + p.status * 16) ++ x.body.drop 3 }) } else i
      let s1 := if flags = 0 then s else countErrs port flags false s
      if held then holdFrame i true false none 0 0 s1
      else
        let (ok, s2) := if port < 512 then policeInfo i s1 else (true, s1)
        if ok = false then endSample 4 0 0xFFFF sample (if flags = 0 then s2 else tally (rxErroredDroppedCtr port) s2)
        else passOrFollow i s2

/-- A frame on a port that accepts it. A frame cut below 64 bytes by a fault is no runt (DESIGN CHOICE, log 40). -/
def rxAccept (f : RxFrame) (s0 : State) : State :=
  let port := f.port
  let (tagged, s) := stepLfsr port s0
  let len := f.bytes.length
  let stamp := rxStamp s f
  let b := (portCfg s port).getD { port, portMode := 0, fecMode := 0, mtu := 0, portFlags := 0 }
  let drained : Bool := port ∈ s.mode.drained || (match s.mode.drain with | some d => bit d.ports port | none => false)
  if drained then
    tally (drainRxDropsCtr port) (endSample 4 0 0xFFFF (sampleOf s f tagged false len stamp) s)
  else
    let mac : Bool := 14 ≤ len && numAt f.bytes 12 2 = 0x8808
    let n := min len (if bit b.portFlags 2 then 16383 else b.mtu)
    let rx := f.bytes.take n
    let p := parse s.cfg port f.bytes
    let dest := destOf s.cfg port f.bytes p
    let cls := if port < 512 then classOf s.cfg port f.bytes p dest.isLocal else none
    let held := heldClass cls
    let no : Bool := mac || held || dest.isLocal || dest = .nowhere || !bit b.portFlags 2
    let cut : Bool := n < len || f.faultCut
    let runt : Bool := !cut && len < 64
    let flags := rxFlags f b.mtu n (bit b.portFlags 2)
    let errAt := errorCcyc s f b.mtu n
    let sample := sampleOf s f tagged held rx.length stamp
    if mac then
      if flags ≠ 0 ∨ runt then dropErrored port flags runt sample s
      else endSample 4 0 0xFFFF sample (macControl port f.bytes s)
    else if runt ∨ (flags ≠ 0 ∧ no ∧ (rx.length ≤ 256 ∨ 512 ≤ port ∨ errAt ≤ s.tsu.now + lineCcyc (portSpeed s.cfg port) 256)) then
      dropErrored port flags runt sample s
    else rxDecide f rx p dest cls flags errAt stamp cut no sample s

/-- RXM accepts frames from a port: UP, its group powered, the datapath running (R76, Table 15-3). -/
def rxOpen (s : State) (port : Nat) : Bool :=
  clocked s && !halting s && !s.mode.zeroized && thas s.cfg.port port && portPowered s port && decideUp (portOf s port)
where
  decideUp (x : Port) : Bool := match x.link with | .up => true | _ => false

/-- RX_PREAMBLE_ERROR (R83). -/
def rxPreamble (port : Nat) (s : State) : State := if rxOpen s port then tally (rxPreambleErrorsCtr port) s else s

/-- One codeword of RS-FEC decoded (R78, Table 3-7). -/
def countCodeword (p : Nat) (s : State) (c : Option Nat) : State :=
  let s1 := tally (codewordsCtr p) s
  match c with
  | none => tally (uncorrectedCwCtr p) s1
  | some n =>
    tally (cwHistogramCtr p (min n 15)) (if n = 0 then s1 else tally (correctedCwCtr p) (count (correctedSymbolsCtr p) n s1))

/-- Codewords decoded: their counts, and the FEC high-error indication, which puts the port in local fault (R78). -/
def decoded (p : Nat) (cw : List (Option Nat)) (s : State) : State :=
  if cw = [] then s
  else
    let fec := match portCfg s p with | some b => b.fecMode | none => 0
    let s1 := cw.foldl (countCodeword p) s
    let x := portOf s1 p
    let m := cw.foldl (Config.errorMonitor fec) x.monitor
    let s2 := putPort p { x with monitor := m, highErr := Config.errorHigh fec m } s1
    if Config.errorHigh fec m then beginFault p s2 else s2

/-- Symbols that the port's RS-FEC corrects in a codeword: the last bin of CW_HISTOGRAM (Table 3-7). -/
def correctable (b : PortSetBody) : Nat := if b.fecMode = 3 then 15 else 7

/-- The pouncer's FEC_SYMBOLS: a codeword received takes ARG symbol errors more (Table 16-4). -/
def hitCodewords (p t : Nat) (l : List (Option Nat)) (s : State) : List (Option Nat) × State :=
  match l with
  | [] => ([], s)
  | c :: r =>
    let (k, s1) := pounceFires 6 p s
    let (r1, s2) := hitCodewords p t r s1
    ((match c, k with
      | some n, some k => if n + k ≤ t then some (n + k) else none
      | _, _ => c) :: r1, s2)

/-- A frame's codewords as the PCS receives them. -/
def received (f : RxFrame) (s : State) : RxFrame × State :=
  match portCfg s f.port with
  | some b =>
    if clocked s ∧ (b.fecMode = 2 ∨ b.fecMode = 3) then
      let (l, s1) := hitCodewords f.port (correctable b) f.between s
      let (m, s2) := hitCodewords f.port (correctable b) f.codewords s1
      ({ f with between := l, codewords := m }, s2)
    else (f, s)
  | none => (f, s)

/-- What the port's PCS decoded and measured since its last row (R78, R79): BASE-R FEC has blocks and no codewords to count (DESIGN
CHOICE, log 40). Skews are tracked at every marker (R77, R224). -/
def pcsCounts (f : RxFrame) (s : State) : State :=
  match portCfg s f.port with
  | none => s
  | some b =>
    if clocked s = false ∨ portPowered s f.port = false then s
    else
      let s1 := if f.skews = [] then s else storeSkews f.port f.skews s
      if b.fecMode = 2 ∨ b.fecMode = 3 then
        f.fecLanes.foldl (fun a l => count (fecLaneSymbolsCtr l.1) l.2 a) (decoded f.port f.between s1)
      else f.blockErrors.foldl (fun a l => count (blockErrorsCtr l.1) l.2 a) s1

/-- The frame's own codewords. -/
def frameCodewords (f : RxFrame) (s : State) : State :=
  match portCfg s f.port with
  | none => s
  | some b => if rxOpen s f.port ∧ (b.fecMode = 2 ∨ b.fecMode = 3) then decoded f.port f.codewords s else s

/-- With PCS_LOOPBACK the receive lanes are ignored: what comes is what the port itself sent, in its order (Table 3-4). -/
def fromLoop (f : RxFrame) (s : State) : Option State :=
  if bit (portFlags s.cfg f.port) 3 = false then some s
  else
    match (portOf s f.port).looped with
    | (m, bs) :: r => if m = f.mpacket ∧ bs = f.bytes then some (putPort f.port { portOf s f.port with looped := r } s) else none
    | [] => none

/-- A start on an open port (R83, R96): preemption mPackets go to TGU; without preemption an SMD is no start of a frame. -/
def rxStart (f : RxFrame) (s : State) : State :=
  if (f.mpacket ≠ .none ∨ f.preemptable) ∧ (preemptCfg s.cfg f.port).preemptableMask = 0 then rxPreamble f.port s
  else match f.mpacket with
    | .verify => putPort f.port { portOf s f.port with respondDue := true } s
    | .respond => (match (portOf s f.port).verify with
      | .running _ => verifyOutcome f.port .passed s
      | _ => s)
    | .none => rxAccept f s

/-- RX_FRAME. -/
def rxFrame (f0 : RxFrame) (s0 : State) : State :=
  let (f, s1) := received f0 s0
  let s := pcsCounts f s1
  if rxOpen s f.port = false then s
  else match fromLoop f s with
    | some s1 => frameCodewords f (rxStart f s1)
    | none => s

/-! ## The classifier's returns (R112) -/

/-- A record's version is known: its sample and its ACCEPT record are written. -/
def cliDone (w : CliWait) (version : Nat) (s : State) : State :=
  let s1 := { s with rx := { s.rx with cli := s.rx.cli.filter (fun x => !(x.pg = w.pg && x.tag = w.tag && x.at_ = w.at_)) } }
  let s2 := match w.sample with
    | some l => endSample 0 (match l.drop 2 with | e :: _ => e.2 | [] => 0) version (some l) s1
    | none => s1
  match w.accept with
  | some r => record { r with body := r.body.take 4 ++ lsbBytes 2 version ++ r.body.drop 6 } s2
  | none => s2

/-- CLI_RV on the channel of a group; in the ccyc in which its record times out it is too late (Table 20-8). -/
def cliRv (channel pg tag version : Nat) (s : State) : State :=
  if clocked s = false then s
  else if channel ≠ pg then tallyIn channel (cliRvUnknownCtr channel) s
  else match s.rx.cli.find? (fun w => w.pg = pg && w.tag = tag && s.tsu.now < w.at_ + 4096) with
    | some w => cliDone w version s
    | none => tallyIn channel (cliRvUnknownCtr channel) s

/-- CLI_RV_TIMEOUT: 4,096 ccyc without a return. -/
def cliTimeout (pg tag : Nat) (s : State) : State :=
  match s.rx.cli.find? (fun w => w.pg = pg && w.tag = tag && w.at_ + 4096 ≤ s.tsu.now) with
  | some w => if clocked s then tallyIn pg (cliRvTimeoutsCtr pg) (cliDone w 0xFFFF s) else s
  | none => s

def execRxFrame (dt : Nat) (f : RxFrame) (s : State) : Result := happen dt (rxFrame f) s
def execRxPreambleError (dt port : Nat) (s : State) : Result := happen dt (rxPreamble port) s
def execBpiResponse (dt pg : Nat) (isEmpty : Bool) (handle : Nat) (s : State) : Result := happen dt (bpiResponse pg isEmpty handle) s
def execBpiResponseTimeout (dt pg : Nat) (s : State) : Result := happen dt (bpiTimeout pg) s
def execHeldFrameRelease (dt port : Nat) (s : State) : Result := happen dt (heldRelease port) s
def execCliRv (dt channel pg frameTag version : Nat) (s : State) : Result := happen dt (cliRv channel pg frameTag version) s
def execCliRvTimeout (dt pg frameTag : Nat) (s : State) : Result := happen dt (cliTimeout pg frameTag) s
def execBpiRdDataTimeout (dt port : Nat) (s : State) : Result := happen dt (bpiReadTimeout port) s

end Sys2Proof.Machine
end

