-- ==== Sys2Proof/Machine/Gates.lean ====
section
/-! DEFINITION. Group 0x06 and the happenings of TGU (08): gate control lists (R193 to R196), preemption, pause requests,
refreshes and timers (R204 to R208). -/
namespace Sys2Proof.Machine

/-! ## Gate cycles (R195, R196) -/

/-- Time of the first cycle start at or after `t` of cycles anchored at `a` (R195). -/
def nextStart (a span t : Nat) : Nat := t + (((a : Int) - t) % (max 1 span : Nat)).toNat

/-- The cycle ends before its last entry is reached (R194, Table 8-8). -/
def GateList.cut (g : GateList) : Bool := g.span ≤ ((g.entries.dropLast).map (fun e => e.interval * gateUnit)).sum

def putGate (p : Nat) (g : GateSt) (s : State) : State := { s with gates := tput s.gates p g }

/-- A cycle of the list that ran has ended. -/
def countCut (p : Nat) (l : Option GateList) (s : State) : State :=
  if l.any GateList.cut then tallyAt p (gateCyclesCutCtr p) s else s

/-- GATE_CYCLE_START (R195, R196): the time base has reached a cycle start; the swap instant is one. -/
def gateCycleStart (p : Nat) (s : State) : State :=
  if clocked s = false then s
  else
    match tget s.gates p with
    | none => s
    | some g =>
      if g.pending.isSome ∧ g.swapAt ≤ s.tsu.time then
        let s1 := tallyAt p (gateCyclesCtr p) (countCut p g.running (putGate p (takePending g) s))
        if g.running.isSome then tallyAt p (gateSwapsCtr p) s1 else s1
      else
        match g.running with
        | none => s
        | some l =>
          if s.tsu.time < g.cycleAt then s
          else tallyAt p (gateCyclesCtr p) (countCut p (some l) (putGate p { g with cycleAt := g.cycleAt + l.span } s))

/-- A time step moves one port's gates to the new time (R196): a swap passed over is made with A := S; cycle starts passed
over are not counted, and those ahead again are. -/
def stepGate (p : Nat) (g : GateSt) (s : State) : State :=
  let passed : Bool := g.pending.isSome && decide (g.swapAt < s.tsu.time)
  let g1 := if passed then takePending g else g
  let g2 := match g1.running with
    | some l => { g1 with cycleAt := nextStart g1.anchor l.span s.tsu.time }
    | none => g1
  let s1 := putGate p g2 s
  if passed ∧ g.running.isSome then tallyAt p (gateSwapsCtr p) s1 else s1

/-- The gates of every port take the entry in force at the new time. -/
def stepGates (s : State) : State := s.gates.foldl (fun a g => stepGate g.1 g.2 a) s

/-- GATE_ENTRY_CHANGE (R194): the entry in force follows the time base; TXM looks again at the heads that wait (R197). -/
def gateEntryChange (p : Nat) (s : State) : State :=
  if clocked s = false ∨ portPowered s p = false ∨ (portOf s p).line.isSome ∨ s.tsu.now < (portOf s p).lineFree then s
  else countHolds p s

/-- A commit's list for a port (R195): pending from the first cycle start of the running list, or a first list from its
anchor A. -/
def installGate (p : Nat) (l : GateList) (s : State) : State :=
  let g := inForce (tgetD s.gates p {}) s.tsu.time
  match g.running with
  | some r => putGate p { g with pending := some l, swapAt := nextStart g.anchor r.span s.tsu.time } s
  | none => putGate p { g with pending := some l, swapAt := nextStart l.base l.span s.tsu.time } s

/-! ## Pause (R204, R206, R207) -/

/-- A change of XOFF ∧ GEN_MASK is due to be told (Table 8-6). -/
def pauseChanged (mode : Nat) (st told : BitVec 8) : Bool :=
  if mode = 1 then (st = 0 : Bool) ≠ (told = 0 : Bool) else st ≠ told

/-- What is due after the XOFF state or its mask changed: changes merge until the frame starts. -/
def retell (p : Nat) (was : BitVec 8) (s : State) : State :=
  let x := portOf s p
  let st := xoffState s p
  let x1 := if st = was then x else { x with xoffAt := s.tsu.now }
  if x.link ≠ .up ∨ x.genDue = 2 then putPort p x1 s
  else putPort p { x1 with genDue := if pauseChanged (pauseCfg s.cfg p).pauseMode st x.told then 1 else 0 } s

/-- PAUSE_REQUEST_WORD (R206). -/
def pauseRequest (pg : Nat) (w : PauseReq) (s : State) : State :=
  let p := pg * 16 + w.portOff
  if clocked s = false ∨ groupState s pg ≠ .powered then s
  else if thas s.cfg.port p = false ∨ (pauseCfg s.cfg p).pauseMode = 0 then
    cpiError pg 0x1704 clsInput (w.portOff * 4096 + w.rsv * 256 + w.xoff.toNat) (tally (txPauseReqErrorsCtr p) s)
  else
    retell p (xoffState s p) (putPort p { portOf s p with xoff := w.xoff } s)

/-- PAUSE_REFRESH (Table 8-6): the state is nonzero and unchanged for REFRESH quanta. -/
def pauseRefresh (p : Nat) (s : State) : State :=
  let x := portOf s p
  let b := pauseCfg s.cfg p
  if clocked s ∧ x.link = .up ∧ b.pauseMode ≠ 0 ∧ xoffState s p ≠ 0 ∧
      x.xoffAt + quantaCcyc (portSpeed s.cfg p) b.refresh ≤ s.tsu.now then putPort p { x with genDue := 2 } s
  else s

/-- PAUSE_TIMER_EXPIRY (R204, R205): in the ccyc of its expiry the timer still stops its classes (Table 8-4); one that ended
before is dropped. -/
def pauseExpiry (p prio : Nat) (s : State) : State :=
  let x := portOf s p
  let l := (tgetD x.pause prio []).filter (fun w => s.tsu.now ≤ w.2)
  putPort p { x with pause := if l = [] then tdel x.pause prio else tput x.pause prio l } s

/-! ## Commands -/

def gateEntryFields (e : GateEntry) : Fields := [(2, e.gates.toNat), (4, e.interval), (2, e.rsv.toNat)]

/-- The port's list as the staged set has it started (R193). -/
def stagedList (s : State) (p : Nat) : Option GateListBody :=
  s.cpx.staged.edits.foldl (fun a e => match e with
    | .gateList b => if b.port = p ∧ b.firstEntry = 0 then some b else a
    | .portClear q => if q = p then none else a
    | _ => a) none

def gateListCheck (b : GateListBody) (s : State) : Refused :=
  firstOf
    [param (b.firstEntry = 0 || (match stagedList s b.port with
       | some a => a.baseTime = b.baseTime && a.cycleTime = b.cycleTime && a.listLen = b.listLen
       | none => false)) 20,
     need (b.firstEntry + b.count ≤ b.listLen) stOutOfRange 22]

def opGateListSet (b : GateListBody) : Op :=
  { opcode := 0x0601, kind := .s, auth := .o
    body := [(2, b.port)] ++ timeFields b.baseTime ++ [(4, b.cycleTime), (2, b.listLen), (2, b.firstEntry), (2, b.count)] ++
      b.entries.flatMap gateEntryFields
    lenOk := b.entries.length = b.count
    rsvZero := b.entries.all (fun e => e.rsv = 0)
    ranges := ([(0, b.port ≤ 511), (2, timeOk b.baseTime), (14, 1000 ≤ b.cycleTime), (18, 1 ≤ b.listLen && b.listLen ≤ 1024),
      (22, 1 ≤ b.count && b.count ≤ 1017)] : List (Nat × Bool)) ++ b.entries.mapIdx (fun i e => (26 + 8 * i, decide (1 ≤ e.interval)))
    ports := [b.port]
    check := fun _ s => gateListCheck b s
    edit := some (.gateList b) }

def opPreemptSet (b : PreemptBody) : Op :=
  { opcode := 0x0602, kind := .s, auth := .o
    body := [(2, b.port), (2, b.preemptableMask.toNat), (1, b.addFragSize), (1, b.verify)]
    ranges := [(0, b.port ≤ 511), (4, b.addFragSize ≤ 3), (5, b.verify ≤ 128)]
    ports := [b.port], edit := some (.preempt b) }

def opPauseSet (b : PauseBody) : Op :=
  { opcode := 0x0603, kind := .s, auth := .o
    body := [(2, b.port), (1, b.pauseMode), (1, b.obeyMask.toNat), (1, b.genMask.toNat), (2, b.quanta), (2, b.refresh)]
    ranges := [(0, b.port ≤ 511), (2, b.pauseMode ≤ 2)]
    ports := [b.port], edit := some (.pause b) }

/-- PAUSE_SEND's frame waits for the next frame boundary (R208, Table 6-5). -/
def pauseSend (b : PauseSendBody) (s : State) : State :=
  let x := portOf s b.port
  let mode := (pauseCfg s.cfg b.port).pauseMode
  putPort b.port { x with macDue := x.macDue ++ [pauseFrame (macOf s.cfg b.port) mode b.quanta b.classMask b.classMask] } s

def opPauseSend (b : PauseSendBody) : Op :=
  { opcode := 0x0604, kind := .i, auth := .o, body := [(2, b.port), (1, b.classMask.toNat), (2, b.quanta)]
    ranges := [(0, b.port ≤ 511)], ports := [b.port]
    check := fun _ s => firstOf
      [param ((pauseCfg s.cfg b.port).pauseMode ≠ 0 && (portOf s b.port).link = .up && portPowered s b.port) 0,
       param ((pauseCfg s.cfg b.port).pauseMode ≠ 1 || b.classMask ≠ 0) 2]
    run := fun _ s => { state := pauseSend b s } }

/-- Reply of GATE_STATE_GET (R196). -/
def gateReply (s : State) (p : Nat) : Fields :=
  let g := inForce (tgetD s.gates p {}) s.tsu.time
  let off := fun (l : GateList) => cycleOffset s.tsu.time g.anchor l.span
  let entry := match g.running with | some l => entryAt l.segs (off l) | none => 0xFFFF
  let next := match g.pending, g.running with
    | some _, _ => g.swapAt
    | none, some l => s.tsu.time + l.span - off l
    | none, none => 0
  [(2, entry), (1, if g.pending.isSome then 1 else 0)] ++ timeFields (toTime next)

def opGateStateGet (p : Nat) : Op :=
  { opcode := 0x0605, kind := .q, auth := .o, body := [(2, p)], ranges := [(0, p ≤ 511)], ports := [p]
    run := fun _ s => { state := s, body := gateReply s p } }

def execGateListSet (z : Zelgen) (b : GateListBody) (s : State) : Result := command (opGateListSet b) z s
def execPreemptSet (z : Zelgen) (b : PreemptBody) (s : State) : Result := command (opPreemptSet b) z s
def execPauseSet (z : Zelgen) (b : PauseBody) (s : State) : Result := command (opPauseSet b) z s
def execPauseSend (z : Zelgen) (b : PauseSendBody) (s : State) : Result := command (opPauseSend b) z s
def execGateStateGet (z : Zelgen) (port : Nat) (s : State) : Result := command (opGateStateGet port) z s
def execPauseRequestWord (dt pg : Nat) (w : PauseReq) (s : State) : Result := happen dt (pauseRequest pg w) s
def execPauseRefresh (dt port : Nat) (s : State) : Result := happen dt (pauseRefresh port) s
def execPauseTimerExpiry (dt port prio : Nat) (s : State) : Result := happen dt (pauseExpiry port prio) s
def execGateEntryChange (dt port : Nat) (s : State) : Result := happen dt (gateEntryChange port) s
def execGateCycleStart (dt port : Nat) (s : State) : Result := happen dt (gateCycleStart port) s

end Sys2Proof.Machine
end

