-- ==== Sys2Proof/Machine/Time.lean ====
section
/-! DEFINITION. Group 0x07 and the happenings of TSU (09): steps, rate, slews, holdover, captures, PPS and time of day. -/
namespace Sys2Proof.Machine

/-! ## SYNC (R219, R223) -/

/-- SYNC changes; entry into HOLDOVER and exit from it raise the source. -/
def setSync (x : Sync) (s : State) : State :=
  let old := s.tsu.sync
  let s1 := { s with tsu := { s.tsu with sync := x } }
  if (old = .holdover : Bool) ≠ (x = .holdover : Bool) then raiseEvent 0x892 s1 else s1

/-- A cause of R223 arises: a time base that has been set enters HOLDOVER. -/
def enterHoldover (s : State) : State := if s.tsu.sync = .set then setSync .holdover s else s

/-- A TIME_STEP, TIME_RATE_SET or TIME_SLEW accepted after every cause has cleared (R223). -/
def steered (s : State) : State := if s.tsu.sync = .holdover ∧ holdCause s = false then setSync .set s else s

/-- A step or setting of the time while SYNC is UNSET (R219, R223, R234). -/
def firstSet (s : State) : State :=
  if s.tsu.sync = .unset then setSync (if holdCause s then .holdover else .set) s else s

/-! ## Steps and slews (R219, R220) -/

/-- A slew ends: its source is raised. -/
def endSlew (cut : Bool) (s : State) : State :=
  if s.tsu.slew.isNone then s
  else
    let s1 := raiseEvent 0x891 { s with tsu := { s.tsu with slew := none } }
    if cut then tally timeSlewsCutCtr s1 else s1

/-- The time base steps to `t` in this ccyc (R219): a slew is cut, gates follow (R196). What is measured as a duration of
TSU time moves with it: the last PPS edge and a pulse in progress (R232, R233). -/
def stepTo (t : Nat) (keepSync : Bool) (s : State) : State :=
  let before := s.tsu.time
  let d : Int := (t : Int) - before
  let s1 := endSlew true s
  let s2 := { s1 with tsu := { s1.tsu with time := t, ppsEdge := s1.tsu.ppsEdge.map (fun e => e + d)
                                           ppsOutSince := s1.tsu.ppsOutSince + d } }
  let s3 := stepGates (tally timeStepsCtr s2)
  eventRecord 0x0003 (timeLsb before ++ timeLsb t) (if keepSync then s3 else firstSet s3)

/-- TIME_STEP_EFFECT: the oldest accepted step, 64 ccyc after its acceptance (R219). -/
def stepEffect (s : State) : State :=
  match s.tsu.step with
  | [] => s
  | q :: r =>
    if clocked s = false ∨ s.tsu.now < q.due then s
    else
      let t := if q.relative then ((s.tsu.time : Int) + q.offset).toNat else q.time
      let s1 := stepTo t q.keepSync { s with tsu := { s.tsu with step := r } }
      match q.ctx with
      | some ctx => answer ctx stOk 0 (timeFields (toTime s1.tsu.time)) s1
      | none => s1

/-- SLEW_COMPLETE (R220). -/
def slewComplete (s : State) : State :=
  match s.tsu.slew with
  | some w => if w.total ≤ w.done then endSlew false s else s
  | none => s

/-! ## PPS and time of day (R231 to R234) -/

def ppsFlag (s : State) (i : Nat) : Bool := match s.cfg.pps with | some b => bit b.ppsFlags i | none => false

/-- CRC-16 of Table 9-5 over one bit. -/
def crcBit (c : BitVec 16) (b : Bool) : BitVec 16 :=
  let x := c <<< 1
  if (bit c 15) != b then x ^^^ 0x1021#16 else x

/-- CRC-16 over bytes, most significant bit first. -/
def crc16 (l : List Byte) : BitVec 16 :=
  l.foldl (fun c b => (List.range 8).foldl (fun c i => crcBit c (bit b (7 - i))) c) 0xFFFF#16

/-- The conditions of R234 on a message, its deadline apart. -/
def todValid (m : List Byte) : Bool :=
  m.length = 16 && numAt m 0 2 = 0x5A54 && numAt m 2 1 = 1 && numAt m 3 1 % 2 = 1 &&
    numAt m 14 2 = (crc16 (m.take 14)).toNat

/-- TOD_MESSAGE: a message that meets the conditions is held for the next edge. -/
def todMessage (m : List Byte) (s : State) : State :=
  if clocked s = false ∨ ppsFlag s 3 = false then s
  else if todValid m = false then tally todErrorsCtr s
  else
    let x := s.tsu
    let was := if x.tods.isEmpty then (x.todFlags, x.utcOffset, x.todSeconds) else x.todWas
    let q : TodMsg := { seconds := numAt m 4 6, ended := x.now, flags := BitVec.ofNat 8 (numAt m 3 1), utc := BitVec.ofNat 16 (numAt m 10 2) }
    { s with tsu := { x with tods := q :: x.tods, todWas := was, todFlags := q.flags, utcOffset := q.utc, todSeconds := q.seconds } }

/-- The messages held for this edge: those that ended 10 ms before it are valid and the last of them names the edge; those that ended
later count as errors. TIME_GET's fields are the last valid one's (R217). -/
def takeTod (s : State) : Option Nat × State :=
  let x := s.tsu
  let good := x.tods.filter (fun q => q.ended + ms 10 ≤ x.now)
  let (f, u, k) := match good with | q :: _ => (q.flags, q.utc, q.seconds) | [] => x.todWas
  if x.tods.isEmpty then (none, s)
  else (good.head?.map (·.seconds), count todErrorsCtr (x.tods.length - good.length) (count todMessagesCtr good.length
    { s with tsu := { x with tods := [], todFlags := f, utcOffset := u, todSeconds := k } }))

/-- The edge is plausible (R232): the first since the enable or for 3 s, or 1 s ± PPS_IN_WINDOW after the last. -/
def ppsPlausible (s : State) (t : Int) : Bool :=
  match s.tsu.ppsEdge, s.cfg.pps with
  | some e, some b =>
    let d := t - e - secUnit
    s.tsu.ppsEdgeCcyc + secs 3 ≤ s.tsu.now || (-(b.ppsInWindow * nsUnit : Int) ≤ d && d ≤ b.ppsInWindow * nsUnit)
  | _, _ => true

/-- A plausible on-time edge, `part` after the start of this ccyc. -/
def ppsGood (part : Nat) (s : State) : State :=
  let (sec, s1) := takeTod s
  let s2 := match sec with
    | some n => if ppsFlag s1 4 ∧ s1.tsu.sync = Sync.unset then stepTo (n * secUnit - part) false s1 else s1
    | none => s1
  let t := (s2.tsu.time + part) / fracUnit * fracUnit
  let n := (s2.tsu.ppsCount + 1) % 2 ^ 32
  let x := s2.tsu
  let caps := ((n, t) :: x.ppsCaps).take 64
  let tods := match sec with | some k => (n, k) :: x.todCaps | none => x.todCaps
  raiseEvent 0x893 (tally ppsInEdgesCtr
    { s2 with tsu := { x with ppsCount := n, ppsOk := true, ppsLost := false, ppsEdge := some (x.time + part)
                              ppsEdgeCcyc := x.now, ppsCaps := caps
                              todCaps := tods.filter (fun c => caps.any (fun e => decide (e.1 = c.1))) } })

/-- PPS_IN_EDGE (R232): `phase` in 1/64 ccyc; a level that holds for less than 100 ns is ignored. -/
def ppsInEdge (rising : Bool) (phase heldNs : Nat) (s : State) : State :=
  if clocked s = false ∨ ppsFlag s 1 = false ∨ rising = ppsFlag s 2 ∨ heldNs < 100 then s
  else
    let part := phase * incNow s / 64
    if ppsPlausible s (s.tsu.time + part) then ppsGood part s
    else tally ppsInRejectsCtr { s with tsu := { s.tsu with ppsOk := false } }

/-- PPS_IN_LOSS (R223). -/
def ppsInLoss (s : State) : State :=
  if clocked s = false ∨ ppsFlag s 5 = false ∨ s.tsu.ppsLost ∨ s.tsu.now < s.tsu.ppsEdgeCcyc + secs 3 then s
  else enterHoldover { s with tsu := { s.tsu with ppsLost := true } }

/-- PPS_OUT_PULSE (R233): the instant at which the sub-second part reaches the offset lies in this ccyc. -/
def ppsOutPulse (s : State) : State :=
  match s.cfg.pps with
  | none => s
  | some b =>
    let fine := ((b.ppsOutOffset * nsUnit - s.tsu.time) % (secUnit : Int)).toNat
    if clocked s = false ∨ bit b.ppsFlags 0 = false ∨ s.tsu.ppsOut ∨ incNow s ≤ fine then s
    else emit (.ppsOut true fine) { s with tsu := { s.tsu with ppsOut := true, ppsOutSince := s.tsu.time + fine } }

/-- PPS_OUT_PULSE_END: the pulse has its full width in this ccyc. -/
def ppsOutEnd (s : State) : State :=
  match s.cfg.pps with
  | none => s
  | some b =>
    let due : Int := s.tsu.ppsOutSince + b.pulseWidth * nsUnit
    if clocked s = false ∨ s.tsu.ppsOut = false ∨ (s.tsu.time : Int) + incNow s ≤ due then s
    else emit (.ppsOut false (due - s.tsu.time).toNat) { s with tsu := { s.tsu with ppsOut := false } }

/-! ## The reference (R222) -/

def refFault (s : State) : State :=
  if clocked s = false ∨ s.tsu.refFault then s
  else enterHoldover (errorAt 0x09 0x0901 0 sevMajor clsInput 0 0
    (tally refFaultsCtr { s with tsu := { s.tsu with refFault := true } }))

def refClear (s : State) : State := if clocked s then { s with tsu := { s.tsu with refFault := false } } else s

/-! ## Commands -/

/-- A worker follows its manager's time base (R427). -/
def following (s : State) : Bool := s.hlk.manager.isSome && decide (s.hlk.timeInt ≠ 0)

def opTimeGet : Op :=
  { opcode := 0x0701, kind := .q, auth := .o
    run := fun _ s => { state := s, body := timeFields (toTime s.tsu.time) ++
      [(8, signedCode 8 s.tsu.rateAdj), (1, timeState s), (1, s.tsu.todFlags.toNat), (2, s.tsu.utcOffset.toNat),
       (6, s.tsu.todSeconds), (2, 0)] } }

/-- A field that the mode does not use is nonzero, or a relative step would end below zero (R219). -/
def timeStepCheck (b : TimeStepBody) (s : State) : Refused :=
  firstOf
    [param (b.stepMode = 0 || b.time = {}) 1,
     param (b.stepMode = 1 || b.offset = 0) 13,
     need (b.stepMode = 0 || decide (0 ≤ timeAhead s 64 + b.offset * 2 ^ 48)) stOutOfRange 13]

def opTimeStep (b : TimeStepBody) : Op :=
  { opcode := 0x0702, kind := .i, auth := .o, mode := fun s => need (!following s) stBusy
    body := [(1, b.stepMode)] ++ timeFields b.time ++ [(8, signedCode 8 b.offset)]
    ranges := [(0, b.stepMode ≤ 1), (1, timeOk b.time)]
    check := fun _ s => timeStepCheck b s
    run := fun ctx s =>
      let s1 := steered s
      { state := { s1 with tsu := { s1.tsu with step := s1.tsu.step ++
          [{ due := s1.tsu.now + 64, relative := b.stepMode = 1, time := ofTime b.time, offset := b.offset * 2 ^ 48, ctx := some ctx }] } }
        later := true } }

def opTimeRateSet (r : Int) : Op :=
  { opcode := 0x0703, kind := .i, auth := .o, mode := fun s => need (!following s) stBusy, body := [(8, signedCode 8 r)]
    ranges := [(0, -32768000000 ≤ r && r ≤ 32768000000)]
    run := fun _ s => { state := steered { s with tsu := { s.tsu with rateAdj := r, inc0 := heldInc s } } } }

def opTimeSlew (b : TimeSlewBody) : Op :=
  { opcode := 0x0704, kind := .p, auth := .o, mode := fun s => need (!following s) stBusy, body := [(8, signedCode 8 b.offset), (4, b.duration)]
    ranges := [(8, 1 ≤ b.duration && b.duration ≤ 10000000)]
    check := fun _ s => firstOf
      [need (b.offset.natAbs ≤ 32768 * b.duration) stOutOfRange 8, need s.tsu.slew.isNone stBusy]
    run := fun _ s =>
      { state := steered { s with tsu := { s.tsu with
                   slew := some { offset := b.offset * 2 ^ 48, total := us b.duration, done := 0, fresh := true }, inc0 := heldInc s } }
        status := stPending } }

def opPpsSet (b : PpsBody) : Op :=
  { opcode := 0x0705, kind := .s, auth := .o
    body := [(1, b.ppsFlags.toNat), (4, b.pulseWidth), (4, b.ppsInWindow), (4, signedCode 4 b.ppsOutOffset)]
    rsvZero := field b.ppsFlags 7 6 = 0
    ranges := [(1, 100 ≤ b.pulseWidth && b.pulseWidth ≤ 500000000), (5, 100 ≤ b.ppsInWindow && b.ppsInWindow ≤ 100000000),
      (9, -500000000 ≤ b.ppsOutOffset && b.ppsOutOffset ≤ 499999999)]
    edit := some (.pps b) }

/-- ±1,000 ns in units of 2^-16 ns (R225). -/
def calOk (c : Int) : Bool := -65536000 ≤ c && c ≤ 65536000

def opTsuCalSet (b : TsuCalBody) : Op :=
  { opcode := 0x0706, kind := .s, auth := .o, body := [(2, b.port), (4, signedCode 4 b.rxCal), (4, signedCode 4 b.txCal)]
    ranges := [(0, b.port ≤ 515), (2, calOk b.rxCal), (6, calOk b.txCal)]
    ports := [b.port], edit := some (.tsuCal b) }

/-- The capture that TS_READ names (R228, R232, R234), as this ccyc found it (Table 9-6). -/
def captureOf (s : State) (port tsId : Nat) : Option Nat :=
  if port = 0x0400 then (s.tsu.ppsCaps.find? (fun c => c.1 % 65536 = tsId)).map (fun c => c.2)
  else if port = 0x0401 then (s.tsu.todCaps.find? (fun c => c.1 % 65536 = tsId)).map (fun c => c.2 * secUnit)
  else ((tgetD s.tsu.capsWas (groupOf port) []).find? (fun c => c.port = port && c.tsId = tsId)).map (·.time)

def opTsRead (port tsId : Nat) : Op :=
  { opcode := 0x0707, kind := .q, auth := .o, body := [(2, port), (2, tsId)]
    ranges := [(0, port ≤ 515 || port = 0x0400 || port = 0x0401)]
    check := fun _ s => param (captureOf s port tsId).isSome 2
    run := fun _ s => { state := s, body := timeFields (toTime ((captureOf s port tsId).getD 0)) } }

def execTimeGet (z : Zelgen) (s : State) : Result := command opTimeGet z s
def execTimeStep (z : Zelgen) (b : TimeStepBody) (s : State) : Result := command (opTimeStep b) z s
def execTimeRateSet (z : Zelgen) (rateAdj : Int) (s : State) : Result := command (opTimeRateSet rateAdj) z s
def execTimeSlew (z : Zelgen) (b : TimeSlewBody) (s : State) : Result := command (opTimeSlew b) z s
def execPpsSet (z : Zelgen) (b : PpsBody) (s : State) : Result := command (opPpsSet b) z s
def execTsuCalSet (z : Zelgen) (b : TsuCalBody) (s : State) : Result := command (opTsuCalSet b) z s
def execTsRead (z : Zelgen) (port tsId : Nat) (s : State) : Result := command (opTsRead port tsId) z s
def execTimeStepEffect (dt : Nat) (s : State) : Result := happen dt stepEffect s
def execSlewComplete (dt : Nat) (s : State) : Result := happen dt slewComplete s
def execPpsInEdge (dt : Nat) (rising : Bool) (phase : Nat) (s : State) (heldNs : Nat := 0) : Result :=
  happen dt (ppsInEdge rising phase heldNs) s
def execPpsInLoss (dt : Nat) (s : State) : Result := happen dt ppsInLoss s
def execTodMessage (dt : Nat) (bytes : List Byte) (s : State) : Result := happen dt (todMessage bytes) s
def execPpsOutPulse (dt : Nat) (s : State) : Result := happen dt ppsOutPulse s
def execPpsOutPulseEnd (dt : Nat) (s : State) : Result := happen dt ppsOutEnd s
def execRefFault (dt : Nat) (s : State) : Result := happen dt refFault s
def execRefFaultClear (dt : Nat) (s : State) : Result := happen dt refClear s

end Sys2Proof.Machine
end

