-- ==== Sys2Proof/Machine/Interrupts.lean ====
section
/-! DEFINITION. Group 0x09 and the target pages of JIC (11): claim, completion, enables, software sources, target states. -/
namespace Sys2Proof.Machine

/-- A request for a target's page (R268, R284, R285): checked, then carried out. -/
def atTarget (id t : Nat) (f : State → State) (s : State) : State :=
  if clocked s = false then s
  else if 32 ≤ t then denied id vioUnmapped false s
  else if (tget s.cfg.irqTarget t).all (fun b => b.accessId ≠ id) then denied id vioTarget false s
  else if accFrozen s id ∨ s.mode.stage = .boot ∨ s.mode.zeroized then sypError s
  else f s

/-! ## Claim and completion (R274 to R278) -/

/-- PRIORITY and MOD_TIME of a configured source. -/
def sourceCfg (s : State) (n : Nat) : IrqSourceBody :=
  (tget s.cfg.irqSource n).getD { source := n, priority := 0, target := 0x20, modTime := 0, sourceFlags := 0 }

/-- A vanish is counted at the claim (R276). -/
def countVanish (t : Nat) (s : State) : State :=
  let x := target s t
  match x.withdrawn with
  | none => s
  | some n => tally (irqVanishCtr n) (putTarget t { x with withdrawn := none, vanish := (x.vanish + 1) % 2 ^ 32 } s)

/-- Take the presented source `n` (R274). -/
def takeSource (t n : Nat) (s : State) : State :=
  let b := sourceCfg s n
  let x := target s t
  let s1 := putTarget t { x with presented := none, stack := (n, b.priority) :: x.stack, wakeReq := false, irqOut := false } s
  let s2 := { s1 with jic := { s1.jic with kept := tdel s1.jic.kept n, stay := tdel s1.jic.stay n
                                           modDue := if b.modTime = 0 then s1.jic.modDue
                                             else tput s1.jic.modDue n (s1.tsu.now + nsUp b.modTime) } }
  if isEventSource n then clearEvent n s2 else s2

/-- CLAIM (R274, Table 11-4). -/
def claimRead (t : Nat) (s : State) : State :=
  let s1 := countVanish t s
  match (target s1 t).presented with
  | some (n, _) => sypOk ((sourceCfg s1 n).priority * 4096 + n) (takeSource t n s1)
  | none => sypOk 0xFFF (tally (irqClaimsEmptyCtr t) s1)

/-- COMPLETE (R277), or its refusal (R278). -/
def completeWrite (t n : Nat) (s : State) : State :=
  let x := target s t
  let fault := fun (top : Nat) =>
    errorAt 0x0C 0x0C02 t sevMinor clsInput n top
      (raiseEvent 0xFE0 (tally (irqCompleteFaultsCtr t)
        (sypOk 0 { s with jic := { s.jic with fault := some (t, n, top) } })))
  match x.stack with
  | (m, _) :: r => if m = n then putTarget t { x with stack := r } (sypOk 0 s) else fault m
  | [] => fault 0xFFF

/-! ## Enables and software sources (R272, R273, R279) -/

/-- The source may be routed to the target. -/
def mayRoute (s : State) (t n : Nat) : Bool :=
  match tget s.cfg.irqSource n with
  | none => false
  | some b =>
    if bit b.sourceFlags 1 then
      (match tget s.cfg.irqTarget b.target, tget s.cfg.irqTarget t with
       | some x, some y => x.accessId = y.accessId
       | _, _ => false)
    else b.target = t

/-- An ignored write (R272). -/
def ignoredWrite (t n : Nat) (s : State) : State :=
  errorAt 0x0C 0x0C01 t sevNote clsInput n 0 (tally (irqWritesIgnoredCtr t) (sypOk 0 s))

/-- ENABLE_CLEAR: a source latched at most 4 ccyc ago stays presented (R279). -/
def enableClear (n : Nat) (s : State) : State :=
  let s1 := { s with jic := { s.jic with enable := tdel s.jic.enable n } }
  let fresh := s.jic.targets.any (fun t => t.2.presented.any (fun q => q.1 = n && s.tsu.now ≤ q.2 + 4))
  if fresh then { s1 with jic := { s1.jic with kept := tput s1.jic.kept n true } }
  else
    { s1 with jic := { s1.jic with
        kept := tdel s1.jic.kept n
        targets := tmap s1.jic.targets (fun _ x =>
          if x.presented.any (fun q => q.1 = n) then { x with presented := none, wakeReq := false } else x)
        stay := tdel s1.jic.stay n } }

/-- A write to one of the four set and clear addresses. -/
def sourceWrite (t n : Nat) (soft : Bool) (f : State → State) (s : State) : State :=
  if mayRoute s t n ∧ (soft = false ∨ (0xF00 ≤ n ∧ n ≤ 0xFDF)) then f (sypOk 0 s) else ignoredWrite t n s

def enableSet (n : Nat) (s : State) : State :=
  { s with jic := { s.jic with enable := tput s.jic.enable n true, kept := tdel s.jic.kept n } }

def softWrite (n : Nat) (b : Bool) (s : State) : State := { s with jic := { s.jic with soft := tput s.jic.soft n b } }

/-! ## Happenings -/

/-- IRQ_MODERATION_EXPIRY (R281): the source's timer has run out. -/
def moderationExpiry (n : Nat) (s : State) : State :=
  if tgetD s.jic.modDue n 0 ≤ s.tsu.now then { s with jic := { s.jic with modDue := tdel s.jic.modDue n } } else s

/-- TGT_STATE_CHANGE (R282): 0b11 is taken as ACTIVE and recorded. -/
def tgtState (t : Nat) (v : BitVec 2) (s : State) : State :=
  if clocked s = false ∨ 32 ≤ t then s
  else
    let v1 : BitVec 2 := if v = 3 then 0 else v
    let x := target s t
    let s1 := putTarget t { x with state := v1, wakeReq := v1 = 2 && x.presented.isSome && x.irqOut } s
    if v = 3 then errorAt 0x0C 0x0C01 t sevNote clsInput 3 0 s1 else s1

/-! ## Group 0x09 -/

def opIrqSourceSet (b : IrqSourceBody) : Op :=
  { opcode := 0x0901, kind := .s, auth := .o
    body := [(2, b.source), (1, b.priority), (1, b.target), (4, b.modTime), (1, b.sourceFlags.toNat)]
    rsvZero := field b.sourceFlags 7 3 = 0
    ranges := [(0, b.source ≤ 0xFDF), (2, b.priority ≤ 15), (3, b.target ≤ 0x20),
      (4, b.modTime = 0 || (100 ≤ b.modTime && b.modTime ≤ 100000000))]
    edit := some (.irqSource b) }

def opIrqTargetSet (b : IrqTargetBody) : Op :=
  { opcode := 0x0902, kind := .s, auth := .o, body := [(1, b.target), (2, b.accessId), (1, b.threshold)]
    ranges := [(0, b.target ≤ 31), (1, b.accessId ≤ 4095), (3, b.threshold ≤ 15)]
    edit := some (.irqTarget b) }

/-- Reply of IRQ_STATE_GET (R280): byte i of STACK is entry i from the bottom. -/
def irqReply (x : TgtSt) : Fields :=
  let l := x.stack.reverse.map (fun e => ((1, e.2) : Nat × Nat))
  [(1, x.stack.length)] ++ l ++ List.replicate (16 - l.length) (1, 0xFF) ++ [(4, x.vanish)]

def opIrqStateGet (t : Nat) : Op :=
  { opcode := 0x0903, kind := .q, auth := .o, body := [(1, t)], ranges := [(0, t ≤ 31)]
    run := fun _ s => { state := s, body := irqReply (target s t) } }

def execIrqSourceSet (z : Zelgen) (b : IrqSourceBody) (s : State) : Result := command (opIrqSourceSet b) z s
def execIrqTargetSet (z : Zelgen) (b : IrqTargetBody) (s : State) : Result := command (opIrqTargetSet b) z s
def execIrqStateGet (z : Zelgen) (target : Nat) (s : State) : Result := command (opIrqStateGet target) z s
def execClaim (dt accessId target : Nat) (s : State) : Result := happen dt (atTarget accessId target (claimRead target)) s
def execComplete (dt accessId target source : Nat) (s : State) : Result :=
  happen dt (atTarget accessId target (completeWrite target (source % 4096))) s
def execEnableSet (dt accessId target source : Nat) (s : State) : Result :=
  happen dt (atTarget accessId target (sourceWrite target (source % 4096) false (enableSet (source % 4096)))) s
def execEnableClear (dt accessId target source : Nat) (s : State) : Result :=
  happen dt (atTarget accessId target (sourceWrite target (source % 4096) false (enableClear (source % 4096)))) s
def execSoftSet (dt accessId target source : Nat) (s : State) : Result :=
  happen dt (atTarget accessId target (sourceWrite target (source % 4096) true (softWrite (source % 4096) true))) s
def execSoftClear (dt accessId target source : Nat) (s : State) : Result :=
  happen dt (atTarget accessId target (sourceWrite target (source % 4096) true (softWrite (source % 4096) false))) s
def execIrqModerationExpiry (dt source : Nat) (s : State) : Result := happen dt (moderationExpiry source) s
def execTgtStateChange (dt target : Nat) (state : BitVec 2) (s : State) : Result := happen dt (tgtState target state) s

end Sys2Proof.Machine
end

