-- ==== Sys2Proof/Machine/Telemetry.lean ====
section
/-! DEFINITION. Group 0x0A and the readers of the counters (12): COUNTERS_GET, counter windows, batts (R294 to R298), queue
sweeps (R302). -/
namespace Sys2Proof.Machine

/-! ## Counter windows (R292, R293) -/

def winKey (w k : Nat) : Nat := w * 2 ^ 48 + k

/-- Group code and BLOCK of a CONTENT. -/
def contentCode (c : BitVec 16) : Nat := field c 15 12
def contentBlock (c : BitVec 16) : Nat := field c 11 0

/-- First instance that a window shows. -/
def contentFirst (c : BitVec 16) : Nat := contentBlock c * (65536 / strideOf (contentCode c))

/-- Read a word and move its baseline: the total as this ccyc found it, so that an increment of the same ccyc is kept for the next
read (R10, Table 0-4). -/
def takeWord (w k code : Nat) (s : State) : Nat × State :=
  let t := tgetD s.tel.ctrWas k 0
  (readerWord code t (tgetD s.tel.winBase (winKey w k) 0),
   { s with tel := { s.tel with winBase := tput s.tel.winBase (winKey w k) t } })

/-- A read of SLOT_TOTAL latches the increments of the four classes of the port (R293). -/
def latchSlots (w p : Nat) (s : State) : State :=
  let step := fun (a : List Nat × State) (i : Nat) =>
    let (v, b) := takeWord w (ctrKey 0x02 p i) 0x02 a.2
    (a.1 ++ [v], b)
  let (l, s1) := [1, 2, 3, 4].foldl step ([], s)
  { s1 with tel := { s1.tel with winLatch := tput s1.tel.winLatch (w * 2 ^ 16 + p) l } }

/-- The word of a window at an offset. -/
def windowWord (w off : Nat) (c : BitVec 16) (s : State) : Nat × State :=
  let code := contentCode c
  let idx := contentFirst c + off / strideOf code
  let word := off % strideOf code / 8
  if indexCount code ≤ idx then (0, s)
  else if code = 0x02 ∧ 1 ≤ word ∧ word ≤ 4 then ((tgetD s.tel.winLatch (w * 2 ^ 16 + idx) [])[word - 1]?.getD 0, s)
  else
    let (v, s1) := takeWord w (ctrKey code idx word) code s
    (v, if code = 0x02 ∧ word = 0 then latchSlots w idx s1 else s1)

/-- COUNTER_WINDOW_READ. -/
def windowRead (id w off width : Nat) (s : State) : State :=
  if clocked s = false then s
  else if 256 ≤ w then denied id vioUnmapped false s
  else
    match tget s.cfg.window w with
    | none => denied id vioWindow false s
    | some b =>
      if b.accessId ≠ id then denied id vioWindow false s
      else if accFrozen s id ∨ s.mode.stage = .boot ∨ s.mode.zeroized then sypError s
      else if width ≠ 8 ∨ off % 8 ≠ 0 ∨ 65536 ≤ off then tally windowBadReadsCtr (sypError s)
      else let (v, s1) := windowWord w off b.content s
           sypOk v s1

/-! ## Batts (R294 to R298) -/

/-- A timed commit takes effect within 63 ccyc (R295). -/
def commitNear (s : State) : Bool :=
  match s.cpx.staged.sealed with
  | some t => decide ((ofTime t : Int) ≤ timeAhead s 63)
  | none => false

/-- BATT_TRIGGER (R294, R295). -/
def battTrigger (s : State) : State :=
  match s.cfg.batt with
  | none => s
  | some b =>
    if clocked s = false ∨ b.contentMask = 0 ∨ s.tsu.tick < s.tel.battNext then s
    else
      let p := max 1 (b.period * 100)
      let s1 := { s with tel := { s.tel with battNext := (s.tsu.tick / p + 1) * p } }
      if s.tel.battBusy.isSome ∨ accFrozen s b.accessId then
        { s1 with tel := { s1.tel with battMissed := s1.tel.battMissed + 1 } }
      else if commitNear s then { s1 with tel := { s1.tel with battHold := true } }
      else battSnapshot b s1

/-- A snapshot that waited for a commit is taken at the commit's ccyc, after it (R295). -/
def battAtCommit (s : State) : State :=
  match s.cfg.batt with
  | some b => if s.tel.battHold then battSnapshot b s else s
  | none => { s with tel := { s.tel with battHold := false } }

/-- BATT_WRITE_DONE (R298): the body has been answered, at 16 GB/s at the most, which is 10 bytes a ccyc; the header is written and
answered. -/
def battDone (s : State) : State :=
  match s.tel.battBusy with
  | none => s
  | some r =>
    if clocked s = false ∨ r.next ≤ 32 ∨ s.tsu.now < r.t0 + battLen r.mask / 10 then s
    else
      let base := r.totals.foldl (fun a e => tput a e.1 e.2) s.tel.battBase
      let slots := match s.cfg.batt with | some b => max 1 (battSlots b) | none => 1
      let inPlace : Bool := match s.cfg.batt with
        | some b => r.addr = b.destAddr + s.tel.battSlot % slots * battSlotLen b.contentMask
        | none => true
      raiseEvent 0x897 (emit (.hostWrite r.accessId r.addr (battHeader r))
        { s with tel := { s.tel with battBusy := none, battBase := base, battSeq := (s.tel.battSeq + 1) % 2 ^ 32
                                     battSlot := if inPlace then (s.tel.battSlot + 1) % slots else s.tel.battSlot
                                     battT0 := some r.t0, battLost := r.lost
                                     battMissed := s.tel.battMissed - r.missed, battFailed := s.tel.battFailed - r.failed } })

/-- A write of the batt was answered with error, or not at all (R298). -/
def battFail (timeout : Bool) (s : State) : State :=
  if s.tel.battBusy.all (fun r => decide (r.next ≤ 32)) then s
  else
    errorAt 0x0D (if timeout then 0x0B02 else 0x0B01) 0 sevMinor (if timeout then clsTimeout else clsInput) 0 0
      { s with tel := { s.tel with battBusy := none, battFailed := s.tel.battFailed + 1 } }

/-! ## Queue sweeps (R188, R302) -/

/-- QUEUE_SWEEP: a sweep begins, and reads its first 64 leaves in this ccyc. -/
def queueSweep (s : State) : State :=
  match s.cfg.qsample with
  | none => s
  | some b =>
    if clocked s = false ∨ s.tsu.tick < s.tel.sweepNext then s
    else
      let p := max 1 (b.period * 100)
      let r : SweepRun := { epoch := s.cpx.epoch, ccyc := ccycCount s, time := s.tsu.time, base := b.queueMaskBase, count := b.count }
      sweepRead { s with tel := { s.tel with sweepRun := some r, sweepNext := (s.tsu.tick / p + 1) * p } }

/-! ## Group 0x0A -/

def opBattSet (b : BattBody) : Op :=
  { opcode := 0x0A01, kind := .s, auth := .o
    body := [(4, b.period), (8, b.destAddr), (4, b.destSize), (4, b.contentMask.toNat), (2, b.accessId)]
    rsvZero := field b.contentMask 31 18 = 0
    ranges := [(0, 1000 ≤ b.period && b.period ≤ 60000000), (4, b.destAddr % 4096 = 0), (20, b.accessId ≤ 4095)]
    edit := some (.batt b) }

def opCounterWindowSet (b : WindowBody) : Op :=
  { opcode := 0x0A02, kind := .s, auth := .o, body := [(1, b.window), (2, b.accessId), (2, b.content.toNat)]
    ranges := [(0, b.window ≤ 255), (1, b.accessId ≤ 4095), (3, contentFirst b.content < indexCount (contentCode b.content))]
    edit := some (.window b) }

def opSampleSet (b : SampleBody) : Op :=
  { opcode := 0x0A03, kind := .s, auth := .o, body := [(1, b.rateLog2), (1, b.spill)]
    ranges := [(0, b.rateLog2 = 0 || (4 ≤ b.rateLog2 && b.rateLog2 ≤ 30)), (1, b.spill ≤ 1)]
    edit := some (.sample b) }

def opQueueSampleSet (b : QueueSampleBody) : Op :=
  { opcode := 0x0A04, kind := .s, auth := .o, body := [(4, b.period), (4, b.queueMaskBase), (4, b.count)]
    ranges := [(0, 10 ≤ b.period && b.period ≤ 60000000), (4, b.queueMaskBase ≤ 262143),
      (8, 1 ≤ b.count && b.count ≤ 262144)]
    groups := (List.range 32).filter (fun g => b.queueMaskBase < 8192 * (g + 1) && 8192 * g < b.queueMaskBase + b.count)
    check := fun _ _ => need (b.queueMaskBase + b.count ≤ 262144) stOutOfRange 8
    edit := some (.queueSample b) }

def opEventModeSet (b : EventModeBody) : Op :=
  { opcode := 0x0A05, kind := .s, auth := .o, body := [(2, b.event), (1, b.edgeOrLevel)]
    ranges := [(0, 1 ≤ b.event && b.event ≤ 0x0A), (2, b.edgeOrLevel ≤ 1)]
    edit := some (.eventMode b) }

def opCountersGet (code index : Nat) : Op :=
  { opcode := 0x0A06, kind := .q, auth := .o, body := [(1, code), (4, index)]
    ranges := [(0, code ≤ 0x0F)]
    check := fun _ _ => need (index < indexCount code) stOutOfRange 1
    run := fun _ s => { state := s, body := (List.range (wordsOf code)).map (fun w =>
      (8, totalWord code (total s (ctrKey code index w)))) } }

def execBattSet (z : Zelgen) (b : BattBody) (s : State) : Result := command (opBattSet b) z s
def execCounterWindowSet (z : Zelgen) (b : WindowBody) (s : State) : Result := command (opCounterWindowSet b) z s
def execSampleSet (z : Zelgen) (b : SampleBody) (s : State) : Result := command (opSampleSet b) z s
def execQueueSampleSet (z : Zelgen) (b : QueueSampleBody) (s : State) : Result := command (opQueueSampleSet b) z s
def execEventModeSet (z : Zelgen) (b : EventModeBody) (s : State) : Result := command (opEventModeSet b) z s
def execCountersGet (z : Zelgen) (counterGroup index : Nat) (s : State) : Result := command (opCountersGet counterGroup index) z s
def execCounterWindowRead (dt accessId window offset width : Nat) (s : State) : Result :=
  happen dt (windowRead accessId window offset width) s
def execBattTrigger (dt : Nat) (s : State) : Result := happen dt battTrigger s
def execBattWriteDone (dt : Nat) (s : State) : Result := happen dt battDone s
def execQueueSweep (dt : Nat) (s : State) : Result := happen dt queueSweep s

end Sys2Proof.Machine
end

