-- ==== Sys2Proof/Machine/SideMemory.lean ====
section
/-! DEFINITION. The side memory controller (13): the map of ranks, refresh, retraining, failing ranks and migration, SMC_SET,
RANK_MIGRATE, SMC_STATE_GET. -/
namespace Sys2Proof.Machine

/-! ## The map (R306 to R309) -/

/-- RANKS as committed; never written it is 0. -/
def ranksCfg (cfg : Cfg) : BitVec 8 := match cfg.smc with | some b => b.ranks | none => 0

/-- The order of R308. -/
def rankOrder : List Nat := [0, 2, 4, 6, 1, 3, 5, 7]

/-- Fitted and in use. -/
def rankUsed (cfg : Cfg) (r : Nat) : Bool := r % 2 = 0 || (Config.secondRank && bit (ranksCfg cfg) 0)

/-- The rank that EXCLUDE names. -/
def rankExcluded (cfg : Cfg) (r : Nat) : Bool := bit (ranksCfg cfg) 3 && field (ranksCfg cfg) 6 4 = r

/-- Ranks neither absent nor excluded, in order. -/
def rankCands (cfg : Cfg) : List Nat := rankOrder.filter (fun r => rankUsed cfg r && !rankExcluded cfg r)

/-- The spare. -/
def spareOf (cfg : Cfg) : Option Nat := if bit (ranksCfg cfg) 1 then (rankCands cfg).getLast? else none

/-- RANK_TABLE (R308). -/
def rankTable (cfg : Cfg) : List Nat := (rankCands cfg).filter (fun r => some r ≠ spareOf cfg)

/-- RANK_STATE of a rank as the map is built. -/
def rankStart (cfg : Cfg) (r : Nat) : RankSt :=
  if rankUsed cfg r = false then .absent
  else if rankExcluded cfg r then .excluded
  else if spareOf cfg = some r then .spare else .inService

/-- Side memory starts: the map is built and the zero-fill begins (R306, R328). -/
def startMemory (rate : Nat) (s : State) : State :=
  let m := s.smc
  { s with smc := { m with
      present := true, filled := false, lost := false, noSpare := false, rankSize := 2 ^ 30 * 2 ^ Config.rankSizeCode.val
      dataRate := rate, table := rankTable s.cfg, mem := [], poison := [], migration := none, throttle := []
      ranks := (List.range 8).map (fun r => (r, { rankOf s r with state := rankStart s.cfg r, failing := false, ueRows := [] }))
      chans := (List.range 4).map (fun c => (c, { chanOf s c with state := if (chanOf s c).failed then .outOfService else .init })) } }

/-! ## XDMA channels stop when side memory goes (R353) -/

/-- A stopping channel with no descriptor left in progress is IDLE; the stop is answered. -/
def finishStop (c : Nat) (s : State) : State :=
  let x := xchan s c
  if x.state ≠ .stopping ∨ x.begun ≠ [] then s
  else
    let s1 := raiseEvent (0x870 + c) (putX c { x with state := .idle, stop := none, stopOf := false } s)
    match x.stop with
    | some ctx => answer ctx stOk 0 [(8, x.cur)] s1
    | none => s1

/-- Every running channel stops as under XDMA_STOP. -/
def stopRunning (s : State) : State :=
  s.xdma.foldl (fun a e =>
    if e.2.state = .running then finishStop e.1 (putX e.1 { xchan a e.1 with state := .stopping, stopOf := true } a) else a) s

/-- A change of side memory that may take it out of service. -/
def smcChange (f : State → State) (s : State) : State :=
  let s1 := f s
  if smcUp s && !smcUp s1 then stopRunning s1 else s1

/-! ## BOOT (R306) -/

def zeroFillDone (s : State) : State :=
  if clocked s = false ∨ s.smc.present = false ∨ s.smc.filled then s
  else
    { s with smc := { s.smc with filled := true, chans := tmap s.smc.chans (fun _ c =>
        if c.state = .init then { c with state := .inService } else c) } }

def dfiTimeout (c : Nat) (s : State) : State :=
  if clocked s = false ∨ s.smc.present = false ∨ s.smc.filled ∨ (chanOf s c).state ≠ .init ∨ s.tsu.now < ms 10 then s
  else
    { s with smc := { s.smc with present := false, table := []
                                 chans := tmap s.smc.chans (fun _ c => { c with state := .absent })
                                 ranks := tmap s.smc.ranks (fun _ r => { r with state := .absent }) } }

def throttleExpiry (c rank bank q : Nat) (s : State) : State :=
  let k := q * 65536 + (c * 2 + rank) * 256 + bank
  match tget s.smc.throttle k with
  | some t => if t ≤ s.tsu.now then { s with smc := { s.smc with throttle := tdel s.smc.throttle k } } else s
  | none => s

/-! ## Refresh and training (R315 to R317, R321 to R323) -/

/-- FRC's effective urgency is 2 or 3 (R315, R317). -/
def frcUrgent (s : State) : Bool :=
  65536 ≤ staging s ||
    s.frc.regions.any (fun r => match r.2.inFlight with | (t, _) :: _ => decide (3 * latTarget s 0 ≤ 4 * (s.tsu.now - t)) | [] => false)

/-- REFRESH_DUE (R316, R317): while nothing is owed and the rank idles, up to 8 intervals are pulled in, how many is SMC's (log 18); an
interval pulled in is not postponed. -/
def refreshDue (c rank : Nat) (s : State) : State :=
  let r := c * 2 + rank
  let x := rankOf s r
  if clocked s = false ∨ smcUp s = false ∨ x.state = .absent ∨ x.selfRefresh then s
  else
    let sent := fun (b : State) => emit (.dfi c rank .refresh) b
    let done := fun (y : RankInfo) => { y with acts := [], raa := tmap y.raa (fun _ n => n - Config.raaDecrement) }
    let x1 := { x with hits := [], used := false }
    let ch := chanOf s c
    if frcUrgent s = false then
      sent (putRank r (done { x1 with
        owed := x.owed - 1
        ahead := if x.owed = 0 ∧ x.used = false then min 8 (x.ahead + Config.pulledIn s.tsu.now) else x.ahead }) s)
    else if 0 < x.ahead then putRank r { x1 with ahead := x.ahead - 1 } s
    else if x.owed + 1 < 9 then
      putChan c { ch with owedMax := max ch.owedMax (x.owed + 1) } (putRank r { x1 with owed := x.owed + 1 } s)
    else putChan c { ch with owedMax := 9, refForced := ch.refForced + 1 } (sent (putRank r (done { x1 with owed := 0 }) s))

def mr4Poll (c code : Nat) (s : State) : State := if clocked s then putChan c { chanOf s c with mr4 := code % 256 } s else s

def selfRefreshEntry (c rank : Nat) (s : State) : State :=
  let r := c * 2 + rank
  let x := rankOf s r
  if clocked s = false ∨ smcUp s = false ∨ x.owed ≠ 0 ∨ s.tsu.now < x.lastUse + us 10 then s
  else emit (.dfi c rank (.selfRefresh true)) (putRank r { x with selfRefresh := true } s)

/-- RETRAIN_WINDOW (R322): none while a rank of the channel owes 4 intervals (R317). -/
def retrainWindow (c : Nat) (s : State) : State :=
  let ch := chanOf s c
  if clocked s = false ∨ smcUp s = false ∨ s.tsu.now < ch.windowAt + ms 100 ∨ 4 ≤ (rankOf s (c * 2)).owed ∨
      4 ≤ (rankOf s (c * 2 + 1)).owed then s
  else putChan c { ch with windowAt := s.tsu.now } s

/-- PHY_UPDATE_REQUEST (R322): one longer than 2,000 ns waits for MAINTENANCE. -/
def phyUpdate (c lenNs waitedNs : Nat) (s : State) : State :=
  if clocked s = false ∨ s.smc.present = false then s
  else if lenNs ≤ 2000 ∨ modeCode s = 8 then putChan c { chanOf s c with phyLate := false } s
  else
    let s1 := putChan c { chanOf s c with phyLate := true } s
    if 100000000 ≤ waitedNs then smcError (c * 2) 0x0E01 sevMinor clsInput lenNs 0 s1 else s1

/-- CHANNEL_FULL_RETRAIN (R323). -/
def fullRetrain (c : Nat) (s : State) : State :=
  let ch := chanOf s c
  if clocked s = false ∨ s.smc.filled = false ∨ (ch.state ≠ .inService ∧ ch.state ≠ .migrating) then s
  else smcChange (putChan c { ch with state := .training }) s

/-- The channel carries a rank of the migration. -/
def migratingHere (s : State) (c : Nat) : Bool := s.smc.migration.any (fun m => m.src / 2 = c || m.dst / 2 = c)

/-- After a DATA_RATE change the channels retrain one at a time (R328): the next one in service starts. -/
def nextRetrain (l : List Nat) (s : State) : State :=
  match l with
  | [] => { s with smc := { s.smc with retrain := [] } }
  | c :: r =>
    if (chanOf s c).state = .inService ∨ (chanOf s c).state = .migrating then
      fullRetrain c { s with smc := { s.smc with retrain := r } }
    else nextRetrain r s

/-- CHANNEL_RETRAIN_DONE (R323): a failure lasts until the next BOOT. -/
def retrainDone (c : Nat) (ok : Bool) (s : State) : State :=
  let ch := chanOf s c
  if clocked s = false ∨ ch.state ≠ .training then s
  else
    let s1 := if ok then putChan c { ch with state := if migratingHere s c then .migrating else .inService, phyLate := false } s
      else putChan c { ch with state := .outOfService, failed := true } s
    nextRetrain s1.smc.retrain s1

/-! ## Failing ranks and migration (R324 to R327) -/

/-- Set the state of a channel that is in service or migrating. -/
def markChan (c : Nat) (x : ChanSt) (s : State) : State :=
  let ch := chanOf s c
  if ch.state = .inService ∨ ch.state = .migrating then putChan c { ch with state := x } s else s

/-- A spare that no migration has used up. -/
def spareLeft (s : State) : Option Nat := (s.smc.ranks.find? (fun r => r.2.state = .spare || r.2.state = .migratingTo)).map (·.1)

/-- A migration of rank `r` to the spare starts. -/
def startMigration (r sp : Nat) (s : State) : State :=
  let l := s.smc.table.findIdx (fun x => x = r)
  let s1 := putRank sp { rankOf s sp with state := .migratingTo } (putRank r { rankOf s r with state := .migratingFrom, failing := true } s)
  markChan (r / 2) .migrating (markChan (sp / 2) .migrating
    { s1 with smc := { s1.smc with migration := some { logical := l, src := r, dst := sp } } })

/-- Side memory is out of service until a commit excludes the rank (R326). -/
def loseMemory (s : State) : State :=
  smcChange (fun a => { a with smc := { a.smc with lost := true, noSpare := a.smc.noSpare || bit (ranksCfg a.cfg) 1 } }) s

/-- Rank `r` is found failing (R324, R326); `gen` is 1 where an error of this ccyc finds it so. -/
def failRank (gen r : Nat) (s : State) : State :=
  let x := rankOf s r
  if x.failing then s
  else
    let s1 := putRank r { x with failing := true } s
    match s1.smc.migration with
    | some m =>
      if m.dst = r then
        let s2 := putRank m.src { rankOf s1 m.src with state := .inService } (putRank r { rankOf s1 r with state := .retired } s1)
        loseMemory (smcError r 0x0E06 sevCritical clsInternal 0 0 (markChan (m.src / 2) .inService (markChan (r / 2) .inService
          { s2 with smc := { s2.smc with migration := none } })) gen)
      else loseMemory (smcError r 0x0E05 sevMajor clsInternal 0 0 s1 gen)
    | none =>
      let s2 := smcError r 0x0E05 sevMajor clsInternal 0 0 s1 gen
      match spareLeft s2 with
      | some sp => if bit (ranksCfg s2.cfg) 2 then startMigration r sp s2 else s2
      | none => loseMemory s2

/-- An uncorrectable read of an address (R311): counted and recorded; two rows within 24 h make the rank fail (R324). -/
def uncorrectable (injected : Bool) (a : Nat) (s : State) : State :=
  let l := locate s a
  let x := rankOf s l.1
  let rows := x.ueRows.filter (fun e => s.tsu.now < e.2 + secs 86400)
  let s1 := errorWith injected 0 0x0E 0x0E02 l.1 sevMajor clsInternal a (locationCode l)
    (putRank l.1 { x with ue := x.ue + 1, ueRows := (l.2.2, s.tsu.now) :: rows } s)
  if rows.any (fun e => e.1 ≠ l.2.2) then failRank 1 l.1 s1 else s1

/-- A corrected error (R311); more than 10,000 in one second make the rank fail. -/
def corrected (a : Nat) (s : State) : State :=
  let l := locate s a
  let x := rankOf s l.1
  let n := if x.ceTimes.1 = s.tsu.now / secs 1 then x.ceTimes.2 + 1 else 1
  let s1 := putRank l.1 { x with ce := x.ce + 1, ceTimes := (s.tsu.now / secs 1, n) } s
  if 10000 < n then failRank 0 l.1 s1 else s1

/-- SCRUB_READ (R312). A poisoned granule reads as uncorrectable (R310). The pouncer's SMC_ECC makes it return ARG's error (Table 16-4). -/
def scrubRead (a : Nat) (e : EccResult) (s : State) : State :=
  if clocked s = false ∨ smcUp s = false ∨ capacity s ≤ a then s
  else
    let e := if a / 512 ∈ s.smc.poison then .uncorrectable else e
    match pounceFires 9 ((locate s a).1 / 2) (touch 3 a none s) with
    | (some arg, s1) => if arg % 2 = 1 then uncorrectable true a s1 else corrected a s1
    | (none, s1) =>
      match e with
      | .clean => s1
      | .corrected => corrected a s1
      | .uncorrectable => uncorrectable false a s1

/-- A granule of the source rank, by in-rank number, reads uncorrectable in a migration: counted and recorded, and written to the spare
with the poison pattern (R310, R325). -/
def poisonCopy (m : Migration) (o : Nat) (s : State) : State :=
  let g := o * max 1 s.smc.table.length + m.logical
  let x := rankOf s m.src
  errorAt 0x0E 0x0E02 m.src sevMajor clsInternal (g * 512) (locationCode (m.src, o / 4 % 16, o / 64))
    (putRank m.src { x with ue := x.ue + 1 } { s with smc := { s.smc with poison := g :: s.smc.poison.filter (fun y => y ≠ g) } })

/-- RANK_MIGRATION_COMPLETE (R325): `bad` are the granules, by in-rank number, that read uncorrectable. -/
def migrationComplete (bad : List Nat) (s : State) : State :=
  match s.smc.migration with
  | none => s
  | some m =>
    if clocked s = false then s
    else
      let s0 := (bad.filter (fun o => decide (o < rankGranules s))).foldl (fun a o => poisonCopy m o a) s
      let s1 := putRank m.dst { rankOf s0 m.dst with state := .inService } (putRank m.src { rankOf s0 m.src with state := .retired } s0)
      let s2 := { s1 with smc := { s1.smc with table := s1.smc.table.set m.logical m.dst, migration := none, noSpare := true } }
      let done := fun (c : Nat) (a : State) => markChan c .inService (putChan c { chanOf a c with migrated := rankGranules a } a)
      raiseEvent 0x895 (done (m.src / 2) (done (m.dst / 2) s2))

/-! ## Commands -/

def opSmcSet (b : SmcSetBody) : Op :=
  { opcode := 0x0B01, kind := .s, auth := .o
    body := [(1, b.dataRate), (1, b.ranks.toNat)] ++ b.qosTargets.flatMap (fun t => [(2, t.latTarget), (1, t.share), (1, t.rsv)])
    rsvZero := !bit b.ranks 7 && b.qosTargets.all (fun t => t.rsv = 0)
    ranges := [(0, 1 ≤ b.dataRate && b.dataRate ≤ 5), (1, !bit b.ranks 1 || bit b.ranks 0)]
    edit := some (.smc b) }

def opRankMigrate (c rank : Nat) : Op :=
  { opcode := 0x0B02, kind := .p, auth := .o, body := [(1, c), (1, rank)]
    check := fun _ s => firstOf
      [param (c ≤ 3) 0, param (rank ≤ 1) 1,
       param ((rankOf s (c * 2 + rank)).state = .inService || (rankOf s (c * 2 + rank)).state = .migratingFrom) 0,
       need (spareLeft s).isSome stNoResource, need s.smc.migration.isNone stBusy]
    run := fun _ s =>
      { state := match spareLeft s with | some sp => startMigration (c * 2 + rank) sp s | none => s
        status := stPending } }

def chanCode : ChanSt → Nat
  | .absent => 0 | .init => 1 | .inService => 2 | .training => 3 | .migrating => 4 | .outOfService => 5

def rankCode : RankSt → Nat
  | .absent => 0 | .inService => 1 | .spare => 2 | .migratingFrom => 3 | .migratingTo => 4 | .retired => 5 | .excluded => 6

/-- Reply of SMC_STATE_GET (Table 13-6). -/
def smcReply (s : State) (c : Nat) : Fields :=
  let ch := chanOf s c
  let a := rankOf s (c * 2)
  let b := rankOf s (c * 2 + 1)
  [(1, chanCode ch.state), (1, rankCode a.state), (1, rankCode b.state), (1, s.smc.dataRate),
   (4, if migratingHere s c then migratePointer s else ch.migrated), (8, a.ce), (8, b.ce), (8, a.ue), (8, b.ue),
   (8, ch.refForced), (8, ch.rfm), (4, ch.hammers), (2, ch.late), (1, ch.mr4), (1, ch.owedMax)]

def opSmcStateGet (c : Nat) : Op :=
  { opcode := 0x0B08, kind := .q, auth := .o, body := [(1, c)], ranges := [(0, c ≤ 3)]
    run := fun _ s => { state := s, body := smcReply s c } }

def execSmcSet (z : Zelgen) (b : SmcSetBody) (s : State) : Result := command (opSmcSet b) z s
def execRankMigrate (z : Zelgen) (channel rank : Nat) (s : State) : Result := command (opRankMigrate channel rank) z s
def execSmcStateGet (z : Zelgen) (channel : Nat) (s : State) : Result := command (opSmcStateGet channel) z s
def execSmcZeroFillDone (dt : Nat) (s : State) : Result := happen dt zeroFillDone s
def execDfiInitTimeout (dt channel : Nat) (s : State) : Result := happen dt (dfiTimeout channel) s
def execRefreshDue (dt channel rank : Nat) (s : State) : Result := happen dt (refreshDue channel rank) s
def execMr4Poll (dt channel _rank code : Nat) (s : State) : Result := happen dt (mr4Poll channel code) s
def execSelfRefreshEntry (dt channel rank : Nat) (s : State) : Result := happen dt (selfRefreshEntry channel rank) s
def execRetrainWindow (dt channel : Nat) (s : State) : Result := happen dt (retrainWindow channel) s
def execPhyUpdateRequest (dt channel lenNs waitedNs : Nat) (s : State) : Result := happen dt (phyUpdate channel lenNs waitedNs) s
def execChannelFullRetrain (dt channel : Nat) (s : State) : Result := happen dt (fullRetrain channel) s
def execChannelRetrainDone (dt channel : Nat) (ok : Bool) (s : State) : Result := happen dt (retrainDone channel ok) s
def execScrubRead (dt address : Nat) (ecc : EccResult) (s : State) : Result := happen dt (scrubRead address ecc) s
def execRankMigrationComplete (dt : Nat) (s : State) (bad : List Nat := []) : Result := happen dt (migrationComplete bad) s
def execHammerThrottleExpiry (dt channel rank bank requester : Nat) (s : State) : Result :=
  happen dt (throttleExpiry channel rank bank requester) s

end Sys2Proof.Machine
end

