-- ==== Sys2Proof/Machine/Recorder.lean ====
section
/-! DEFINITION. The flight recorder's regions (14 R337 to R340) and the export DMA channels (R347 to R355). -/
namespace Sys2Proof.Machine

def mib : Nat := 1048576

/-! ## Regions (R337, R338) -/

def opFrcRegionSet (b : FrcRegionBody) : Op :=
  { opcode := 0x0B03, kind := .s, auth := .o
    body := [(1, b.region), (8, b.base), (8, b.size), (1, b.regionMode), (4, b.content.toNat)]
    rsvZero := field b.content 15 6 = 0 && field b.content 31 24 = 0
    ranges := [(0, b.region ≤ 15), (1, b.base % mib = 0), (9, mib ≤ b.size && b.size % mib = 0), (17, b.regionMode ≤ 1)]
    edit := some (.frcRegion b) }

/-- FRC_CONTROL is accepted in this state of the region (R338). -/
def controlAllowed (g : Region) (action : Nat) : Bool :=
  g.stopping.isNone &&
  (match action with
   | 0 => g.state = .recording || g.state = .full || g.state = .error
   | _ => g.state = .stopped)

/-- Start, stop or clear a region (R338). -/
def controlRegion (n action : Nat) (ctx : ReplyCtx) (s : State) : Done :=
  let g := regionOf s n
  match action with
  | 0 => { state := putRegion n { closeGranule s.tsu.now g with stopping := some ctx } s, later := true }
  | 1 => { state := eventRecord 0x000C (lsbBytes 1 n ++ lsbBytes 1 1) (putRegion n { g with state := .recording } s) }
  | _ => { state := putRegion n { g with writePtr := 0, wraps := 0 } s }

def opFrcControl (n action : Nat) : Op :=
  { opcode := 0x0B04, kind := .i, auth := .o, body := [(1, n), (1, action)], ranges := [(0, n ≤ 15), (1, action ≤ 2)]
    check := fun _ s => param (controlAllowed (regionOf s n) action) 0
    run := fun ctx s => controlRegion n action ctx s }

/-! ## Granules (R339, R340) -/

/-- FRC_GRANULE_FLUSH: a partly filled granule goes out 50 µs after its first record (R340). -/
def granuleFlush (n : Nat) (s : State) : State :=
  let g := regionOf s n
  if clocked s = false ∨ g.state ≠ .recording ∨ g.granule = [] ∨ s.tsu.now < g.granuleAt + us 50 then s
  else putRegion n (closeGranule s.tsu.now g) s

/-- WRITE_PTR, WRAPS and the state after a granule write (R339). -/
def advancePtr (b : FrcRegionBody) (g : Region) : Region :=
  let g1 := if g.wraps = 0 then g else { g with overwritten := g.overwritten + 1 }
  if g.writePtr + 512 < b.size then { g1 with writePtr := g.writePtr + 512 }
  else if b.regionMode = 0 then { g1 with writePtr := 0, wraps := g.wraps + 1 }
  else { g1 with writePtr := b.size, state := .full }

/-- FRC_GRANULE_WRITE_DONE (R339, R340): the oldest granule of the region is answered. -/
def granuleDone (n : Nat) (ok : Bool) (s : State) : State :=
  let g := regionOf s n
  match tget s.cfg.frc n, g.inFlight with
  | some b, (_, bytes) :: rest =>
    let a := b.base + g.writePtr
    if clocked s = false ∨ (g.state ≠ .recording ∧ g.stopping.isNone) ∨ (ok ∧ smcUp s = false) then s
    else if ok then
      let g1 := advancePtr b { g with inFlight := rest }
      let s1 := touch 0 a (some bytes) s
      let mem := memWrites s1.smc.mem a bytes
      let poison := s1.smc.poison.filter (fun y => y ≠ a / 512)
      let s2 := putRegion n g1 { s1 with smc := { s1.smc with mem := mem, poison := poison } }
      if g1.writePtr = g.writePtr + 512 ∧ g1.state ≠ .full then s2 else raiseEvent (0x880 + n) s2
    else
      raiseEvent (0x880 + n) (errorAt 0x0F 0x0F03 n sevMajor clsInternal a 0
        (putRegion n { g with inFlight := rest, state := .error } s))
  | _, _ => s

/-- FRC_REGION_STOP_DONE: every granule is answered, the region is STOPPED and the reply is sent (R338). -/
def regionStopDone (n : Nat) (s : State) : State :=
  let g := regionOf s n
  match g.stopping with
  | none => s
  | some ctx =>
    if clocked s = false ∨ g.inFlight ≠ [] then s
    else answer ctx stOk 0 [] (eventRecord 0x000C (lsbBytes 1 n ++ lsbBytes 1 0)
      (putRegion n { g with state := .stopped, stopping := none } s))

/-! ## Export DMA: commands (R347, R353) -/

def opXdmaChannelSet (b : XdmaChannelBody) : Op :=
  { opcode := 0x0B05, kind := .s, auth := .o
    body := [(1, b.channel), (2, b.accessId), (1, b.busShare), (8, b.descAddr)]
    ranges := [(0, b.channel ≤ 15), (1, b.accessId ≤ 4095), (3, 1 ≤ b.busShare && b.busShare ≤ 255),
      (4, b.descAddr ≠ 0 && b.descAddr % 64 = 0)]
    edit := some (.xdma b) }

def opXdmaStart (c : Nat) : Op :=
  { opcode := 0x0B06, kind := .p, auth := .o, body := [(1, c)], ranges := [(0, c ≤ 15)]
    check := fun _ s => match (xchan s c).state with
      | .idle => need (smcUp s) stBusy
      | .running | .stopping => some (stBusy, 0)
      | _ => some (stBadParameter, 0)
    run := fun _ s =>
      let x := xchan s c
      { state := putX c { x with state := .running, cause := 0, cur := if x.cur = 0 then (xdmaCfg s c).descAddr else x.cur } s
        status := stPending } }

/-- XDMA_STOP by state (Table 14-10). -/
def stopChannel (c : Nat) (ctx : ReplyCtx) (s : State) : Done :=
  let x := xchan s c
  match x.state with
  | .running => { state := finishStop c (putX c { x with state := .stopping, stop := some ctx } s), later := true }
  | .error => { state := raiseEvent (0x870 + c) (putX c { x with state := .idle, cur := x.latched } s), body := [(8, x.latched)] }
  | _ => { state := s, body := [(8, x.cur)] }

def opXdmaStop (c : Nat) : Op :=
  { opcode := 0x0B07, kind := .i, auth := .o, body := [(1, c)], ranges := [(0, c ≤ 15)]
    check := fun _ s => match (xchan s c).state with
      | .stopping => some (stBusy, 0)
      | .unconfigured | .frozen => some (stBadParameter, 0)
      | _ => none
    run := fun ctx s => stopChannel c ctx s }

/-! ## Export DMA: descriptors (R348 to R351) -/

/-- MALFORMED (R349). -/
def xMalformed (d : XDesc) : Bool :=
  d.rsv ≠ 0 || field d.descCtl 15 7 ≠ 0 || d.status ≠ 0 || d.rowBytes = 0 || 16777216 < d.rowBytes || d.rows = 0 ||
    1048576 < d.rows || (1 < d.rows && d.dstStride < d.rowBytes) || d.nextAddr % 64 ≠ 0

/-- BAD_RANGE (R349). -/
def xBadRange (s : State) (d : XDesc) : Bool :=
  if xWrap d then
    match tget s.cfg.frc (xRegion d) with
    | some b => (regionOf s (xRegion d)).state = .unconfigured || d.srcAddr < b.base || b.base + b.size ≤ d.srcAddr
    | none => true
  else capacity s < d.srcAddr + (d.rows - 1) * d.srcStride + d.rowBytes

/-- An error of XDMA. -/
def xdmaError (c code : Nat) (cls d0 : Nat) (s : State) : State := errorAt 0x10 code c sevMinor cls d0 0 s

/-- End of the chain: IDLE, with CUR_PTR 0 (Table 14-10). -/
def endChain (c : Nat) (s : State) : State :=
  let x := xchan s c
  if x.state = .running ∧ x.cur = 0 ∧ x.begun = [] then raiseEvent (0x870 + c) (putX c { x with state := .idle } s)
  else finishStop c s

/-- Bytes 56 to 63 of a descriptor, written back at its end (R350). -/
def writeBack (c : Nat) (x : XRun) (st off : Nat) (s : State) : State :=
  emit (.hostWrite (xdmaCfg s c).accessId (x.addr + 56) (lsbBytes 1 st ++ lsbBytes 3 0 ++ lsbBytes 4 off)) s

/-- Write back the descriptors that have ended, in chain order (R350). -/
def flushRuns (c : Nat) (l : List XRun) (s : State) : State :=
  match l with
  | [] => s
  | x :: r =>
    match x.done with
    | none => s
    | some (st, off) =>
      let ch := xchan s c
      let ch1 := { ch with begun := r, done := if st = 1 then ch.done + 1 else ch.done
                           bad := if st = 1 then ch.bad else ch.bad + 1 }
      let s1 := putX c ch1 (writeBack c x st off s)
      flushRuns c r (if bit x.desc.descCtl 0 then raiseEvent (0x870 + c) s1 else s1)

def flushChannel (c : Nat) (s : State) : State := endChain c (flushRuns c (xchan s c).begun s)

/-- The channel enters ERROR with the descriptor's address latched (R349). -/
def channelError (c cause : Nat) (s : State) : State :=
  let x := xchan s c
  raiseEvent (0x870 + c) (putX c { x with state := .error, cause, latched := x.cur } s)

/-- XDMA_DESC_FETCH (R349): the descriptor at CUR_PTR is read. FENCE waits for every earlier one (Table 14-9). -/
def xdmaFetch (c : Nat) (d : XDesc) (ok : Bool) (s : State) : State :=
  let x := xchan s c
  if clocked s = false ∨ halting s ∨ x.state ≠ .running ∨ x.cur = 0 then s
  else
    let s1 := emit (.hostRead (xdmaCfg s c).accessId x.cur 64) s
    if ok = false then xdmaError c 0x0B01 clsInput x.cur (channelError c 2 s1)
    else if xMalformed d then
      flushChannel c (xdmaError c 0x1001 clsInput x.cur
        (channelError c 1 (putX c { x with begun := x.begun ++ [{ addr := x.cur, desc := d, done := some (4, 0) }] } s1)))
    else if bit d.descCtl 1 ∧ x.begun ≠ [] then s
    else
      let r : XRun := { addr := x.cur, desc := d, done := if xBadRange s d then some (5, 0) else none }
      flushChannel c (putX c { x with begun := x.begun ++ [r], cur := d.nextAddr } s1)

/-- Change the oldest descriptor still in progress. -/
def mapOldest (f : XRun → XRun) (l : List XRun) : List XRun :=
  match l with
  | [] => []
  | x :: r => if x.done.isNone then f x :: r else x :: mapOldest f r

/-- XDMA_DESC_COMPLETE (R350, R351): every response of the oldest descriptor in progress has arrived. Nothing ends before the writes up
to it have been issued, and a copy that meets a poisoned granule ends there as BAD_ECC. -/
def xdmaComplete (c : Nat) (r : XResult) (s : State) : State :=
  let x := xchan s c
  match x.begun.find? (fun e => e.done.isNone) with
  | none => s
  | some e =>
    let fin := fun (st off moved : Nat) (a : State) =>
      flushChannel c (putX c { xchan a c with
        begun := mapOldest (fun y => { y with done := some (st, off) }) x.begun, moved := x.moved + moved } a)
    let s0 := e.fixed.foldl (fun u a => corrected a u) s
    let ecc := fun (off : Nat) =>
      let a := xSrc s e.desc (xPlace e.desc off).1 (xPlace e.desc off).2
      fin 3 off off (xdmaError c 0x1001 clsInput a (uncorrectable e.injected a s0))
    if clocked s = false then s
    else match e.ecc, r with
      | some off, _ => ecc off
      | none, .done => if e.noted ∨ e.sent ≠ xTotal e.desc then s else fin 1 0 (xTotal e.desc) s0
      | none, .badBus off =>
        if e.sent ≤ off then s
        else fin 2 off off (if e.noted then s0 else xdmaError c 0x0B01 clsInput (e.desc.dstAddr +
          (xPlace e.desc off).1 * e.desc.dstStride + (xPlace e.desc off).2) s0)
      | none, .badEcc off => if e.sent < off ∨ xTotal e.desc ≤ off then s else ecc off

/-- A data write of a channel is answered; with an error, or not within 64 µs, its descriptor issues no further access (R351). -/
def xdmaAnswered (c : Nat) (bad timeout : Bool) (s : State) : State :=
  let x := xchan s c
  if clocked s = false ∨ x.state = .frozen then s
  else
    let s1 := putX c { x with begun := writeAnswered x.begun } s
    match x.begun.find? (fun e => e.done.isNone) with
    | none => s1
    | some e =>
      if bad = false ∨ e.noted then s1
      else xdmaError c (if timeout then 0x0B02 else 0x0B01) (if timeout then clsTimeout else clsInput) e.desc.dstAddr
        (putX c { xchan s1 c with begun := mapOldest (fun y => { y with noted := true }) (writeAnswered x.begun) } s1)

def execFrcRegionSet (z : Zelgen) (b : FrcRegionBody) (s : State) : Result := command (opFrcRegionSet b) z s
def execFrcControl (z : Zelgen) (region action : Nat) (s : State) : Result := command (opFrcControl region action) z s
def execXdmaChannelSet (z : Zelgen) (b : XdmaChannelBody) (s : State) : Result := command (opXdmaChannelSet b) z s
def execXdmaStart (z : Zelgen) (channel : Nat) (s : State) : Result := command (opXdmaStart channel) z s
def execXdmaStop (z : Zelgen) (channel : Nat) (s : State) : Result := command (opXdmaStop channel) z s
def execFrcGranuleFlush (dt region : Nat) (s : State) : Result := happen dt (granuleFlush region) s
def execFrcGranuleWriteDone (dt region : Nat) (ok : Bool) (s : State) : Result := happen dt (granuleDone region ok) s
def execFrcRegionStopDone (dt region : Nat) (s : State) : Result := happen dt (regionStopDone region) s
def execXdmaDescFetch (dt channel : Nat) (desc : XDesc) (readOk : Bool) (s : State) : Result :=
  happen dt (xdmaFetch channel desc readOk) s
def execXdmaDescComplete (dt channel : Nat) (r : XResult) (s : State) : Result := happen dt (xdmaComplete channel r) s

end Sys2Proof.Machine
end

