-- ==== Sys2Proof/Machine/Power.lean ====
section
/-! DEFINITION. Port groups' power (15 R359 to R362), signal detect (R63, R283), the operating modes and drains (R363 to
R366), and group 0x0C of the commands. -/
namespace Sys2Proof.Machine

def groupSt (s : State) (g : Nat) : Group := tgetD s.groups g {}

def putGroup (g : Nat) (x : Group) (s : State) : State := { s with groups := tput s.groups g x }

/-! ## Which groups are powered (R360, Table 15-3) -/

def policyOfGroup (cfg : Cfg) (g : Nat) : Nat := tgetD cfg.power g 0

/-- WAKE_FLAGS; a group never written has 0x01 (R362). -/
def wakeFlags (cfg : Cfg) (g : Nat) : BitVec 8 := tgetD cfg.wake g 1

/-- Configured data ports of a group. -/
def portsOf (cfg : Cfg) (g : Nat) : List Nat := (cfg.port.map (fun e => e.1)).filter (fun p => p < 512 && groupOf p = g)

/-- The mode and POLICY require the group powered; IDLE_TIME apart. -/
def required (s : State) (g : Nat) : Bool :=
  decide (s.mode.stage = .run) && !s.mode.zeroized && decide (s.mode.base ≠ .locked) && !fencedOrAbsent s g &&
    (match policyOfGroup s.cfg g with
     | 0 => !(portsOf s.cfg g).isEmpty
     | 1 => true
     | _ => false)

/-! ## Gating (R360) -/

/-- Ports of a group leave UP, and their receptions are cut (step 1). -/
def stopGroup (g : Nat) (s : State) : State :=
  (portsOf s.cfg g).foldl (fun a p => gateLink p a) (cutReception g s)

/-- Settle every outstanding grant of a group with what arrived (R179, R190); a RELEASED that differs is a mismatch (R180). -/
def settleAll (g : Nat) (s : State) : State := (engine s g).grants.foldl (fun a x => settleGrant g x (grantMismatch g x a)) s

/-- A powered group begins to be gated: steps 1 and 2, and its wake latch is armed if WAKE_FLAGS permits. -/
def gateStart (g : Nat) (s : State) : State :=
  let x := groupSt s g
  if groupState s g ≠ .powered then s
  else
    let s1 := stopGroup g (putGroup g { x with state := .gating, since := s.tsu.now } s)
    putGroup g { groupSt s1 g with armed := bit (wakeFlags s.cfg g) 0, latch := false, cause := false, probeEnd := none
                                   gateNext := false } s1

/-- GROUP_GATE (R360): the gating completes, at most 20 µs from its start. -/
def gateDone (g : Nat) (s : State) : State :=
  if clocked s = false ∨ groupState s g ≠ .gating then s
  else
    let s1 := settleAll g s
    eventRecord 0x0006 (lsbBytes 1 g) (putGroup g { groupSt s1 g with state := .gated, since := s1.tsu.now } s1)

/-- A group is fenced (R32): as gated at once, and powered no more. -/
def fenceGroup (g : Nat) (s : State) : State :=
  let s1 := putGroup g { groupSt s g with state := .fenced, since := s.tsu.now, cause := false, latch := false } s
  settleAll g (stopGroup g s1)

/-! ## After a change of configuration or mode (R361) -/

/-- One group after a change; `was`: it was required before. -/
def powerOne (was : Bool) (g : Nat) (s : State) : State :=
  let x := groupSt s g
  let r := required s g
  match groupState s g with
  | .powered => if r then s else gateStart g s
  | .waking => putGroup g { x with gateNext := !r } s
  | .gated | .gating =>
    if r ∧ (was = false ∨ s.mode.base = .service) then putGroup g { x with cause := true } s
    else if was ∧ r = false then putGroup g { x with cause := false } s else s
  | _ => s

/-- Every group after a change from `old`. -/
def powerUpdate (old s : State) : State := (List.range 32).foldl (fun a g => powerOne (required old g) g a) s

/-! ## Waking (R361) -/

/-- A cause that the group may wake on. -/
def wakeCauseOf (s : State) (g : Nat) : Bool :=
  let x := groupSt s g
  decide (groupState s g = .gated) && (x.cause || (x.latch && x.armed && required s g))

def waking (s : State) : Nat := countIf (List.range 32) (fun g => decide (groupState s g = .waking))

/-- GROUP_WAKE_START: at most four groups wake at once, in ascending order. -/
def wakeStart (g : Nat) (s : State) : State :=
  if clocked s = false ∨ s.mode.zeroized ∨ wakeCauseOf s g = false ∨ 4 ≤ waking s ∨ (List.range g).any (wakeCauseOf s) then s
  else putGroup g { groupSt s g with state := .waking, since := s.tsu.now, cause := false, gateNext := !required s g } s

/-- A port of a woken group starts from NO_SIGNAL (R82). -/
def wakePort (p : Nat) (s : State) : State :=
  putPort p { portOf s p with link := .noSignal, since := s.tsu.now, faultAt := none } s

/-- GROUP_WAKE_DONE (Table 15-2 step 4). A group that is no longer asked for is gated at once (Table 15-6). -/
def wakeDone (g : Nat) (s : State) : State :=
  let x := groupSt s g
  if clocked s = false ∨ groupState s g ≠ .waking then s
  else
    let s1 := putGroup g { x with state := .powered, since := s.tsu.now, latch := false, armed := false, cause := false
                                  probeEnd := x.probeEnd.map (fun _ => s.tsu.now + ms 500) } s
    let s2 := (portsOf s1.cfg g).foldl (fun a p => wakePort p a) s1
    let s3 := eventRecord 0x0007 (lsbBytes 1 g) (raiseEvent (0x850 + g) s2)
    if x.gateNext then gateStart g s3 else s3

/-- GROUP_POWER_NOT_GOOD (R361, Table 18-6). -/
def powerNotGood (g : Nat) (s : State) : State :=
  if clocked s = false ∨ groupState s g ≠ .waking then s
  else errorAt 0x14 0x1404 g sevCritical clsInternal 0 0 (fenceGroup g s)

/-- IDLE_TIME in ccyc (Table 15-4). -/
def idleTime (f : BitVec 8) : Nat :=
  match field f 2 1 with | 0 => ms 100 | 1 => secs 1 | 2 => secs 10 | _ => secs 60

/-- PROBE's period in ccyc; 0: none. -/
def probePeriod (f : BitVec 8) : Nat :=
  match field f 4 3 with | 0 => 0 | 1 => secs 1 | 2 => secs 10 | _ => secs 60

/-- No port of the group is UP (R362). -/
def noneUp (s : State) (g : Nat) : Bool := (portsOf s.cfg g).all (fun p => !reportsUp (portOf s p))

/-- IDLE_TIME_EXPIRY: LEAN gates a group that had no port UP for IDLE_TIME. -/
def idleExpiry (g : Nat) (s : State) : State :=
  let x := groupSt s g
  if clocked s = false ∨ s.mode.base ≠ .lean ∨ policyOfGroup s.cfg g ≠ 0 ∨ noneUp s g = false ∨ x.probeEnd.isSome ∨
      s.tsu.now < max x.lastUp x.since + idleTime (wakeFlags s.cfg g) then s
  else gateStart g s

/-- PROBE_WAKE: a cause for a group gated in LEAN. -/
def probeWake (g : Nat) (s : State) : State :=
  let x := groupSt s g
  let d := probePeriod (wakeFlags s.cfg g)
  if clocked s = false ∨ s.mode.base ≠ .lean ∨ required s g = false ∨ groupState s g ≠ .gated ∨ d = 0 ∨ s.tsu.now < x.since + d then s
  else putGroup g { x with cause := true, probeEnd := some 0 } s

/-- PROBE_HOLD_EXPIRY: 500 ms after a probe IDLE_TIME applies again. -/
def probeHoldExpiry (g : Nat) (s : State) : State :=
  let x := groupSt s g
  match x.probeEnd with
  | some t => if clocked s = false ∨ groupState s g ≠ .powered ∨ s.tsu.now < t then s else putGroup g { x with probeEnd := none } s
  | none => s

/-! ## Signal detect (R63, R283) -/

/-- SD_FILTER in ns (Table 3-5). -/
def sdFilter (cfg : Cfg) (lane : Nat) : Nat :=
  match field (laneFlags cfg lane) 3 2 with | 0 => 1000 | 1 => 10000 | 2 => 100000 | _ => 1000000

/-- A filtered rising edge sets the armed latch of a gated group (R283, R360, R362), unless its POLICY is off. While the shared domain
is off no port is known to be configured, and any lane sets it. -/
def setLatch (lane : Nat) (s : State) : State :=
  let g := groupOf lane
  let x := groupSt s g
  if 512 ≤ lane ∨ x.armed = false ∨ policyOfGroup s.cfg g = 2 ∨ (clocked s ∧ (portOfLane s.cfg lane).isNone) then s
  else match groupState s g with
    | .gated | .gating => putGroup g { x with latch := true } s
    | _ => s

/-- A level that the glitch filter ignores is counted (R63). -/
def sdGlitch (lane : Nat) (s : State) : State := if clocked s then tallyAt lane (sdGlitchesCtr lane) s else s

/-- A change of a lane after its filter: a rising signal detect sets the wake latch, and the lane's port looks again. -/
def laneChanged (lane : Nat) (l : Lane) (s : State) : State :=
  let was := laneSignal s lane
  let s1 := putLane lane l s
  lanePortCheck lane (if laneSignal s1 lane ∧ was = false then setLatch lane s1 else s1)

/-- SIGNAL_DETECT_CHANGE (R63). With IGNORE_SD the level is ignored: it is filtered and kept for a commit that clears the flag. -/
def signalDetect (lane : Nat) (level : Bool) (heldNs : Nat) (s : State) : State :=
  if s.mode.stage = .off then s
  else if heldNs < sdFilter s.cfg lane then (if bit (laneFlags s.cfg lane) 4 then s else sdGlitch lane s)
  else laneChanged lane { laneOf s lane with raw := level, sd := level } s

/-- LANE_RX_LOCK or LANE_TX_READY changes; with IGNORE_SD, LANE_RX_LOCK after the filter is signal detect (Table 3-5). -/
def laneLockChange (lane : Nat) (rxLock txReady : Bool) (heldNs : Nat) (s : State) : State :=
  let l := { laneOf s lane with rxLock, txReady }
  if rxLock = l.lockSd then laneChanged lane l s
  else if heldNs < sdFilter s.cfg lane then
    laneChanged lane l (if bit (laneFlags s.cfg lane) 4 then sdGlitch lane s else s)
  else laneChanged lane { l with lockSd := rxLock } s

/-! ## Modes (R363 to R366) -/

/-- The boot pair of rings at entry into LOCKED (R261). -/
def bootPair (s : State) : State :=
  let cmd := ringKey 2 0
  let rep := ringKey 3 0
  if (ringOf s cmd).state ≠ 0 ∨ (ringOf s rep).state ≠ 0 then s
  else
    let b : RingConfigBody :=
      { ringType := 2, ring := 0, baseAddr := s.fuses.bootPairAddr.toNat, sizeLog2 := 6
        accessId := s.fuses.bootAccessId.toNat, ringFlags := 0, holdTime := 0, irqSource := 0xFFFF }
    let r : RingConfigBody := { b with ringType := 3, baseAddr := b.baseAddr + 4096 }
    putRing cmd { state := 2 } (putRing rep { state := 2 }
      { s with cfg := { s.cfg with ring := tput (tput s.cfg.ring cmd b) rep r } })

/-- Entry into LOCKED: sessions end (R52), a retrain of a data port ends as failed (Table 15-5), the boot pair is looked at. -/
def enterLocked (s : State) : State :=
  bootPair ((endSessions s).ports.foldl (fun a e => if e.1 < 512 ∧ e.2.retrain then bringupFail e.1 a else a) (endSessions s))

/-- BASE_MODE is set. -/
def setBase (b : Base) (s : State) : State :=
  let entry : Bool := b = .locked && (s.mode.base ≠ .locked || s.mode.quarantine)
  let s1 := { s with mode := { s.mode with base := b, quarantine := false } }
  powerUpdate s (if entry then enterLocked s1 else s1)

def baseOf (code : Nat) : Base := if code = 4 then .service else if code = 5 then .lean else .locked

/-- MODE_REQUEST's effect: source 0x894 rises at a mode change that it causes (R365), and at its completion (R366). -/
def modeRequest (b : ModeRequestBody) (s : State) : State :=
  if b.mode = 6 then
    let s1 := { s with mode := { s.mode with
      drain := some { ports := b.drainPorts, next := baseOf b.nextMode, start := s.tsu.now } } }
    if modeCode s1 = modeCode s then s1 else raiseEvent 0x894 s1
  else raiseEvent 0x894 (setBase (baseOf b.mode) s)

def opModeRequest (b : ModeRequestBody) : Op :=
  { opcode := 0x0C01, kind := .p, auth := .o
    body := [(1, b.mode), (1, b.nextMode), (72, b.drainPorts.toNat)]
    rsvZero := field b.drainPorts 575 516 = 0
    ranges := [(0, 3 ≤ b.mode && b.mode ≤ 6)]
    ports := (List.range 516).filter (fun p => bit b.drainPorts p)
    check := fun _ s => firstOf
      [need (b.mode ≠ 6 || (3 ≤ b.nextMode && b.nextMode ≤ 5)) stOutOfRange 1,
       param (b.mode ≠ 6 || b.drainPorts ≠ 0) 2,
       param (b.mode = 6 || b.nextMode = 0) 1,
       param (b.mode = 6 || b.drainPorts = 0) 2,
       need s.mode.drain.isNone stBusy,
       need (b.mode ≠ 6 || (s.mode.base ≠ .locked && !s.mode.quarantine)) stWrongMode]
    run := fun _ s => { state := modeRequest b s, status := stPending } }

/-- Leaves under a port. -/
def portLeaves (cfg : Cfg) (p : Nat) : List Nat :=
  (cfg.leaf.filter (fun l => match tget cfg.node l.2.parentNode with | some n => n.port = p | none => false)).map (fun l => l.1)

/-- Nothing of the port waits, is granted or is held (R366). -/
def portDrained (s : State) (p : Nat) : Bool :=
  512 ≤ p ||
    ((portLeaves s.cfg p).all (fun l => !(leafWord s l).backlogged) &&
     (engine s (groupOf p)).grants.all (fun g => g.port ≠ p) && tgetD s.esh.used p 0 = 0)

/-- The ports a drain names. -/
def drainList (d : Drain) : List Nat := (List.range 516).filter (fun p => bit d.ports p)

/-- The block moves to NEXT_MODE; a drained port stays closed until a commit writes it. Under QUARANTINE only the base
moves (Table 15-6). -/
def endDrain (d : Drain) (s : State) : State :=
  let s1 := { s with mode := { s.mode with drain := none, base := d.next
                                           drained := s.mode.drained ++ (drainList d).filter (fun p => p ∉ s.mode.drained) } }
  raiseEvent 0x894 (powerUpdate s (if d.next = .locked ∧ s.mode.base ≠ .locked then enterLocked s1 else s1))

/-- DRAIN_COMPLETE. -/
def drainComplete (s : State) : State :=
  match s.mode.drain with
  | some d => if clocked s ∧ (drainList d).all (portDrained s) then endDrain d s else s
  | none => s

/-- DRAIN_TIMEOUT: after 1 s the shortfall is recorded (R366, Table 18-6). -/
def drainTimeout (s : State) : State :=
  match s.mode.drain with
  | some d =>
    if clocked s = false ∨ s.tsu.now < d.start + secs 1 then s
    else if (drainList d).all (portDrained s) then endDrain d s
    else endDrain d (errorAt 0x14 0x1403 0xFFFF sevNote clsInternal 0 0 s)
  | none => s

/-! ## Commands -/

def opGroupPowerSet (b : GroupPowerBody) : Op :=
  { opcode := 0x0C02, kind := .s, auth := .o, body := [(1, b.portGroup), (1, b.policy)]
    ranges := [(0, b.portGroup ≤ 31), (1, b.policy ≤ 2)], edit := some (.groupPower b) }

def opWakeSet (b : WakeBody) : Op :=
  { opcode := 0x0C03, kind := .s, auth := .o, body := [(1, b.portGroup), (1, b.wakeFlags.toNat)]
    rsvZero := field b.wakeFlags 7 5 = 0
    ranges := [(0, b.portGroup ≤ 31)], edit := some (.wake b) }

def opPowerStateGet : Op :=
  { opcode := 0x0C04, kind := .q, auth := .o
    run := fun _ s =>
      { state := s, body := (List.range 32).map (fun g => (1, grpCode (groupState s g))) ++ [(1, modeCode s)] } }

def execModeRequest (z : Zelgen) (b : ModeRequestBody) (s : State) : Result := command (opModeRequest b) z s
def execGroupPowerSet (z : Zelgen) (b : GroupPowerBody) (s : State) : Result := command (opGroupPowerSet b) z s
def execWakeSet (z : Zelgen) (b : WakeBody) (s : State) : Result := command (opWakeSet b) z s
def execPowerStateGet (z : Zelgen) (s : State) : Result := command opPowerStateGet z s
def execLaneLockChange (dt lane : Nat) (rxLock txReady : Bool) (s : State) (heldNs : Nat := 0) : Result :=
  happen dt (laneLockChange lane rxLock txReady heldNs) s
def execSignalDetectChange (dt lane : Nat) (level : Bool) (heldNs : Nat) (s : State) : Result :=
  happen dt (signalDetect lane level heldNs) s
def execGroupGate (dt pg : Nat) (s : State) : Result := happen dt (gateDone pg) s
def execIdleTimeExpiry (dt pg : Nat) (s : State) : Result := happen dt (idleExpiry pg) s
def execGroupWakeStart (dt pg : Nat) (s : State) : Result := happen dt (wakeStart pg) s
def execGroupWakeDone (dt pg : Nat) (s : State) : Result := happen dt (wakeDone pg) s
def execProbeWake (dt pg : Nat) (s : State) : Result := happen dt (probeWake pg) s
def execProbeHoldExpiry (dt pg : Nat) (s : State) : Result := happen dt (probeHoldExpiry pg) s
def execGroupPowerNotGood (dt pg : Nat) (s : State) : Result := happen dt (powerNotGood pg) s
def execDrainComplete (dt : Nat) (s : State) : Result := happen dt drainComplete s
def execDrainTimeout (dt : Nat) (s : State) : Result := happen dt drainTimeout s

end Sys2Proof.Machine
end

