-- ==== Sys2Proof/Machine/Errors.lean ====
section
/-! DEFINITION. The error commands and happenings of 18 (R410 to R416), containment (Table 18-6), CPX restarts,
zeroization (17 R401), and host memory's responses (R262, R298, R351, R386). -/
namespace Sys2Proof.Machine

/-! ## ERROR_READ and ERROR_ACK (R410, R411) -/

def errOr (r : Option ErrRec) : Fields := match r with | some x => errFields x | none => noErr

/-- LATEST; none while nothing has been recorded. -/
def latestFields (e : ErrUnit) : Fields := if e.count = 0 then noErr else errFields e.latest

def errFlags (e : ErrUnit) : Nat :=
  (if e.first.isSome then 1 else 0) + (if e.nested then 2 else 0) + (if e.escalated then 4 else 0) + (if e.saturated then 8 else 0)

def opErrorRead (u : Nat) : Op :=
  { opcode := 0x0040, kind := .q, auth := .o, body := [(1, u)], ranges := [(0, u ≤ 0x1B)]
    run := fun _ s =>
      let e := errUnit s u
      { state := s, body := errOr e.first ++ latestFields e ++ [(4, e.count), (4, e.acked), (4, errFlags e), (8, s.err.nextSeq)] } }

/-- ERROR_ACK's effect. -/
def ackUnit (u : Nat) (s : State) : State :=
  let ack := fun (e : ErrUnit) => { e with acked := e.count, first := none, nested := false, escalated := false }
  { s with err := { s.err with units := tput s.err.units u (ack (errUnit s u)), was := tput s.err.was u (ack (tgetD s.err.was u {})) } }

def opErrorAck (u seen : Nat) : Op :=
  { opcode := 0x0041, kind := .i, auth := .o, body := [(1, u), (4, seen)], ranges := [(0, u ≤ 0x1B)]
    check := fun _ s => param (seen = (errUnit s u).count) 1
    run := fun _ s => { state := ackUnit u s } }

/-- ERROR_ESCALATION_TIMEOUT (R412): 10 ms from FIRST without acknowledgement. -/
def escalate (u : Nat) (s : State) : State :=
  let e := aged s.tsu.now (errUnit s u)
  if clocked s = false ∨ e = errUnit s u then s else putUnit u e s

/-! ## Zeroization (R401) -/

/-- Both copies of the key store are overwritten with zeros, best effort. -/
def eraseStore (s : State) : State :=
  let id := s.fuses.bootAccessId.toNat
  emits [.hostFill id s.fuses.keyStoreAddr.toNat 1048576 true, .hostFill id (s.fuses.keyStoreAddr.toNat + 1048576) 1048576 true] s

/-- Every manager, operator, delegated and session key and every SAK is erased (Table 17-5, R401). -/
def eraseKeys (s : State) : State :=
  let s1 := (s.sas.map (fun e => e.1)).foldl (fun a k => putSa k {} a) (endSessions s)
  { s1 with hood := { s1.hood with slots := [], delegated := [], certs := [] } }

/-- The secret pages of CPX are erased: link keys go, and store writes that wait (R401). -/
def erasePages (s : State) : State :=
  { s with
      hood := { s.hood with store := [] }
      hlk := { s.hlk with workers := tmap s.hlk.workers (fun _ w => { w with lk := 0, state := if w.state = 1 then 2 else w.state })
                          manager := none } }

/-- ZEROIZE_COUNT's next bit, or LIFECYCLE bit 3 once all 64 are burnt. -/
def burnZeroize (s : State) : State :=
  emit .fuseBurn (if burnt s.fuses.zeroizeCount < 64 then
      { s with fuses := { s.fuses with zeroizeCount := burnNext s.fuses.zeroizeCount } }
    else { s with fuses := { s.fuses with lifecycle := setBit s.fuses.lifecycle 3 } })

/-- The ranks are in self-refresh (R321). -/
def restRanks (on : Bool) (s0 : State) : State :=
  let s := emits ((s0.smc.ranks.filter (fun r => r.2.state ≠ .absent && r.2.selfRefresh ≠ on)).map (fun r =>
    Output.dfi (r.1 / 2) (r.1 % 2) (.selfRefresh on))) s0
  { s with smc := { s.smc with ranks := tmap s.smc.ranks (fun _ r => if r.state = .absent then r else { r with selfRefresh := on }) } }

/-- ZEROIZED (R401 step 4, Table 15-3): every lane disabled, every group gated, nothing pending, what a gated group let through included. -/
def enterZeroized (s : State) : State :=
  let s1 := closeLevel (discardPending s)
  let s2 := { s1 with mode := { s1.mode with zeroized := true, drain := none }
                      dbg := { s1.dbg with armed := 0, freeze := none } }
  let s3 := (List.range 32).foldl (fun a g => match groupState a g with
    | .absent | .fenced => a
    | _ => putGroup g { groupSt a g with state := .gated, cause := false, latch := false, armed := false, probeEnd := none }
        (settleAll g (cutReception g a))) s2
  let s4 := restRanks true (s3.cfg.port.foldl (fun a e => gateLink e.1 a) s3)
  { s4 with cpx := { s4.cpx with activation := none, queue := [], forwarded := [], restart := none } }

/-- The block zeroizes. -/
def zeroize (s : State) : State :=
  if s.mode.zeroized ∨ s.mode.stage ≠ .run then s else enterZeroized (eraseStore (burnZeroize (erasePages (eraseKeys s))))

/-- PUF_CHECK_FAIL: a failed root or self-check of the hood or SVE is recorded and zeroizes (R401, R412, Table 18-6). -/
def fatalCheck (w : FatalCheck) (s : State) : State :=
  if clocked s = false ∨ s.mode.stage ≠ .run ∨ s.mode.zeroized then s
  else zeroize (match w with
    | .sve => errorAt 0x13 0x1301 0 sevFatal clsInternal 0 0 s
    | _ => errorAt 0x12 0x1202 0 sevFatal clsInternal 0 0 s)

/-! ## The error log (R414) -/

/-- Log writes that may still be unanswered. -/
def recentWrites (s : State) : List (Nat × Nat) := s.err.writes.filter (fun w => s.tsu.now < w.1 + us 200)

/-- A log write failed. -/
def logFailure (cls : Nat) (s : State) : State :=
  errorAt 0x0E 0x0F01 0 sevFatal cls 0 0 { s with err := { s.err with writes := (recentWrites s).drop 1 } }

def logTimeout (s : State) : State :=
  if clocked s = false ∨ (recentWrites s).all (fun w => s.tsu.now < w.1 + us 100) then s else logFailure clsErrorPath s

def logWriteError (s : State) : State := if clocked s = false ∨ recentWrites s = [] then s else logFailure clsErrorPath s

/-! ## Shared SRAM (Table 18-6) -/

/-- PGg is fenced and its SAs become EMPTY. -/
def fenceSecurity (g : Nat) (s : State) : State :=
  let keys := (s.sas.filter (fun e => e.1 % 32768 / 1024 = g)).map (fun e => e.1)
  fenceGroup g (keys.foldl (fun a k => putSa k {} a) s)

/-- An object is ineligible until a commit writes it. -/
def killObj (o : ShaperObj) (s : State) : State := putObj o { objOf s o with dead := true } s

/-- A policer context drops every frame until a commit writes it. -/
def killContext (c : Nat) (s : State) : State :=
  { s with pols := tput s.pols c { tgetD s.pols c { } with dead := true } }

/-- A counter's total is 0, and so is each reader's next read. -/
def zeroCounter (k : Nat) (s : State) : State :=
  { s with tel := { s.tel with ctr := tdel s.tel.ctr k, ctrWas := tdel s.tel.ctrWas k, battBase := tdel s.tel.battBase k
                               winBase := tkeep s.tel.winBase (fun j _ => j % 2 ^ 48 ≠ k) } }

def objCode (o : ShaperObj) : Nat := match o with | .leaf n => n | .node n => n | .port n => n

/-- SRAM_ECC_ERROR. -/
def sramError (bank : Nat) (h : SramHit) (s : State) : State :=
  if clocked s = false then s
  else match h with
    | .correctable => errorAt 0x1A 0x1A01 bank sevNote clsInternal 0 0 s
    | .security g => fenceSecurity g (errorAt 0x1A 0x1A02 bank sevCritical clsInternal g 0 s)
    | .policer c => killContext c (errorAt 0x1A 0x1A03 bank sevMajor clsInternal c 0 s)
    | .sched o => killObj o (errorAt 0x1A 0x1A04 bank sevMajor clsInternal (objCode o) 0 s)
    | .counter k => zeroCounter k (errorAt 0x1A 0x1A05 bank sevMinor clsInternal k 0 s)
    | .errorStore => errorAt 0x1A 0x0F02 bank sevFatal clsErrorPath 0 0 s

/-! ## CPX (Table 18-6, R392) -/

def mute (c : ReplyCtx) : ReplyCtx := { c with onError := true }

/-- Commands in progress get no reply. -/
def muteAll (s : State) : State :=
  { s with
      tsu := { s.tsu with step := s.tsu.step.map (fun q => { q with ctx := none }) }
      hpe := { s.hpe with rings := tmap s.hpe.rings (fun _ r => { r with stop := r.stop.map mute })
                          replies := tmap s.hpe.replies (fun _ l => l.filter (fun e => e.2.isSome)) }
      frc := { s.frc with regions := tmap s.frc.regions (fun _ r => { r with stopping := r.stopping.map mute }) }
      xdma := tmap s.xdma (fun _ x => { x with stop := none })
      hood := { s.hood with store := s.hood.store.map (fun q => { q with ctx := none }) }
      cpx := { s.cpx with queue := [], forwarded := [] } }

/-- CPX restarts from its verified image: sessions end. -/
def restartCpx (s : State) : State :=
  let s1 := endSessions (muteAll s)
  { s1 with cpx := { s1.cpx with restart := some s1.tsu.now } }

/-- CPX_LOCKSTEP_ERROR: a second within 1 s is FATAL. -/
def lockstepError (s : State) : State :=
  if clocked s = false ∨ s.mode.stage ≠ .run ∨ s.mode.zeroized then s
  else
    let again : Bool := s.cpx.lastLockstep.any (fun t => s.tsu.now < t + secs 1)
    let s1 := errorAt 0x11 0x1101 0 (if again then sevFatal else sevCritical) clsInternal 0 0 s
    restartCpx { s1 with cpx := { s1.cpx with lastLockstep := some s1.tsu.now, activation := none } }

/-- CPX_RESTART_DONE. -/
def restartDone (s : State) : State :=
  if clocked s ∧ s.cpx.activation.isNone then { s with cpx := { s.cpx with restart := none } } else s

/-! ## Injected errors (Table 16-4, Table 18-8) -/

/-- Containment of an injected record of MAJOR or above (Table 18-6), the object free where the record names none (log 35). -/
def contain (unit code inst d : Nat) (s : State) : State :=
  if unit = 0x07 then killObj (.leaf (d % 262144)) s
  else if unit = 0x1A then
    (if code = 0x1A02 then fenceSecurity (d % 32) s else if code = 0x1A03 then killContext d s
     else if code = 0x1A04 then killObj (.leaf (d % 262144)) s else s)
  else if unit = 0x0F then putRegion (inst % 16) { regionOf s (inst % 16) with state := .error } s
  else if unit = 0x14 ∧ code = 0x1404 then fenceGroup (inst % 32) s
  else if unit = 0x11 then restartCpx s
  else s

/-- ERROR_INJECT (R379): what Table 16-4 does not state of the record is free (log 35). -/
def injectError (unit sev : Nat) (s : State) : State :=
  let f := fun (i : Nat) => (Config.injected unit i s.draws).toNat
  let s1 := errorWith true 0 unit (f 0 % 65536) (f 1 % 65536) sev (f 2 % 5) (f 3) (f 4) { s with draws := s.draws + 1 }
  if sevMajor ≤ sev then contain unit (f 0 % 65536) (f 1 % 65536) (f 3) s1 else s1

/-! ## Key store writes (R386, R388, R389) -/

/-- Bytes of a copy with `n` slots (Table 17-3). -/
def storeLen (n : Nat) : Nat := 48 + 2744 * n

/-- A change of the slots. -/
def changeSlots (c : StoreChange) (l : Tab KeySlot) : Tab KeySlot :=
  match c with
  | .install k x => tput l k x
  | .revoke k => tdel l k
  | .clear => []

/-- The slots once every write in progress has been answered. -/
def slotsAhead (s : State) : Tab KeySlot := s.hood.store.foldl (fun l q => changeSlots q.change l) s.hood.slots

/-- The hood writes the copy not loaded or written last. -/
def writeStore (c : StoreChange) (ctx : Option ReplyCtx) (s : State) : State :=
  let n := (changeSlots c (slotsAhead s)).length
  let second : Bool := s.hood.storeB != decide (s.hood.store.length % 2 = 0)
  emit (.hostFill s.fuses.bootAccessId.toNat (s.fuses.keyStoreAddr.toNat + (if second then 1048576 else 0)) (storeLen n) false)
    { s with hood := { s.hood with store := s.hood.store ++ [{ change := c, ctx }] } }

/-- The sessions opened under a key end. -/
def endKeySessions (k : Nat) (s : State) : State :=
  { s with cpx := { s.cpx with sessions := tkeep s.cpx.sessions (fun _ x => x.keyId ≠ k) } }

/-- The EVENT record of a key change (Table 14-5, 0x000A). -/
def keyEvent (k act : Nat) (s : State) : State := eventRecord 0x000A (lsbBytes 2 k ++ lsbBytes 1 act) s

/-- Delegated keys and certificates under a revoked issuer end (R425). -/
def dropIssued (k : Nat) (s : State) : State :=
  { s with hood := { s.hood with delegated := tkeep s.hood.delegated (fun _ d => d.issuer ≠ k)
                                 certs := s.hood.certs.filter (fun c => c.issuer ≠ k) } }

/-- Lifecycles in which OPEN rests on the hood being blank (R372, Table 17-9). -/
def openNeedsBlank (s : State) : Bool := lifecycle s = 1 || lifecycle s = 2

/-- A change takes effect after its write's response; its reply follows. -/
def storeApplied (q : StoreOp) (s : State) : State :=
  let blank := hoodBlank s
  let s1 := { s with hood := { s.hood with slots := changeSlots q.change s.hood.slots, storeSeq := s.hood.storeSeq + 1
                                           storeB := !s.hood.storeB } }
  let reply := fun (body : Fields) (a : State) => match q.ctx with | some c => answer c stOk 0 body a | none => a
  match q.change with
  | .install k x =>
    let s2 := reply [] (keyEvent k 0 s1)
    let s3 := if blank ∧ x.manager then endKeySessions 1 s2 else s2
    if x.manager ∧ openNeedsBlank s3 ∧ s3.dbg.level = .opened then closeLevel s3 else s3
  | .revoke k => dropIssued k (endKeySessions k (reply [] (keyEvent k 1 s1)))
  | .clear => reply [(1, lifecycle s1)] s1

/-- The oldest store write is answered. -/
def storeAnswered (bad timeout : Bool) (s : State) : State :=
  match s.hood.store with
  | [] => s
  | q :: r =>
    let s1 := { s with hood := { s.hood with store := r } }
    if bad = false then storeApplied q s1
    else
      let s2 := errorAt 0x12 (if timeout then 0x0B02 else 0x0B01) 0 sevMinor (if timeout then clsTimeout else clsInput) 0 0 s1
      match q.ctx with | some c => answer c stInternal 0 [] s2 | none => s2

/-! ## Responses of host memory -/

/-- An error of HPE at an access of a ring (R262, Table 18-5). -/
def hpeBusError (key : Nat) (timeout : Bool) (s : State) : State :=
  errorAt 0x0A (if timeout then 0x0B02 else 0x0B01) key sevMinor (if timeout then clsTimeout else clsInput) 0 0 s

/-- The oldest completion write of a ring is answered; an error puts C and W back and the ring in ERROR. -/
def cplAnswered (key : Nat) (bad timeout : Bool) (s : State) : State :=
  let r := ringOf s key
  match r.back with
  | [] => s
  | (c, w) :: rest =>
    if r.state = 4 ∨ r.state = 5 then s
    else if bad then ringError key 7 c timeout (putRing key { r with c, w, back := [] } s)
    else putRing key { r with back := rest } s

/-- Access ID under which an access is made. -/
def accessIdOf (s : State) (a : HostAccess) : Nat :=
  match a with
  | .descRead t n | .dataRead t n | .dataWrite t n | .cplWrite t n => ringAccess s (ringKey t n)
  | .battWrite => (match s.cfg.batt with | some b => b.accessId | none => 0)
  | .xdma c => (xdmaCfg s c).accessId
  | .storeWrite | .imageRead => s.fuses.bootAccessId.toNat

/-- A response, good, in error, or missing for 64 µs. -/
def hostAnswered (a : HostAccess) (bad timeout : Bool) (s : State) : State :=
  match a with
  | .descRead t n =>
    let key := ringKey t n
    if bad ∧ ((ringOf s key).state = 2 ∨ (ringOf s key).state = 3) then ringError key 6 (ringOf s key).next timeout s else s
  | .dataRead t n => if bad ∧ (ringOf s (ringKey t n)).state ≠ 5 then hpeBusError (ringKey t n) timeout s else s
  | .dataWrite t n =>
    let key := ringKey t n
    if (ringOf s key).state = 5 then s else dataWritten key (!bad) (if bad then hpeBusError key timeout s else s)
  | .cplWrite t n => cplAnswered (ringKey t n) bad timeout s
  | .battWrite => if bad then battFail timeout s else s
  | .xdma c => xdmaAnswered c bad timeout s
  | .storeWrite => storeAnswered bad timeout s
  | .imageRead =>
    if bad then errorAt 0x12 (if timeout then 0x0B02 else 0x0B01) 0 sevMinor (if timeout then clsTimeout else clsInput) 0 0 s else s

/-- SYP_MASTER_RESPONSE. The pouncer's SYP_TIMEOUT makes it count as timed out (Table 16-4). -/
def masterResponse (a : HostAccess) (bad : Bool) (s : State) : State :=
  if clocked s = false then s
  else match pounceFires 0xB (accessIdOf s a) s with
    | (some _, s1) => hostAnswered a true true s1
    | (none, s1) => hostAnswered a bad false s1

/-- SYP_RESPONSE_TIMEOUT. -/
def responseTimeout (a : HostAccess) (s : State) : State := if clocked s then hostAnswered a true true s else s

def execErrorRead (z : Zelgen) (unit : Nat) (s : State) : Result := command (opErrorRead unit) z s
def execErrorAck (z : Zelgen) (unit countSeen : Nat) (s : State) : Result := command (opErrorAck unit countSeen) z s
def execErrorEscalationTimeout (dt unit : Nat) (s : State) : Result := happen dt (escalate unit) s
def execErrorLogWriteTimeout (dt : Nat) (s : State) : Result := happen dt logTimeout s
def execErrorLogWriteError (dt : Nat) (s : State) : Result := happen dt logWriteError s
def execSramEccError (dt bank : Nat) (hit : SramHit) (s : State) : Result := happen dt (sramError bank hit) s
def execCpxLockstepError (dt : Nat) (s : State) : Result := happen dt lockstepError s
def execCpxRestartDone (dt : Nat) (s : State) : Result := happen dt restartDone s
def execPufCheckFail (dt : Nat) (which : FatalCheck) (s : State) : Result := happen dt (fatalCheck which) s
def execSypMasterResponse (dt : Nat) (access : HostAccess) (error : Bool) (s : State) : Result :=
  happen dt (masterResponse access error) s
def execSypResponseTimeout (dt : Nat) (access : HostAccess) (s : State) : Result := happen dt (responseTimeout access) s

end Sys2Proof.Machine
end

