-- ==== Sys2Proof/Machine/Trust.lean ====
section
/-! DEFINITION. Group 0x0E (17): tokens, keys, the lifecycle, firmware and zeroization. -/
namespace Sys2Proof.Machine

/-! ## Tokens (R395, R396) -/

/-- A token's fields; the bytes of its trailer are not carried (log 1). -/
def tokenFields (t : Token) : Fields :=
  [(1, t.tokenType), (1, t.level), (2, t.pouncerMask.toNat), (1, t.tokenFlags.toNat), (1, t.rsv5.toNat), (2, t.signerKeyId),
   (6, t.notBefore), (6, t.expiry), (48, t.fuseDigest.toNat), (4, t.bootTag.toNat), (4, t.rsv72.toNat), (4728, 0)]

/-- No reserved bit or byte of a token is set, its trailer's among them (R8, Table 2-4). -/
def tokenRsvZero (t : Token) : Bool :=
  t.trailerRsv = 0 && field t.tokenFlags 7 1 = 0 && t.rsv5 = 0 && t.rsv72 = 0 && !bit t.pouncerMask 0

/-- A token's fields with ranges of their own, `o` its offset in the body. -/
def tokenRanges (o : Nat) (t : Token) : List (Nat × Bool) :=
  [(o, 1 ≤ t.tokenType && t.tokenType ≤ 3), (o + 6, 1 ≤ t.signerKeyId && t.signerKeyId ≤ 7)]

/-- A key that signs tokens and certificates: the anchor, or an occupied manager slot. -/
def signerKnown (s : State) (k : Nat) : Bool :=
  k = 1 || (match tget s.hood.slots k with | some x => x.manager | none => false)

/-- The time window of R396; while SYNC is UNSET it is skipped. -/
def windowCheck (notBefore expiry o p : Nat) (s : State) : List Refused :=
  if s.tsu.sync = .unset then [] else [param (notBefore ≤ seconds s) o, param (seconds s < expiry) p]

/-- The checks of R396 that every token passes, `o` its offset in the body. -/
def tokenCheck (o typ : Nat) (t : Token) (s : State) : Refused :=
  firstOf
    ([param (t.tokenType = typ) o,
      need (match typ with | 1 => 1 ≤ t.level && t.level ≤ 2 | 2 => t.level = 0 | _ => t.level ≤ 3) stOutOfRange (o + 1),
      param (t.fuseDigest = fuseDigest s) (o + 20),
      param (t.bootTag = 0 || t.bootTag = s.cpx.bootTag) (o + 68),
      param (t.trailerOk && signerKnown s t.signerKeyId) (o + 76),
      param (t.expiry - t.notBefore ≤ 604800) (o + 14)] ++ windowCheck t.notBefore t.expiry (o + 8) (o + 14) s)

/-- TOKEN_EXPIRY counted from loading while SYNC is UNSET, in ccyc (R396). -/
def unsetExpiry (notBefore expiry : Nat) (s : State) : Option Nat :=
  if s.tsu.sync = .unset then some (s.tsu.now + secs (expiry - notBefore)) else none

/-- Table 17-9: who signs a token for a level. -/
def levelSigner (level signer : Nat) (s : State) : Bool :=
  let anchor : Bool := signer = 1
  let lc := lifecycle s
  if level = 1 then
    (if lc = 0 then !anchor || hoodBlank s else if lc = 3 then anchor else lc ≠ 4 && !anchor)
  else anchor && (lc = 0 || lc = 3 || ((lc = 1 || lc = 2) && hoodBlank s))

/-! ## Keys (R385 to R389) -/

def opKeyInstall (b : KeyInstallBody) : Op :=
  { opcode := 0x0E01, kind := .i, auth := .m
    body := [(2, b.keyId), (1, b.keyClass), (97, b.ecdsaPub.toNat), (2592, b.mldsaPub.toNat), (56, b.wrappedSecret.toNat)]
    ranges := [(2, 1 ≤ b.keyClass && b.keyClass ≤ 2)]
    lifecycle := fun s => lifecycle s ≠ 3
    check := fun _ s => firstOf
      [param (if b.keyClass = 1 then 0x0002 ≤ b.keyId && b.keyId ≤ 0x0007 else 0x0010 ≤ b.keyId && b.keyId ≤ 0x00FF) 0,
       need (!thas (slotsAhead s) b.keyId) stBusy,
       param (b.ecdsaPub.toNat / 2 ^ 768 = 4 && b.onCurve) 3,
       param b.unwrapped.isSome 2692]
    run := fun ctx s =>
      match b.unwrapped with
      | some k => { state := writeStore (.install b.keyId { manager := b.keyClass = 1, ecdsaPub := b.ecdsaPub
                                                            mldsaPub := b.mldsaPub, secret := k }) (some ctx) s
                    later := true }
      | none => { state := s } }

/-- Manager keys in the store. -/
def managerSlots (l : Tab KeySlot) : Nat := countIf l (fun e => e.2.manager)

/-- KEY_REVOKE of a delegated slot burns no fuse and writes no store (R425). -/
def revokeDelegated (k : Nat) (s : State) : State :=
  keyEvent k 1 { s with hood := { s.hood with delegated := tdel s.hood.delegated k } }

def opKeyRevoke (k : Nat) : Op :=
  { opcode := 0x0E02, kind := .i, auth := .m, body := [(2, k)]
    ranges := [(0, (1 ≤ k && k ≤ 7) || (0x10 ≤ k && k ≤ 0x13F))]
    check := fun _ s => firstOf
      (if 0x100 ≤ k then [param (thas s.hood.delegated k) 0]
       else
        [param (k ≠ 1) 0, param (thas (slotsAhead s) k) 0,
         param (match tget (slotsAhead s) k with | some x => !x.manager || managerSlots (slotsAhead s) ≠ 1 | none => false) 0,
         need (burnt s.fuses.revokeCount < 512) stNoResource])
    run := fun ctx s =>
      if 0x100 ≤ k then { state := revokeDelegated k s }
      else
        { state := writeStore (.revoke k) (some ctx)
            (emit .fuseBurn { s with fuses := { s.fuses with revokeCount := burnNext s.fuses.revokeCount } })
          later := true } }

/-- KEY_DIGEST (R387). -/
def keyDigest (x : KeySlot) : Digest := Config.sha384 (msbBytes 97 x.ecdsaPub.toNat ++ msbBytes 2592 x.mldsaPub.toNat)

def opKeyList : Op :=
  { opcode := 0x0E03, kind := .q, auth := .o
    run := fun _ s =>
      { state := s, body := s.hood.slots.flatMap (fun e =>
          [(2, e.1), (1, if e.2.manager then 1 else 2), (48, (keyDigest e.2).toNat)]) } }

/-! ## Lifecycle (R394) -/

/-- Table 17-5: the transition is listed and its signer permitted; that another signer meets WRONG_LIFECYCLE is the model's choice
(DESIGN CHOICE, log 40). -/
def transition (src dst signer : Nat) : Bool :=
  match src, dst with
  | 0, 1 => signer ≠ 1
  | 1, 2 => signer ≠ 1
  | 1, 3 => true
  | 2, 3 => true
  | n, 4 => n ≤ 3
  | _, _ => false

/-- Every transition: the fuse bit, the debug level, sessions, the EVENT record. -/
def advanceTo (dst : Nat) (s : State) : State :=
  let s1 := emit .fuseBurn { s with fuses := { s.fuses with lifecycle := setBit s.fuses.lifecycle (dst - 1)
                                                            fuseLock := s.fuses.fuseLock || decide (dst = 1) } }
  let s2 := if s1.dbg.level = .closed then eventRecord 0x000B (lsbBytes 1 (lifecycle s1) ++ lsbBytes 1 0) s1 else closeLevel s1
  endSessions s2

/-- BASE_MODE := LOCKED; under QUARANTINE the reported mode stays. -/
def lockBase (s : State) : State :=
  let q := s.mode.quarantine
  let s1 := setBase .locked s
  { s1 with mode := { s1.mode with quarantine := q } }

/-- Entry into RETURNED: keys and SAKs are erased and the empty store is written; the reply follows its response (R386). -/
def enterReturned (ctx : ReplyCtx) (s : State) : State := writeStore .clear (some ctx) (lockBase (eraseKeys s))

def opLifecycleAdvance (b : LifecycleBody) : Op :=
  { opcode := 0x0E06, kind := .i, auth := .m
    body := (1, b.targetState) :: (match b.token with | some t => tokenFields t | none => [])
    rsvZero := match b.token with | some t => tokenRsvZero t | none => true
    ranges := (0, decide (b.targetState ≤ 4)) :: (match b.token with | some t => tokenRanges 1 t | none => [])
    check := fun ctx s => firstOf
      [need (transition (lifecycle s) b.targetState ctx.signer) stWrongLifecycle,
       param (b.token.isSome = decide (b.targetState = 3)) 1,
       param (b.targetState ≠ 1 || (s.fuses.bootAccessId ≠ 0 && s.fuses.fwImageAddr ≠ 0 && s.fuses.keyStoreAddr ≠ 0)) 0,
       match b.token with
       | some t => firstOf [tokenCheck 1 2 t s, param (t.bootTag = 0) 69, param (t.signerKeyId = 1) 7]
       | none => none]
    run := fun ctx s =>
      let s1 := advanceTo b.targetState s
      if b.targetState = 3 then { state := enterReturned ctx s1, later := true }
      else if b.targetState = 4 then { state := zeroize (answer ctx stOk 0 [(1, 4)] s1), later := true }
      else { state := s1, body := [(1, b.targetState)] } }

/-! ## Firmware (R390 to R393) -/

def opFirmwareStage (b : FirmwareStageBody) : Op :=
  { opcode := 0x0E07, kind := .i, auth := .m, body := [(4, b.offset), (b.chunk.length, ofMsb b.chunk)]
    lenOk := b.chunk.length ≤ 8156
    ranges := [(0, b.offset % 4 = 0)]
    check := fun _ _ => need (b.offset + b.chunk.length ≤ 2097152) stOutOfRange 4
    run := fun _ s => { state := { s with cpx := { s.cpx with staging := memWrites s.cpx.staging b.offset b.chunk } } } }

/-- Bytes of the staging area. -/
def imageBytes (s : State) (a n : Nat) : List Byte := memReads s.cpx.staging a n

/-- The checks of R391 on the staged image. -/
def imageOk (s : State) (trailerOk : Bool) : Bool :=
  let key := staged s 12 1
  staged s 0 4 = 0x4A465731 && staged s 8 4 + 4728 ≤ 2097152 && key ≤ 3 && !bit s.fuses.fwKeyRevoked key &&
    Config.sha384 (imageBytes s 128 2696) = BitVec.extractLsb' (384 * key) 384 s.fuses.fwKeyDigest &&
    Config.sha384 (imageBytes s 2824 2696) = s.fuses.anchorDigest &&
    burnt s.fuses.fwSvn ≤ staged s 7 1 && trailerOk

def opFirmwareActivate (b : FirmwareActivateBody) : Op :=
  { opcode := 0x0E08, kind := .p, auth := .m, body := [(4, b.imageLen), (48, b.imageDigest.toNat)]
    check := fun _ s => firstOf
      [param (b.imageLen ≤ 2097152 && b.imageLen = staged s 8 4) 0,
       param (b.imageDigest = Config.sha384 (imageBytes s 0 b.imageLen)) 4,
       param (imageOk s b.trailerOk) 0]
    run := fun ctx s =>
      { state := { s with cpx := { s.cpx with activation := some { since := s.tsu.now, ctx := some ctx } } }, status := stPending } }

/-- FIRMWARE_ACTIVATE_DONE: the new image runs, or the old one keeps running; the record of a failure is free where R392
states no code (log 35). -/
def activateDone (ok : Bool) (s : State) : State :=
  match s.cpx.activation with
  | none => s
  | some a =>
    if a.restarting = false ∨ clocked s = false then s
    else
      let s1 := { s with cpx := { s.cpx with activation := none, restart := none } }
      if ok then
        raiseEvent 0x896 { s1 with cpx := { s1.cpx with
          fwVersion := BitVec.ofNat 32 (staged s 4 4), fwKeyIndex := staged s 12 1
          fwDigest := Config.sha384 (imageBytes s 0 (staged s 8 4)) } }
      else
        let f := fun (i : Nat) => (Config.injected 0x11 i s.draws).toNat
        errorAt 0x11 (f 0 % 65536) (f 1 % 65536) (f 5 % 5) (f 2 % 5) (f 3) (f 4) { s1 with draws := s1.draws + 1 }

/-- The firmware keys revoked once KEY_INDEX `k` is. -/
def fwRevoked (s : State) (k : Nat) : BitVec 4 := setBit s.fuses.fwKeyRevoked k

def opFwKeyRevoke (t : Token) : Op :=
  { opcode := 0x0E0A, kind := .i, auth := .m, body := tokenFields t, rsvZero := tokenRsvZero t, ranges := tokenRanges 0 t
    check := fun _ s => firstOf
      [tokenCheck 0 3 t s,
       param (t.pouncerMask = 0) 2,
       param (t.tokenFlags = 0) 4,
       param (t.signerKeyId = 1) 6,
       param (t.level ≠ s.cpx.fwKeyIndex) 1,
       param (fwRevoked s t.level ≠ 0xF) 1]
    run := fun _ s =>
      { state := emit .fuseBurn { s with fuses := { s.fuses with fwKeyRevoked := fwRevoked s t.level } }
        body := [(1, (fwRevoked s t.level).toNat)] } }

/-! ## Zeroization (R401) -/

/-- The reply is written before the hood erases; both take place here, within the rule's 1 ms (log 36). -/
def opZeroize (confirm : BitVec 32) : Op :=
  { opcode := 0x0E09, kind := .i, auth := .m, body := [(4, confirm.toNat)]
    check := fun _ _ => param (confirm = 0x5A45524F) 0
    run := fun ctx s => { state := zeroize (answer ctx stOk 0 [] s), later := true } }

def execKeyInstall (z : Zelgen) (b : KeyInstallBody) (s : State) : Result := command (opKeyInstall b) z s
def execKeyRevoke (z : Zelgen) (keyId : Nat) (s : State) : Result := command (opKeyRevoke keyId) z s
def execKeyList (z : Zelgen) (s : State) : Result := command opKeyList z s
def execLifecycleAdvance (z : Zelgen) (b : LifecycleBody) (s : State) : Result := command (opLifecycleAdvance b) z s
def execFirmwareStage (z : Zelgen) (b : FirmwareStageBody) (s : State) : Result := command (opFirmwareStage b) z s
def execFirmwareActivate (z : Zelgen) (b : FirmwareActivateBody) (s : State) : Result := command (opFirmwareActivate b) z s
def execZeroize (z : Zelgen) (confirm : BitVec 32) (s : State) : Result := command (opZeroize confirm) z s
def execFwKeyRevoke (z : Zelgen) (token : Token) (s : State) : Result := command (opFwKeyRevoke token) z s
def execFirmwareActivateDone (dt : Nat) (ok : Bool) (s : State) : Result := happen dt (activateDone ok) s

end Sys2Proof.Machine
end

