-- ==== Sys2Proof/Machine/DebugUnit.lean ====
section
/-! DEFINITION. Group 0x0D and the debug unit (16): tokens, freezing and resume, the TAP and the pouncer. -/
namespace Sys2Proof.Machine

/-! ## The debug level (R371, R372, R396) -/

def opDebugTokenLoad (t : Token) : Op :=
  { opcode := 0x0D01, kind := .i, auth := .m, body := tokenFields t, rsvZero := tokenRsvZero t, ranges := tokenRanges 0 t
    mode := fun s => need (!s.mode.quarantine) stWrongMode
    check := fun _ s => firstOf [tokenCheck 0 1 t s, need (levelSigner t.level t.signerKeyId s) stWrongLifecycle]
    run := fun _ s =>
      let s1 := setDebug (if t.level = 1 then .observe else .opened) s
      { state := { s1 with dbg := { s1.dbg with expiry := t.expiry, expiryCcyc := unsetExpiry t.notBefore t.expiry s1
                                                mask := t.pouncerMask, freezePermit := bit t.tokenFlags 0 } }
        body := [(1, t.level)] } }

/-! ## Freezing (R373, R374) -/

/-- The place of the reply just sent, which a freeze waits for; none: it was not written. -/
def replyPlace (ctx : ReplyCtx) (before after : State) : Option Nat :=
  match ctx.origin, ctx.slot with
  | .ring n, some i => if (repliesOf after n).any (fun e => e.1 = i && e.2.isSome) then some i else none
  | .ring _, none => none
  | _, _ => if before.hpe.nextId < after.hpe.nextId then some before.hpe.nextId else none

/-- FREEZE_SCOPE 0: f is the ccyc after the reply has been written. -/
def freezeAfterReply (ctx : ReplyCtx) (s : State) : State :=
  let s1 := answer ctx stOk 0 [] s
  match replyPlace ctx s s1 with
  | some i => { s1 with dbg := { s1.dbg with await := some (ctx.origin, i) } }
  | none => triggerFreeze (s1.tsu.now + 1) false s1

def opFreeze (scope : Nat) : Op :=
  { opcode := 0x0D02, kind := .i, auth := .m, body := [(1, scope)]
    ranges := [(0, scope ≤ 2 || scope = 0x80)]
    lifecycle := freezeAllowed
    run := fun ctx s =>
      if scope = 0 then { state := freezeAfterReply ctx s, later := true }
      else { state := { s with dbg := { s.dbg with armed := if scope = 0x80 then 0 else scope } } } }

/-- The FREEZE input acts on the block as it stands. -/
def inputActs (s : State) : State :=
  if s.mode.stage ≠ .run ∨ s.mode.zeroized then s
  else if freezeAllowed s then triggerFreeze (s.tsu.now + 1) true s
  else dbgNote 0 s

/-- FREEZE_INPUT: the filtered input rises. -/
def freezeInput (s : State) : State :=
  if s.mode.stage = .off then s else inputActs { s with dbg := { s.dbg with input := true } }

/-- Every configured port of a powered group restarts from NO_SIGNAL (R375); a retrain continues. -/
def restartPort (p : Nat) (s : State) : State :=
  let r := (portOf s p).retrain
  let s1 := gateLink p (putPort p { portOf s p with retrain := false } s)
  putPort p { portOf s1 p with retrain := r } s1

/-- A freeze ends (R375). The frozen duration is added, in steps of 40 ns, as a relative step that leaves SYNC unchanged. -/
def endFreeze (s : State) : State :=
  if s.dbg.freeze.isNone then s
  else
    let d := if s.dbg.frozen then s.dbg.frozenFor else 0
    let s1 := restRanks false
      { s with dbg := { s.dbg with frozen := false, freeze := none, rotated := []
                                   expiryCcyc := s.dbg.expiryCcyc.map (fun e => e - d) } }
    let s2 := (s1.cfg.port.filter (fun e => portPowered s1 e.1)).foldl (fun a e => restartPort e.1 a) s1
    if s.dbg.frozen = false then s2
    else
      { s2 with tsu := { s2.tsu with step := s2.tsu.step ++
          [{ due := s2.tsu.now + 64, relative := true, time := 0, offset := d / 64 * 40 * nsUnit, ctx := none, keepSync := true }] } }

/-- FREEZE_INPUT_FALL ends a freeze that the input triggered. -/
def freezeFall (s : State) : State :=
  if s.mode.stage = .off then s
  else
    let s1 := { s with dbg := { s.dbg with input := false } }
    if s1.dbg.freeze.any (fun z => z.byInput) then endFreeze s1 else s1

/-- FREEZE_CLOCK_STOP (Table 16-2): in ccyc f + Q every core clock stops. The frames in progress were aborted in the ccyc after f,
`discarded` responses are missing, and the ranks are in self-refresh. -/
def clockStop (q discarded : Nat) (s : State) : State :=
  match s.dbg.freeze with
  | none => s
  | some z =>
    if s.dbg.frozen ∨ 4096 < q ∨ s.tsu.now ≠ z.f + q then s
    else if s.dbg.level = .closed then endFreeze s
    else
      let s1 := (List.range 32).foldl (fun a g => cutHolds g (z.f + 1) a) s
      let s2 := s1.cfg.port.foldl (fun a e => cutLineAt (z.f + 1) e.1 a) s1
      let s3 := restRanks true s2
      { s3 with dbg := { s3.dbg with frozen := true, q, freezeCcyc := s3.tsu.now % 2 ^ 32, frozenFor := 0
                                     discarded := min 255 (s3.dbg.discarded + discarded) } }

/-- The token has expired; PMU measures it while the block is frozen (R375, R396). -/
def tokenExpired (s : State) : Bool :=
  let d := if s.dbg.frozen then s.dbg.frozenFor else 0
  match s.dbg.expiryCcyc with
  | some e => e ≤ s.tsu.now + d
  | none => s.dbg.expiry * secUnit ≤ s.tsu.time + d * 5 * nsUnit / 8

/-- TOKEN_EXPIRY: a freeze ends, then the level becomes CLOSED. -/
def tokenExpiry (s : State) : State :=
  if s.dbg.level = .closed ∨ tokenExpired s = false then s else closeLevel (endFreeze s)

/-! ## The TAP (R376 to R378) -/

/-- `n` bits of a number, least significant first. -/
def lsBits (n v : Nat) : List Bool := (List.range n).map (fun i => v / 2 ^ i % 2 = 1)

/-- What a TAP instruction shifts out: nothing in OFF, one captured 0 in BRIM, where each acts as BYPASS (Table 17-10). -/
def tapShift (bits : List Bool) (s : State) : State :=
  match s.mode.stage with
  | .off => s
  | .brim => emit (.tdo [false]) s
  | _ => emit (.tdo bits) s

/-- IDCODE (Table 16-3). -/
def idcode (s : State) : Nat := s.fuses.siliconRev.toNat * 2 ^ 28 + 0x4A52 * 4096 + s.fuses.manufacturerId.toNat * 2 + 1

/-- DBG_STATUS (Table 16-3). -/
def dbgStatus (s : State) : Nat :=
  s.dbg.q * 2 ^ 48 + s.dbg.freezeCcyc * 65536 + s.dbg.discarded * 256 + modeCode s * 16 + levelCode s.dbg.level

/-- In ZEROIZED only IDCODE, DBG_STATUS and BYPASS respond; in BOOT, CHAIN_READ besides. -/
def chainTap (s : State) : Bool := decide (s.mode.stage = .run) && !s.mode.zeroized

/-- DOMAIN and SEGMENT. -/
def selDomain (s : State) : Nat := field s.dbg.chain 15 8
def selSegment (s : State) : Nat := field s.dbg.chain 7 0

/-- STATUS of a CHAIN_READ (R377). -/
def chainStatus (s : State) : Nat :=
  let d := selDomain s
  if s.dbg.level = .closed ∨ s.mode.stage ≠ .run then 5
  else if s.dbg.frozen = false then 4
  else if 0x25 < d ∨ Config.segmentExists d (selSegment s) = false then 3
  else if d < 32 ∧ (groupState s d = .gated ∨ groupState s d = .absent ∨ groupState s d = .fenced) then 2
  else if s.dbg.level = .observe ∧ Config.segmentSecret d (selSegment s) then 1
  else 0

/-- Word `i` of the selected segment, its secret bits 0 under OBSERVE (R378). -/
def chainWord (s : State) (i : Nat) : BitVec 64 :=
  match Config.segmentKey (selDomain s) (selSegment s) i with
  | some (k, j) => if s.dbg.level = .observe then 0 else keyWord (saOfKey s k) j
  | none =>
    let w := Config.segmentWord (selDomain s) (selSegment s) i s.tsu.now
    if s.dbg.level = .observe then w &&& ~~~(Config.segmentMask (selDomain s) (selSegment s) i) else w

/-- The selected segment's bits in the order in which they stand to shift out. -/
def chainBits (s : State) (len : Nat) : List Bool :=
  let l := (List.range len).flatMap (fun i => lsBits 64 (chainWord s i).toNat)
  l.rotateLeft (tgetD s.dbg.rotated s.dbg.chain.toNat 0)

/-- CHAIN_READ of `n` bits: the header, then the segment, which recirculates. -/
def chainRead (n : Nat) (s : State) : State :=
  match s.mode.stage with
  | .off => s
  | .brim => emit (.tdo [false]) s
  | _ =>
    if s.mode.zeroized then emit (.tdo [false]) s
    else
      let st := chainStatus s
      let len := if st ≤ 1 then Config.segmentLen (selDomain s) (selSegment s) % 2 ^ 24 else 0
      let seg := chainBits s len
      let body := (List.range (n - 32)).map (fun i => seg.getD (i % (64 * len)) false)
      let k := tgetD s.dbg.rotated s.dbg.chain.toNat 0
      emit (.tdo ((lsBits 32 (st * 2 ^ 24 + len) ++ body).take n))
        (if len = 0 then s
         else { s with dbg := { s.dbg with rotated := tput s.dbg.rotated s.dbg.chain.toNat ((k + (n - 32)) % (64 * len)) } })

/-- CHAIN_SELECT. -/
def chainSelect (v : BitVec 16) (s : State) : State :=
  if s.mode.stage = .off then s
  else if chainTap s then { s with dbg := { s.dbg with chain := v } }
  else emit (.tdo [false]) s

/-- RESUME (Table 16-3). -/
def resume (v : BitVec 32) (s : State) : State :=
  if s.mode.stage = .off then s
  else if chainTap s then (if v = 0x5245534D then endFreeze s else s)
  else emit (.tdo [false]) s

/-- BYPASS: one bit captured as 0, then TDI. -/
def bypassShift (tdi : Bool) (s : State) : State :=
  if s.mode.stage = .off then s else emit (.tdo [false]) { s with dbg := { s.dbg with bypass := tdi } }

/-! ## The pouncer (R379, R380) -/

/-- The class is granted at the level in force (Table 16-1). -/
def classGranted (cls : Nat) (s : State) : Bool :=
  match s.dbg.level with
  | .closed => false
  | .observe => cls ≤ 8 && bit s.dbg.mask cls
  | .opened => true

/-- TARGET within Table 16-4. -/
def targetOk (cls t : Nat) : Bool :=
  match cls with
  | 1 => t ≤ 31
  | 2 => t ≤ 511
  | 3 => t ≤ 31
  | 4 => t / 256 ≤ 3 && (t / 256 ≤ 1 || t % 256 ≤ 63)
  | 5 => t ≤ 515
  | 6 => t ≤ 515
  | 7 => t ≤ 0xFDF
  | 8 => t ≤ 0xFDF
  | 9 => t ≤ 3
  | 0xA => t ≤ 0x1B
  | 0xB => t ≤ 4095
  | _ => false

/-- ARG within Table 16-4; a class without one takes 0. -/
def argOk (cls a : Nat) : Bool :=
  match cls with
  | 1 => 1 ≤ a && a ≤ 4096
  | 2 => 512 ≤ a && a ≤ 16384
  | 4 => 100 ≤ a && a ≤ 1000000
  | 5 => 1000 ≤ a && a ≤ 1000000000
  | 6 => 1 ≤ a && a ≤ 16
  | 9 => a ≤ 1
  | 0xA => a ≤ 3
  | _ => a = 0

/-- A level source is held high for one ccyc, or an event source's bit is set (IRQ_SPURIOUS). -/
def spurious (n : Nat) (s : State) : State :=
  if isEventSource n then raiseEvent n s
  else
    let h := tgetD s.jic.levels n []
    if levelNow h then s
    else { s with jic := { s.jic with levels := tput s.jic.levels n ((s.tsu.now + 1, false) :: (s.tsu.now, true) :: levelTrim h s.tsu.now) } }

/-- Perturbations whose occasion is the setting itself (log 24); a source that is latched already is withdrawn. -/
def pounceNow (cls t arg : Nat) (s : State) : State :=
  match cls with
  | 5 => lanePortCheck t (putLane t { laneOf s t with dropUntil := some (s.tsu.now + nsUp arg) } s)
  | 7 => if s.jic.targets.any (fun x => x.2.presented.any (fun q => q.1 = t)) then vanish t s else s
  | 8 => spurious t s
  | 0xA => injectError t arg s
  | _ => s

/-- A perturbation starts; one of the same class and target is replaced. -/
def pounceStart (b : PouncerBody) (s : State) : State :=
  let x : Perturb := { cls := b.perturbation, target := b.target, arg := b.arg, rate := b.rateLog2
                       due := if b.duration = 0 then none else some (s.tsu.now + us b.duration) }
  let s1 := { s with dbg := { s.dbg with
    pounce := (running s).filter (fun y => y.cls ≠ x.cls || y.target ≠ x.target) ++ [x] } }
  if b.perturbation = 5 ∨ b.perturbation = 7 ∨ b.perturbation = 8 ∨ b.perturbation = 0xA then
    match pounceFires b.perturbation b.target s1 with
    | (some arg, s2) => pounceNow b.perturbation b.target arg s2
    | (none, s2) => s2
  else s1

def opPouncerSet (b : PouncerBody) : Op :=
  { opcode := 0x0D03, kind := .i, auth := .m
    body := [(2, b.perturbation), (4, b.target), (4, b.duration), (2, b.rateLog2), (2, b.rsv.toNat), (8, b.arg)]
    rsvZero := b.rsv = 0
    ranges := [(0, 1 ≤ b.perturbation && b.perturbation ≤ 0xB), (6, b.duration ≤ 3600000000), (10, b.rateLog2 ≤ 30)]
    groups := if (b.perturbation = 1 ∨ b.perturbation = 3) ∧ b.target ≤ 31 then [b.target] else []
    ports := if (b.perturbation = 2 ∨ b.perturbation = 5 ∨ b.perturbation = 6) ∧ b.target ≤ 515 then [b.target] else []
    lifecycle := classGranted b.perturbation
    mode := fun s => need (modeCode s ≠ 6 && modeCode s ≠ 8 && modeCode s ≠ 9) stWrongMode
    check := fun _ s => firstOf
      [need (targetOk b.perturbation b.target) stOutOfRange 2,
       need (argOk b.perturbation b.arg) stOutOfRange 14,
       need ((running s).length < 16 || (running s).any (fun y => y.cls = b.perturbation && y.target = b.target)) stNoResource]
    run := fun _ s => { state := pounceStart b s } }

def opPouncerStop : Op :=
  { opcode := 0x0D04, kind := .i, auth := .m, run := fun _ s => { state := { s with dbg := { s.dbg with pounce := [] } } } }

/-- POUNCER_ACTIVE: bit c while a perturbation of class c runs. -/
def pouncerActive (s : State) : BitVec 16 := (running s).foldl (fun m x => setBit m x.cls) 0

def opDebugStateGet : Op :=
  { opcode := 0x0D05, kind := .q, auth := .o
    run := fun _ s => { state := s, body := [(1, levelCode s.dbg.level), (6, s.dbg.expiry), (2, (pouncerActive s).toNat)] } }

/-- POUNCER_DURATION_EXPIRY; ccyc do not advance in FROZEN, which suspends it (R380). -/
def pounceExpiry (cls t : Nat) (s : State) : State :=
  if clocked s = false then s
  else { s with dbg := { s.dbg with
    pounce := s.dbg.pounce.filter (fun y => !(y.cls = cls && y.target = t && y.due.any (fun d => d ≤ s.tsu.now))) } }

def execDebugTokenLoad (z : Zelgen) (token : Token) (s : State) : Result := command (opDebugTokenLoad token) z s
def execFreeze (z : Zelgen) (freezeScope : Nat) (s : State) : Result := command (opFreeze freezeScope) z s
def execPouncerSet (z : Zelgen) (b : PouncerBody) (s : State) : Result := command (opPouncerSet b) z s
def execPouncerStop (z : Zelgen) (s : State) : Result := command opPouncerStop z s
def execDebugStateGet (z : Zelgen) (s : State) : Result := command opDebugStateGet z s
def execFreezeInput (dt : Nat) (s : State) : Result := happen dt freezeInput s
def execFreezeInputFall (dt : Nat) (s : State) : Result := happen dt freezeFall s
def execFreezeClockStop (dt q discarded : Nat) (s : State) : Result := happen dt (clockStop q discarded) s
def execTokenExpiry (dt : Nat) (s : State) : Result := happen dt tokenExpiry s
def execPouncerDurationExpiry (dt cls target : Nat) (s : State) : Result := happen dt (pounceExpiry cls target) s
def execIdcode (dt : Nat) (s : State) : Result := happen dt (fun a => tapShift (lsBits 32 (idcode a)) a) s
def execDbgStatus (dt : Nat) (s : State) : Result := happen dt (fun a => tapShift (lsBits 64 (dbgStatus a)) a) s
def execChainSelect (dt : Nat) (value : BitVec 16) (s : State) : Result := happen dt (chainSelect value) s
def execChainRead (dt bits : Nat) (s : State) : Result := happen dt (chainRead bits) s
def execResume (dt : Nat) (value : BitVec 32) (s : State) : Result := happen dt (resume value) s
def execBypass (dt : Nat) (tdi : Bool) (s : State) : Result := happen dt (bypassShift tdi) s

end Sys2Proof.Machine
end

