-- ==== Sys2Proof/Machine/Hierarchy.lean ====
section
/-! DEFINITION. Group 0x0F and the hierarchy link (19): joining, commands and delegation, time, summaries, loss. -/
namespace Sys2Proof.Machine

/-! ## Roles and ports (R418, R419) -/

def roleOf (s : State) : Nat := match s.cfg.role with | some r => r.role | none => 0

/-- Enabled HLK ports. -/
def hlkPorts (cfg : Cfg) : List Nat := (cfg.hlkPort.filter (fun e => e.2 = 1)).map (fun e => e.1)

/-- Enabled HLK ports that are UP; a hidden fault counts as UP (R431). -/
def hlkPortsUp (s : State) : List Nat :=
  (hlkPorts s.cfg).filter (fun p => thas s.cfg.port p && portPowered s p && reportsUp (portOf s p))

/-- The HLK group address (R419). -/
def hlkGroup : Mac := 0x035A484C4B00

def opHlkRoleSet (b : HlkRoleBody) : Op :=
  { opcode := 0x0F01, kind := .s, auth := .m, body := [(1, b.role), (1, b.inst)]
    ranges := [(0, b.role ≤ 2), (1, b.inst ≤ 63)], edit := some (.hlkRole b) }

def opHlkLinkSet (b : HlkLinkBody) : Op :=
  { opcode := 0x0F02, kind := .s, auth := .m, body := [(2, b.port), (1, b.enable)]
    ranges := [(0, b.port ≤ 515), (2, b.enable ≤ 1)], ports := [b.port], edit := some (.hlkLink b) }

/-! ## Frames (R420, R421) -/

/-- CPX takes HLK frames. -/
def hlkRuns (s : State) : Bool := processing s && s.cpx.restart.isNone

/-- A frame is discarded and recorded (R421). -/
def hlkDiscard (h : HlkHead) (s : State) : State := errorAt 0x16 0x1602 (h.src % 64) sevNote clsInput 0 0 s

/-- The header's form: version, reserved bits, destination. -/
def headOk (h : HlkHead) (s : State) : Bool := h.version = 1 && h.rsvOk && h.src ≤ 63 && h.dst = instOf s && h.port ∈ hlkPorts s.cfg

/-- A tagged frame moves its partner's link to the port it came on (R431) and shows the partner alive. -/
def Partner.heard (p : Partner) (h : HlkHead) (s : State) : Partner :=
  { p with rxSeq := h.seq, seen := s.tsu.now, seenSec := seconds s, port := h.port, mac := h.srcMac }

/-- A manager's check of a frame from a joined worker. -/
def fromWorker (h : HlkHead) (s : State) : Option State :=
  match tget s.hlk.workers h.src with
  | some w =>
    if roleOf s = 1 ∧ headOk h s ∧ w.state = 1 ∧ h.tagOk ∧ w.rxSeq < h.seq then
      some { s with hlk := { s.hlk with workers := tput s.hlk.workers h.src (w.heard h s) } }
    else none
  | none => none

/-- A worker's check of a frame from its manager. -/
def fromMgr (h : HlkHead) (s : State) : Option State :=
  match s.hlk.manager with
  | some (i, m) =>
    if roleOf s = 2 ∧ headOk h s ∧ i = h.src ∧ h.tagOk ∧ m.rxSeq < h.seq then
      some { s with hlk := { s.hlk with manager := some (i, m.heard h s) } }
    else none
  | none => none

/-- A frame of a joined partner is taken, or discarded. -/
def hlkTake (checked : Option State) (h : HlkHead) (f : State → State) (s : State) : State :=
  if hlkRuns s = false then s
  else match checked with
    | some s1 => f s1
    | none => hlkDiscard h s

/-! ## Joining (R422) -/

/-- The lowest occupied manager slot. -/
def lowestManager (s : State) : Option KeySlot := (s.hood.slots.find? (fun e => e.2.manager)).map (fun e => e.2)

/-- LK of R422. -/
def linkKey (secret : Digest) (mgrNonce wkrNonce : BitVec 256) (mgr wkr : Nat) : Digest :=
  Config.hmac384 (msbBytes 48 secret.toNat)
    (fieldBytes [(4, 0x5A484C31), (32, mgrNonce.toNat), (32, wkrNonce.toNat), (1, mgr), (1, wkr)])

/-- A new 256-bit nonce. -/
def drawNonce (s : State) : BitVec 256 × State :=
  let (d, s1) := draw s
  (d.setWidth 256, s1)

/-- HLK_HELLO_TIMER: an unjoined worker sends HELLO on every enabled HLK port that is UP. -/
def helloTimer (s : State) : State :=
  match lowestManager s with
  | none => s
  | some k =>
    if hlkRuns s = false ∨ roleOf s ≠ 2 ∨ s.hlk.manager.isSome ∨ s.tsu.now < s.hlk.helloAt then s
    else
      let (n, s1) := drawNonce s
      let s2 := { s1 with hlk := { s1.hlk with nonce := some n, helloAt := s1.tsu.now + ms 100 } }
      (hlkPortsUp s2).foldl (fun a p => sendHlk p hlkGroup 1
        (hlkHeader a 1 0x80 84 1 ++ [(32, n.toNat), (48, (keyDigest k).toNat), (4, a.cpx.bootTag.toNat)]) a) s2

/-- Every change of a worker's STATE raises the source. -/
def putWorker (i : Nat) (w : Partner) (s : State) : State :=
  let was := (tget s.hlk.workers i).map (fun x => x.state)
  let s1 := { s with hlk := { s.hlk with workers := tput s.hlk.workers i w } }
  if was = some w.state then s1 else raiseEvent 0x899 s1

/-- HLK_HELLO at a manager: OFFER to a worker whose key matches and that is not joined elsewhere. -/
def hello (h : HlkHead) (nonce : BitVec 256) (digest : Digest) (s : State) : State :=
  if hlkRuns s = false then s
  else if h.version ≠ 1 ∨ h.rsvOk = false ∨ 63 < h.src ∨ h.dst ≠ 0x80 ∨ h.port ∉ hlkPorts s.cfg then hlkDiscard h s
  else
    let old := tgetD s.hlk.workers h.src {}
    let elsewhere : Bool := old.state = 1 && (old.port ≠ h.port || old.mac ≠ h.srcMac)
    if roleOf s ≠ 1 ∨ h.src = instOf s ∨ elsewhere ∨ (lowestManager s).all (fun k => keyDigest k ≠ digest) then s
    else
      let (n, s1) := drawNonce s
      let w : Partner := { old with state := (if old.state = 1 then 1 else 0), port := h.port, mac := h.srcMac
                                    mgrNonce := n, wkrNonce := nonce
                                    seen := (if old.state = 1 then old.seen else s1.tsu.now)
                                    seenSec := (if old.state = 1 then old.seenSec else seconds s1) }
      let lk := match lowestManager s with | some k => linkKey k.secret n nonce (instOf s) h.src | none => 0
      sendHlk h.port h.srcMac 2 (hlkTagged s1 lk 2 h.src 64 1 [(32, n.toNat), (32, nonce.toNat)]) (putWorker h.src w s1)

/-- SYNC returns to SET at a rejoin once no cause of R223 is left (R223, R428). -/
def rejoined (s : State) : State :=
  let s1 := { s with tsu := { s.tsu with mgrLost := false } }
  if s1.tsu.sync = .holdover ∧ holdCause s1 = false then setSync .set s1 else s1

/-- HLK_OFFER at an unjoined worker: the first valid one is answered with CONFIRM, and the worker is joined. -/
def offer (h : HlkHead) (mgrNonce wkrNonce : BitVec 256) (s : State) : State :=
  if hlkRuns s = false ∨ s.hlk.manager.isSome then s
  else if roleOf s ≠ 2 ∨ headOk h s = false ∨ h.src = instOf s ∨ h.seq = 0 then hlkDiscard h s
  else if s.hlk.nonce ≠ some wkrNonce then s
  else
    match lowestManager s with
    | none => s
    | some k =>
      if h.tagOk = false then hlkDiscard h s
      else
        let m : Partner := { state := 1, port := h.port, mac := h.srcMac, mgrNonce, wkrNonce, rxSeq := h.seq
                             lk := linkKey k.secret mgrNonce wkrNonce h.src (instOf s), seen := s.tsu.now, seenSec := seconds s }
        let s1 := raiseEvent 0x899 (rejoined
          { s with hlk := { s.hlk with manager := some (h.src, m), nonce := none, timeInt := 0, sumPer := 0, exchange := []
                                       beatAt := s.tsu.now + ms 10 } })
        sendManager 3 4 [(2, s1.cpx.epoch), (1, modeCode s1), (1, 0)] s1

/-! ## Delegation certificates (R424 to R426) -/

/-- A certificate's fields; the bytes of its trailer are not carried (log 1). -/
def certFields (c : Certificate) : Fields :=
  [(1, c.certType), (1, c.rsv1.toNat), (2, c.keyId), (8, c.targetMask.toNat), (2, c.groupMask.toNat), (2, c.issuer),
   (6, c.notBefore), (6, c.expiry), (4, c.rsv28.toNat), (97, c.ecdsaPub.toNat), (2592, c.mldsaPub.toNat), (3, c.rsv2721.toNat),
   (4728, 0)]

def certRsvZero (c : Certificate) : Bool := c.trailerRsv = 0 && c.rsv1 = 0 && c.rsv28 = 0 && c.rsv2721 = 0

def certRanges (c : Certificate) : List (Nat × Bool) :=
  [(0, c.certType = 1), (2, 0x100 ≤ c.keyId && c.keyId ≤ 0x13F), (14, 2 ≤ c.issuer && c.issuer ≤ 7)]

/-- Its signature verifies under an occupied manager slot, its span and window hold (R396, R425). -/
def certValid (c : Certificate) (s : State) : Refused :=
  firstOf ([param (c.trailerOk && c.issuer ≠ 1 && signerKnown s c.issuer) 2724,
            param (c.expiry - c.notBefore ≤ 7776000) 22,
            param (c.ecdsaPub.toNat / 2 ^ 768 = 4) 32] ++ windowCheck c.notBefore c.expiry 16 22 s)

/-- It names this block. -/
def certNames (c : Certificate) (s : State) : Bool := bit c.targetMask (instOf s)

/-- A certificate is installed: its key replaces any earlier one of the slot. -/
def installCert (c : Certificate) (s : State) : State :=
  let d : Delegated := { slot := { manager := false, ecdsaPub := c.ecdsaPub, mldsaPub := c.mldsaPub, secret := 0 }
                         mask := c.groupMask, target := c.targetMask, expiry := c.expiry, issuer := c.issuer
                         expiryCcyc := unsetExpiry c.notBefore c.expiry s }
  keyEvent c.keyId 0 { s with hood := { s.hood with delegated := tput s.hood.delegated c.keyId d } }

/-- Certificates that a manager keeps: those that still pass its checks, less one that `c` replaces. -/
def certsKept (c : Certificate) (s : State) : List Certificate :=
  s.hood.certs.filter (fun x => (certValid x s).isNone && !(x.keyId = c.keyId && x.targetMask = c.targetMask))

/-- A DELEGATION message. -/
def sendCert (c : Certificate) (i : Nat) (s : State) : State := sendWorker i 7 7452 (certFields c) s

/-- Joined workers that a certificate names. -/
def certWorkers (c : Certificate) (s : State) : List Nat :=
  (s.hlk.workers.filter (fun w => w.2.state = 1 && bit c.targetMask w.1)).map (fun w => w.1)

/-- DELEGATION_INSTALL's effect (R425, R426). -/
def delegate (c : Certificate) (s : State) : State :=
  if roleOf s = 1 then
    let s1 := { s with hood := { s.hood with certs := certsKept c s ++ [c] } }
    let s2 := if certNames c s1 then installCert c s1 else s1
    (certWorkers c s2).foldl (fun a i => sendCert c i a) s2
  else installCert c s

def opDelegationInstall (c : Certificate) : Op :=
  { opcode := 0x0F03, kind := .i, auth := .m, body := certFields c, rsvZero := certRsvZero c, ranges := certRanges c
    lifecycle := fun s => lifecycle s ≠ 3
    check := fun _ s => firstOf
      [param (roleOf s = 1 || certNames c s) 4,
       certValid c s,
       need (roleOf s ≠ 1 || (certsKept c s).length < 64) stNoResource]
    run := fun _ s => { state := delegate c s, body := [(2, c.keyId)] } }

/-- HLK_DELEGATION at a worker; one that fails is recorded with 0x1603. -/
def takeCert (c : Certificate) (inst : Nat) (s : State) : State :=
  if certRsvZero c && (certRanges c).all (fun r => r.2) && certNames c s && (certValid c s).isNone && lifecycle s ≠ 3 then
    installCert c s
  else errorAt 0x16 0x1603 inst sevNote clsInput 0 0 s

/-- DELEGATION_EXPIRY. -/
def delegationExpiry (k : Nat) (s : State) : State :=
  match tget s.hood.delegated k with
  | some d =>
    let over_ : Bool := match d.expiryCcyc with | some e => e ≤ s.tsu.now | none => d.expiry ≤ seconds s
    if clocked s ∧ over_ then { s with hood := { s.hood with delegated := tdel s.hood.delegated k } } else s
  | none => s

/-! ## Confirm and heartbeats (R422, R430, R431) -/

/-- TIME_INTERVAL and SUMMARY_PERIOD for worker `i` (R427, R429). -/
def beatFields (s : State) (i : Nat) : Fields :=
  [(4, s.cfg.timeDist.getD 0),
   (4, match s.cfg.agg with | some b => if bit b.workerMask i then b.period else 0 | none => 0)]

def beatWorker (i : Nat) (s : State) : State := sendWorker i 4 8 (beatFields s i) s

/-- HLK_CONFIRM at the manager: the worker is JOINED, and gets HEARTBEAT and its certificates. -/
def confirm (h : HlkHead) (epoch mode : Nat) (s : State) : State :=
  if hlkRuns s = false then s
  else
    match tget s.hlk.workers h.src, lowestManager s with
    | some w, some k =>
      if roleOf s ≠ 1 ∨ headOk h s = false ∨ w.mgrNonce = 0 ∨ w.port ≠ h.port ∨ w.mac ≠ h.srcMac ∨ h.tagOk = false ∨ h.seq = 0 then
        hlkDiscard h s
      else
        let w1 : Partner := { w.heard h s with
          state := 1, lk := linkKey k.secret w.mgrNonce w.wkrNonce (instOf s) h.src, mgrNonce := 0, txSeq := 1, epoch, mode
          t3 := none, t3Frame := none }
        let s1 := beatWorker h.src (putWorker h.src w1 s)
        (s1.hood.certs.filter (fun c => (certValid c s1).isNone && bit c.targetMask h.src)).foldl (fun a c => sendCert c h.src a) s1
    | _, _ => hlkDiscard h s

/-- HLK_HEARTBEAT. -/
def heartbeat (h : HlkHead) (ti sp : Nat) (s : State) : State :=
  if roleOf s = 1 then
    hlkTake (if ti = 0 ∧ sp = 0 then fromWorker h s else none) h (fun a => a) s
  else
    hlkTake (fromMgr h s) h (fun a => { a with hlk := { a.hlk with timeInt := ti, sumPer := sp } }) s

/-- The port a partner is reached by: its own while UP, else another enabled HLK port that is UP (R431). -/
def beatPort (s : State) (p : Nat) : Nat := if p ∈ hlkPortsUp s then p else ((hlkPortsUp s).head?).getD p

/-- HLK_HEARTBEAT_TIMER: every 10 ms; at once where the link's port has left UP. -/
def beatTimer (s : State) : State :=
  if hlkRuns s = false then s
  else if roleOf s = 1 then
    if s.tsu.now < s.hlk.beatAt then s
    else
      ((s.hlk.workers.filter (fun w => w.2.state = 1)).map (fun w => w.1)).foldl (fun a i => beatWorker i a)
        { s with hlk := { s.hlk with beatAt := s.tsu.now + ms 10 } }
  else
    match s.hlk.manager with
    | some (i, m) =>
      let p := beatPort s m.port
      if s.tsu.now < s.hlk.beatAt ∧ p = m.port then s
      else sendManager 4 8 [(8, 0)] { s with hlk := { s.hlk with manager := some (i, { m with port := p }), beatAt := s.tsu.now + ms 10 } }
    | none => s

/-! ## Commands and replies (R42, R423) -/

/-- HLK_COMMAND at a worker: the CPX queue takes the command, or OVERLOAD is answered (R43); during a CPX restart it is dropped
(R392). -/
def hlkCommand (h : HlkHead) (cmd : List Byte) (s : State) : State :=
  hlkTake (fromMgr h s) h (fun a =>
    if a.cpx.restart.isSome then a
    else if queueFull a then
      let ctx := bytesCtx (.hlk h.src) cmd a
      deliverReply ctx (mkReply ctx stOverload 0 [] a) a
    else { a with cpx := { a.cpx with queue := a.cpx.queue ++ [{ origin := .hlk h.src, length := cmd.length }] } }) s

/-- The worker's reply as it goes on to the command's origin. -/
def relayed (r : WorkerReply) : Reply :=
  { opcode := r.opcode, quarantine := r.quarantine, inst := r.inst, mode := r.mode, sequence := r.sequence, status := r.status
    degraded := r.degraded, epoch := r.epoch, detail := r.detail, correlation := r.correlation
    body := [(r.body.length, ofMsb r.body)]
    trailer := match r.tagged with | some n => .tag n r.trailer | none => .digest r.trailer }

/-- A worker's reply goes to the command's origin; R44 leaves an authentication refusal over the network unanswered. -/
def passReply (ctx : ReplyCtx) (r : Reply) (s : State) : State :=
  if unanswered ctx r.status then countRefused ctx s else deliverReply ctx r s

/-- HLK_REPLY at the manager: the oldest command forwarded to that worker with the reply's opcode, sequence and
correlation is answered. -/
def hlkReplied (h : HlkHead) (r : WorkerReply) (s : State) : State :=
  hlkTake (fromWorker h s) h (fun a =>
    let hit := fun (f : Forwarded) => f.target = h.src && f.ctx.opcode = r.opcode && f.ctx.sequence = r.sequence &&
      f.ctx.correlation = r.correlation
    match a.cpx.forwarded.findIdx? hit with
    | some i =>
      match a.cpx.forwarded[i]? with
      | some f => passReply f.ctx (relayed r) { a with cpx := { a.cpx with forwarded := a.cpx.forwarded.eraseIdx i } }
      | none => a
    | none => a) s

/-- A forwarded command ends with TARGET_TIMEOUT (R42, Table 18-5). -/
def timeOut (f : Forwarded) (s : State) : State :=
  answer f.ctx stTargetTimeout 0 [] (errorAt 0x16 0x1601 f.target sevNote clsTimeout 0 0 s)

/-- TARGET_TIMEOUT: the oldest forwarded command with this correlation that has waited 100 ms. -/
def targetTimeout (corr : BitVec 32) (s : State) : State :=
  if hlkRuns s = false then s
  else
    match s.cpx.forwarded.findIdx? (fun f => f.ctx.correlation = corr && f.due ≤ s.tsu.now) with
    | some i =>
      match s.cpx.forwarded[i]? with
      | some f => timeOut f { s with cpx := { s.cpx with forwarded := s.cpx.forwarded.eraseIdx i } }
      | none => s
    | none => s

/-! ## Time distribution (R427) -/

def opTimeDistSet (n : Nat) : Op :=
  { opcode := 0x0F05, kind := .s, auth := .m, body := [(4, n)]
    ranges := [(0, n = 0 || (1000 ≤ n && n ≤ 1000000))], edit := some (.timeDist n) }

/-- Receive time of the frame being taken (R224). -/
def hlkStamp (h : HlkHead) (s : State) : Nat := tgetD s.hlk.rxAt h.port s.tsu.time

/-- TIME_DIST_TIMER at a following worker: the next TIME_REQ. -/
def timeTimer (s : State) : State :=
  if hlkRuns s = false ∨ following s = false ∨ s.tsu.now < s.hlk.reqAt then s
  else
    let n := (s.hlk.timeN + 1) % 2 ^ 32
    sendManager 8 4 [(4, n)]
      { s with hlk := { s.hlk with timeN := n, reqAt := s.tsu.now + us s.hlk.timeInt
                                   exchange := ({ n, frame := s.hpe.nextId } :: s.hlk.exchange).take 2 } }

/-- HLK_TIME_REQ at the manager: TIME_RESP carries its receive time T2 and the T3 of the exchange before. -/
def timeReq (h : HlkHead) (n : Nat) (s : State) : State :=
  hlkTake (fromWorker h s) h (fun a =>
    let w := tgetD a.hlk.workers h.src {}
    let t3 := match w.t3 with | some (m, t) => if (m + 1) % 2 ^ 32 = n then t else 0 | none => 0
    let w1 := { w with t3Frame := some (n, a.hpe.nextId) }
    sendWorker h.src 9 32 ([(4, n), (4, 0)] ++ timeFields (toTime (hlkStamp h a)) ++ timeFields (toTime t3))
      { a with hlk := { a.hlk with workers := tput a.hlk.workers h.src w1 } }) s

/-- θ of an exchange whose four times are held: worker minus manager. -/
def exchangeTheta (e : Exchange) (t3 : Nat) : Option Int :=
  match e.t1, e.t2, e.t4 with
  | some t1, some t2, some t4 => if t3 = 0 then none else some ((((t4 : Int) - t3) - ((t2 : Int) - t1)) / 2)
  | _, _, _ => none

/-- RATE_ADJ less θ over twice TIME_INTERVAL, clamped to ±500 ppm. -/
def steerRate (rate theta : Int) (ti : Nat) : Int :=
  let num : Int := theta * 500000
  let den : Int := 2 ^ 48 * ti
  let q := num / den + (if num % den ≠ 0 && Config.rateRoundUp theta ti then 1 else 0)
  max (-32768000000) (min 32768000000 (rate - q))

/-- The worker's correction. A slew still running when the next is due goes on alone. -/
def steer (theta : Int) (s : State) : State :=
  let s1 := steered { s with hlk := { s.hlk with theta } }
  if 1000 * nsUnit ≤ theta.natAbs then
    { s1 with tsu := { s1.tsu with step := s1.tsu.step ++
        [{ due := s1.tsu.now + 64, relative := true, time := 0, offset := -theta, ctx := none }] } }
  else
    let w : Slew := { offset := -theta, total := us s1.hlk.timeInt / 2, done := 0, fresh := true }
    { s1 with tsu := { s1.tsu with slew := (if s1.tsu.slew.isSome then s1.tsu.slew else some w)
                                   rateAdj := steerRate s1.tsu.rateAdj theta s1.hlk.timeInt, inc0 := heldInc s1 } }

/-- HLK_TIME_RESP at a following worker. -/
def timeResp (h : HlkHead) (n : Nat) (t2 t3 : Time96) (s : State) : State :=
  hlkTake (if timeOk t2 && timeOk t3 then fromMgr h s else none) h (fun a =>
    let l := a.hlk.exchange.map (fun e => if e.n = n then { e with t2 := some (ofTime t2), t4 := some (hlkStamp h a) } else e)
    let a1 := { a with hlk := { a.hlk with exchange := l } }
    match l.find? (fun e => (e.n + 1) % 2 ^ 32 = n) with
    | some e =>
      match exchangeTheta e (ofTime t3) with
      | some th => if following a1 then steer th a1 else a1
      | none => a1
    | none => a1) s

/-! ## Summaries (R429) -/

def opTelemetryAggSet (b : TelemetryAggBody) : Op :=
  { opcode := 0x0F06, kind := .s, auth := .o, body := [(8, b.workerMask.toNat), (4, b.period)]
    ranges := [(8, b.period = 0 || (10000 ≤ b.period && b.period ≤ 60000000))], edit := some (.telemetryAgg b) }

/-- A total over every port. -/
def overPorts (s : State) (k : Nat → Nat) : Nat := ((List.range 516).map (fun p => total s (k p))).sum

/-- Units with UNACKED set. -/
def unackedMask (s : State) : BitVec 28 := s.err.units.foldl (fun m u => if u.2.first.isSome then setBit m u.1 else m) 0

/-- The summary of this block. -/
def mySummary (s : State) : Summary :=
  { mode := modeCode s, lifecycle := lifecycle s, timeState := timeState s, epoch := s.cpx.epoch, degraded := (degraded s).toNat
    timeOffset := s.hlk.theta / 2 ^ 48
    portsUp := countIf s.cfg.port (fun e => portPowered s e.1 && reportsUp (portOf s e.1)), unacked := unackedMask s
    rxBytes := overPorts s rxBytesOkCtr, txBytes := overPorts s txBytesOkCtr
    refused := ((List.range 10).map (fun i => overPorts s (fun p => refuseCtr p i))).sum
    errors := (s.err.units.map (fun u => u.2.count)).sum % 2 ^ 32 }

/-- The eight registers of Table 19-4. -/
def summaryWords (m : Summary) (state second : Nat) : List Nat :=
  [state + m.mode * 2 ^ 8 + m.lifecycle * 2 ^ 16 + m.timeState * 2 ^ 24 + m.epoch * 2 ^ 32 + m.degraded * 2 ^ 48,
   second, signedCode 8 m.timeOffset, m.portsUp + m.unacked.toNat * 2 ^ 32, m.rxBytes % 2 ^ 64, m.txBytes % 2 ^ 64,
   m.refused % 2 ^ 64, m.errors]

/-- SUMMARY_TIMER at a worker. -/
def summaryTimer (s : State) : State :=
  if hlkRuns s = false ∨ s.hlk.manager.isNone ∨ s.hlk.sumPer = 0 ∨ s.tsu.now < s.hlk.sumAt then s
  else
    sendManager 0xA 64 ((summaryWords (mySummary s) 0 0).map (fun w => (8, w)))
      { s with hlk := { s.hlk with sumAt := s.tsu.now + us s.hlk.sumPer } }

/-- HLK_SUMMARY at the manager. -/
def takeSummary (h : HlkHead) (m : Summary) (s : State) : State :=
  hlkTake (fromWorker h s) h (fun a =>
    let w := tgetD a.hlk.workers h.src {}
    { a with hlk := { a.hlk with workers := tput a.hlk.workers h.src { w with page := some (m, seconds a), mode := m.mode, epoch := m.epoch } } }) s

/-! ## Loss and leaving (R428, R430) -/

/-- A worker no longer joined: what was forwarded to it ends with TARGET_TIMEOUT. -/
def dropWorker (i state : Nat) (s : State) : State :=
  let w := tgetD s.hlk.workers i {}
  let (out, rest) := s.cpx.forwarded.partition (fun f => f.target = i)
  let s1 := putWorker i { w with state, t3 := none, t3Frame := none, mgrNonce := 0 } { s with cpx := { s.cpx with forwarded := rest } }
  out.foldl (fun a f => timeOut f a) s1

/-- A worker without its manager: HOLDOVER, bit [6], and HELLO resumes. -/
def loseManager (s : State) : State :=
  raiseEvent 0x899 (enterHoldover
    { s with tsu := { s.tsu with mgrLost := true }
             hlk := { s.hlk with manager := none, timeInt := 0, sumPer := 0, exchange := [], nonce := none } })

/-- HLK_LEAVE. -/
def leave (h : HlkHead) (reason : Nat) (s : State) : State :=
  if roleOf s = 1 then hlkTake (if reason ≤ 2 then fromWorker h s else none) h (dropWorker h.src 3) s
  else hlkTake (if reason ≤ 2 then fromMgr h s else none) h loseManager s

/-- HLK_PARTNER_LOSS: 50 ms without a valid frame. -/
def partnerLoss (i : Nat) (s : State) : State :=
  if hlkRuns s = false then s
  else if roleOf s = 1 then
    let w := tgetD s.hlk.workers i {}
    if w.state = 1 ∧ w.seen + ms 50 ≤ s.tsu.now then dropWorker i 2 s else s
  else
    match s.hlk.manager with
    | some (j, m) => if j = i ∧ m.seen + ms 50 ≤ s.tsu.now then loseManager s else s
    | none => s

/-- A joined block whose ROLE or INSTANCE changes, or that is reset, first sends LEAVE on every enabled HLK port (R418). -/
def sendLeaves (reason : Nat) (s : State) : State :=
  let s1 := ((s.hlk.workers.filter (fun w => w.2.state = 1)).map (fun w => w.1)).foldl
    (fun a i => sendWorker i 0xB 4 [(1, reason), (3, 0)] a) s
  (hlkPorts s1.cfg).foldl (fun a p =>
    sendManager 0xB 4 [(1, reason), (3, 0)]
      { a with hlk := { a.hlk with manager := a.hlk.manager.map (fun m => (m.1, { m.2 with port := p })) } }) s1

def opWorkerList : Op :=
  { opcode := 0x0F04, kind := .q, auth := .o
    run := fun _ s =>
      { state := s, body := (1, s.hlk.workers.length) ::
          s.hlk.workers.flatMap (fun w => [(1, w.1), (1, w.2.state), (6, w.2.seenSec)]) } }

def execHlkRoleSet (z : Zelgen) (b : HlkRoleBody) (s : State) : Result := command (opHlkRoleSet b) z s
def execHlkLinkSet (z : Zelgen) (b : HlkLinkBody) (s : State) : Result := command (opHlkLinkSet b) z s
def execDelegationInstall (z : Zelgen) (cert : Certificate) (s : State) : Result := command (opDelegationInstall cert) z s
def execWorkerList (z : Zelgen) (s : State) : Result := command opWorkerList z s
def execTimeDistSet (z : Zelgen) (interval : Nat) (s : State) : Result := command (opTimeDistSet interval) z s
def execTelemetryAggSet (z : Zelgen) (b : TelemetryAggBody) (s : State) : Result := command (opTelemetryAggSet b) z s
def execDelegationExpiry (dt keyId : Nat) (s : State) : Result := happen dt (delegationExpiry keyId) s
def execHlkHelloTimer (dt : Nat) (s : State) : Result := happen dt helloTimer s
def execHlkHello (dt : Nat) (h : HlkHead) (nonce : BitVec 256) (keyDigest : Digest) (bootTag : BitVec 32) (s : State) : Result :=
  happen dt (hello h nonce keyDigest) s
def execHlkOffer (dt : Nat) (h : HlkHead) (mgrNonce wkrNonce : BitVec 256) (s : State) : Result := happen dt (offer h mgrNonce wkrNonce) s
def execHlkConfirm (dt : Nat) (h : HlkHead) (epoch mode : Nat) (s : State) : Result := happen dt (confirm h epoch mode) s
def execHlkHeartbeat (dt : Nat) (h : HlkHead) (timeInterval summaryPeriod : Nat) (s : State) : Result :=
  happen dt (heartbeat h timeInterval summaryPeriod) s
def execHlkHeartbeatTimer (dt : Nat) (s : State) : Result := happen dt beatTimer s
def execHlkCommand (dt : Nat) (h : HlkHead) (header rest : List Byte) (s : State) : Result :=
  happen dt (hlkCommand h (header ++ rest)) s
def execHlkReply (dt : Nat) (h : HlkHead) (r : WorkerReply) (s : State) : Result := happen dt (hlkReplied h r) s
def execHlkDelegation (dt : Nat) (h : HlkHead) (cert : Certificate) (s : State) : Result :=
  happen dt (fun a => hlkTake (fromMgr h a) h (takeCert cert h.src) a) s
def execHlkTimeReq (dt : Nat) (h : HlkHead) (n : Nat) (s : State) : Result := happen dt (timeReq h n) s
def execHlkTimeResp (dt : Nat) (h : HlkHead) (n : Nat) (t2 t3Prev : Time96) (s : State) : Result := happen dt (timeResp h n t2 t3Prev) s
def execTimeDistTimer (dt : Nat) (s : State) : Result := happen dt timeTimer s
def execHlkSummary (dt : Nat) (h : HlkHead) (sm : Summary) (s : State) : Result := happen dt (takeSummary h sm) s
def execSummaryTimer (dt : Nat) (s : State) : Result := happen dt summaryTimer s
def execHlkLeave (dt : Nat) (h : HlkHead) (reason : Nat) (s : State) : Result := happen dt (leave h reason) s
def execHlkPartnerLoss (dt partner : Nat) (s : State) : Result := happen dt (partnerLoss partner) s
def execTargetTimeout (dt : Nat) (correlation : BitVec 32) (s : State) : Result := happen dt (targetTimeout correlation) s

end Sys2Proof.Machine
end

