-- ==== Sys2Proof/Machine/Commit.lean ====
section
/-! DEFINITION. The commit (01 R24 to R28, 02 R54 to R56): the configuration that a staged set produces, the checks that
other chapters make of it, and what taking effect does in every unit. -/
namespace Sys2Proof.Machine

/-! ## The configuration that a staged set produces (R54) -/

/-- Keys whose entry differs between two tables (R28). -/
def changedKeys {α : Type} [DecidableEq α] (o n : Tab α) : List Nat :=
  (n.map (fun e => e.1) ++ (o.map (fun e => e.1)).filter (fun k => !thas n k)).filter (fun k => decide (tget o k ≠ tget n k))

/-- An entry of a staged gate list that no command has written yet: INTERVAL 0 (R193). -/
def noGateEntry : GateEntry := { gates := 0, interval := 0, rsv := 0 }

/-- GATE_LIST_SET on the list staged so far (R193). -/
def writeGates (b : GateListBody) (old : Option GateList) : GateList :=
  let l := match old with
    | some g => if b.firstEntry = 0 then List.replicate b.listLen noGateEntry else g.entries
    | none => List.replicate b.listLen noGateEntry
  { base := ofTime b.baseTime, cycle := b.cycleTime
    entries := l.take b.firstEntry ++ b.entries ++ l.drop (b.firstEntry + b.entries.length) }

/-- One staged command applied to the configuration: a later command to an object overrides an earlier one (R54).
PORT_CLEAR removes the port, its SecY and its gate list (Table 5-2, R193). -/
def applyEdit (c : Cfg) (e : Edit) : Cfg :=
  match e with
  | .portSet b => { c with port := tput c.port b.port b }
  | .portClear p => { c with port := tdel c.port p, secy := tdel c.secy p, gate := tdel c.gate p }
  | .portAddr b => { c with addr := tput c.addr b.port b.addr }
  | .portVlan b => { c with vlan := tput c.vlan b.port b }
  | .laneSet b => { c with lane := tput c.lane b.lane b.laneFlags }
  | .transport b => { c with transport := tput c.transport b.port b }
  | .secy b => { c with secy := tput c.secy b.port b }
  | .scSet b => { c with sc := tput c.sc (scKey b.portGroup b.direction b.scIndex) b }
  | .scClear b => { c with sc := tdel c.sc (scKey b.portGroup b.direction b.scIndex) }
  | .classSet b => { c with cls := tput c.cls (b.portGroup * 64 + b.entry) b.cls }
  | .classClear g n => { c with cls := tdel c.cls (g * 64 + n) }
  | .senderId b => { c with sender := tput c.sender (b.portGroup * 64 + b.entry) b }
  | .policer b => { c with policer := tput c.policer b.context b }
  | .policerClear n => { c with policer := tdel c.policer n }
  | .leafSet b => { c with leaf := tput c.leaf b.leaf b }
  | .leafClear n => { c with leaf := tdel c.leaf n }
  | .nodeSet b => { c with node := tput c.node b.node b }
  | .nodeClear n => { c with node := tdel c.node n }
  | .portSched b => { c with sched := tput c.sched b.port b }
  | .overhead b => { c with overhead := tput c.overhead b.profile b.overhead }
  | .hostLeaf b =>
    -- a transmit ring is bound to one port (R252); CPX and HLK to one leaf of each port
    let t := if b.source < 256 then tkeep c.hostLeaf (fun k _ => k / 1024 ≠ b.source) else c.hostLeaf
    { c with hostLeaf := tput t (hostKey b.source b.port) b }
  | .gateList b => { c with gate := tput c.gate b.port (writeGates b (tget c.gate b.port)) }
  | .preempt b => { c with preempt := tput c.preempt b.port b }
  | .pause b => { c with pause := tput c.pause b.port b }
  | .pps b => { c with pps := some b }
  | .tsuCal b => { c with cal := tput c.cal b.port b }
  | .ring b => { c with ring := tput c.ring (ringKey b.ringType b.ring) b }
  | .rxSteer b => { c with steer := tput c.steer (b.port * 16 + b.matchIndex) b }
  | .irqSource b => { c with irqSource := tput c.irqSource b.source b }
  | .irqTarget b => { c with irqTarget := tput c.irqTarget b.target b }
  | .batt b => { c with batt := some b }
  | .window b => { c with window := tput c.window b.window b }
  | .sample b => { c with sample := some b }
  | .queueSample b => { c with qsample := some b }
  | .eventMode b => { c with evMode := tput c.evMode b.event b.edgeOrLevel }
  | .smc b => { c with smc := some b }
  | .frcRegion b => { c with frc := tput c.frc b.region b }
  | .xdma b => { c with xdma := tput c.xdma b.channel b }
  | .groupPower b => { c with power := tput c.power b.portGroup b.policy }
  | .wake b => { c with wake := tput c.wake b.portGroup b.wakeFlags }
  | .accessPolicy b => { c with policy := tput c.policy b.accessId b.policy }
  | .hlkRole b => { c with role := some b }
  | .hlkLink b => { c with hlkPort := tput c.hlkPort b.port b.enable }
  | .timeDist n => { c with timeDist := some n }
  | .telemetryAgg b => { c with agg := some b }

/-- The configuration that a set of staged commands makes of `c`. A commit that changes RANKS leaves every region
UNCONFIGURED (R337). -/
def nextCfg (c : Cfg) (l : List Edit) : Cfg :=
  let n := l.foldl applyEdit c
  if ranksCfg n = ranksCfg c then n else { n with frc := [] }

/-! ## Checks of the configuration that the commit would produce -/

/-- A test holds of every two different entries, in order. -/
def everyPair {α : Type} (f : α → α → Bool) (l : List α) : Bool :=
  match l with
  | [] => true
  | a :: r => r.all (f a) && everyPair f r

/-- R68: no two ports share a lane. -/
def lanesOk (c : Cfg) : Bool :=
  everyPair (fun (a b : Nat × PortSetBody) => decide (a.1 + lanesOf a.2.portMode ≤ b.1)) c.port

/-- R116: a port of 100 GbE or faster uses an XPN suite. -/
def suitesOk (c : Cfg) : Bool := c.secy.all (fun e => suiteXpn e.2.cipherSuite || portSpeed c e.1 < 100)

/-- R120. -/
def scsOk (c : Cfg) : Bool :=
  c.sc.all (fun e => groupOf e.2.port = e.1 / 512 && thas c.secy e.2.port) &&
    everyPair (fun (a b : Nat × ScSetBody) =>
      !(a.2.direction = 0 && b.2.direction = 0 && a.2.port = b.2.port && a.2.sci = b.2.sci)) c.sc

/-- R134 for one entry of group `g`. A bit of PORT_MASK names a configured port of the group. -/
def classOk (c : Cfg) (g : Nat) (e : ClassEntry) : Bool :=
  !(bit e.entryFlags 7) ||
    ((authReq e % 2 = 0 ||
        (if e.secy = 0xFFFF then
           (List.range 16).all (fun i => !(bit e.portMask i) || !(thas c.port (g * 16 + i)) || thas c.secy (g * 16 + i))
         else groupOf e.secy = g && thas c.secy e.secy)) &&
     (authReq e < 2 || e.trailerKeys ≠ 0))

def classesOk (c : Cfg) : Bool := c.cls.all (fun e => classOk c (e.1 / 64) e.2)

/-- R169 and R170 for a node. -/
def nodeOk (c : Cfg) (n : Nat) (b : NodeBody) : Bool :=
  b.port < 512 && thas c.port b.port && groupOf b.port = groupOfNode n &&
    (isStrict c b.port b.cls || classWeight c b.port b.cls ≠ 0)

/-- R169 for a leaf. -/
def leafOk (c : Cfg) (l : Nat) (b : LeafBody) : Bool :=
  match tget c.node b.parentNode with
  | some n => groupOfNode b.parentNode = groupOfLeaf l && b.cls = n.cls
  | none => false

/-- R170: the weight of a strict class is 0. -/
def weightsOk (c : Cfg) : Bool :=
  c.sched.all (fun e => (List.range 16).all (fun k => !(isStrict c e.1 k) || classWeight c e.1 k = 0))

/-- The leaf lies under a node of the port (R181). -/
def leafOfPort (c : Cfg) (leaf port : Nat) : Bool := match leafNode c leaf with | some (_, n) => n.port = port | none => false

/-- Data ports that must bind a source: Zelgen by CPX's 0x0100, HLK by 0x0101 (R181). -/
def bindingsOk (c : Cfg) : Bool :=
  c.hostLeaf.all (fun e => 512 ≤ e.2.port || leafOfPort c e.2.leaf e.2.port) &&
    c.transport.all (fun e => 512 ≤ e.1 || (e.2.ethEnable = 0 && e.2.udpEnable = 0) || thas c.hostLeaf (hostKey 0x0100 e.1)) &&
    (hlkPorts c).all (fun p => 512 ≤ p || thas c.hostLeaf (hostKey 0x0101 p))

/-- R193: every list is of a configured port and whole. -/
def gatesOk (c : Cfg) : Bool := c.gate.all (fun e => thas c.port e.1 && e.2.entries.all (fun g => g.interval ≠ 0))

/-- R208. -/
def pausesOk (c : Cfg) : Bool :=
  c.pause.all (fun e => e.2.genMask = 0 || (1 ≤ e.2.quanta && 1 ≤ e.2.refresh && e.2.refresh ≤ e.2.quanta))

/-- R240. The ring's state is that at acceptance. -/
def ringsOk (o c : Cfg) (s : State) : Bool :=
  (changedKeys o.ring c.ring).all (fun k => (ringOf s k).state ≤ 1) &&
    (List.range 64).all (fun n =>
      match tget c.ring (ringKey 2 n), tget c.ring (ringKey 3 n) with
      | some a, some b => a.accessId = b.accessId
      | _, _ => true) &&
    c.steer.all (fun e => thas c.ring (ringKey 0 e.2.ring)) &&
    everyPair (fun (a b : Nat × RxSteerBody) => !(a.1 / 16 = b.1 / 16 && a.2.da = b.2.da)) c.steer

/-- R267. -/
def sourcesOk (c : Cfg) : Bool :=
  c.irqSource.all (fun e => if e.2.target = 0x20 then !(bit e.2.sourceFlags 1) else thas c.irqTarget e.2.target)

/-- R292: no two windows show a common unit. -/
def windowsOk (c : Cfg) : Bool := everyPair (fun (a b : Nat × WindowBody) => decide (a.2.content ≠ b.2.content)) c.window

/-- R297 and R301: room for two batt slots, and samples drained in one way. -/
def battOk (c : Cfg) : Bool :=
  match c.batt with
  | some b => 2 ≤ battSlots b && !(bit b.contentMask 16 && (match c.sample with | some x => x.spill = 1 | none => false))
  | none => true

/-- R314. -/
def qosOk (c : Cfg) : Bool :=
  match c.smc with
  | some b => (b.qosTargets.map (fun t => t.share)).sum ≤ 100 && b.qosTargets.all (fun t => 10 ≤ t.latTarget && t.latTarget ≤ 65535)
  | none => true

/-- R328: RANKS may not change while a region is started or a channel runs. -/
def ranksOk (o c : Cfg) (s : State) : Bool :=
  ranksCfg o = ranksCfg c ||
    (s.frc.regions.all (fun r => r.2.state = .unconfigured || r.2.state = .stopped) &&
     s.xdma.all (fun x => x.2.state ≠ .running && x.2.state ≠ .stopping))

/-- R337. -/
def regionsOk (o c : Cfg) (s : State) : Bool :=
  c.frc.all (fun e => e.2.base + e.2.size ≤ capacity s - 16 * mib && (field e.2.content 23 16 = 0 || field e.2.content 1 0 ≠ 0)) &&
    everyPair (fun (a b : Nat × FrcRegionBody) =>
      decide (a.2.base + a.2.size ≤ b.2.base ∨ b.2.base + b.2.size ≤ a.2.base) &&
        decide (field (a.2.content &&& b.2.content) 5 0 = 0)) c.frc &&
    ((changedKeys o.frc c.frc).filter (thas c.frc)).all (fun n =>
      (regionOf s n).state = .unconfigured || (regionOf s n).state = .stopped)

/-- R347. -/
def channelsOk (o c : Cfg) (s : State) : Bool :=
  (changedKeys o.xdma c.xdma).all (fun k => (xchan s k).state = .unconfigured || (xchan s k).state = .idle)

/-- R397. `s` holds the configuration checked. -/
def policiesOk (s : State) : Bool :=
  s.cfg.ring.all (fun e => bit (policyOf s e.2.accessId) 1) &&
    s.cfg.irqTarget.all (fun e => bit (policyOf s e.2.accessId) 2) &&
    s.cfg.window.all (fun e => bit (policyOf s e.2.accessId) 3) &&
    s.cfg.xdma.all (fun e => bit (policyOf s e.2.accessId) 4) &&
    (match s.cfg.batt with | some b => bit (policyOf s b.accessId) 4 | none => true)

/-- R418. -/
def hlkOk (c : Cfg) : Bool :=
  (match c.role with | some r => r.role = 0 || !(hlkPorts c).isEmpty | none => true) &&
    (hlkPorts c).length ≤ 8 && (hlkPorts c).all (thas c.port)

/-- R360: POLICY 1 or 2 is not set or changed for an absent or fenced group. -/
def powerOk (o c : Cfg) (s : State) : Bool :=
  (changedKeys o.power c.power).all (fun g => policyOfGroup c g = 0 || !(fencedOrAbsent s g))

/-- Some staged command is SMC_SET. -/
def carriesSmc (l : List Edit) : Bool := l.any (fun e => match e with | .smc _ => true | _ => false)

/-- Every check of the configuration `c` that replaces `o`; DETAIL is 0 (R444). The order among the three statuses is log 37. -/
def commitChecks (c : Cfg) (s : State) : Refused :=
  let o := s.cfg
  firstOf
    [need (powerOk o c s) stFenced,
     need (!(carriesSmc s.cpx.staged.edits && s.smc.migration.isSome)) stBusy,
     param (lanesOk c && suitesOk c && scsOk c && classesOk c),
     param (c.node.all (fun e => nodeOk c e.1 e.2) && c.leaf.all (fun e => leafOk c e.1 e.2) && weightsOk c && bindingsOk c),
     param (gatesOk c && pausesOk c && ringsOk o c s && sourcesOk c),
     param (windowsOk c && battOk c && qosOk c && ranksOk o c s && regionsOk o c s && channelsOk o c s),
     param (policiesOk { s with cfg := c } && hlkOk c)]

/-! ## The effect (R25, R28): `o` is the configuration before, the state holds the one after -/

/-- The values of a port whose change restarts its link (R80). -/
def portShape (b : PortSetBody) : Nat × Nat × BitVec 16 := (b.portMode, b.fecMode, b.portFlags &&& 0x000B#16)

def laneShape (c : Cfg) (n : Nat) : BitVec 16 := laneFlags c n &&& 0x0013#16

/-- A port is configured, cleared, or restarted by a change of R80. -/
def commitPort (o : Cfg) (p : Nat) (s : State) : State :=
  match tget o.port p, tget s.cfg.port p with
  | none, some _ => putPort p { portOf s p with link := .noSignal, since := s.tsu.now, faultAt := none, retrain := false } s
  | some _, none =>
    let s1 := setLink p .disabled false s
    putPort p { portOf s1 p with retrain := false } s1
  | some a, some b =>
    if portShape a = portShape b ∧ (portLanes s.cfg p).all (fun n => laneShape o n = laneShape s.cfg n) then s
    else setLink p .noSignal false s
  | none, none => s

/-- PREEMPT_SET: verification starts again (R199). -/
def commitPreempt (p : Nat) (s : State) : State := if (portOf s p).link = .up then startVerify p s else s

/-- PAUSE_SET: what is due follows the new mask (R207). -/
def commitPause (o : Cfg) (p : Nat) (s : State) : State :=
  if (pauseCfg s.cfg p).pauseMode = 0 then putPort p { portOf s p with genDue := 0 } s
  else retell p ((portOf s p).xoff &&& (pauseCfg o p).genMask) s

/-- A commit changes the context of an SC's SAs (R126). -/
def scMoved (o n : Cfg) (k : Nat) (e : ScSetBody) : Bool :=
  match tget n.sc k with
  | none => true
  | some b =>
    decide (b.sci ≠ e.sci ∨ b.port ≠ e.port) || (thas o.port e.port && !(thas n.port e.port)) ||
      decide ((tget o.secy e.port).map (·.cipherSuite) ≠ (tget n.secy e.port).map (·.cipherSuite))

def commitSas (o : Cfg) (s : State) : State :=
  ((o.sc.filter (fun e => scMoved o s.cfg e.1 e.2)).flatMap (fun e => saKeysOf (e.1 / 512) (e.1 / 256 % 2) (e.1 % 256))).foldl
    (fun a k => retireSa k a) s

/-- A policer context restarts full, or goes (R28, R211); what a frame in progress still owes is taken at its end (R215). -/
def commitPolicer (k : Nat) (s : State) : State :=
  match tget s.cfg.policer k with
  | some b => { s with pols := tput s.pols k { tok := b.burst * 800000, last := s.tsu.tick, owed := (tgetD s.pols k {}).owed } }
  | none => { s with pols := tdel s.pols k }

/-- An object of the tree: its shaper restarts where its parameters change (R183); moved under another parent it is
activated there (R189). -/
def commitObj (o : Cfg) (x : ShaperObj) (moved : Bool) (v : Nat) (s : State) : State :=
  let y := objOf s x
  let y1 := if shaperCfg o x = shaperCfg s.cfg x then y else { y with shaper := freshShaper s }
  putObj x (if moved then activate y1 v else y1) s

def commitLeaf (o : Cfg) (k : Nat) (s : State) : State :=
  match tget o.leaf k, tget s.cfg.leaf k with
  | some _, none => { s with esh := { s.esh with leaves := tdel s.esh.leaves k, words := tdel s.esh.words k } }
  | some a, some b => commitObj o (.leaf k) (decide (a.parentNode ≠ b.parentNode)) (nodeObj s b.parentNode).v s
  | none, some _ => putLeaf k { leafObj s k with shaper := freshShaper s, ready := false } s
  | none, none => s

def commitNode (o : Cfg) (k : Nat) (s : State) : State :=
  match tget o.node k, tget s.cfg.node k with
  | some _, none => { s with esh := { s.esh with nodes := tdel s.esh.nodes k } }
  | some a, some b => commitObj o (.node k) (decide (a.port ≠ b.port ∨ a.cls ≠ b.cls)) (classObj s b.port b.cls).v s
  | none, some _ => putNode k { nodeObj s k with shaper := freshShaper s, ready := false } s
  | none, none => s

/-- A transmit ring bound to another port: its whole frames wait there (R252). -/
def commitBinding (o : Cfg) (s : State) : State :=
  (o.hostLeaf.filter (fun e => e.2.source < 256 && !(thas s.cfg.hostLeaf e.1))).foldl (fun a e =>
    match bindingOf a.cfg e.2.source with
    | some b =>
      let l := tgetD a.esh.host e.1 []
      let t := tput (tdel a.esh.host e.1) (hostKey b.source b.port) (tgetD a.esh.host (hostKey b.source b.port) [] ++ l)
      { a with esh := { a.esh with host := if l = [] then a.esh.host else t } }
    | none => a) s

/-- A changed gate list becomes pending, or starts as the first; a removed one ends (R28, R193, R195). -/
def commitGate (p : Nat) (s : State) : State :=
  match tget s.cfg.gate p with
  | some l => installGate p l s
  | none => { s with gates := tdel s.gates p }

/-- A ring is configured: STOPPED, its indices 0 (Table 10-9). -/
def commitRing (o : Cfg) (k : Nat) (s : State) : State :=
  let s1 := putRing k { state := 1 } s
  match tget o.ring k with
  | some b => if b.irqSource < 0x400 then setLevel b.irqSource (ringLevel s1 b.irqSource) s1 else s1
  | none => s1

/-- ENABLE_AT_COMMIT, SOFT cleared by the first configuring (R267, R273), and MOD_TIME counted from the last claim (R281). -/
def commitSource (o : Cfg) (n : Nat) (s : State) : State :=
  match tget s.cfg.irqSource n with
  | none => s
  | some b =>
    let due := match tget s.jic.modDue n, tget o.irqSource n with
      | some d, some q => if b.modTime = 0 then tdel s.jic.modDue n else tput s.jic.modDue n (d - nsUp q.modTime + nsUp b.modTime)
      | _, _ => s.jic.modDue
    let s := { s with jic := { s.jic with modDue := due } }
    let s1 := if bit b.sourceFlags 2 then enableSet n s else
      { s with jic := { s.jic with enable := tdel s.jic.enable n, kept := tdel s.jic.kept n } }
    if thas o.irqSource n = false ∧ 0xF00 ≤ n then softWrite n false s1 else s1

/-- A window's baselines are the totals now (R292). -/
def commitWindow (w : Nat) (s : State) : State :=
  match tget s.cfg.window w with
  | none => s
  | some b =>
    let code := contentCode b.content
    let first := contentFirst b.content
    let shown := s.tel.ctr.filter (fun e => e.1 / 2 ^ 40 = code && decide (first ≤ e.1 / 256 % 2 ^ 32) &&
      decide (e.1 / 256 % 2 ^ 32 < first + 65536 / strideOf code))
    let kept := tkeep s.tel.winBase (fun k _ => k / 2 ^ 48 ≠ w)
    { s with tel := { s.tel with winBase := shown.foldl (fun a e => tput a (winKey w e.1) e.2) kept
                                 winLatch := tkeep s.tel.winLatch (fun k _ => k / 2 ^ 16 ≠ w) } }

/-- The counter key is of event `e`. -/
def keyOfEvent (e k : Nat) : Bool := k % 2 ^ 48 / 2 ^ 40 = 0x0E && k % 2 ^ 40 / 256 / 1024 = e

/-- A changed mode restarts the event's counters and every reader's baselines at 0 (R291). -/
def commitEvent (e : Nat) (s : State) : State :=
  { s with tel := { s.tel with ctr := tkeep s.tel.ctr (fun k _ => !(keyOfEvent e k))
                               winBase := tkeep s.tel.winBase (fun k _ => !(keyOfEvent e k))
                               battBase := tkeep s.tel.battBase (fun k _ => !(keyOfEvent e k)) } }

/-- The first tick after now that is a multiple of a period in µs (R188, R294). -/
def nextMultiple (period : Nat) (s : State) : Nat := (s.tsu.tick / max 1 (period * 100) + 1) * max 1 (period * 100)

/-- BATT_SET, SAMPLE_SET's readers and QUEUE_SAMPLE_SET (R294, R297). -/
def commitTel (o : Cfg) (s : State) : State :=
  let s1 := match s.cfg.batt with
    | none => s
    | some b =>
      let t := s.tel
      let t1 := if o.batt.map BattBody.destAddr = some b.destAddr ∧ o.batt.map BattBody.destSize = some b.destSize then t
        else { t with battSlot := 0 }
      { s with tel := if o.batt.map BattBody.period = some b.period then t1 else { t1 with battNext := nextMultiple b.period s } }
  match s1.cfg.qsample with
  | none => s1
  | some b =>
    if o.qsample.map QueueSampleBody.period = some b.period then s1 else { s1 with tel := { s1.tel with sweepNext := nextMultiple b.period s1 } }

/-- SMC_SET (R328): new RANKS rebuild the map and refill; a new DATA_RATE retrains the channels one at a time. -/
def commitSmc (o : Cfg) (s : State) : State :=
  match s.cfg.smc with
  | none => s
  | some b =>
    if s.smc.present = false then s
    else if ranksCfg o ≠ ranksCfg s.cfg then
      let s1 := startMemory b.dataRate s
      { s1 with frc := { s1.frc with regions := [] } }
    else if s.smc.dataRate = b.dataRate then s
    else nextRetrain [0, 1, 2, 3] { s with smc := { s.smc with dataRate := b.dataRate } }

/-- A region configured by a commit starts in STOPPED with WRITE_PTR 0 (R338). -/
def commitRegion (n : Nat) (s : State) : State :=
  if thas s.cfg.frc n then putRegion n { state := .stopped } s else s

/-- BUDGET set or changed: every group's bucket is full (R342). -/
def commitBudget (s : State) : State :=
  (List.range 32).foldl (fun a g =>
    putBudget g { tgetD a.frc.budgets g {} with tokens := budgetDepth (budgetRate a 0x11), tick := a.tsu.tick } a) s

/-- The region that takes refusals or acceptances and its BUDGET. -/
def budgetsOf (c : Cfg) : List Nat :=
  (c.frc.filter (fun e => field e.2.content 1 0 ≠ 0)).map (fun e => field e.2.content 23 16)

/-- A channel configured by a commit is IDLE with CUR_PTR 0 (R347). -/
def commitChannel (c : Nat) (s : State) : State := putX c { state := .idle } s

/-- PPS_SET: the first edge after the enable is plausible, a pulse disabled ends, and a cause that PPS_IN_HOLDOVER no longer
asks for is gone (R223, R231, R232). -/
def commitPps (o : Cfg) (s : State) : State :=
  let was := fun i => match o.pps with | some b => bit b.ppsFlags i | none => false
  let x := s.tsu
  let x1 := if ppsFlag s 1 && !was 1 then { x with ppsEdge := none, ppsEdgeCcyc := x.now } else x
  let x2 := if ppsFlag s 5 && !was 5 then { x1 with ppsEdgeCcyc := max x1.ppsEdgeCcyc x.now } else x1
  let x3 := if ppsFlag s 5 then x2 else { x2 with ppsLost := false }
  if s.tsu.ppsOut && !ppsFlag s 0 then emit (.ppsOut false 0) { s with tsu := { x3 with ppsOut := false } }
  else { s with tsu := x3 }

/-- A joined block whose ROLE or INSTANCE changes has said LEAVE and starts again (R418). -/
def commitRole (o : Cfg) (s : State) : State :=
  if o.role = s.cfg.role then s
  else
    let s1 := (s.hlk.workers.map (fun w => w.1)).foldl (fun a i => dropWorker i 3 a) s
    let s2 := if s1.hlk.manager.isSome ∧ roleOf s1 = 2 then loseManager s1 else s1
    { s2 with hlk := {}, tsu := { s2.tsu with mgrLost := s2.tsu.mgrLost && decide (roleOf s2 = 2) } }

/-- A commit that writes an object lifts the containment of its lost storage (Table 18-6). -/
def reviveObj (x : ShaperObj) (s : State) : State :=
  if (objOf s x).dead then putObj x { objOf s x with dead := false, shaper := freshShaper s } s else s

def revive (e : Edit) (s : State) : State :=
  match e with
  | .policer b => if (tgetD s.pols b.context {}).dead then commitPolicer b.context s else s
  | .leafSet b => reviveObj (.leaf b.leaf) s
  | .nodeSet b => reviveObj (.node b.node) s
  | .portSched b => reviveObj (.port b.port) s
  | .portSet b => reviveObj (.port b.port) s
  | _ => s

/-- New WAKE_FLAGS of a gated group arm its latch, or disarm it (Table 15-4). -/
def commitWake (g : Nat) (s : State) : State :=
  let on := bit (wakeFlags s.cfg g) 0
  match groupState s g with
  | .gated | .gating => putGroup g { groupSt s g with armed := on, latch := (groupSt s g).latch && on } s
  | _ => s

/-- A drained port opens again at a commit that carries PORT_SET or PORT_CLEAR for it (R366). -/
def reopens (l : List Edit) (p : Nat) : Bool :=
  l.any (fun e => match e with | .portSet b => b.port = p | .portClear q => q = p | _ => false)

/-- Apply an effect to each key that a commit changed. -/
def onChanged {α : Type} [DecidableEq α] (o n : Tab α) (f : Nat → State → State) (s : State) : State :=
  (changedKeys o n).foldl (fun a k => f k a) s

/-- Ports whose own entry or whose lanes' entries a commit changed. -/
def portsTouched (o n : Cfg) : List Nat :=
  changedKeys o.port n.port ++
    ((changedKeys o.lane n.lane).filterMap (portOfLane n)).eraseDups.filter (fun p => decide (tget o.port p = tget n.port p))

/-- Ports, MACsec and ingress policing. -/
def commitIngress (o : Cfg) (s : State) : State :=
  let n := s.cfg
  let s1 := (portsTouched o n).foldl (fun a p => commitPort o p a) s
  let s2 := commitSas o s1
  let s3 := onChanged o.policer n.policer commitPolicer s2
  let s4 := onChanged o.preempt n.preempt commitPreempt s3
  onChanged o.pause n.pause (commitPause o) s4

/-- Scheduling and gates. -/
def commitEgress (o : Cfg) (s : State) : State :=
  let n := s.cfg
  let s1 := onChanged o.node n.node (commitNode o) s
  let s2 := onChanged o.leaf n.leaf (commitLeaf o) s1
  let s3 := onChanged o.sched n.sched (fun p a => commitObj o (.port p) false 0 a) s2
  onChanged o.gate n.gate commitGate (commitBinding o s3)

/-- Rings, interrupts, telemetry, side memory, recorder, export DMA, time and hierarchy. -/
def commitShared (o : Cfg) (s : State) : State :=
  let n := s.cfg
  let s1 := onChanged o.ring n.ring (commitRing o) s
  let s2 := onChanged o.irqSource n.irqSource (commitSource o) s1
  let s3 := onChanged o.window n.window commitWindow s2
  let s4 := ((changedKeys o.evMode n.evMode).filter (fun e => decide (eventMode { s with cfg := o } e ≠ eventMode s e))).foldl
    (fun a e => commitEvent e a) s3
  let s5 := commitSmc o (commitTel o s4)
  let s6 := onChanged o.frc n.frc commitRegion s5
  let s7 := if budgetsOf o = budgetsOf n then s6 else commitBudget s6
  let s8 := onChanged o.wake n.wake commitWake (onChanged o.xdma n.xdma commitChannel s7)
  commitRole o (if o.pps = n.pps then s8 else commitPps o s8)

/-- The commit takes effect in this ccyc in every unit (R25): the next set opens empty, the epoch advances modulo 2^16, an
EVENT record 0x0001 carries `at_` as the commit time, and source 0x890 rises. -/
def commitEffect (at_ : Time96) (s : State) : State :=
  let o := s.cfg
  let l := s.cpx.staged.edits
  let n := nextCfg o l
  let s0 := if n.role = o.role then s else sendLeaves 0 s
  let s1 := { s0 with cfg := n
                      cpx := { s0.cpx with staged := {}, epoch := (s.cpx.epoch + 1) % 65536, lastEffect := toTime s.tsu.time
                                           lastEffectCcyc := some s.tsu.now }
                      mode := { s0.mode with drained := s0.mode.drained.filter (fun p => !(reopens l p)) } }
  let s2 := l.foldl (fun a e => revive e a) (commitShared o (commitEgress o (commitIngress o s1)))
  let s3 := powerUpdate { s2 with cfg := o } s2
  let s4 := eventRecord 0x0001 (lsbBytes 2 s3.cpx.epoch ++ lsbBytes 6 at_.sec ++ lsbBytes 4 at_.ns ++ lsbBytes 2 at_.frac) s3
  battAtCommit (raiseEvent 0x890 s4)

/-- COMMIT_TAKES_EFFECT: the time base is at or after the sealed set's time (R25). -/
def commitDue (s : State) : State :=
  match s.cpx.staged.sealed with
  | some t => if clocked s ∧ ofTime t ≤ s.tsu.time then commitEffect t s else s
  | none => s

/-! ## Commands -/

/-- The conditions of R55 in their order, then the configuration's. -/
def commitRefused (b : EpochCommitBody) (s : State) : Refused :=
  let g := s.cpx.staged
  firstOf
    [need (b.expectedEpoch = s.cpx.epoch) stEpochMismatch,
     need (b.stagedCount = g.count && b.stagedDigest = g.digest) stDigestMismatch,
     need (g.count ≠ 0) stNotStaged,
     need g.sealed.isNone stSealed,
     need (b.commitTime = {} || s.tsu.time ≤ ofTime b.commitTime) stTimePast,
     need (match s.cpx.lastEffectCcyc with | some c => c + us 16 ≤ s.tsu.now | none => true) stTooSoon,
     commitChecks (nextCfg s.cfg g.edits) s]

/-- EPOCH_COMMIT accepted: a timed one seals the set; an immediate one is held back until a snapshot in
progress has ended (R295) and takes effect in the next ccyc, which pass here. -/
def commitAccepted (b : EpochCommitBody) (s : State) : Done :=
  if b.commitTime = {} then
    let s1 := advance (snapshotLeft s + 1) s
    let s2 := commitEffect (toTime s1.tsu.time) s1
    { state := s2, body := [(2, s2.cpx.epoch)] }
  else
    { state := { s with cpx := { s.cpx with staged := { s.cpx.staged with sealed := some b.commitTime } } }
      status := stPending, body := [(2, s.cpx.epoch)] }

def opEpochCommit (b : EpochCommitBody) : Op :=
  { opcode := 0x0020, kind := .i, auth := .o
    body := [(2, b.expectedEpoch)] ++ timeFields b.commitTime ++ [(4, b.stagedCount), (48, b.stagedDigest.toNat)]
    ranges := [(2, timeOk b.commitTime)]
    check := fun _ s => commitRefused b s
    run := fun _ s => commitAccepted b s }

/-- EPOCH_CANCEL (R57): with nothing sealed there is nothing to unseal. -/
def opEpochCancel : Op :=
  { opcode := 0x0021, kind := .i, auth := .o
    run := fun _ s => { state := { s with cpx := { s.cpx with staged := { s.cpx.staged with sealed := none } } } } }

def opEpochDiscard : Op :=
  { opcode := 0x0022, kind := .i, auth := .o
    check := fun _ s => need s.cpx.staged.sealed.isNone stSealed
    run := fun _ s => { state := { s with cpx := { s.cpx with staged := {} } } } }

def opEpochStatus : Op :=
  { opcode := 0x0023, kind := .q, auth := .o
    run := fun _ s =>
      let g := s.cpx.staged
      { state := s
        body := [(2, s.cpx.epoch), (1, if g.sealed.isSome then 2 else if g.count = 0 then 0 else 1), (4, g.count),
          (48, g.digest.toNat)] ++ timeFields (g.sealed.getD {}) ++ timeFields s.cpx.lastEffect } }

def execEpochCommit (z : Zelgen) (b : EpochCommitBody) (s : State) : Result := command (opEpochCommit b) z s
def execEpochCancel (z : Zelgen) (s : State) : Result := command opEpochCancel z s
def execEpochDiscard (z : Zelgen) (s : State) : Result := command opEpochDiscard z s
def execEpochStatus (z : Zelgen) (s : State) : Result := command opEpochStatus z s
def execCommitTakesEffect (dt : Nat) (s : State) : Result := happen dt commitDue s

end Sys2Proof.Machine
end

