-- ==== Sys2Proof/Machine/Session.lean ====
section
/-! DEFINITION. Group 0x00: NOP, status and attestation, sessions (R51, R52). The commit commands stand in Commit.lean. -/
namespace Sys2Proof.Machine

def opNop : Op := { opcode := 0x0000, kind := .i, auth := .o }

/-- STATUS_GET (Table 2-9). -/
def opStatusGet : Op :=
  { opcode := 0x0001, kind := .q, auth := .a
    run := fun _ s =>
      { state := s
        body := [(4, s.cpx.bootTag.toNat), (1, lifecycle s), (1, levelCode s.dbg.level), (1, modeCode s), (1, instOf s),
          (4, s.cpx.fwVersion.toNat), (6, seconds s), (2, s.cpx.epoch), (2, (degraded s).toNat)] } }

/-- What an attestation states (Table 2-9). -/
def attestFields (nonce : BitVec 256) (s : State) : Fields :=
  [(32, nonce.toNat), (48, s.cpx.fwDigest.toNat), (48, (fuseDigest s).toNat), (4, s.cpx.bootTag.toNat), (1, lifecycle s)]

/-- Attestations given in this second. -/
def attestsNow (s : State) : Nat := if s.cpx.attests.1 = seconds s then s.cpx.attests.2 else 0

/-- ATTEST_GET: at most 10 in a second, signed with the DAK under the context "zelgen-att". -/
def opAttestGet (nonce : BitVec 256) : Op :=
  { opcode := 0x0002, kind := .q, auth := .a, body := [(32, nonce.toNat)]
    check := fun _ s => need (attestsNow s < 10) stOverload
    run := fun _ s =>
      let f := attestFields nonce s
      { state := { s with cpx := { s.cpx with attests := (seconds s, attestsNow s + 1) } }
        body := f ++ [(4728, (Config.dakSign (fieldBytes f)).toNat)] } }

/-- ANCHOR_SECRET (Table 17-1). -/
def anchorSecret : Digest := Config.hmac384 (msbBytes 32 Config.pufRoot.toNat) (msbBytes 4 0x5A415331)

/-- The session secret of a signing slot. -/
def secretOf (s : State) (keyId : Nat) : Option Digest :=
  if keyId = 0x0001 then some anchorSecret else (tget s.hood.slots keyId).map (fun k => k.secret)

/-- SK of R51. -/
def sessionKey (secret : Digest) (host device : BitVec 256) (id : Nat) (bootTag : BitVec 32) : Digest :=
  Config.hmac384 (msbBytes 48 secret.toNat)
    (fieldBytes [(4, 0x5A534B31), (32, host.toNat), (32, device.toNat), (2, id), (4, bootTag.toNat)])

/-- KW of R51: the first 32 bytes. -/
def wrapKey (sk : Digest) : BitVec 256 :=
  BitVec.ofNat 256 ((Config.hmac384 (msbBytes 48 sk.toNat) (msbBytes 4 0x5A574B31)).toNat / 2 ^ 128)

/-- The lowest free session number. -/
def freeSession (s : State) : Option Nat := (List.range 64).find? (fun n => !thas s.cpx.sessions n)

/-- The key that signs has a manager's authority: a manager key, or the anchor while the hood is blank (R388). -/
def opensAsManager (s : State) (keyId : Nat) : Bool :=
  if keyId = 0x0001 then hoodBlank s else (match tget s.hood.slots keyId with | some k => k.manager | none => false)

/-- SESSION_OPEN's effect (R51): the reply is tagged under the new session (R39). -/
def openSession (b : SessionOpenBody) (ctx : ReplyCtx) (s : State) : Done :=
  match freeSession s, secretOf s ctx.keyId with
  | some n, some secret =>
    let (d, s1) := draw s
    let device := BitVec.ofNat 256 (d.toNat / 2 ^ 128)
    let sk := sessionKey secret b.hostNonce device (0x8000 + n) s.cpx.bootTag
    let x : Session := { keyId := ctx.keyId, manager := opensAsManager s ctx.keyId, sk, kw := wrapKey sk, mask := b.groupMask
                         expiry := seconds s + b.lifetime }
    { state := { s1 with cpx := { s1.cpx with sessions := tput s1.cpx.sessions n x } }
      body := [(2, 0x8000 + n), (6, x.expiry), (32, device.toNat)], sk := some (0x8000 + n, sk) }
  | _, _ => { state := s, status := stNoResource }

def opSessionOpen (b : SessionOpenBody) : Op :=
  { opcode := 0x0010, kind := .i, auth := .o, signed := true
    body := [(32, b.hostNonce.toNat), (4, b.lifetime), (2, b.groupMask.toNat)]
    ranges := [(32, 1 ≤ b.lifetime && b.lifetime ≤ 86400)]
    run := fun ctx s => openSession b ctx s }

def opSessionClose (id : Nat) : Op :=
  { opcode := 0x0011, kind := .i, auth := .o, body := [(2, id)]
    check := fun _ s => param (0x8000 ≤ id && thas s.cpx.sessions (id - 0x8000)) 0
    run := fun _ s => { state := { s with cpx := { s.cpx with sessions := tdel s.cpx.sessions (id - 0x8000) } } } }

def opSessionList : Op :=
  { opcode := 0x0012, kind := .q, auth := .o
    run := fun _ s =>
      { state := s
        body := (1, s.cpx.sessions.length) :: s.cpx.sessions.flatMap (fun e =>
          [(2, 0x8000 + e.1), (2, e.2.keyId), (6, e.2.expiry), (2, e.2.mask.toNat)]) } }

/-- SESSION_EXPIRY: session `id` has reached the end of its LIFETIME (R52). -/
def sessionExpiry (id : Nat) (s : State) : State :=
  match tget s.cpx.sessions (id - 0x8000) with
  | some x =>
    if clocked s ∧ 0x8000 ≤ id ∧ x.expiry ≤ seconds s then
      { s with cpx := { s.cpx with sessions := tdel s.cpx.sessions (id - 0x8000) } }
    else s
  | none => s

def execNop (z : Zelgen) (s : State) : Result := command opNop z s
def execStatusGet (z : Zelgen) (s : State) : Result := command opStatusGet z s
def execAttestGet (z : Zelgen) (nonce : BitVec 256) (s : State) : Result := command (opAttestGet nonce) z s
def execSessionOpen (z : Zelgen) (b : SessionOpenBody) (s : State) : Result := command (opSessionOpen b) z s
def execSessionClose (z : Zelgen) (sessionId : Nat) (s : State) : Result := command (opSessionClose sessionId) z s
def execSessionList (z : Zelgen) (s : State) : Result := command opSessionList z s
def execSessionExpiry (dt session : Nat) (s : State) : Result := happen dt (sessionExpiry session) s

end Sys2Proof.Machine
end

