-- ==== Sys2Proof/Machine/Boot.lean ====
section
/-! DEFINITION. Power-up, BOOT and the return to BRIM and OFF (15 R357, R365, 17 R386, R391, 20 R437, R439). -/
namespace Sys2Proof.Machine

/-! ## What a loss of power leaves -/

/-- Input levels of a lane: they are the surroundings', not the block's. -/
def lanesIn (l : Tab Lane) : Tab Lane := tmap l (fun _ x => { raw := x.raw, sd := x.raw, rxLock := x.rxLock, txReady := x.txReady })

/-- The block without power: its fuses, its inputs, and the commands that wait for it. -/
def bare (s : State) : State :=
  { fuses := s.fuses, lanes := lanesIn s.lanes, dbg := { input := s.dbg.input }, out := s.out, draws := s.draws, pending := s.pending }

/-- The brim domain alone: the latches, the power policies and the mode state are retained, and nothing else (R357). -/
def brimOnly (s : State) : State :=
  { bare s with
      mode := { s.mode with stage := .brim, drain := none, drained := [], pwrReq := false, bootStatus := 0, fuseBad := false }
      cfg := { power := s.cfg.power }
      groups := tmap s.groups (fun _ x => { armed := x.armed, latch := x.latch }) }

/-! ## The order of R437 -/

/-- BRIM_RESET_RELEASE: OFF to BRIM. -/
def brimRelease (s : State) : State :=
  if s.mode.stage ≠ .off then s
  else { s with mode := { s.mode with stage := .brim, brimRstN := true, brimCause := .brimPower } }

/-- CORE_RESET_RELEASE: PMU raises PWR_REQ once REF_CLK has passed its monitor for 1 ms. -/
def coreRelease (refOk : Bool) (s : State) : State :=
  if s.mode.stage ≠ .brim then s
  else { s with mode := { s.mode with coreRstN := true, pwrReq := s.mode.pwrReq || refOk } }

/-- RAIL_GOOD: both rail-good inputs have held for 1 µs. After a loss of a rail PWR_REQ has risen again by then. -/
def railGood (s : State) : State :=
  if s.mode.stage ≠ .brim then s
  else { s with mode := { s.mode with
           coreGood := true, sramGood := true
           pwrReq := s.mode.pwrReq || (s.mode.coreRstN && decide (s.mode.brimCause = .railLoss)) } }

/-- Seeds of the groups' sampling LFSRs (R300). -/
def seedLfsr (s : State) : State :=
  (List.range 32).foldl (fun a g =>
    let (d, b) := draw a
    { b with tel := { b.tel with lfsr := tput b.tel.lfsr g (BitVec.ofNat 31 d.toNat) } }) s

/-- PLL_LOCK: shared reset is released and BOOT begins (R365): everything but R357's state starts anew, DEBUG is CLOSED,
the tick count, the time base and CCYC_COUNT are 0, and side memory is trained at the fuses' rate (R306). A rail drop that
entered BRIM is recorded now (Table 18-5), and the image is read under BOOT_ACCESS_ID (R391). -/
def pllLock (s : State) : State :=
  let m := s.mode
  if m.stage ≠ .brim ∨ m.coreRstN = false ∨ m.pwrReq = false ∨ m.coreGood = false ∨ m.sramGood = false then s
  else
    let s1 := { brimOnly s with
      mode := { stage := .boot, brimRstN := true, coreRstN := true, coreGood := true, sramGood := true, pwrReq := true
                brimCause := m.brimCause, wakeCause := if m.brimCause = .railLoss then .railLoss else .coreRelease, shown := 2 } }
    let s2 := seedLfsr s1
    let s3 := if s2.fuses.smcDataRate = 0 then s2 else startMemory s2.fuses.smcDataRate.toNat s2
    let s4 := if m.brimCause = .railLoss then errorAt 0x14 0x0001 0xFFFF sevNote clsInput 0 0 s3 else s3
    emit (.hostRead s4.fuses.bootAccessId.toNat s4.fuses.fwImageAddr.toNat 2097152) s4

/-! ## BOOT (R386, R391, R101) -/

/-- A slot of a key store copy (Table 17-3). -/
def slotOf (b : KeyInstallBody) : KeySlot :=
  { manager := b.keyClass = 1, ecdsaPub := b.ecdsaPub, mldsaPub := b.mldsaPub, secret := b.unwrapped.getD 0 }

/-- A copy of the store is valid: its REVOKE_LEVEL is the number of bits burnt (R386). -/
def copyValid (s : State) (c : Option (Nat × Nat × List (Nat × KeyInstallBody))) : Option (Nat × List (Nat × KeyInstallBody)) :=
  match c with
  | some (q, level, l) => if level = burnt s.fuses.revokeCount then some (q, l) else none
  | none => none

/-- Load a copy; `second`: it is the one at KEY_STORE_ADDR + 1 MiB. -/
def loadCopy (second : Bool) (q : Nat) (l : List (Nat × KeyInstallBody)) (s : State) : State :=
  { s with hood := { s.hood with slots := l.foldl (fun t e => tput t e.1 (slotOf e.2)) [], storeSeq := q, storeB := second } }

/-- The store is loaded from the valid copy with the higher STORE_SEQ; with none it is empty. -/
def loadStore (f : BootFacts) (s : State) : State :=
  match copyValid s f.storeA, copyValid s f.storeB with
  | some (q, l), some (r, k) => if q < r then loadCopy true r k s else loadCopy false q l s
  | some (q, l), none => loadCopy false q l s
  | none, some (r, k) => loadCopy true r k s
  | none, none => { s with hood := { s.hood with slots := [], storeSeq := 0, storeB := true } }

def storeEmpty (f : BootFacts) (s : State) : Bool := (copyValid s f.storeA).isNone && (copyValid s f.storeB).isNone

/-- A pool's size may stand on the ladder (R101). -/
def poolOk (size : Nat) : Bool := 256 ≤ size && size ≤ 16384 && size % 256 = 0

/-- The ladder, smallest buffers first. -/
def ladderOf (l : List (Nat × Nat × Nat)) : List Pool :=
  ((l.mapIdx (fun i e => ({ number := i, size := e.1, base := e.2.1, count := e.2.2 } : Pool))).filter (fun p => poolOk p.size)).insertionSort
    (fun a b => a.size ≤ b.size)

/-- Present groups that passed their self-test. -/
def groupsPassed (f : BootFacts) (s : State) : BitVec 32 := f.groupsOk &&& s.fuses.groupPresent

/-- BOOT_STATUS as this BOOT finds it (Table 20-6), FENCED_MASK apart. -/
def bootBits (f : BootFacts) (s : State) : Nat :=
  (if f.pufOk then 0 else 1) + (if f.imageOk then 0 else 2) + (if f.sveOk then 0 else 4) + (if f.cpxOk then 0 else 8) +
    (if f.fusesEqual then 0 else 16) + (if f.timeOk then 0 else 32) + (if groupsPassed f s = 0 then 64 else 0) +
    (if storeEmpty f s then 128 else 0)

/-- BOOT_STATUS as read: what was found, side memory's presence and the fenced groups as they stand. -/
def bootStatus (s : State) : Nat :=
  s.mode.bootStatus.toNat + (if s.smc.present then 0 else 256) + (fencedMask s).toNat * 2 ^ 32

/-- Groups that failed their self-test are fenced (R32). -/
def fenceFailed (f : BootFacts) (s : State) : State :=
  (List.range 32).foldl (fun a g =>
    if bit a.fuses.groupPresent g && !(bit f.groupsOk g) then putGroup g { groupSt a g with state := .fenced } a else a) s

/-- Pools left off the ladder (Table 18-5). -/
def poolErrors (l : List (Nat × Nat × Nat)) (s : State) : State :=
  (l.filter (fun e => !poolOk e.1)).foldl (fun a e => errorAt 0x18 0x1801 0 sevMajor clsInput e.1 0 a) s

/-- LOCKED is entered (R365, R391): a nonzero BOOT_TAG, the running image's version and digest, the store, the ladder, the boot
pair; a fuse error held since BOOT is recorded (Table 18-6), and a FREEZE input held high acts (R374). -/
def finishBoot (f : BootFacts) (s : State) : State :=
  let (d, s1) := draw (fenceFailed f (loadStore f s))
  let s2 := { s1 with
    mode := { s1.mode with stage := .run, base := .locked, quarantine := false, zeroized := false }
    hood := { s1.hood with pufOk := true }
    rx := { s1.rx with ladder := ladderOf f.pools }
    cpx := { s1.cpx with bootTag := BitVec.ofNat 32 (d.toNat % (2 ^ 32 - 1) + 1), fwVersion := f.fwVersion, fwDigest := f.fwDigest
                         fwKeyIndex := f.fwKeyIndex } }
  let s3 := enterLocked (poolErrors f.pools s2)
  let s4 := if s3.mode.fuseBad then errorAt 0x14 0x1402 0xFFFF sevFatal clsInternal 0 0 s3 else s3
  if lifecycle s4 = 4 then enterZeroized s4 else if s4.dbg.input then inputActs s4 else s4

/-- BOOT_COMPLETE: BOOT ends in LOCKED, or stays while something is missing or failed (R30, R365). A rejected image is left only
through core reset. -/
def bootComplete (f : BootFacts) (s : State) : State :=
  if s.mode.stage ≠ .boot ∨ bit s.mode.bootStatus 1 then s
  else
    let s0 := { s with mode := { s.mode with bootStatus := BitVec.ofNat 64 (bootBits f s), fuseBad := s.mode.fuseBad || !f.fusesEqual } }
    let s1 := if f.imageOk = false ∨ storeEmpty f s then errorAt 0x12 0x1201 0 sevMajor clsInternal 0 0 s0 else s0
    if bootBits f s % 128 = 0 then
      let a := s1.fuses.keyStoreAddr.toNat
      let id := s1.fuses.bootAccessId.toNat
      finishBoot f (emits [.hostRead id a 1048576, .hostRead id (a + 1048576) 1048576] s1)
    else s1

/-! ## Back to BRIM and OFF -/

/-- RAIL_GOOD_LOSS: a rail-good input drops, or CORE_RST_N is asserted; BRIM at once, and nothing but R357 is retained. -/
def railLoss (coreReset : Bool) (s : State) : State :=
  if s.mode.stage = .off then s
  else
    let s1 := if s.mode.stage = .brim then s else
      { brimOnly s with mode := { (brimOnly s).mode with brimCause := if coreReset then .coreReset else .railLoss } }
    { s1 with mode := { s1.mode with pwrReq := false, coreRstN := s1.mode.coreRstN && !coreReset
                                     coreGood := s1.mode.coreGood && coreReset, sramGood := s1.mode.sramGood && coreReset } }

/-- BRIM_POWER_LOSS: OFF, where nothing is retained but the fuses. -/
def brimLoss (s : State) : State := bare s

def execBrimResetRelease (dt : Nat) (s : State) : Result := happen dt brimRelease s
def execCoreResetRelease (dt : Nat) (refOk : Bool) (s : State) : Result := happen dt (coreRelease refOk) s
def execRailGood (dt : Nat) (s : State) : Result := happen dt railGood s
def execPllLock (dt : Nat) (s : State) : Result := happen dt pllLock s
def execBootComplete (dt : Nat) (facts : BootFacts) (s : State) : Result := happen dt (bootComplete facts) s
def execRailGoodLoss (dt : Nat) (coreReset : Bool) (s : State) : Result := happen dt (railLoss coreReset) s
def execBrimPowerLoss (dt : Nat) (s : State) : Result := happen dt brimLoss s

end Sys2Proof.Machine
end

