-- ==== Sys2Proof/Machine/Pages.lean ====
section
/-! DEFINITION. The SYP direct address map (20 R438, R439) as reads and writes other than those of rows of their own meet
it: the status pages, ring and target pages, windows, the sealed range, and Table 17-8. -/
namespace Sys2Proof.Machine

/-! ## The words of the status pages -/

/-- Groups now POWERED. -/
def poweredMask (s : State) : BitVec 32 :=
  (List.range 32).foldl (fun m g => if groupState s g = .powered then setBit m g else m) 0

/-- The block status page (Tables 20-4, 20-5). -/
def blockWords (s : State) : List Nat :=
  [s.cpx.fwVersion.toNat * 2 ^ 32 + 0x4A52 * 2 ^ 16 + s.fuses.siliconRev.toNat * 2 ^ 12,
   (poweredMask s).toNat * 2 ^ 32 + syncCode s.tsu.sync * 2 ^ 24 + instOf s * 2 ^ 16 + levelCode s.dbg.level * 2 ^ 12 +
     lifecycle s * 2 ^ 8 + modeCode s,
   s.cpx.bootTag.toNat + s.cpx.epoch * 2 ^ 32 + (degraded s).toNat * 2 ^ 48,
   seconds s,
   bootStatus s,
   countIf s.acc (fun e => e.2.frozen)]

/-- The FRC block page (Table 14-7). -/
def frcWords (s : State) : List Nat :=
  [rateCap s, staging s + s.frc.peak * 2 ^ 32, s.frc.unwritten, s.frc.skipped]

def regCode : RegSt → Nat
  | .unconfigured => 0 | .stopped => 1 | .recording => 2 | .full => 3 | .error => 4

/-- An FRC region page (Tables 14-7, 14-8). -/
def regionWords (s : State) (r : Nat) : List Nat :=
  let g := regionOf s r
  let mode := match tget s.cfg.frc r with | some b => b.regionMode | none => 0
  [regCode g.state + mode * 8 + g.wraps * 2 ^ 32, g.writePtr, g.nextSeq, g.written, g.lost, g.overwritten]

def xCode : XSt → Nat
  | .unconfigured => 0 | .idle => 1 | .running => 2 | .stopping => 3 | .error => 4 | .frozen => 5

/-- An XDMA channel page (R355). -/
def channelWords (s : State) (c : Nat) : List Nat :=
  let x := xchan s c
  [xCode x.state + x.cause * 2 ^ 8, x.cur, x.latched, x.done, x.bad, x.moved]

/-- A worker's summary page (Table 19-4); before its first SUMMARY it shows STATE alone. -/
def pageWords (s : State) (i : Nat) : List Nat :=
  let w := tgetD s.hlk.workers i {}
  match w.page with
  | some (m, sec) => summaryWords m w.state sec
  | none => [w.state, 0, 0, 0, 0, 0, 0, 0]

/-- RING_STATUS (Table 10-4). -/
def ringStatus (s : State) (key : Nat) : Nat :=
  let r := ringOf s key
  r.state * 2 ^ 56 + r.w * 2 ^ 32 + r.c

/-- TARGET_STATUS (Table 11-6). -/
def targetStatus (s : State) (t : Nat) : Nat :=
  let x := target s t
  let masked := match tget s.cfg.irqTarget t with | some b => accFrozen s b.accessId | none => false
  (match x.presented with | some (n, _) => n | none => 0xFFF) * 2 ^ 16 + (if x.wakeReq then 2 ^ 15 else 0) +
    (if masked then 2 ^ 14 else 0) + x.state.toNat * 2 ^ 12 + x.stack.length * 2 ^ 5 +
    (match x.stack with | (_, p) :: _ => 2 ^ 4 + p | [] => 0)

/-! ## Table 20-3 -/

/-- What stands at an offset of the window. -/
inductive Spot where
  | away                                       -- outside the 64 MiB window
  | unmapped
  | sealed
  | status (owner : Option Nat) (value : Nat)  -- a status page's word, and who else than STATUS_READ may read it
  | doorbell (key : Nat)
  | ringStatus (key : Nat)
  | ringRest                                   -- the rest of a ring's page
  | claim (t : Nat)
  | targetWrite (t : Nat)                      -- a write-only word of a target page
  | targetStatus (t : Nat)
  | window (w off : Nat)
deriving DecidableEq, Repr

/-- The word of a 64-byte page that holds byte `off` of it. -/
def wordSpot (owner : Option Nat) (l : List Nat) (off : Nat) : Spot :=
  match l[off / 8]? with
  | some v => .status owner v
  | none => .unmapped

/-- The word of a ring page. -/
def ringSpot (t n off : Nat) : Spot :=
  if ringPage t n = false then .unmapped
  else if off < 8 then .doorbell (ringKey t n)
  else if off < 16 then .ringStatus (ringKey t n)
  else .ringRest

/-- The word of a target page (Table 11-3). -/
def targetSpot (t off : Nat) : Spot :=
  if off % 8 ≥ 4 then .unmapped
  else
    match off / 8 with
    | 0 => .claim t
    | 6 => .targetStatus t
    | k => if k ≤ 5 then .targetWrite t else .unmapped

/-- Table 20-3. -/
def spotAt (s : State) (off : Nat) : Spot :=
  if off < 0x1000 then wordSpot none (blockWords s) off
  else if off < 0x1040 then wordSpot none (frcWords s) (off - 0x1000)
  else if off < 0x1400 then .unmapped
  else if off < 0x1800 then wordSpot none (regionWords s ((off - 0x1400) / 64)) (off % 64)
  else if off < 0x2000 then .unmapped
  else if off < 0x2400 then wordSpot (xdmaId s.cfg ((off - 0x2000) / 64)) (channelWords s ((off - 0x2000) / 64)) (off % 64)
  else if off < 0x3000 then .unmapped
  else if off < 0x4000 then
    (if roleOf s = 1 then wordSpot none (pageWords s ((off - 0x3000) / 64)) (off % 64) else .unmapped)
  else if off < 0x100000 then .unmapped
  else if off < 0x500000 then ringSpot ((off - 0x100000) / 0x100000) ((off - 0x100000) / 0x1000 % 256) (off % 0x1000)
  else if off < 0x520000 then targetSpot ((off - 0x500000) / 0x1000) (off % 0x1000)
  else if off < 0x1000000 then .unmapped
  else if off < 0x2000000 then .window ((off - 0x1000000) / 0x10000) (off % 0x10000)
  else if off < 0x4000000 then .sealed
  else .away

/-- Bytes of the word at a spot. -/
def spotWidth : Spot → Nat
  | .claim _ | .targetWrite _ | .targetStatus _ => 4
  | _ => 8

/-- The ID owns the target. -/
def targetOwner (s : State) (t id : Nat) : Bool :=
  match tget s.cfg.irqTarget t with | some b => b.accessId = id | none => false

/-- A permitted read of a status word: answered with its value, with error while its ID is frozen. -/
def statusAnswer (id v : Nat) (s : State) : State :=
  if clocked s = false then s else if accFrozen s id then sypError s else sypOk v s

/-- A read of a write-only word by its owner returns 0 (R7); in BOOT and ZEROIZED it is answered with error. -/
def writeOnlyRead (id : Nat) (s : State) : State :=
  if clocked s ∧ (s.mode.stage = .boot ∨ s.mode.zeroized) then sypError s else statusAnswer id 0 s

/-- A read of the window at `off` (R244, R398, R438). -/
def sypRead (id off width : Nat) (s : State) : State :=
  let spot := spotAt s off
  let whole := width = spotWidth spot ∧ off % width = 0
  match spot with
  | .away => s
  | .sealed => denied id vioSealed false s
  | .unmapped => denied id vioUnmapped false s
  | .window w o => windowRead id w o width s
  | .status owner v =>
    if ¬whole then denied id vioUnmapped false s
    else if statusRead s id ∨ owner = some id then statusAnswer id v s else denied id vioStatus true s
  | .doorbell key =>
    if ¬whole then denied id vioUnmapped false s else denied id vioRing false s
  | .ringStatus key =>
    if ¬whole then denied id vioUnmapped false s
    else if ringOwner s key id then statusAnswer id (ringStatus s key) s else denied id vioRing true s
  | .ringRest => denied id (if whole then vioRing else vioUnmapped) false s
  | .claim t => if ¬whole then denied id vioUnmapped false s else atTarget id t (claimRead t) s
  | .targetWrite t =>
    if ¬whole then denied id vioUnmapped false s
    else if targetOwner s t id then writeOnlyRead id s else denied id vioTarget false s
  | .targetStatus t =>
    if ¬whole then denied id vioUnmapped false s
    else if targetOwner s t id then statusAnswer id (targetStatus s t) s else denied id vioTarget true s

/-- A write of the window at `off` that is none of the register writes with rows of their own (R22, R398, R438). The value
of one that is is not carried by this row: the state stays (log 38). -/
def sypWrite (id off width : Nat) (s : State) : State :=
  let spot := spotAt s off
  let whole := width = spotWidth spot ∧ off % width = 0
  match spot with
  | .away => s
  | .sealed => denied id vioSealed false s
  | .unmapped => denied id vioUnmapped false s
  | .window _ _ => denied id vioWrite false s
  | .status _ _ => denied id vioWrite false s
  | .doorbell key =>
    if ¬whole then denied id vioWrite false s else if ringOwner s key id then s else denied id vioRing false s
  | .ringStatus _ => if ¬whole then denied id vioWrite false s else denied id vioRing false s
  | .ringRest => denied id (if whole then vioRing else vioWrite) false s
  | .targetWrite t =>
    if ¬whole then denied id vioWrite false s else if targetOwner s t id then s else denied id vioTarget false s
  | .claim t => if ¬whole ∨ targetOwner s t id then denied id vioWrite false s else denied id vioTarget false s
  | .targetStatus t => if ¬whole ∨ targetOwner s t id then denied id vioWrite false s else denied id vioTarget false s

def execWriteNotPermitted (dt accessId offset width : Nat) (s : State) : Result := happen dt (sypWrite accessId offset width) s
def execAccessViolation (dt accessId offset width : Nat) (s : State) : Result := happen dt (sypRead accessId offset width) s

end Sys2Proof.Machine
end

