-- ==== Sys2Proof/Machine/Dispatch.lean ====
section
/-! DEFINITION. One arm per command: a direct call of its meaning. -/
namespace Sys2Proof.Machine

def exec (i : Instr) (s : State) : Host.Outcome State Fault Refusal :=
  match i with
  | .nop z => Sys2Proof.Machine.execNop z s
  | .statusGet z => Sys2Proof.Machine.execStatusGet z s
  | .attestGet z nonce => Sys2Proof.Machine.execAttestGet z nonce s
  | .sessionOpen z b => Sys2Proof.Machine.execSessionOpen z b s
  | .sessionClose z sessionId => Sys2Proof.Machine.execSessionClose z sessionId s
  | .sessionList z => Sys2Proof.Machine.execSessionList z s
  | .epochCommit z b => Sys2Proof.Machine.execEpochCommit z b s
  | .epochCancel z => Sys2Proof.Machine.execEpochCancel z s
  | .epochDiscard z => Sys2Proof.Machine.execEpochDiscard z s
  | .epochStatus z => Sys2Proof.Machine.execEpochStatus z s
  | .errorRead z unit => Sys2Proof.Machine.execErrorRead z unit s
  | .errorAck z unit countSeen => Sys2Proof.Machine.execErrorAck z unit countSeen s
  | .portSet z b => Sys2Proof.Machine.execPortSet z b s
  | .portClear z port => Sys2Proof.Machine.execPortClear z port s
  | .portAddrSet z b => Sys2Proof.Machine.execPortAddrSet z b s
  | .portVlanSet z b => Sys2Proof.Machine.execPortVlanSet z b s
  | .laneSet z b => Sys2Proof.Machine.execLaneSet z b s
  | .zelgenTransportSet z b => Sys2Proof.Machine.execZelgenTransportSet z b s
  | .linkRetrain z port => Sys2Proof.Machine.execLinkRetrain z port s
  | .portStateGet z port => Sys2Proof.Machine.execPortStateGet z port s
  | .secySet z b => Sys2Proof.Machine.execSecySet z b s
  | .scSet z b => Sys2Proof.Machine.execScSet z b s
  | .scClear z b => Sys2Proof.Machine.execScClear z b s
  | .saInstall z b => Sys2Proof.Machine.execSaInstall z b s
  | .saEnable z b => Sys2Proof.Machine.execSaEnable z b s
  | .saRetire z b => Sys2Proof.Machine.execSaRetire z b s
  | .saStateGet z b => Sys2Proof.Machine.execSaStateGet z b s
  | .classSet z b => Sys2Proof.Machine.execClassSet z b s
  | .classClear z portGroup entry => Sys2Proof.Machine.execClassClear z portGroup entry s
  | .classGet z portGroup entry => Sys2Proof.Machine.execClassGet z portGroup entry s
  | .senderIdSet z b => Sys2Proof.Machine.execSenderIdSet z b s
  | .refusalCountsGet z portGroup => Sys2Proof.Machine.execRefusalCountsGet z portGroup s
  | .policerSet z b => Sys2Proof.Machine.execPolicerSet z b s
  | .policerClear z context => Sys2Proof.Machine.execPolicerClear z context s
  | .policerGet z context => Sys2Proof.Machine.execPolicerGet z context s
  | .leafSet z b => Sys2Proof.Machine.execLeafSet z b s
  | .leafClear z leaf => Sys2Proof.Machine.execLeafClear z leaf s
  | .nodeSet z b => Sys2Proof.Machine.execNodeSet z b s
  | .nodeClear z node => Sys2Proof.Machine.execNodeClear z node s
  | .portSchedSet z b => Sys2Proof.Machine.execPortSchedSet z b s
  | .overheadProfileSet z b => Sys2Proof.Machine.execOverheadProfileSet z b s
  | .hostLeafSet z b => Sys2Proof.Machine.execHostLeafSet z b s
  | .schedStateGet z leafOrNode index => Sys2Proof.Machine.execSchedStateGet z leafOrNode index s
  | .gateListSet z b => Sys2Proof.Machine.execGateListSet z b s
  | .preemptSet z b => Sys2Proof.Machine.execPreemptSet z b s
  | .pauseSet z b => Sys2Proof.Machine.execPauseSet z b s
  | .pauseSend z b => Sys2Proof.Machine.execPauseSend z b s
  | .gateStateGet z port => Sys2Proof.Machine.execGateStateGet z port s
  | .timeGet z => Sys2Proof.Machine.execTimeGet z s
  | .timeStep z b => Sys2Proof.Machine.execTimeStep z b s
  | .timeRateSet z rateAdj => Sys2Proof.Machine.execTimeRateSet z rateAdj s
  | .timeSlew z b => Sys2Proof.Machine.execTimeSlew z b s
  | .ppsSet z b => Sys2Proof.Machine.execPpsSet z b s
  | .tsuCalSet z b => Sys2Proof.Machine.execTsuCalSet z b s
  | .tsRead z port tsId => Sys2Proof.Machine.execTsRead z port tsId s
  | .ringConfig z b => Sys2Proof.Machine.execRingConfig z b s
  | .ringStart z ringType ring => Sys2Proof.Machine.execRingStart z ringType ring s
  | .ringStop z ringType ring => Sys2Proof.Machine.execRingStop z ringType ring s
  | .ringReset z ringType ring => Sys2Proof.Machine.execRingReset z ringType ring s
  | .ringStateGet z ringType ring => Sys2Proof.Machine.execRingStateGet z ringType ring s
  | .rxSteerSet z b => Sys2Proof.Machine.execRxSteerSet z b s
  | .irqSourceSet z b => Sys2Proof.Machine.execIrqSourceSet z b s
  | .irqTargetSet z b => Sys2Proof.Machine.execIrqTargetSet z b s
  | .irqStateGet z target => Sys2Proof.Machine.execIrqStateGet z target s
  | .battSet z b => Sys2Proof.Machine.execBattSet z b s
  | .counterWindowSet z b => Sys2Proof.Machine.execCounterWindowSet z b s
  | .sampleSet z b => Sys2Proof.Machine.execSampleSet z b s
  | .queueSampleSet z b => Sys2Proof.Machine.execQueueSampleSet z b s
  | .eventModeSet z b => Sys2Proof.Machine.execEventModeSet z b s
  | .countersGet z counterGroup index => Sys2Proof.Machine.execCountersGet z counterGroup index s
  | .smcSet z b => Sys2Proof.Machine.execSmcSet z b s
  | .rankMigrate z channel rank => Sys2Proof.Machine.execRankMigrate z channel rank s
  | .frcRegionSet z b => Sys2Proof.Machine.execFrcRegionSet z b s
  | .frcControl z region action => Sys2Proof.Machine.execFrcControl z region action s
  | .xdmaChannelSet z b => Sys2Proof.Machine.execXdmaChannelSet z b s
  | .xdmaStart z channel => Sys2Proof.Machine.execXdmaStart z channel s
  | .xdmaStop z channel => Sys2Proof.Machine.execXdmaStop z channel s
  | .smcStateGet z channel => Sys2Proof.Machine.execSmcStateGet z channel s
  | .modeRequest z b => Sys2Proof.Machine.execModeRequest z b s
  | .groupPowerSet z b => Sys2Proof.Machine.execGroupPowerSet z b s
  | .wakeSet z b => Sys2Proof.Machine.execWakeSet z b s
  | .powerStateGet z => Sys2Proof.Machine.execPowerStateGet z s
  | .debugTokenLoad z token => Sys2Proof.Machine.execDebugTokenLoad z token s
  | .freeze z freezeScope => Sys2Proof.Machine.execFreeze z freezeScope s
  | .pouncerSet z b => Sys2Proof.Machine.execPouncerSet z b s
  | .pouncerStop z => Sys2Proof.Machine.execPouncerStop z s
  | .debugStateGet z => Sys2Proof.Machine.execDebugStateGet z s
  | .keyInstall z b => Sys2Proof.Machine.execKeyInstall z b s
  | .keyRevoke z keyId => Sys2Proof.Machine.execKeyRevoke z keyId s
  | .keyList z => Sys2Proof.Machine.execKeyList z s
  | .accessPolicySet z b => Sys2Proof.Machine.execAccessPolicySet z b s
  | .masterUnfreeze z accessId => Sys2Proof.Machine.execMasterUnfreeze z accessId s
  | .lifecycleAdvance z b => Sys2Proof.Machine.execLifecycleAdvance z b s
  | .firmwareStage z b => Sys2Proof.Machine.execFirmwareStage z b s
  | .firmwareActivate z b => Sys2Proof.Machine.execFirmwareActivate z b s
  | .zeroize z confirm => Sys2Proof.Machine.execZeroize z confirm s
  | .fwKeyRevoke z token => Sys2Proof.Machine.execFwKeyRevoke z token s
  | .hlkRoleSet z b => Sys2Proof.Machine.execHlkRoleSet z b s
  | .hlkLinkSet z b => Sys2Proof.Machine.execHlkLinkSet z b s
  | .delegationInstall z cert => Sys2Proof.Machine.execDelegationInstall z cert s
  | .workerList z => Sys2Proof.Machine.execWorkerList z s
  | .timeDistSet z interval => Sys2Proof.Machine.execTimeDistSet z interval s
  | .telemetryAggSet z b => Sys2Proof.Machine.execTelemetryAggSet z b s
  | .commitTakesEffect dt => Sys2Proof.Machine.execCommitTakesEffect dt s
  | .sessionExpiry dt session => Sys2Proof.Machine.execSessionExpiry dt session s
  | .delegationExpiry dt keyId => Sys2Proof.Machine.execDelegationExpiry dt keyId s
  | .cmdRingFetch dt ring desc readOk cmd => Sys2Proof.Machine.execCmdRingFetch dt ring desc readOk s cmd
  | .replyRingWrite dt ring desc writeOk => Sys2Proof.Machine.execReplyRingWrite dt ring desc writeOk s
  | .rxFrame dt f => Sys2Proof.Machine.execRxFrame dt f s
  | .rxPreambleError dt port => Sys2Proof.Machine.execRxPreambleError dt port s
  | .bpiResponse dt pg empty handle => Sys2Proof.Machine.execBpiResponse dt pg empty handle s
  | .bpiResponseTimeout dt pg => Sys2Proof.Machine.execBpiResponseTimeout dt pg s
  | .heldFrameRelease dt port => Sys2Proof.Machine.execHeldFrameRelease dt port s
  | .cliRv dt channel pg frameTag version => Sys2Proof.Machine.execCliRv dt channel pg frameTag version s
  | .cliRvTimeout dt pg frameTag => Sys2Proof.Machine.execCliRvTimeout dt pg frameTag s
  | .signalDetectChange dt lane level heldNs => Sys2Proof.Machine.execSignalDetectChange dt lane level heldNs s
  | .laneLockChange dt lane rxLock txReady heldNs => Sys2Proof.Machine.execLaneLockChange dt lane rxLock txReady s heldNs
  | .laneClockFault dt lane => Sys2Proof.Machine.execLaneClockFault dt lane s
  | .laneClockRecover dt lane => Sys2Proof.Machine.execLaneClockRecover dt lane s
  | .ltPartnerReq dt lane coef => Sys2Proof.Machine.execLtPartnerReq dt lane coef s
  | .ltRxReady dt lane ready => Sys2Proof.Machine.execLtRxReady dt lane ready s
  | .ltTxStatus dt lane status update => Sys2Proof.Machine.execLtTxStatus dt lane status s update
  | .anComplete dt port abilities fecs pause => Sys2Proof.Machine.execAnComplete dt port abilities fecs s pause
  | .anIncompatibleRetry dt port => Sys2Proof.Machine.execAnIncompatibleRetry dt port s
  | .trainingTimeout dt port => Sys2Proof.Machine.execTrainingTimeout dt port s
  | .trainingComplete dt port => Sys2Proof.Machine.execTrainingComplete dt port s
  | .alignComplete dt port remoteFault skews order => Sys2Proof.Machine.execAlignComplete dt port remoteFault skews s order
  | .alignTimeout dt port skewLanes => Sys2Proof.Machine.execAlignTimeout dt port skewLanes s
  | .localFault dt port => Sys2Proof.Machine.execLocalFault dt port s
  | .linkDownHoldExpiry dt port => Sys2Proof.Machine.execLinkDownHoldExpiry dt port s
  | .faultClear dt port => Sys2Proof.Machine.execFaultClear dt port s
  | .remoteFault dt port begins => Sys2Proof.Machine.execRemoteFault dt port begins s
  | .preemptVerifyTimeout dt port => Sys2Proof.Machine.execPreemptVerifyTimeout dt port s
  | .schedDecision dt pg => Sys2Proof.Machine.execSchedDecision dt pg s
  | .leafStatusWord dt pg w => Sys2Proof.Machine.execLeafStatusWord dt pg w s
  | .grantSettle dt pg grantId => Sys2Proof.Machine.execGrantSettle dt pg grantId s
  | .grantTimeout dt pg grantId => Sys2Proof.Machine.execGrantTimeout dt pg grantId s
  | .wheelTick dt pg => Sys2Proof.Machine.execWheelTick dt pg s
  | .shaperRelease dt obj => Sys2Proof.Machine.execShaperRelease dt obj s
  | .cpiTxFrame dt pg t => Sys2Proof.Machine.execCpiTxFrame dt pg t s
  | .txFrameStart dt port lane phase bit => Sys2Proof.Machine.execTxFrameStart dt port lane phase bit s
  | .txFrameEnd dt port => Sys2Proof.Machine.execTxFrameEnd dt port s
  | .txUnderrun dt port => Sys2Proof.Machine.execTxUnderrun dt port s
  | .pauseRequestWord dt pg w => Sys2Proof.Machine.execPauseRequestWord dt pg w s
  | .pauseRefresh dt port => Sys2Proof.Machine.execPauseRefresh dt port s
  | .pauseTimerExpiry dt port prio => Sys2Proof.Machine.execPauseTimerExpiry dt port prio s
  | .gateEntryChange dt port => Sys2Proof.Machine.execGateEntryChange dt port s
  | .gateCycleStart dt port => Sys2Proof.Machine.execGateCycleStart dt port s
  | .timeStepEffect dt => Sys2Proof.Machine.execTimeStepEffect dt s
  | .slewComplete dt => Sys2Proof.Machine.execSlewComplete dt s
  | .ppsInEdge dt rising phase heldNs => Sys2Proof.Machine.execPpsInEdge dt rising phase s heldNs
  | .ppsInLoss dt => Sys2Proof.Machine.execPpsInLoss dt s
  | .todMessage dt bytes => Sys2Proof.Machine.execTodMessage dt bytes s
  | .ppsOutPulse dt => Sys2Proof.Machine.execPpsOutPulse dt s
  | .ppsOutPulseEnd dt => Sys2Proof.Machine.execPpsOutPulseEnd dt s
  | .refFault dt => Sys2Proof.Machine.execRefFault dt s
  | .refFaultClear dt => Sys2Proof.Machine.execRefFaultClear dt s
  | .doorbellProducer dt accessId ringType ring producer cplAck => Sys2Proof.Machine.execDoorbellProducer dt accessId ringType ring producer cplAck s
  | .doorbellCplAck dt accessId ringType ring cplAck => Sys2Proof.Machine.execDoorbellCplAck dt accessId ringType ring cplAck s
  | .ringEntryProcess dt ringType ring desc dataOk data => Sys2Proof.Machine.execRingEntryProcess dt ringType ring desc dataOk s data
  | .rxRingAllot dt ring descs => Sys2Proof.Machine.execRxRingAllot dt ring descs s
  | .rxRingHoldExpiry dt ring frameId => Sys2Proof.Machine.execRxRingHoldExpiry dt ring frameId s
  | .ringStopDone dt ringType ring => Sys2Proof.Machine.execRingStopDone dt ringType ring s
  | .sypMasterResponse dt access error => Sys2Proof.Machine.execSypMasterResponse dt access error s
  | .sypResponseTimeout dt access => Sys2Proof.Machine.execSypResponseTimeout dt access s
  | .claim dt accessId target => Sys2Proof.Machine.execClaim dt accessId target s
  | .complete dt accessId target source => Sys2Proof.Machine.execComplete dt accessId target source s
  | .enableSet dt accessId target source => Sys2Proof.Machine.execEnableSet dt accessId target source s
  | .enableClear dt accessId target source => Sys2Proof.Machine.execEnableClear dt accessId target source s
  | .softSet dt accessId target source => Sys2Proof.Machine.execSoftSet dt accessId target source s
  | .softClear dt accessId target source => Sys2Proof.Machine.execSoftClear dt accessId target source s
  | .irqModerationExpiry dt source => Sys2Proof.Machine.execIrqModerationExpiry dt source s
  | .tgtStateChange dt target state => Sys2Proof.Machine.execTgtStateChange dt target state s
  | .counterWindowRead dt accessId window offset width => Sys2Proof.Machine.execCounterWindowRead dt accessId window offset width s
  | .writeNotPermitted dt accessId offset width => Sys2Proof.Machine.execWriteNotPermitted dt accessId offset width s
  | .battTrigger dt => Sys2Proof.Machine.execBattTrigger dt s
  | .battWriteDone dt => Sys2Proof.Machine.execBattWriteDone dt s
  | .queueSweep dt => Sys2Proof.Machine.execQueueSweep dt s
  | .smcZeroFillDone dt => Sys2Proof.Machine.execSmcZeroFillDone dt s
  | .dfiInitTimeout dt channel => Sys2Proof.Machine.execDfiInitTimeout dt channel s
  | .refreshDue dt channel rank => Sys2Proof.Machine.execRefreshDue dt channel rank s
  | .mr4Poll dt channel rank code => Sys2Proof.Machine.execMr4Poll dt channel rank code s
  | .selfRefreshEntry dt channel rank => Sys2Proof.Machine.execSelfRefreshEntry dt channel rank s
  | .retrainWindow dt channel => Sys2Proof.Machine.execRetrainWindow dt channel s
  | .phyUpdateRequest dt channel lenNs waitedNs => Sys2Proof.Machine.execPhyUpdateRequest dt channel lenNs waitedNs s
  | .channelFullRetrain dt channel => Sys2Proof.Machine.execChannelFullRetrain dt channel s
  | .scrubRead dt address ecc => Sys2Proof.Machine.execScrubRead dt address ecc s
  | .rankMigrationComplete dt bad => Sys2Proof.Machine.execRankMigrationComplete dt s bad
  | .frcGranuleFlush dt region => Sys2Proof.Machine.execFrcGranuleFlush dt region s
  | .frcGranuleWriteDone dt region ok => Sys2Proof.Machine.execFrcGranuleWriteDone dt region ok s
  | .frcRegionStopDone dt region => Sys2Proof.Machine.execFrcRegionStopDone dt region s
  | .xdmaDescFetch dt channel desc readOk => Sys2Proof.Machine.execXdmaDescFetch dt channel desc readOk s
  | .xdmaDescComplete dt channel r => Sys2Proof.Machine.execXdmaDescComplete dt channel r s
  | .groupGate dt pg => Sys2Proof.Machine.execGroupGate dt pg s
  | .idleTimeExpiry dt pg => Sys2Proof.Machine.execIdleTimeExpiry dt pg s
  | .groupWakeStart dt pg => Sys2Proof.Machine.execGroupWakeStart dt pg s
  | .groupWakeDone dt pg => Sys2Proof.Machine.execGroupWakeDone dt pg s
  | .probeWake dt pg => Sys2Proof.Machine.execProbeWake dt pg s
  | .probeHoldExpiry dt pg => Sys2Proof.Machine.execProbeHoldExpiry dt pg s
  | .drainComplete dt => Sys2Proof.Machine.execDrainComplete dt s
  | .drainTimeout dt => Sys2Proof.Machine.execDrainTimeout dt s
  | .firmwareActivateDone dt ok => Sys2Proof.Machine.execFirmwareActivateDone dt ok s
  | .brimResetRelease dt => Sys2Proof.Machine.execBrimResetRelease dt s
  | .coreResetRelease dt refOk => Sys2Proof.Machine.execCoreResetRelease dt refOk s
  | .railGood dt => Sys2Proof.Machine.execRailGood dt s
  | .pllLock dt => Sys2Proof.Machine.execPllLock dt s
  | .bootComplete dt facts => Sys2Proof.Machine.execBootComplete dt facts s
  | .railGoodLoss dt coreReset => Sys2Proof.Machine.execRailGoodLoss dt coreReset s
  | .brimPowerLoss dt => Sys2Proof.Machine.execBrimPowerLoss dt s
  | .freezeInput dt => Sys2Proof.Machine.execFreezeInput dt s
  | .freezeInputFall dt => Sys2Proof.Machine.execFreezeInputFall dt s
  | .freezeClockStop dt q discarded => Sys2Proof.Machine.execFreezeClockStop dt q discarded s
  | .tokenExpiry dt => Sys2Proof.Machine.execTokenExpiry dt s
  | .pouncerDurationExpiry dt cls target => Sys2Proof.Machine.execPouncerDurationExpiry dt cls target s
  | .idcode dt => Sys2Proof.Machine.execIdcode dt s
  | .dbgStatus dt => Sys2Proof.Machine.execDbgStatus dt s
  | .chainSelect dt value => Sys2Proof.Machine.execChainSelect dt value s
  | .chainRead dt bits => Sys2Proof.Machine.execChainRead dt bits s
  | .resume dt value => Sys2Proof.Machine.execResume dt value s
  | .bypass dt tdi => Sys2Proof.Machine.execBypass dt tdi s
  | .errorEscalationTimeout dt unit => Sys2Proof.Machine.execErrorEscalationTimeout dt unit s
  | .errorLogWriteTimeout dt => Sys2Proof.Machine.execErrorLogWriteTimeout dt s
  | .sramEccError dt bank hit => Sys2Proof.Machine.execSramEccError dt bank hit s
  | .cpxLockstepError dt => Sys2Proof.Machine.execCpxLockstepError dt s
  | .pufCheckFail dt which => Sys2Proof.Machine.execPufCheckFail dt which s
  | .hlkHelloTimer dt => Sys2Proof.Machine.execHlkHelloTimer dt s
  | .hlkHello dt h nonce keyDigest bootTag => Sys2Proof.Machine.execHlkHello dt h nonce keyDigest bootTag s
  | .hlkOffer dt h mgrNonce wkrNonce => Sys2Proof.Machine.execHlkOffer dt h mgrNonce wkrNonce s
  | .hlkConfirm dt h epoch mode => Sys2Proof.Machine.execHlkConfirm dt h epoch mode s
  | .hlkHeartbeat dt h timeInterval summaryPeriod => Sys2Proof.Machine.execHlkHeartbeat dt h timeInterval summaryPeriod s
  | .hlkHeartbeatTimer dt => Sys2Proof.Machine.execHlkHeartbeatTimer dt s
  | .hlkCommand dt h header rest => Sys2Proof.Machine.execHlkCommand dt h header rest s
  | .hlkReply dt h r => Sys2Proof.Machine.execHlkReply dt h r s
  | .hlkDelegation dt h cert => Sys2Proof.Machine.execHlkDelegation dt h cert s
  | .hlkTimeReq dt h n => Sys2Proof.Machine.execHlkTimeReq dt h n s
  | .hlkTimeResp dt h n t2 t3Prev => Sys2Proof.Machine.execHlkTimeResp dt h n t2 t3Prev s
  | .timeDistTimer dt => Sys2Proof.Machine.execTimeDistTimer dt s
  | .hlkSummary dt h sm => Sys2Proof.Machine.execHlkSummary dt h sm s
  | .summaryTimer dt => Sys2Proof.Machine.execSummaryTimer dt s
  | .hlkLeave dt h reason => Sys2Proof.Machine.execHlkLeave dt h reason s
  | .hlkPartnerLoss dt partner => Sys2Proof.Machine.execHlkPartnerLoss dt partner s
  | .targetTimeout dt correlation => Sys2Proof.Machine.execTargetTimeout dt correlation s
  | .accessViolation dt accessId offset width => Sys2Proof.Machine.execAccessViolation dt accessId offset width s
  | .groupPowerNotGood dt pg => Sys2Proof.Machine.execGroupPowerNotGood dt pg s
  | .bpiRdDataTimeout dt port => Sys2Proof.Machine.execBpiRdDataTimeout dt port s
  | .channelRetrainDone dt channel ok => Sys2Proof.Machine.execChannelRetrainDone dt channel ok s
  | .cpxRestartDone dt => Sys2Proof.Machine.execCpxRestartDone dt s
  | .errorLogWriteError dt => Sys2Proof.Machine.execErrorLogWriteError dt s
  | .hammerThrottleExpiry dt channel rank bank requester => Sys2Proof.Machine.execHammerThrottleExpiry dt channel rank bank requester s
  | .laneDropExpiry dt lane => Sys2Proof.Machine.execLaneDropExpiry dt lane s

end Sys2Proof.Machine
end

