-- ==== Sys2Proof/Safety.lean ====
section
/-! DEFINITION. The terms that the statements use: the parts of the state and what a row changes, the admission of a command by the
checks of R46, and what a reply says. -/
namespace Sys2Proof.Safety
open Sys2Proof.Machine

/-! ## What a row changes -/

/-- The parts of the state, every field of `State` in at least one of them. -/
inductive Part where
  | mode        -- stage, base mode, resets, drain
  | quarantine  -- whether the block is in QUARANTINE
  | shown       -- the reported mode last noted
  | fuses | tsu
  | sessions    -- CPX: sessions
  | checks      -- CPX: sequences, queue, rate limits, forwarded commands
  | staged      -- CPX: the staged set while it is open
  | sealed      -- CPX: the staged set while it is sealed
  | cpx         -- CPX: everything else
  | hood | cfg | err | acc
  | levels      -- interrupt source levels
  | jic         -- everything else of the interrupt controller
  | ctr         -- running totals and the conditions of the event counters
  | sweep       -- the sweep in progress and the last one
  | samples     -- the sample buffer
  | tel         -- everything else of telemetry
  | mem         -- side-memory bytes
  | smc         -- everything else of side memory
  | frc | xdma | groups | lanes
  | lif         -- what LIF drives
  | ports | gates
  | hostQueue   -- frames that CPX, HLK and the rings have ready
  | esh         -- everything else of the scheduler
  | replies     -- reply rings' replies and the frame numbers of HPE
  | hpe         -- everything else of the rings
  | pounce      -- running perturbations and the length of a freeze
  | dbg         -- everything else of the debug unit
  | hlk | rx | sas | pols
  | out         -- what this step has driven
  | sent        -- what it has driven so far: nothing is taken back
  | draws | pending
deriving DecidableEq, Repr

/-- The part is the same in two states. -/
def Part.same (p : Part) (s t : State) : Prop :=
  match p with
  | .mode => { t.mode with shown := 0, quarantine := false } = { s.mode with shown := 0, quarantine := false }
  | .quarantine => t.mode.quarantine = s.mode.quarantine
  | .shown => t.mode.shown = s.mode.shown
  | .fuses => t.fuses = s.fuses
  | .tsu => t.tsu = s.tsu
  | .sessions => t.cpx.sessions = s.cpx.sessions
  | .checks => (t.cpx.keySeq, t.cpx.queue, t.cpx.round, t.cpx.unauth, t.cpx.forwarded) =
      (s.cpx.keySeq, s.cpx.queue, s.cpx.round, s.cpx.unauth, s.cpx.forwarded)
  | .staged => s.cpx.staged.sealed = none → t.cpx.staged = s.cpx.staged
  | .sealed => s.cpx.staged.sealed ≠ none → t.cpx.staged = s.cpx.staged
  | .cpx =>
    { t.cpx with sessions := [], keySeq := [], queue := [], round := [], unauth := [], forwarded := [], staged := {} } =
      { s.cpx with sessions := [], keySeq := [], queue := [], round := [], unauth := [], forwarded := [], staged := {} }
  | .hood => t.hood = s.hood
  | .cfg => t.cfg = s.cfg
  | .err => t.err = s.err
  | .acc => t.acc = s.acc
  | .levels => t.jic.levels = s.jic.levels
  | .jic => { t.jic with levels := [] } = { s.jic with levels := [] }
  | .ctr => (t.tel.ctr, t.tel.ctrWas, t.tel.evPrev, t.tel.evUp) = (s.tel.ctr, s.tel.ctrWas, s.tel.evPrev, s.tel.evUp)
  | .sweep => (t.tel.sweep, t.tel.sweepRun, t.tel.sweepSeq) = (s.tel.sweep, s.tel.sweepRun, s.tel.sweepSeq)
  | .samples => t.tel.samples = s.tel.samples
  | .tel => { t.tel with ctr := [], ctrWas := [], evPrev := [], evUp := [], samples := [], sweep := [], sweepRun := none, sweepSeq := 0 } =
      { s.tel with ctr := [], ctrWas := [], evPrev := [], evUp := [], samples := [], sweep := [], sweepRun := none, sweepSeq := 0 }
  | .mem => t.smc.mem = s.smc.mem
  | .smc => { t.smc with mem := [] } = { s.smc with mem := [] }
  | .frc => t.frc = s.frc
  | .xdma => t.xdma = s.xdma
  | .groups => t.groups = s.groups
  | .lanes => t.lanes = s.lanes
  | .lif => t.lif = s.lif
  | .ports => t.ports = s.ports
  | .gates => t.gates = s.gates
  | .hostQueue => t.esh.host = s.esh.host
  | .esh => { t.esh with host := [] } = { s.esh with host := [] }
  | .replies => (t.hpe.replies, t.hpe.nextId) = (s.hpe.replies, s.hpe.nextId)
  | .hpe => (t.hpe.rings, t.hpe.staged) = (s.hpe.rings, s.hpe.staged)
  | .pounce => (t.dbg.pounce, t.dbg.frozenFor) = (s.dbg.pounce, s.dbg.frozenFor)
  | .dbg => { t.dbg with pounce := [], frozenFor := 0 } = { s.dbg with pounce := [], frozenFor := 0 }
  | .hlk => t.hlk = s.hlk
  | .rx => t.rx = s.rx
  | .sas => t.sas = s.sas
  | .pols => t.pols = s.pols
  | .out => t.out = s.out
  | .sent => ∀ o, o ∈ s.out → o ∈ t.out
  | .draws => t.draws = s.draws
  | .pending => t.pending = s.pending

/-- From `s` to `t` at most the listed parts change. -/
def Changes (l : List Part) (s t : State) : Prop := ∀ p, p ∉ l → p.same s t

/-- What the passing of time may change before a command (log 3): the time base and the reported mode; the errors of the ccyc that ended,
their records and what they contain; counters, samples and sweeps; ports that come up or count idle slots; reception, its buffers and its
holds; the writes of export, of the batts and of side memory; interrupt levels and presentation; readiness in the tree; the lanes' pins. -/
def timeParts : List Part :=
  [.quarantine, .shown, .tsu, .sessions, .sealed, .err, .levels, .jic, .ctr, .sweep, .samples, .tel, .mem, .smc, .frc, .xdma, .lif, .ports,
   .esh, .pounce, .dbg, .rx, .sas, .pols, .out, .sent, .draws]

/-- What the check of a command and the end of its frame may change. -/
def checkParts : List Part := [.sessions, .checks, .ctr, .samples, .levels, .jic, .pols, .frc]

/-- What a command's reply and its COMMAND record may change. -/
def replyParts : List Part := [.out, .replies, .hostQueue, .ctr, .hlk, .frc]

/-- What recording an error may change. -/
def errorParts : List Part := [.quarantine, .sessions, .sealed, .err, .frc, .pounce, .dbg]

/-! ## Commands -/

/-- The mode and parameter checks, for a command whose sender is known. -/
def passGate (op : Op) (z : Zelgen) (ctx : ReplyCtx) (u : State) : Option (ReplyCtx × State) :=
  if (authKind z = 0 ∨ modeCheck op u = none) ∧ paramCheck op ctx u = none then some (ctx, u) else none

/-- The command as CPX takes it up from its queue (R43): its entry there, its context, and the state without that entry. None where
CPX takes no command, or none of this transport waits or may be served. -/
def takenUp (op : Op) (z : Zelgen) (s : State) : Option (Waiting × ReplyCtx × State) :=
  let s1 := start z.dt s
  if processing s1 = false ∨ s1.cpx.restart.isSome then none
  else (takeWaiting z.origin s1).map (fun e => (e.1, ctxOf (seenAs op z) z e.1 e.2, e.2))

/-- The command passes every check of R46 up to its authentication, and its sequence is consumed: its context, and the state in
which its mode and parameters are checked. -/
def authenticated (op : Op) (z : Zelgen) (s : State) : Option (ReplyCtx × State) :=
  match takenUp op z s with
  | some (w, c, s1) =>
    match checkZ (seenAs op z) c z s1 with
    | .passed key signer s2 => some ({ c with key, signer }, settleFrame w true s2)
    | _ => none
  | none => none

/-- The command passes every check of R46 up to its effect: its context, and the state in which it is carried out. None where a
check refuses, forwards or drops it, or where CPX takes no command. -/
def admitted (op : Op) (z : Zelgen) (s : State) : Option (ReplyCtx × State) :=
  match authenticated op z s with
  | some (c, u) => passGate op z c u
  | none => none

/-- The state drove a reply to this command with this status and body. -/
def Replied (z : Zelgen) (opcode status : Nat) (body : Fields) (t : State) : Prop :=
  ∃ r : Reply, Output.reply z.origin r ∈ t.out ∧ r.opcode = opcode ∧ r.status = status ∧ r.body = body ∧
    r.sequence = z.sequence ∧ r.correlation = z.correlation

/-- A staging command that is admitted while the set is open and has room (R24, R57) writes its edit at the end of the staged
set, counts it and takes its header and body into the digest (R54), replies OK_STAGED, and changes nothing else of the block's
configuration or state. -/
def Stages (i : Instr) (op : Op) (code : Nat) (z : Zelgen) (e : Edit) : Prop :=
  ∀ (s : State) (c : ReplyCtx) (u : State), admitted op z s = some (c, u) →
    s.cpx.staged.sealed = none → s.cpx.staged.count < 65536 → s.cpx.staged.bytes + z.bodyLen ≤ 1048576 →
    ∃ t, exec i s = .next t ∧
      t.cpx.staged =
        { edits := s.cpx.staged.edits ++ [e], count := s.cpx.staged.count + 1, bytes := s.cpx.staged.bytes + z.bodyLen
          digest := Config.sha384 (msbBytes 48 s.cpx.staged.digest.toNat ++ messageOf op z), sealed := none } ∧
      (replyOnError z = false → Replied z code 0x0001 [] t) ∧
      Changes (.staged :: (checkParts ++ replyParts)) (start z.dt s) t

/-- A query that is admitted replies OK with its data, read in the state in which it is carried out, and changes nothing but what
every checked command changes (R49). -/
def Answers (i : Instr) (op : Op) (code : Nat) (z : Zelgen) (body : State → Fields) : Prop :=
  ∀ (s : State) (c : ReplyCtx) (u : State), admitted op z s = some (c, u) →
    ∃ t, exec i s = .next t ∧ (replyOnError z = false → Replied z code 0x0000 (body u) t) ∧
      Changes (checkParts ++ replyParts) (start z.dt s) t

/-- A command that is admitted where `pre` holds carries its effect out at once: what `post` says holds between the state in which
it is carried out and the one it leaves, it replies with this status and body, and nothing changes but `parts` and what every
checked and answered command changes. -/
def Performs (i : Instr) (op : Op) (code : Nat) (z : Zelgen) (pre : State → Prop) (status : Nat) (body : State → Fields)
    (parts : List Part) (post : State → State → Prop) : Prop :=
  ∀ (s : State) (c : ReplyCtx) (u : State), admitted op z s = some (c, u) → pre u →
    ∃ t, exec i s = .next t ∧ post u t ∧ (replyOnError z = false ∨ 2 < status → Replied z code status (body u) t) ∧
      Changes (parts ++ (checkParts ++ replyParts)) (start z.dt s) t

/-- A command that is admitted where `pre` holds begins an effect that is answered when it is complete (R49): what `post` says
holds of its reply's context, the state in which it is carried out and the one it leaves; it drives no reply now. -/
def Defers (i : Instr) (op : Op) (z : Zelgen) (pre : State → Prop) (parts : List Part)
    (post : ReplyCtx → State → State → Prop) : Prop :=
  ∀ (s : State) (c : ReplyCtx) (u : State), admitted op z s = some (c, u) → pre u →
    ∃ t, exec i s = .next t ∧ post c u t ∧ (∀ o y, Output.reply o y ∈ t.out → Output.reply o y ∈ u.out) ∧
      Changes (parts ++ checkParts) (start z.dt s) t

/-- A command whose effect burns fuses: it is carried out on `u`, and `post` says what the state that it leaves holds. -/
def Burns (i : Instr) (op : Op) (z : Zelgen) (pre : State → Prop) (parts : List Part) (post : ReplyCtx → State → State → Prop) : Prop :=
  ∀ (s : State) (c : ReplyCtx) (u : State), admitted op z s = some (c, u) → pre u →
    ∃ t, exec i s = .next t ∧ post c u t ∧ Changes (.fuses :: (parts ++ (checkParts ++ replyParts))) (start z.dt s) t

/-! ## Happenings -/

/-- A happening that comes when `pre` holds (once its `dt` ccyc have passed) leaves a state of which `post` holds, and changes at
most `parts`. -/
def Happens (i : Instr) (dt : Nat) (pre : State → Prop) (parts : List Part) (post : State → State → Prop) : Prop :=
  ∀ s : State, pre (start dt s) → ∃ t, exec i s = .next t ∧ post (start dt s) t ∧ Changes parts (start dt s) t

/-- An index that PRODUCER may become: in the ring, within a lap of C as the ccyc found it, and not behind P (R242, Table 10-12). -/
def newProducer (k : Nat) (r : Ring) (now p : Nat) : Prop :=
  idxSlot p < 2 ^ k ∧ spanValid k (span k p (if r.cAt = now then r.cWas else r.c)) = true ∧
    span k r.p (if r.cAt = now then r.cWas else r.c) ≤ span k p (if r.cAt = now then r.cWas else r.c)

/-- An index that CPL_ACK may become (R243). -/
def newAck (k : Nat) (r : Ring) (a : Nat) : Prop :=
  idxSlot a < 2 ^ k ∧ spanValid k (span k a r.a) = true ∧ spanValid k (span k r.w a) = true

/-- A frame that an open port accepts and that passes every check of reception, on a port that is not drained, in no class, with no
policer configured and no held frame in its group (R83 to R87, R100, R211, R446). -/
def plainFrame (f : RxFrame) (s : State) : Prop :=
  rxOpen s f.port = true ∧ f.mpacket = .none ∧ (f.preemptable = true → (preemptCfg s.cfg f.port).preemptableMask ≠ 0) ∧
  f.port ∉ s.mode.drained ∧ (∀ d, s.mode.drain = some d → bit d.ports f.port = false) ∧
  bit (portFlags s.cfg f.port) 3 = false ∧
  fcsGood f.bytes = true ∧ f.symbolAt = none ∧ fragmentAt f = none ∧ f.faultCut = false ∧ none ∉ f.codewords ∧
  64 ≤ f.bytes.length ∧ f.bytes.length ≤ 16383 ∧ (∀ b, portCfg s f.port = some b → f.bytes.length ≤ b.mtu) ∧
  numAt f.bytes 12 2 ≠ 0x8808 ∧ (rxGroup s (groupOf f.port)).frames = [] ∧
  (f.port < 512 → s.cfg.policer = [] ∧
    ∀ b, classOf s.cfg f.port f.bytes (parse s.cfg f.port f.bytes) b = none)

/-- What a change of a port's link state may change (R68, R76, R81, R205, R348). -/
def linkParts : List Part :=
  [.quarantine, .sessions, .sealed, .err, .levels, .jic, .ctr, .samples, .frc, .groups, .ports, .hostQueue, .esh, .replies, .hpe,
   .pounce, .dbg, .hlk, .sas, .out]

/-- A port that is configured, powered and clocked. -/
def portLive (s : State) (p : Nat) : Prop := clocked s = true ∧ thas s.cfg.port p = true ∧ portPowered s p = true

/-- Port `p` enters link state `x` now, and no other port's link state changes. -/
def enters (p : Nat) (x : LinkSt) (s t : State) : Prop :=
  (portOf t p).link = x ∧ (portOf t p).since = s.tsu.now ∧ ∀ q, q ≠ p → (portOf t q).link = (portOf s q).link

/-- A violation by an access ID: answered with error; recorded among those of the last second, or, for an access to the sealed
range or at the ID's limit, the ID frozen (R399). -/
def violates (id : Nat) (toSealed : Bool) (s t : State) : Prop :=
  Output.sypAnswer true 0 ∈ t.out ∧
  accOf t id =
    if toSealed = true ∨ violationLimit s id ≤ ((accOf s id).times.filter (fun x => s.tsu.now < x + secs 1)).length + 1 then
      { times := [], freezes := (accOf s id).freezes + 1, frozen := true }
    else { accOf s id with times := (s.tsu.now :: (accOf s id).times.filter (fun x => s.tsu.now < x + secs 1)).take 16 }

/-- What the answer of a host access leaves: good, or in error or missing (R262, R298, R351, R386, R388). -/
def hostAccessDone (a : HostAccess) (bad : Bool) (s t : State) : Prop :=
  match a with
  | .descRead k n =>
    (bad = false → t.hpe = s.hpe) ∧
    (bad = true → (ringOf s (k * 256 + n)).state = 2 ∨ (ringOf s (k * 256 + n)).state = 3 →
      (ringOf t (k * 256 + n)).state = 4 ∧ (ringOf t (k * 256 + n)).error = 6)
  | .dataRead _ _ => t.hpe = s.hpe
  | .dataWrite k n => ∀ e, k = 0 → n < 256 → (ringOf s n).state = 2 → (ringOf s n).taken = [e] → e.owed = true → e.done = none →
      e.fault = false → (ringOf t n).taken = [] ∧ (ringOf t n).c = idxAdd (ringLog s n) (ringOf s n).c 1
  | .cplWrite k n => ∀ c w l, (ringOf s (k * 256 + n)).back = (c, w) :: l →
      (ringOf s (k * 256 + n)).state ≠ 4 → (ringOf s (k * 256 + n)).state ≠ 5 →
      (bad = false → ringOf t (k * 256 + n) = { ringOf s (k * 256 + n) with back := l }) ∧
      (bad = true → (ringOf t (k * 256 + n)).state = 4 ∧ (ringOf t (k * 256 + n)).error = 7)
  | .battWrite => ∀ r, s.tel.battBusy = some r → 32 < r.next → bad = true → t.tel.battBusy = none ∧ t.tel.battFailed = s.tel.battFailed + 1
  | .xdma c => clocked s = true → (xchan s c).state ≠ .frozen → bad = false →
      t.xdma = tput s.xdma c { xchan s c with begun := writeAnswered (xchan s c).begun }
  | .storeWrite => ∀ q l, s.hood.store = q :: l →
      t.hood.store = l ∧
      (bad = false → t.hood.slots = changeSlots q.change s.hood.slots ∧ t.hood.storeSeq = s.hood.storeSeq + 1) ∧
      (bad = true → t.hood.slots = s.hood.slots ∧
        ∀ c, q.ctx = some c → ∃ r, Output.reply c.origin r ∈ t.out ∧ r.status = 0x0501)
  | .imageRead => t.hood = s.hood

/-- The owner of a target reaches its page: the block runs with a clock, outside BOOT and ZEROIZED, and the ID is not frozen
(R268, R398). -/
def reaches (a n : Nat) (s : State) : Prop :=
  clocked s = true ∧ n < 32 ∧ (∃ b, tget s.cfg.irqTarget n = some b ∧ b.accessId = a) ∧ accFrozen s a = false ∧
    s.mode.stage ≠ .boot ∧ s.mode.zeroized = false

/-! ## The command rows -/

/-- The Zelgen command that a row is, as the check of R46 sees it, and its envelope; none for a happening. -/
def commandOf (i : Instr) : Option (Op × Zelgen) :=
  match i with
  | .nop z => some (opNop, z)
  | .statusGet z => some (opStatusGet, z)
  | .attestGet z nonce => some (opAttestGet nonce, z)
  | .sessionOpen z b => some (opSessionOpen b, z)
  | .sessionClose z sessionId => some (opSessionClose sessionId, z)
  | .sessionList z => some (opSessionList, z)
  | .epochCommit z b => some (opEpochCommit b, z)
  | .epochCancel z => some (opEpochCancel, z)
  | .epochDiscard z => some (opEpochDiscard, z)
  | .epochStatus z => some (opEpochStatus, z)
  | .errorRead z unit => some (opErrorRead unit, z)
  | .errorAck z unit countSeen => some (opErrorAck unit countSeen, z)
  | .portSet z b => some (opPortSet b, z)
  | .portClear z port => some (opPortClear port, z)
  | .portAddrSet z b => some (opPortAddrSet b, z)
  | .portVlanSet z b => some (opPortVlanSet b, z)
  | .laneSet z b => some (opLaneSet b, z)
  | .zelgenTransportSet z b => some (opZelgenTransportSet b, z)
  | .linkRetrain z port => some (opLinkRetrain port, z)
  | .portStateGet z port => some (opPortStateGet port, z)
  | .secySet z b => some (opSecySet b, z)
  | .scSet z b => some (opScSet b, z)
  | .scClear z b => some (opScClear b, z)
  | .saInstall z b => some (opSaInstall b, z)
  | .saEnable z b => some (opSaEnable b, z)
  | .saRetire z b => some (opSaRetire b, z)
  | .saStateGet z b => some (opSaStateGet b, z)
  | .classSet z b => some (opClassSet b, z)
  | .classClear z portGroup entry => some (opClassClear portGroup entry, z)
  | .classGet z portGroup entry => some (opClassGet portGroup entry, z)
  | .senderIdSet z b => some (opSenderIdSet b, z)
  | .refusalCountsGet z portGroup => some (opRefusalCountsGet portGroup, z)
  | .policerSet z b => some (opPolicerSet b, z)
  | .policerClear z context => some (opPolicerClear context, z)
  | .policerGet z context => some (opPolicerGet context, z)
  | .leafSet z b => some (opLeafSet b, z)
  | .leafClear z leaf => some (opLeafClear leaf, z)
  | .nodeSet z b => some (opNodeSet b, z)
  | .nodeClear z node => some (opNodeClear node, z)
  | .portSchedSet z b => some (opPortSchedSet b, z)
  | .overheadProfileSet z b => some (opOverheadProfileSet b, z)
  | .hostLeafSet z b => some (opHostLeafSet b, z)
  | .schedStateGet z leafOrNode index => some (opSchedStateGet leafOrNode index, z)
  | .gateListSet z b => some (opGateListSet b, z)
  | .preemptSet z b => some (opPreemptSet b, z)
  | .pauseSet z b => some (opPauseSet b, z)
  | .pauseSend z b => some (opPauseSend b, z)
  | .gateStateGet z port => some (opGateStateGet port, z)
  | .timeGet z => some (opTimeGet, z)
  | .timeStep z b => some (opTimeStep b, z)
  | .timeRateSet z rateAdj => some (opTimeRateSet rateAdj, z)
  | .timeSlew z b => some (opTimeSlew b, z)
  | .ppsSet z b => some (opPpsSet b, z)
  | .tsuCalSet z b => some (opTsuCalSet b, z)
  | .tsRead z port tsId => some (opTsRead port tsId, z)
  | .ringConfig z b => some (opRingConfig b, z)
  | .ringStart z ringType ring => some (opRingStart ringType ring, z)
  | .ringStop z ringType ring => some (opRingStop ringType ring, z)
  | .ringReset z ringType ring => some (opRingReset ringType ring, z)
  | .ringStateGet z ringType ring => some (opRingStateGet ringType ring, z)
  | .rxSteerSet z b => some (opRxSteerSet b, z)
  | .irqSourceSet z b => some (opIrqSourceSet b, z)
  | .irqTargetSet z b => some (opIrqTargetSet b, z)
  | .irqStateGet z target => some (opIrqStateGet target, z)
  | .battSet z b => some (opBattSet b, z)
  | .counterWindowSet z b => some (opCounterWindowSet b, z)
  | .sampleSet z b => some (opSampleSet b, z)
  | .queueSampleSet z b => some (opQueueSampleSet b, z)
  | .eventModeSet z b => some (opEventModeSet b, z)
  | .countersGet z counterGroup index => some (opCountersGet counterGroup index, z)
  | .smcSet z b => some (opSmcSet b, z)
  | .rankMigrate z channel rank => some (opRankMigrate channel rank, z)
  | .frcRegionSet z b => some (opFrcRegionSet b, z)
  | .frcControl z region action => some (opFrcControl region action, z)
  | .xdmaChannelSet z b => some (opXdmaChannelSet b, z)
  | .xdmaStart z channel => some (opXdmaStart channel, z)
  | .xdmaStop z channel => some (opXdmaStop channel, z)
  | .smcStateGet z channel => some (opSmcStateGet channel, z)
  | .modeRequest z b => some (opModeRequest b, z)
  | .groupPowerSet z b => some (opGroupPowerSet b, z)
  | .wakeSet z b => some (opWakeSet b, z)
  | .powerStateGet z => some (opPowerStateGet, z)
  | .debugTokenLoad z token => some (opDebugTokenLoad token, z)
  | .freeze z freezeScope => some (opFreeze freezeScope, z)
  | .pouncerSet z b => some (opPouncerSet b, z)
  | .pouncerStop z => some (opPouncerStop, z)
  | .debugStateGet z => some (opDebugStateGet, z)
  | .keyInstall z b => some (opKeyInstall b, z)
  | .keyRevoke z keyId => some (opKeyRevoke keyId, z)
  | .keyList z => some (opKeyList, z)
  | .accessPolicySet z b => some (opAccessPolicySet b, z)
  | .masterUnfreeze z accessId => some (opMasterUnfreeze accessId, z)
  | .lifecycleAdvance z b => some (opLifecycleAdvance b, z)
  | .firmwareStage z b => some (opFirmwareStage b, z)
  | .firmwareActivate z b => some (opFirmwareActivate b, z)
  | .zeroize z confirm => some (opZeroize confirm, z)
  | .fwKeyRevoke z token => some (opFwKeyRevoke token, z)
  | .hlkRoleSet z b => some (opHlkRoleSet b, z)
  | .hlkLinkSet z b => some (opHlkLinkSet b, z)
  | .delegationInstall z cert => some (opDelegationInstall cert, z)
  | .workerList z => some (opWorkerList, z)
  | .timeDistSet z interval => some (opTimeDistSet interval, z)
  | .telemetryAggSet z b => some (opTelemetryAggSet b, z)
  | _ => none

/-! ## The order of R46 -/

/-- The checks of R46 up to authentication, in their order, for a command with a signature or a session tag that names this
block: whether each holds, and the status that its failure gives. -/
def checksOf (op : Op) (z : Zelgen) (s : State) : List (Bool × Nat) :=
  [(z.version = 1, 0x0101),
   (z.carrierLen = 32 + z.bodyLen + z.trailer.len && 4 ≤ z.trailer.len, 0x0102),
   (z.bodyLen = roundUp (fieldLen op.body) 4 && z.padZero && op.lenOk, 0x0102),
   (field z.flags 4 0 = 0 && field z.target 7 6 = 0 && z.rsv7 = 0 && keyFormOk z && op.rsvZero, 0x0103),
   (!op.unknown, 0x0104),
   (z.bootTag = s.cpx.bootTag, 0x0206),
   (z.notAfter = 2 ^ 48 - 1 || seconds s ≤ z.notAfter, 0x0205),
   ((whoOf s z.keyId).isSome, 0x0202),
   ((whoOf s z.keyId).all (fun w => permits op z w s), 0x0203),
   (!s.mode.quarantine || (authKind z = 1 && (whoOf s z.keyId).all (fun w => w.manager || (w.anchor && hoodBlank s))), 0x0203),
   (fresh s z, 0x0204),
   (trailerOk z, 0x0201)]

/-- The status of the first check that fails. -/
def firstFailing (l : List (Bool × Nat)) : Option Nat := (l.find? (fun c => !c.1)).map (·.2)

/-- Ethernet and UDP, whose authentication failures get no reply (R44). -/
def network (o : Origin) : Bool :=
  match o with
  | .eth _ => true
  | .udp _ => true
  | _ => false

/-- What a refused command may change: its place in the queue and among the replies, its frame's end (counters, class records, the
policer's charge, a trigger armed for a refusal), and what replies and records change. -/
def refusedParts : List Part :=
  [.checks, .pols, .replies, .ctr, .samples, .levels, .jic, .frc, .dbg, .pounce, .err, .out, .hostQueue, .hlk]

end Sys2Proof.Safety
end

