-- ==== Sys2Proof/Certificates/Slice0/Obligations.lean ====
section
/-! DEFINITION. The statements about the block, family by family: what each command or happening does from a state, what it leaves
unchanged, and that it completes. `Happens`, `Performs`, `Defers`, `Burns`, `Stages` and `Answers` are `Sys2Proof.Safety`'s forms. -/

open Sys2Proof Sys2Proof.Machine Sys2Proof.Safety

namespace Sys2Proof.Safety

/-- An error of this code and severity has been recorded by the unit, and takes the next ERR_SEQ (R408, R409). -/
def raises (u code sev : Nat) (s t : State) : Prop :=
  (errUnit t u).latest.code = code ∧ (errUnit t u).latest.sev = sev ∧ (errUnit t u).latest.seq = s.err.nextSeq ∧
    s.err.nextSeq < t.err.nextSeq ∧ (errUnit t u).count = satInc 32 (errUnit s u).count

end Sys2Proof.Safety

/-! ## The block, its queue and its clock -/

/-- A step carries out the command at the front of the queue on the state with the rest of the queue. -/
def Obligations.StepCarriesOutTheFront : Prop :=
  ∀ (c : Instr) (r : List Instr) (s : State), step { s with pending := c :: r } = exec c { s with pending := r }

/-- With no command waiting, one ccyc passes and nothing else happens. The model's choice (log 3). -/
def Obligations.EmptyQueuePassesOneCcyc : Prop :=
  ∀ s : State, s.pending = [] →
    ∃ t, step s = .next t ∧ Changes timeParts s t ∧
      (clocked s = true → t.tsu.now = s.tsu.now + 1) ∧ (clocked s = false → t.tsu = s.tsu)

/-- Every ccyc that passes before a row moves the time base by the rate in force in it (R218) and CCYC_COUNT by one (R221), and time
changes nothing that a command configures; without a clock the time base stands still. -/
def Obligations.TimePassesAtTheRate : Prop :=
  ∀ (d : Nat) (s : State),
    Changes timeParts s (start d s) ∧
    (clocked (start d s) = true → (start (d + 1) s).tsu.now = (start d s).tsu.now + 1 ∧
      (start (d + 1) s).tsu.time = (((start d s).tsu.time : Int) + gain (start d s) 1).toNat) ∧
    (clocked (start d s) = false → (start (d + 1) s).tsu = (start d s).tsu)

/-- No row stops the block: every row answers a next state in every state (completion: of every command and happening), so that a
step does from any state; the commands behind the one it took wait in their order. -/
def Obligations.EveryStepAnswersInOrder : Prop :=
  (∀ (i : Instr) (s : State), ∃ t, exec i s = .next t ∧ t.pending = s.pending) ∧
  ∀ s : State, ∃ t, step s = .next t ∧ t.pending = s.pending.tail

/-- What is burnt stays burnt (R383): a fuse bit that a step finds burnt is burnt in the state it leaves, and no step changes
a field that the hood does not burn. `f` is any reading of the fuses made earlier. -/
def Obligations.BurntFusesStayBurnt : Prop :=
  ∀ (f : Fuses) (s t : State),
    (burnFuses f s.fuses = s.fuses) → step s = .next t → burnFuses f t.fuses = t.fuses

/-- The state after reset is OFF with unburnt fuses (R365, Table 17-2); an empty queue, no output yet, and the canonical form of
both memories. -/
def Obligations.ResetIsOffAndUnburnt : Prop :=
  modeCode State.reset = 0 ∧ State.reset.fuses = {} ∧ lifecycle State.reset = 0 ∧ State.reset.cpx.epoch = 0 ∧
  State.reset.cpx.bootTag = 0 ∧ State.reset.tsu.time = 0 ∧ State.reset.tsu.sync = .unset ∧ State.reset.dbg.level = .closed ∧
  State.reset.err.nextSeq = 0 ∧ State.reset.pending = [] ∧ State.reset.out = [] ∧
  Memory.wf State.reset.smc.mem = true ∧ Memory.wf State.reset.cpx.staging = true

/-- No row of the table gives bits, so no word spells a command, and placing one changes nothing. -/
def Obligations.NoWordSpellsACommand : Prop :=
  ∀ (nbits w : Nat) (s : State), decodeTableWord nbits w = none ∧ s.withFetchWord nbits w = s

/-! ## Sessions, status and attestation (02 Table 2-9, R51, R52) -/

namespace Sys2Proof.Safety

/-- No firmware activation waits for the queue to empty (R392). -/
def quietCpx (u : State) : Prop := ∀ a, u.cpx.activation = some a → a.restarting = true ∨ u.cpx.queue ≠ []

/-- DEVICE_NONCE that the next draw gives: the high 256 bits of a free value (log 15). -/
def nextNonce (u : State) : BitVec 256 := BitVec.ofNat 256 ((Config.entropy u.draws).toNat / 2 ^ 128)

/-- The session that SESSION_OPEN under `keyId` opens at number `n` (R51). -/
def openedSession (b : SessionOpenBody) (keyId n : Nat) (secret : Digest) (u : State) : Session :=
  let sk := sessionKey secret b.hostNonce (nextNonce u) (0x8000 + n) u.cpx.bootTag
  { keyId, manager := opensAsManager u keyId, sk, kw := wrapKey sk, mask := b.groupMask, expiry := seconds u + b.lifetime }

end Sys2Proof.Safety

/-- NOP changes nothing; STATUS_GET and ATTEST_GET answer with Table 2-9's fields, signed or not, and an attestation is counted.
Completion: in each clause about such a row, for every state and operands that meet its conditions, exec answers a next state: nop,
statusGet and attestGet. -/
def Obligations.StatusAndAttestation : Prop :=
  (∀ z, Answers (.nop z) opNop 0x0000 z (fun _ => [])) ∧
  (∀ z, Performs (.statusGet z) opStatusGet 0x0001 z quietCpx 0x0000
    (fun u => [(4, u.cpx.bootTag.toNat), (1, lifecycle u), (1, levelCode u.dbg.level), (1, modeCode u), (1, instOf u),
      (4, u.cpx.fwVersion.toNat), (6, seconds u), (2, u.cpx.epoch), (2, (degraded u).toNat)])
    [] (fun _ _ => True)) ∧
  (∀ z nonce, Performs (.attestGet z nonce) (opAttestGet nonce) 0x0002 z quietCpx 0x0000
    (fun u => attestFields nonce u ++ [(4728, (Config.dakSign (fieldBytes (attestFields nonce u))).toNat)])
    [.cpx] (fun u t => t.cpx.attests = (seconds u, attestsNow u + 1)))

/-- SESSION_OPEN opens the lowest free session under the signing key's secret (R51), or is answered NO_RESOURCE; SESSION_CLOSE and a
LIFETIME that has run out end one session (R52). Completion: in each clause about such a row, for every state and operands that meet
its conditions, exec answers a next state: sessionOpen, sessionClose and sessionExpiry. -/
def Obligations.SessionsOpenCloseAndExpire : Prop :=
  (∀ z b n secret, Performs (.sessionOpen z b) (opSessionOpen b) 0x0010 z
    (fun u => freeSession u = some n ∧ secretOf u z.keyId = some secret) 0x0000
    (fun u => [(2, 0x8000 + n), (6, seconds u + b.lifetime), (32, (nextNonce u).toNat)]) [.draws]
    (fun u t => t.cpx.sessions = tput u.cpx.sessions n (openedSession b z.keyId n secret u) ∧ t.draws = u.draws + 1)) ∧
  (∀ z b, Performs (.sessionOpen z b) (opSessionOpen b) 0x0010 z (fun u => freeSession u = none) 0x0401 (fun _ => []) []
    (fun u t => t.cpx.sessions = u.cpx.sessions)) ∧
  (∀ z id, Performs (.sessionClose z id) (opSessionClose id) 0x0011 z (fun _ => True) 0x0000 (fun _ => []) []
    (fun u t => t.cpx.sessions = tdel u.cpx.sessions (id - 0x8000))) ∧
  (∀ dt id, Happens (.sessionExpiry dt id) dt
    (fun s => clocked s = true ∧ 0x8000 ≤ id ∧ ∃ x, tget s.cpx.sessions (id - 0x8000) = some x ∧ x.expiry ≤ seconds s) [.sessions]
    (fun s t => t.cpx.sessions = tdel s.cpx.sessions (id - 0x8000))) ∧
  (∀ dt id, Happens (.sessionExpiry dt id) dt
    (fun s => ∀ x, tget s.cpx.sessions (id - 0x8000) = some x → seconds s < x.expiry) [] (fun _ _ => True))

/-! ## Epochs (01 R24, R25; 02 R54 to R57) -/

namespace Sys2Proof.Safety

/-- What the effect of a commit may change. -/
def commitParts : List Part :=
  [.mode, .quarantine, .tsu, .sessions, .checks, .staged, .sealed, .cpx, .cfg, .err, .levels, .jic, .ctr, .sweep, .samples, .tel,
   .mem, .smc, .frc, .xdma, .groups, .ports, .gates, .hostQueue, .esh, .replies, .hpe, .pounce, .dbg, .hlk, .rx, .sas, .pols, .out]

/-- The set that was staged in `s` has taken effect: the configuration is the one it produces, the next set is open and empty, the
epoch has advanced modulo 2^16, and the effect's time is kept. -/
def committed (at_ : Nat) (s t : State) : Prop :=
  t.cfg = nextCfg s.cfg s.cpx.staged.edits ∧ t.cpx.staged = {} ∧ t.cpx.epoch = (s.cpx.epoch + 1) % 65536 ∧
    t.cpx.lastEffect = toTime at_

end Sys2Proof.Safety

/-- EPOCH_COMMIT of an accepted set: with COMMIT_TIME 0 it takes effect in the next ccyc, or in the one after the snapshot that is in
progress (R295), and replies with the new epoch; with a time it seals the set and replies OK_PENDING, and the sealed set takes effect
once the time base has reached it (R25, R54, R55). A commit whose time is past when it is checked, or that comes less than 16 µs after
the last effect, is refused and the set stays staged (R26). Completion: in each clause about such a row, for every state and operands
that meet its conditions, exec answers a next state: epochCommit and commitTakesEffect. -/
def Obligations.EpochsCommitAtTheirTime : Prop :=
  (∀ z b, Performs (.epochCommit z b) (opEpochCommit b) 0x0020 z (fun _ => b.commitTime = {}) 0x0000
    (fun u => [(2, (u.cpx.epoch + 1) % 65536)]) (.shown :: .draws :: commitParts)
    (fun u t => committed (advance (snapshotLeft u + 1) u).tsu.time u t)) ∧
  (∀ z b, Performs (.epochCommit z b) (opEpochCommit b) 0x0020 z (fun _ => b.commitTime ≠ {}) 0x0002
    (fun u => [(2, u.cpx.epoch)]) [.staged]
    (fun u t => t.cpx.staged = { u.cpx.staged with sealed := some b.commitTime })) ∧
  (∀ dt at_, Happens (.commitTakesEffect dt) dt
    (fun s => clocked s = true ∧ s.cpx.staged.sealed = some at_ ∧ ofTime at_ ≤ s.tsu.time) commitParts
    (fun s t => committed s.tsu.time s t)) ∧
  (∀ dt, Happens (.commitTakesEffect dt) dt
    (fun s => ∀ at_, s.cpx.staged.sealed = some at_ → s.tsu.time < ofTime at_) [] (fun _ _ => True)) ∧
  (∀ (z : Zelgen) (b : EpochCommitBody) (s u : State) (c : ReplyCtx), authenticated (opEpochCommit b) z s = some (c, u) →
    u.cpx.activation = none → authKind z ≠ 0 → modeCheck (opEpochCommit b) u = none →
    (b.commitTime ≠ {} ∧ ofTime b.commitTime < u.tsu.time) ∨ (∃ x, u.cpx.lastEffectCcyc = some x ∧ u.tsu.now < x + us 16) →
    ∃ t st, exec (.epochCommit z b) s = .next t ∧ 2 < st ∧ t.cpx.staged = u.cpx.staged ∧ Changes replyParts u t ∧
      Replied z 0x0020 st [] t)

/-! ## Time (09) -/

namespace Sys2Proof.Safety

/-- A worker's time base may be set by command: it does not follow a manager (R427). -/
def holdingCleared (s : State) : Bool := decide (s.tsu.sync = .holdover) && !holdCause s

/-- SYNC after a step, rate or slew has been accepted in `s` (R223). -/
def steeredSync (s : State) : Sync := if holdingCleared s then .set else s.tsu.sync

end Sys2Proof.Safety

/-- An accepted TIME_STEP is due 64 ccyc later (R219), where the time base takes its value and answers with it; TIME_RATE_SET sets the
rate (R217); an accepted TIME_SLEW runs for DURATION µs (R220) and raises its source when it has. Completion: in each clause about such
a row, for every state and operands that meet its conditions, exec answers a next state: timeStep, timeRateSet, timeSlew,
timeStepEffect and slewComplete. -/
def Obligations.TimeStepsRatesAndSlews : Prop :=
  (∀ z b, Defers (.timeStep z b) (opTimeStep b) z (fun _ => True) [.tsu, .levels, .jic]
    (fun c u t => t.tsu.step = u.tsu.step ++ [{ due := u.tsu.now + 64, relative := b.stepMode = 1, time := ofTime b.time
                                                offset := b.offset * 2 ^ 48, ctx := some c }] ∧
      t.tsu.sync = steeredSync u ∧ t.tsu.time = u.tsu.time)) ∧
  (∀ z r, Performs (.timeRateSet z r) (opTimeRateSet r) 0x0703 z (fun _ => True) 0x0000 (fun _ => []) [.tsu, .levels, .jic]
    (fun u t => t.tsu.rateAdj = r ∧ t.tsu.sync = steeredSync u ∧ t.tsu.time = u.tsu.time)) ∧
  (∀ z b, Performs (.timeSlew z b) (opTimeSlew b) 0x0704 z (fun _ => True) 0x0002 (fun _ => []) [.tsu, .levels, .jic]
    (fun u t => t.tsu.slew = some { offset := b.offset * 2 ^ 48, total := us b.duration, done := 0, fresh := true } ∧
      t.tsu.sync = steeredSync u ∧ t.tsu.time = u.tsu.time)) ∧
  (∀ dt q l, Happens (.timeStepEffect dt) dt
    (fun s => clocked s = true ∧ s.tsu.step = q :: l ∧ q.due ≤ s.tsu.now)
    [.tsu, .levels, .jic, .ctr, .gates, .frc, .out, .replies, .hostQueue, .hlk]
    (fun s t => t.tsu.step = l ∧ t.tsu.slew = none ∧
      t.tsu.time = (if q.relative then ((s.tsu.time : Int) + q.offset).toNat else q.time) ∧
      (q.keepSync = false → s.tsu.sync = .unset → t.tsu.sync = if holdCause s then .holdover else .set) ∧
      (q.keepSync = true ∨ s.tsu.sync ≠ .unset → t.tsu.sync = s.tsu.sync) ∧
      (∀ c, q.ctx = some c → c.onError = false →
        ∃ r, Output.reply c.origin r ∈ t.out ∧ r.status = 0 ∧ r.body = timeFields (toTime t.tsu.time)))) ∧
  (∀ dt, Happens (.timeStepEffect dt) dt (fun s => ∀ q ∈ s.tsu.step, s.tsu.now < q.due) [] (fun _ _ => True)) ∧
  (∀ dt w, Happens (.slewComplete dt) dt (fun s => s.tsu.slew = some w ∧ w.total ≤ w.done) [.tsu, .levels, .jic]
    (fun s t => t.tsu = { s.tsu with slew := none } ∧ levelNow (tgetD t.jic.levels 0x891 []) = true)) ∧
  (∀ dt w, Happens (.slewComplete dt) dt (fun s => s.tsu.slew = some w ∧ w.done < w.total) [] (fun _ _ => True))

/-- Edges of PPS_IN behind their 100 ns filter, the time-of-day message that names an edge, the loss of edges, and PPS_OUT (R223, R231
to R234), and the reference (R222). Completion: in each clause about such a row, for every state and operands that meet its conditions,
exec answers a next state: ppsInEdge, ppsInLoss, todMessage, ppsOutPulse, ppsOutPulseEnd, refFault and refFaultClear. -/
def Obligations.PulsesMessagesAndReference : Prop :=
  (∀ dt rising phase held, Happens (.ppsInEdge dt rising phase held) dt
    (fun s => clocked s = true ∧ ppsFlag s 1 = true ∧ rising ≠ ppsFlag s 2 ∧ 100 ≤ held ∧ s.tsu.tods = [] ∧
      ppsPlausible s (s.tsu.time + (phase * incNow s / 64 : Nat)) = true) [.tsu, .ctr, .levels, .jic]
    (fun s t => t.tsu.ppsCount = (s.tsu.ppsCount + 1) % 2 ^ 32 ∧ t.tsu.ppsOk = true ∧ t.tsu.ppsLost = false ∧
      t.tsu.time = s.tsu.time ∧ t.tsu.sync = s.tsu.sync ∧
      t.tsu.ppsCaps = ((t.tsu.ppsCount, (s.tsu.time + phase * incNow s / 64) / fracUnit * fracUnit) :: s.tsu.ppsCaps).take 64 ∧
      total t ppsInEdgesCtr = total s ppsInEdgesCtr + 1 ∧ levelNow (tgetD t.jic.levels 0x893 []) = true)) ∧
  (∀ dt rising phase held q l, Happens (.ppsInEdge dt rising phase held) dt
    (fun s => clocked s = true ∧ ppsFlag s 1 = true ∧ rising ≠ ppsFlag s 2 ∧ 100 ≤ held ∧ s.tsu.tods = q :: l ∧
      q.ended + ms 10 ≤ s.tsu.now ∧ (ppsFlag s 4 = false ∨ s.tsu.sync ≠ .unset) ∧
      ppsPlausible s (s.tsu.time + (phase * incNow s / 64 : Nat)) = true) [.tsu, .ctr, .levels, .jic]
    (fun s t => t.tsu.tods = [] ∧ t.tsu.ppsCount = (s.tsu.ppsCount + 1) % 2 ^ 32 ∧ (t.tsu.ppsCount, q.seconds) ∈ t.tsu.todCaps ∧
      t.tsu.todSeconds = q.seconds ∧ t.tsu.time = s.tsu.time ∧ total t todMessagesCtr = total s todMessagesCtr + countIf (q :: l) (fun m => m.ended + ms 10 ≤ s.tsu.now))) ∧
  (∀ dt rising phase held, Happens (.ppsInEdge dt rising phase held) dt
    (fun s => clocked s = true ∧ ppsFlag s 1 = true ∧ rising ≠ ppsFlag s 2 ∧ 100 ≤ held ∧
      ppsPlausible s (s.tsu.time + (phase * incNow s / 64 : Nat)) = false) [.tsu, .ctr]
    (fun s t => t.tsu = { s.tsu with ppsOk := false } ∧ total t ppsInRejectsCtr = total s ppsInRejectsCtr + 1)) ∧
  (∀ dt rising phase held, Happens (.ppsInEdge dt rising phase held) dt
    (fun s => ppsFlag s 1 = false ∨ rising = ppsFlag s 2 ∨ held < 100) []
    (fun _ _ => True)) ∧
  (∀ dt, Happens (.ppsInLoss dt) dt
    (fun s => clocked s = true ∧ ppsFlag s 5 = true ∧ s.tsu.ppsLost = false ∧ s.tsu.ppsEdgeCcyc + secs 3 ≤ s.tsu.now) [.tsu, .levels, .jic]
    (fun s t => t.tsu = { s.tsu with ppsLost := true, sync := if s.tsu.sync = .set then .holdover else s.tsu.sync })) ∧
  (∀ dt m, Happens (.todMessage dt m) dt (fun s => clocked s = true ∧ ppsFlag s 3 = true ∧ todValid m = true) [.tsu]
    (fun s t => (∃ q, t.tsu.tods = q :: s.tsu.tods ∧ q.seconds = numAt m 4 6 ∧ q.ended = s.tsu.now) ∧ t.tsu.todSeconds = numAt m 4 6 ∧
      t.tsu.todFlags = BitVec.ofNat 8 (numAt m 3 1) ∧ t.tsu.utcOffset = BitVec.ofNat 16 (numAt m 10 2))) ∧
  (∀ dt m, Happens (.todMessage dt m) dt (fun s => clocked s = true ∧ ppsFlag s 3 = true ∧ todValid m = false) [.ctr]
    (fun s t => total t todErrorsCtr = total s todErrorsCtr + 1)) ∧
  (∀ dt b, Happens (.ppsOutPulse dt) dt
    (fun s => clocked s = true ∧ s.cfg.pps = some b ∧ bit b.ppsFlags 0 = true ∧ s.tsu.ppsOut = false ∧
      ((b.ppsOutOffset * nsUnit - s.tsu.time) % (secUnit : Int)).toNat < incNow s) [.tsu, .out]
    (fun s t => t.tsu = { s.tsu with ppsOut := true, ppsOutSince :=
        s.tsu.time + ((b.ppsOutOffset * nsUnit - s.tsu.time) % (secUnit : Int)).toNat } ∧
      Output.ppsOut true ((b.ppsOutOffset * nsUnit - s.tsu.time) % (secUnit : Int)).toNat ∈ t.out)) ∧
  (∀ dt b, Happens (.ppsOutPulseEnd dt) dt
    (fun s => clocked s = true ∧ s.cfg.pps = some b ∧ s.tsu.ppsOut = true ∧
      s.tsu.ppsOutSince + (b.pulseWidth * nsUnit : Nat) < (s.tsu.time : Int) + incNow s) [.tsu, .out]
    (fun s t => t.tsu = { s.tsu with ppsOut := false } ∧ ∃ fine, Output.ppsOut false fine ∈ t.out)) ∧
  (∀ dt, Happens (.refFault dt) dt (fun s => clocked s = true ∧ s.tsu.refFault = false) (.tsu :: .levels :: .jic :: .ctr :: errorParts)
    (fun s t => t.tsu = { s.tsu with refFault := true, sync := if s.tsu.sync = .set then .holdover else s.tsu.sync } ∧
      (errUnit t 0x09).latest.code = 0x0901 ∧ (errUnit t 0x09).latest.sev = 2)) ∧
  (∀ dt, Happens (.refFaultClear dt) dt (fun s => clocked s = true) [.tsu]
    (fun s t => t.tsu = { s.tsu with refFault := false }))

/-! ## Interrupts (11) -/

/-- CLAIM takes the presented source on the stack and answers its priority and number, or the empty code (R274); COMPLETE by the source
on top pops it (R277), by another source is answered and recorded as a fault (R278). Completion: in each clause about such a row, for
every state and operands that meet its conditions, exec answers a next state: claim and complete. -/
def Obligations.ClaimAndCompleteKeepTheStack : Prop :=
  (∀ dt a n m l, Happens (.claim dt a n) dt
    (fun s => reaches a n s ∧ (target s n).presented = some (m, l)) [.jic, .levels, .ctr, .out]
    (fun s t => (target t n).stack = (m, (sourceCfg s m).priority) :: (target s n).stack ∧ (target t n).presented = none ∧
      Output.sypAnswer false ((sourceCfg s m).priority * 4096 + m) ∈ t.out ∧
      (∀ k, k ≠ n → target t k = target s k))) ∧
  (∀ dt a n, Happens (.claim dt a n) dt
    (fun s => reaches a n s ∧ (target s n).presented = none) [.jic, .ctr, .out]
    (fun s t => (target t n).stack = (target s n).stack ∧ Output.sypAnswer false 0xFFF ∈ t.out ∧
      (∀ k, k ≠ n → target t k = target s k))) ∧
  (∀ dt a n m p r, Happens (.complete dt a n m) dt
    (fun s => reaches a n s ∧ (target s n).stack = (m % 4096, p) :: r) [.jic, .out]
    (fun s t => target t n = { target s n with stack := r } ∧ Output.sypAnswer false 0 ∈ t.out ∧
      (∀ k, k ≠ n → target t k = target s k))) ∧
  (∀ dt a n m, Happens (.complete dt a n m) dt
    (fun s => reaches a n s ∧ ∀ p r, (target s n).stack ≠ (m % 4096, p) :: r) (.jic :: .levels :: .ctr :: .out :: errorParts)
    (fun s t => t.jic.targets = s.jic.targets ∧ Output.sypAnswer false 0 ∈ t.out ∧
      t.jic.fault = some (n, m % 4096, match (target s n).stack with | (k, _) :: _ => k | [] => 0xFFF) ∧
      (errUnit t 0x0C).latest.code = 0x0C02))

/-- ENABLE_SET and ENABLE_CLEAR, SOFT_SET and SOFT_CLEAR of a source that may be routed to the target (R272, R273, R279); the end of
moderation (R281); TGT_STATE, whose code 3 is taken as ACTIVE (R282). Completion: in each clause about such a row, for every state and
operands that meet its conditions, exec answers a next state: enableSet, enableClear, softSet, softClear, irqModerationExpiry and
tgtStateChange. -/
def Obligations.EnablesSoftBitsAndTargetStates : Prop :=
  (∀ dt a n m, Happens (.enableSet dt a n m) dt (fun s => reaches a n s ∧ mayRoute s n (m % 4096) = true) [.jic, .out]
    (fun s t => t.jic = { s.jic with enable := tput s.jic.enable (m % 4096) true, kept := tdel s.jic.kept (m % 4096) } ∧
      Output.sypAnswer false 0 ∈ t.out)) ∧
  (∀ dt a n m, Happens (.enableClear dt a n m) dt (fun s => reaches a n s ∧ mayRoute s n (m % 4096) = true) [.jic, .out]
    (fun s t => t.jic.enable = tdel s.jic.enable (m % 4096) ∧ t.jic.soft = s.jic.soft ∧ Output.sypAnswer false 0 ∈ t.out)) ∧
  (∀ dt a n m, Happens (.softSet dt a n m) dt
    (fun s => reaches a n s ∧ mayRoute s n (m % 4096) = true ∧ 0xF00 ≤ m % 4096 ∧ m % 4096 ≤ 0xFDF) [.jic, .out]
    (fun s t => t.jic = { s.jic with soft := tput s.jic.soft (m % 4096) true } ∧ Output.sypAnswer false 0 ∈ t.out)) ∧
  (∀ dt a n m, Happens (.softClear dt a n m) dt
    (fun s => reaches a n s ∧ mayRoute s n (m % 4096) = true ∧ 0xF00 ≤ m % 4096 ∧ m % 4096 ≤ 0xFDF) [.jic, .out]
    (fun s t => t.jic = { s.jic with soft := tput s.jic.soft (m % 4096) false } ∧ Output.sypAnswer false 0 ∈ t.out)) ∧
  (∀ i ∈ [Instr.enableSet, Instr.enableClear, Instr.softSet, Instr.softClear], ∀ dt a n m, Happens (i dt a n m) dt
    (fun s => reaches a n s ∧ mayRoute s n (m % 4096) = false) (.ctr :: .out :: errorParts)
    (fun s t => Output.sypAnswer false 0 ∈ t.out ∧ total t (irqWritesIgnoredCtr n) = total s (irqWritesIgnoredCtr n) + 1 ∧
      (errUnit t 0x0C).latest.code = 0x0C01)) ∧
  (∀ dt n, Happens (.irqModerationExpiry dt n) dt (fun s => tgetD s.jic.modDue n 0 ≤ s.tsu.now) [.jic]
    (fun s t => t.jic = { s.jic with modDue := tdel s.jic.modDue n })) ∧
  (∀ dt n v, Happens (.tgtStateChange dt n v) dt (fun s => clocked s = true ∧ n < 32 ∧ v ≠ 3) [.jic]
    (fun s t => (target t n).state = v ∧ (target t n).stack = (target s n).stack ∧
      ((target t n).wakeReq = true ↔ v = 2 ∧ (target s n).presented.isSome = true ∧ (target s n).irqOut = true))) ∧
  (∀ dt n, Happens (.tgtStateChange dt n 3) dt (fun s => clocked s = true ∧ n < 32) (.jic :: errorParts)
    (fun s t => (target t n).state = 0 ∧ (target t n).stack = (target s n).stack ∧ (errUnit t 0x0C).latest.code = 0x0C01))

/-! ## Access policy and the address map (17 R397 to R400; 10 R242, R243; 20 R438) -/

namespace Sys2Proof.Safety

/-- A doorbell of ring `k × 256 + n` by its owner is carried out: a running block, an ID not frozen, a ring in STOPPED or RUNNING. -/
def rings (a k n : Nat) (s : State) : Prop :=
  clocked s = true ∧ ringPage k n = true ∧ ringOwner s (k * 256 + n) a = true ∧ accFrozen s a = false ∧
    s.mode.stage ≠ .boot ∧ s.mode.zeroized = false ∧ ((ringOf s (k * 256 + n)).state = 1 ∨ (ringOf s (k * 256 + n)).state = 2)

/-- A SYP access of ID `a` that is answered with error is a violation: a running block and an ID not frozen. -/
def accountable (a : Nat) (s : State) : Prop :=
  clocked s = true ∧ accFrozen s a = false ∧ s.mode.stage ≠ .boot ∧ s.mode.zeroized = false

/-- What freezing an access ID may change. -/
def freezeParts : List Part :=
  [.quarantine, .sessions, .checks, .sealed, .err, .acc, .levels, .jic, .ctr, .samples, .mem, .frc, .xdma, .ports, .hostQueue, .esh,
   .replies, .hpe, .pounce, .dbg, .hlk, .sas, .out]

end Sys2Proof.Safety

/-- A doorbell moves P and A only to an index that R242 and R243 allow, and only of its own ring; a doorbell of a ring in another state
is answered and counted, and moves nothing; one to a ring that no ID owns is counted and is a violation too (R244, Table 17-8).
Completion: in each clause about such a row, for every state and operands that meet its conditions, exec answers a next state:
doorbellProducer and doorbellCplAck. -/
def Obligations.DoorbellsMoveValidIndices : Prop :=
  (∀ dt a k n p, Happens (.doorbellProducer dt a k n p none) dt
    (fun s => rings a k n s ∧ newProducer (ringLog s (k * 256 + n)) (ringOf s (k * 256 + n)) s.tsu.now p) [.hpe, .out]
    (fun s t => ringOf t (k * 256 + n) = { ringOf s (k * 256 + n) with p } ∧ Output.sypAnswer false 0 ∈ t.out ∧
      ∀ j, j ≠ k * 256 + n → ringOf t j = ringOf s j)) ∧
  (∀ dt a k n p q, Happens (.doorbellProducer dt a k n p (some q)) dt
    (fun s => rings a k n s ∧ newProducer (ringLog s (k * 256 + n)) (ringOf s (k * 256 + n)) s.tsu.now p ∧
      newAck (ringLog s (k * 256 + n)) (ringOf s (k * 256 + n)) q) [.hpe, .out]
    (fun s t => ringOf t (k * 256 + n) = { ringOf s (k * 256 + n) with p, a := q } ∧ Output.sypAnswer false 0 ∈ t.out ∧
      ∀ j, j ≠ k * 256 + n → ringOf t j = ringOf s j)) ∧
  (∀ dt a k n q, Happens (.doorbellCplAck dt a k n q) dt
    (fun s => rings a k n s ∧ newAck (ringLog s (k * 256 + n)) (ringOf s (k * 256 + n)) q) [.hpe, .out]
    (fun s t => ringOf t (k * 256 + n) = { ringOf s (k * 256 + n) with a := q } ∧ Output.sypAnswer false 0 ∈ t.out ∧
      ∀ j, j ≠ k * 256 + n → ringOf t j = ringOf s j)) ∧
  (∀ dt a k n p q, Happens (.doorbellProducer dt a k n p q) dt
    (fun s => accountable a s ∧ ringPage k n = true ∧ ringOwner s (k * 256 + n) a = true ∧ (ringOf s (k * 256 + n)).state ≠ 1 ∧
      (ringOf s (k * 256 + n)).state ≠ 2) [.ctr, .out]
    (fun s t => Output.sypAnswer false 0 ∈ t.out ∧
      total t (ringDoorbellsIgnoredCtr (k * 256 + n)) = total s (ringDoorbellsIgnoredCtr (k * 256 + n)) + 1)) ∧
  (∀ dt a k n q, Happens (.doorbellCplAck dt a k n q) dt
    (fun s => accountable a s ∧ ringPage k n = true ∧ ringOwner s (k * 256 + n) a = false) freezeParts
    (fun s t => violates a false s t)) ∧
  (∀ dt a k n p q, Happens (.doorbellProducer dt a k n p q) dt
    (fun s => accountable a s ∧ s.mode.stage = .run ∧ ringPage k n = true ∧ thas s.cfg.ring (k * 256 + n) = false ∧
      ((accOf s a).times.filter (fun x => s.tsu.now < x + secs 1)).length + 1 < violationLimit s a) [.acc, .ctr, .out]
    (fun s t => violates a false s t ∧ total t (ringDoorbellsIgnoredCtr (k * 256 + n)) = total s (ringDoorbellsIgnoredCtr (k * 256 + n)) + 1))

/-- A read that Table 17-8 permits is answered with the register's value; one that it forbids is answered with error, and is a
violation that may freeze the ID (R398, R399); MASTER_UNFREEZE ends the freeze (R400). Completion: in each clause about such a row, for
every state and operands that meet its conditions, exec answers a next state: accessViolation, writeNotPermitted and masterUnfreeze. -/
def Obligations.AccessesAreAnsweredOrViolate : Prop :=
  (∀ dt a off v, Happens (.accessViolation dt a off 8) dt
    (fun s => clocked s = true ∧ accFrozen s a = false ∧ off % 8 = 0 ∧ spotAt s off = .status none v ∧ statusRead s a = true) [.out]
    (fun _ t => Output.sypAnswer false v ∈ t.out)) ∧
  (∀ dt a off w, Happens (.accessViolation dt a off w) dt
    (fun s => accountable a s ∧ spotAt s off = .sealed) freezeParts (fun s t => violates a true s t)) ∧
  (∀ dt a off w, Happens (.accessViolation dt a off w) dt
    (fun s => accountable a s ∧ spotAt s off = .unmapped) freezeParts (fun s t => violates a false s t)) ∧
  (∀ dt a off w, Happens (.writeNotPermitted dt a off w) dt
    (fun s => accountable a s ∧ spotAt s off = .sealed) freezeParts (fun s t => violates a true s t)) ∧
  (∀ dt a off w o v, Happens (.writeNotPermitted dt a off w) dt
    (fun s => accountable a s ∧ spotAt s off = .status o v) freezeParts (fun s t => violates a false s t)) ∧
  (∀ dt a off w, Happens (.writeNotPermitted dt a off w) dt
    (fun s => clocked s = true ∧ accFrozen s a = true ∧ spotAt s off = .unmapped) [.out]
    (fun _ t => Output.sypAnswer true 0 ∈ t.out)) ∧
  (∀ z a, Performs (.masterUnfreeze z a) (opMasterUnfreeze a) 0x0E05 z (fun _ => True) 0x0000 (fun _ => [])
    freezeParts
    (fun u t => accOf t a = { accOf u a with frozen := false, times := [] } ∧ ∀ b, b ≠ a → accOf t b = accOf u b))

/-! ## Power-up, BOOT, and the return to BRIM and OFF (15 R357, R365; 17 R391; 20 R437) -/

namespace Sys2Proof.Safety

/-- Everything but the queue, the outputs and the draws. -/
def powerParts : List Part :=
  [.mode, .quarantine, .shown, .tsu, .sessions, .checks, .staged, .sealed, .cpx, .hood, .cfg, .err, .acc, .levels, .jic, .ctr,
   .sweep, .samples, .tel, .mem, .smc, .frc, .xdma, .groups, .lanes, .lif, .ports, .gates, .hostQueue, .esh, .replies, .hpe,
   .pounce, .dbg, .hlk, .rx, .sas, .pols]

/-- The rails and resets that PLL_LOCK needs (R437). -/
def railsUp (s : State) : Prop :=
  s.mode.stage = .brim ∧ s.mode.coreRstN = true ∧ s.mode.pwrReq = true ∧ s.mode.coreGood = true ∧ s.mode.sramGood = true

end Sys2Proof.Safety

/-- The order of R437 from OFF to BOOT; each of its inputs acts only in its own stage. Shared reset starts everything anew but the
fuses and what R357 retains. Completion: in each clause about such a row, for every state and operands that meet its conditions, exec
answers a next state: brimResetRelease, coreResetRelease, railGood and pllLock. -/
def Obligations.PowerUpReachesBoot : Prop :=
  (∀ dt, Happens (.brimResetRelease dt) dt (fun s => s.mode.stage = .off) [.mode]
    (fun s t => t.mode = { s.mode with stage := .brim, brimRstN := true, brimCause := .brimPower })) ∧
  (∀ dt ok, Happens (.coreResetRelease dt ok) dt (fun s => s.mode.stage = .brim) [.mode]
    (fun s t => t.mode = { s.mode with coreRstN := true, pwrReq := s.mode.pwrReq || ok })) ∧
  (∀ dt, Happens (.railGood dt) dt (fun s => s.mode.stage = .brim) [.mode]
    (fun s t => t.mode = { s.mode with coreGood := true, sramGood := true
                                       pwrReq := s.mode.pwrReq || (s.mode.coreRstN && decide (s.mode.brimCause = .railLoss)) })) ∧
  (∀ dt, Happens (.pllLock dt) dt (fun s => railsUp s) (.out :: .draws :: powerParts)
    (fun s t => t.mode.stage = .boot ∧ modeCode t = 2 ∧ t.tsu = {} ∧ t.cpx = {} ∧ t.cfg = { power := s.cfg.power } ∧
      t.dbg.level = .closed ∧ t.fuses = s.fuses ∧
      Output.hostRead s.fuses.bootAccessId.toNat s.fuses.fwImageAddr.toNat 2097152 ∈ t.out)) ∧
  (∀ dt, Happens (.pllLock dt) dt (fun s => ¬ railsUp s) [] (fun _ _ => True))

/-- BOOT ends in LOCKED with a nonzero BOOT_TAG, the running image's version and no session (R35, R365, R391); while something is
missing or failed it stays BOOT (R30). Completion: in each clause about such a row, for every state and operands that meet its
conditions, exec answers a next state: bootComplete. -/
def Obligations.BootEndsInLocked : Prop :=
  (∀ dt f, Happens (.bootComplete dt f) dt
    (fun s => s.mode.stage = .boot ∧ bit s.mode.bootStatus 1 = false ∧ bootBits f s % 128 = 0 ∧ s.mode.fuseBad = false ∧
      f.fusesEqual = true ∧ lifecycle s ≠ 4 ∧ s.dbg.input = false ∧ f.pools.all (fun e => poolOk e.1) = true)
    (.out :: .draws :: powerParts)
    (fun s t => t.mode.stage = .run ∧ t.mode.base = .locked ∧ t.mode.zeroized = false ∧ t.cpx.bootTag ≠ 0 ∧
      t.cpx.fwVersion = f.fwVersion ∧ t.cpx.fwDigest = f.fwDigest ∧ t.cpx.sessions = [] ∧ t.fuses = s.fuses ∧
      t.rx.ladder = ladderOf f.pools)) ∧
  (∀ dt f, Happens (.bootComplete dt f) dt
    (fun s => s.mode.stage = .boot ∧ bit s.mode.bootStatus 1 = false ∧ bootBits f s % 128 ≠ 0) (.mode :: errorParts)
    (fun s t => t.mode.stage = .boot ∧ t.mode.bootStatus = BitVec.ofNat 64 (bootBits f s) ∧ t.cpx.bootTag = s.cpx.bootTag)) ∧
  (∀ dt f, Happens (.bootComplete dt f) dt
    (fun s => s.mode.stage ≠ .boot ∨ bit s.mode.bootStatus 1 = true) [] (fun _ _ => True))

/-- A dropped rail or an asserted core reset enters BRIM, where only the latches, the power policies and the mode state are retained
(R357); loss of the brim rail enters OFF, where only the fuses are (00, R365). Completion: in each clause about such a row, for every
state and operands that meet its conditions, exec answers a next state: railGoodLoss and brimPowerLoss. -/
def Obligations.PowerLossRetainsOnlyItsDomain : Prop :=
  (∀ dt r, Happens (.railGoodLoss dt r) dt (fun s => s.mode.stage ≠ .off) powerParts
    (fun s t => modeCode t = 1 ∧ t.fuses = s.fuses ∧ t.mode.pwrReq = false ∧ (r = true → t.mode.coreRstN = false) ∧
      (r = false → t.mode.coreGood = false ∧ t.mode.sramGood = false) ∧
      (s.mode.stage ≠ .brim → t.cpx = {} ∧ t.hood = {} ∧ t.sas = [] ∧ t.tsu = {} ∧ t.cfg = { power := s.cfg.power } ∧
        t.smc.mem = [] ∧ t.mode.brimCause = (if r then .coreReset else .railLoss)))) ∧
  (∀ dt r, Happens (.railGoodLoss dt r) dt (fun s => s.mode.stage = .off) [] (fun _ _ => True)) ∧
  (∀ dt, Happens (.brimPowerLoss dt) dt (fun _ => True) powerParts
    (fun s t => t.mode = {} ∧ t.fuses = s.fuses ∧ t.cpx = {} ∧ t.hood = {} ∧ t.cfg = {} ∧ t.sas = [] ∧ t.groups = [] ∧ t.smc = {}))

/-! ## Modes, drains and port groups (15) -/

namespace Sys2Proof.Safety

/-- What a change of mode may change. -/
def modeParts : List Part :=
  [.mode, .quarantine, .sessions, .checks, .sealed, .cfg, .err, .levels, .jic, .ctr, .samples, .frc, .groups, .ports,
   .hostQueue, .esh, .replies, .hpe, .pounce, .dbg, .hlk, .rx, .sas, .pols, .out]

/-- The base mode that a MODE_REQUEST code names (Table 2-5). -/
def baseNamed (code : Nat) : Base := if code = 4 then .service else if code = 5 then .lean else .locked

end Sys2Proof.Safety

/-- MODE_REQUEST sets the base mode and ends a QUARANTINE that the check let it leave, or begins a drain (R365, R366); a drain ends in
NEXT_MODE when its ports are drained or after 1 s, and its ports stay closed. Completion: in each clause about such a row, for every
state and operands that meet its conditions, exec answers a next state: modeRequest, drainComplete and drainTimeout. -/
def Obligations.ModesAndDrains : Prop :=
  (∀ z b, Performs (.modeRequest z b) (opModeRequest b) 0x0C01 z (fun _ => b.mode ≠ 6) 0x0002 (fun _ => []) modeParts
    (fun u t => t.mode.base = baseNamed b.mode ∧ t.mode.stage = u.mode.stage ∧
      levelNow (tgetD t.jic.levels 0x894 []) = true)) ∧
  (∀ z b, Performs (.modeRequest z b) (opModeRequest b) 0x0C01 z (fun _ => b.mode = 6) 0x0002 (fun _ => [])
    [.mode, .levels, .jic]
    (fun u t => t.mode.drain = some { ports := b.drainPorts, next := baseNamed b.nextMode, start := u.tsu.now } ∧
      t.mode.base = u.mode.base ∧ (modeCode { u with mode := t.mode } ≠ modeCode u → levelNow (tgetD t.jic.levels 0x894 []) = true))) ∧
  (∀ dt d, Happens (.drainComplete dt) dt
    (fun s => clocked s = true ∧ s.mode.drain = some d ∧ (drainList d).all (portDrained s) = true) modeParts
    (fun s t => t.mode.drain = none ∧ t.mode.base = d.next ∧ (∀ p ∈ drainList d, p ∈ t.mode.drained) ∧
      (∀ p ∈ s.mode.drained, p ∈ t.mode.drained))) ∧
  (∀ dt d, Happens (.drainComplete dt) dt
    (fun s => s.mode.drain = some d ∧ (drainList d).all (portDrained s) = false) [] (fun _ _ => True)) ∧
  (∀ dt d, Happens (.drainTimeout dt) dt
    (fun s => clocked s = true ∧ s.mode.drain = some d ∧ d.start + secs 1 ≤ s.tsu.now) modeParts
    (fun _ t => t.mode.drain = none ∧ t.mode.base = d.next ∧ (∀ p ∈ drainList d, p ∈ t.mode.drained))) ∧
  (∀ dt d, Happens (.drainTimeout dt) dt
    (fun s => s.mode.drain = some d ∧ s.tsu.now < d.start + secs 1) [] (fun _ _ => True))

namespace Sys2Proof.Safety

/-- What the gating or fencing of a port group may change. -/
def gateParts : List Part :=
  [.quarantine, .sessions, .checks, .sealed, .err, .levels, .jic, .ctr, .samples, .frc, .groups, .ports, .hostQueue, .esh,
   .replies, .hpe, .pounce, .dbg, .hlk, .rx, .sas, .pols, .out]

end Sys2Proof.Safety

/-- GROUP_STATE follows Table 15-2: GATING becomes GATED, a GATED group with a cause WAKING while fewer than four wake, WAKING POWERED,
or FENCED where its power is not good (R360, R361, Table 18-6). Completion: in each clause about such a row, for every state and
operands that meet its conditions, exec answers a next state: groupGate, groupWakeStart, groupWakeDone, groupPowerNotGood,
idleTimeExpiry, probeWake and probeHoldExpiry. -/
def Obligations.GroupsGateAndWake : Prop :=
  (∀ dt g, Happens (.groupGate dt g) dt (fun s => clocked s = true ∧ groupState s g = .gating) gateParts
    (fun _ t => (groupSt t g).state = .gated)) ∧
  (∀ dt g, Happens (.groupGate dt g) dt (fun s => groupState s g ≠ .gating) [] (fun _ _ => True)) ∧
  (∀ dt g, Happens (.groupWakeStart dt g) dt
    (fun s => clocked s = true ∧ s.mode.zeroized = false ∧ wakeCauseOf s g = true ∧ waking s < 4 ∧
      (List.range g).any (wakeCauseOf s) = false) [.groups]
    (fun s t => (groupSt t g).state = .waking ∧ (groupSt t g).since = s.tsu.now ∧ ∀ h, h ≠ g → groupSt t h = groupSt s h)) ∧
  (∀ dt g, Happens (.groupWakeStart dt g) dt
    (fun s => wakeCauseOf s g = false ∨ 4 ≤ waking s) [] (fun _ _ => True)) ∧
  (∀ dt g, Happens (.groupWakeDone dt g) dt
    (fun s => clocked s = true ∧ groupState s g = .waking ∧ (groupSt s g).gateNext = false) [.groups, .ports, .levels, .jic, .frc, .ctr]
    (fun s t => (groupSt t g).state = .powered ∧ (groupSt t g).since = s.tsu.now ∧
      levelNow (tgetD t.jic.levels (0x850 + g) []) = true ∧ (∀ h, h ≠ g → groupSt t h = groupSt s h) ∧
      ∀ p ∈ portsOf s.cfg g, (portOf t p).link = .noSignal)) ∧
  (∀ dt g, Happens (.groupPowerNotGood dt g) dt (fun s => clocked s = true ∧ groupState s g = .waking) gateParts
    (fun _ t => (groupSt t g).state = .fenced)) ∧
  (∀ dt g, Happens (.idleTimeExpiry dt g) dt
    (fun s => clocked s = true ∧ s.mode.base = .lean ∧ policyOfGroup s.cfg g = 0 ∧ noneUp s g = true ∧
      (groupSt s g).probeEnd = none ∧ max (groupSt s g).lastUp (groupSt s g).since + idleTime (wakeFlags s.cfg g) ≤ s.tsu.now ∧
      groupState s g = .powered) gateParts
    (fun s t => (groupSt t g).state = .gating ∧ (groupSt t g).armed = bit (wakeFlags s.cfg g) 0)) ∧
  (∀ dt g, Happens (.idleTimeExpiry dt g) dt
    (fun s => s.mode.base ≠ .lean ∨ noneUp s g = false) [] (fun _ _ => True)) ∧
  (∀ dt g, Happens (.probeWake dt g) dt
    (fun s => clocked s = true ∧ s.mode.base = .lean ∧ required s g = true ∧ groupState s g = .gated ∧
      probePeriod (wakeFlags s.cfg g) ≠ 0 ∧ (groupSt s g).since + probePeriod (wakeFlags s.cfg g) ≤ s.tsu.now) [.groups]
    (fun s t => groupSt t g = { groupSt s g with cause := true, probeEnd := some 0 } ∧ ∀ h, h ≠ g → groupSt t h = groupSt s h)) ∧
  (∀ dt g e, Happens (.probeHoldExpiry dt g) dt
    (fun s => clocked s = true ∧ groupState s g = .powered ∧ (groupSt s g).probeEnd = some e ∧ e ≤ s.tsu.now) [.groups]
    (fun s t => groupSt t g = { groupSt s g with probeEnd := none } ∧ ∀ h, h ≠ g → groupSt t h = groupSt s h))

/-! ## Lanes and links (03) -/

/-- A lane's inputs are held as they change, and no other lane's (R63, R64, R73); a held level shorter than SD_FILTER is a glitch; a
clock fault is recorded once; LINK_RETRAIN brings its port back to NO_SIGNAL (R81). Completion: in each clause about such a row, for
every state and operands that meet its conditions, exec answers a next state: ltPartnerReq, ltRxReady, ltTxStatus, laneLockChange,
signalDetectChange, laneClockFault, laneClockRecover, laneDropExpiry and linkRetrain. -/
def Obligations.LanesHoldTheirInputs : Prop :=
  (∀ dt n c, Happens (.ltPartnerReq dt n c) dt (fun _ => True) [.lanes]
    (fun s t => laneOf t n = { laneOf s n with partnerReq := c } ∧ ∀ m, m ≠ n → laneOf t m = laneOf s m)) ∧
  (∀ dt n b, Happens (.ltRxReady dt n b) dt (fun _ => True) [.lanes]
    (fun s t => laneOf t n = { laneOf s n with ltRxReady := b } ∧ ∀ m, m ≠ n → laneOf t m = laneOf s m)) ∧
  (∀ dt n v c, Happens (.ltTxStatus dt n v c) dt (fun _ => True) [.lanes]
    (fun s t => laneOf t n = { laneOf s n with ltStatus := v, txUpdate := c } ∧ ∀ m, m ≠ n → laneOf t m = laneOf s m)) ∧
  (∀ dt n a b h, Happens (.laneLockChange dt n a b h) dt (fun s => sdFilter s.cfg n ≤ h) (.lanes :: linkParts)
    (fun s t => laneOf t n = { laneOf s n with rxLock := a, txReady := b, lockSd := a } ∧ ∀ m, m ≠ n → laneOf t m = laneOf s m)) ∧
  (∀ dt n a b h, Happens (.laneLockChange dt n a b h) dt (fun s => h < sdFilter s.cfg n) (.lanes :: linkParts)
    (fun s t => laneOf t n = { laneOf s n with rxLock := a, txReady := b } ∧ ∀ m, m ≠ n → laneOf t m = laneOf s m)) ∧
  (∀ dt n l h, Happens (.signalDetectChange dt n l h) dt (fun s => s.mode.stage ≠ .off ∧ sdFilter s.cfg n ≤ h) (.lanes :: linkParts)
    (fun s t => laneOf t n = { laneOf s n with raw := l, sd := l } ∧ ∀ m, m ≠ n → laneOf t m = laneOf s m)) ∧
  (∀ dt n l h, Happens (.signalDetectChange dt n l h) dt
    (fun s => s.mode.stage ≠ .off ∧ h < sdFilter s.cfg n ∧ clocked s = true ∧ bit (laneFlags s.cfg n) 4 = false ∧
      (512 ≤ n ∨ groupState s (groupOf n) ≠ .gated)) [.ctr]
    (fun s t => total t (sdGlitchesCtr n) = total s (sdGlitchesCtr n) + 1)) ∧
  (∀ dt n l h, Happens (.signalDetectChange dt n l h) dt
    (fun s => h < sdFilter s.cfg n ∧ (bit (laneFlags s.cfg n) 4 = true ∨ n < 512 ∧ groupState s (groupOf n) = .gated)) [] (fun _ _ => True)) ∧
  (∀ dt n, Happens (.laneClockFault dt n) dt (fun s => clocked s = true ∧ (laneOf s n).clockFault = false) (.lanes :: linkParts)
    (fun s t => laneOf t n = { laneOf s n with clockFault := true } ∧ ∀ m, m ≠ n → laneOf t m = laneOf s m)) ∧
  (∀ dt n, Happens (.laneClockFault dt n) dt (fun s => (laneOf s n).clockFault = true) [] (fun _ _ => True)) ∧
  (∀ dt n, Happens (.laneClockRecover dt n) dt (fun s => (laneOf s n).rxLock = true) [.lanes]
    (fun s t => laneOf t n = { laneOf s n with clockFault := false } ∧ ∀ m, m ≠ n → laneOf t m = laneOf s m)) ∧
  (∀ dt n e, Happens (.laneDropExpiry dt n) dt (fun s => (laneOf s n).dropUntil = some e ∧ e ≤ s.tsu.now) [.lanes]
    (fun s t => laneOf t n = { laneOf s n with dropUntil := none } ∧ ∀ m, m ≠ n → laneOf t m = laneOf s m)) ∧
  (∀ z p, Performs (.linkRetrain z p) (opLinkRetrain p) 0x0107 z (fun _ => True) 0x0002 (fun _ => []) linkParts
    (fun u t => enters p .noSignal u t ∧ (portOf t p).retrain = true))

/-- The link state machine of Table 3-6: each of its transitions takes the port to the state the table names, at this ccyc, and takes
no other port anywhere (R72 to R77). Completion: in each clause about such a row, for every state and operands that meet its
conditions, exec answers a next state: anComplete, anIncompatibleRetry, trainingTimeout, trainingComplete, alignComplete, alignTimeout,
localFault, linkDownHoldExpiry, faultClear, remoteFault and preemptVerifyTimeout. -/
def Obligations.LinksFollowTheirTable : Prop :=
  (∀ dt p page, Happens (.anComplete dt p page.abilities page.fecs page.pause) dt
    (fun s => portLive s p ∧ (portOf s p).link = .an ∧ sameAbility (portOf s p).page page = true) linkParts
    (fun s t => enters p (afterAn s.cfg p) s t)) ∧
  (∀ dt p page, Happens (.anComplete dt p page.abilities page.fecs page.pause) dt
    (fun s => portLive s p ∧ (portOf s p).link = .an ∧ sameAbility (portOf s p).page page = false) linkParts
    (fun s t => enters p .anIncompatible s t)) ∧
  (∀ dt p, Happens (.anIncompatibleRetry dt p) dt
    (fun s => portLive s p ∧ (portOf s p).link = .anIncompatible ∧ (portOf s p).since + ms 50 ≤ s.tsu.now) linkParts
    (fun s t => enters p .an s t)) ∧
  (∀ dt p, Happens (.trainingTimeout dt p) dt
    (fun s => portLive s p ∧ (portOf s p).link = .training ∧ (portOf s p).since + Config.trainWait (modeOf s p) ≤ s.tsu.now) linkParts
    (fun s t => enters p .noSignal s t)) ∧
  (∀ dt p, Happens (.trainingComplete dt p) dt
    (fun s => portLive s p ∧ (portOf s p).link = .training ∧ (portLanes s.cfg p).all (fun n => (laneOf s n).ltRxReady) = true) linkParts
    (fun s t => enters p .aligning s t)) ∧
  (∀ dt p o l, Happens (.alignComplete dt p false l o) dt
    (fun s => portLive s p ∧ (portOf s p).link = .aligning ∧ (∀ k ∈ l, k ≤ skewLimit) ∧
      laneOrder (portLanes s.cfg p).length (if hasMarkers (modeOf s p) then o else [0]) = true) (.lanes :: linkParts)
    (fun s t => enters p .up s t ∧ (portOf t p).retrain = false)) ∧
  (∀ dt p o l, Happens (.alignComplete dt p true l o) dt
    (fun s => portLive s p ∧ (portOf s p).link = .aligning ∧ (∀ k ∈ l, k ≤ skewLimit) ∧
      laneOrder (portLanes s.cfg p).length (if hasMarkers (modeOf s p) then o else [0]) = true) (.lanes :: linkParts)
    (fun s t => enters p .remoteFault s t)) ∧
  (∀ dt p o l r, Happens (.alignComplete dt p r l o) dt
    (fun s => (∃ k ∈ l, skewLimit < k) ∨ (hasMarkers (modeOf s p) = true ∧ laneOrder (portLanes s.cfg p).length o = false)) []
    (fun _ _ => True)) ∧
  (∀ dt p l, Happens (.alignTimeout dt p l) dt
    (fun s => portLive s p ∧ (portOf s p).link = .aligning ∧ (portOf s p).since + ms 100 ≤ s.tsu.now) linkParts
    (fun s t => enters p .noSignal s t)) ∧
  (∀ dt p, Happens (.localFault dt p) dt
    (fun s => portLive s p ∧ ((portOf s p).link = .up ∨ (portOf s p).link = .remoteFault)) linkParts
    (fun s t => enters p .localFault s t)) ∧
  (∀ dt p e, Happens (.linkDownHoldExpiry dt p) dt
    (fun s => portLive s p ∧ (portOf s p).link = .localFault ∧ (portOf s p).faultAt = some e ∧ e + downHold s.cfg p ≤ s.tsu.now) linkParts
    (fun s t => enters p .localFault s t)) ∧
  (∀ dt p e, Happens (.faultClear dt p) dt
    (fun s => portLive s p ∧ (portOf s p).link = .localFault ∧ (portOf s p).faultAt = some e ∧ s.tsu.now < e + downHold s.cfg p ∧
      lanesLive s p = true ∧ (portOf s p).highErr = false) linkParts
    (fun s t => enters p .up s t)) ∧
  (∀ dt p e, Happens (.faultClear dt p) dt
    (fun s => portLive s p ∧ (portOf s p).link = .localFault ∧ (portOf s p).faultAt = some e ∧ e + downHold s.cfg p ≤ s.tsu.now) linkParts
    (fun s t => enters p .localFault s t)) ∧
  (∀ dt p, Happens (.remoteFault dt p true) dt (fun s => portLive s p ∧ (portOf s p).link = .up) linkParts
    (fun s t => enters p .remoteFault s t)) ∧
  (∀ dt p, Happens (.remoteFault dt p false) dt (fun s => portLive s p ∧ (portOf s p).link = .remoteFault) linkParts
    (fun s t => enters p .up s t)) ∧
  (∀ dt p n, Happens (.preemptVerifyTimeout dt p) dt
    (fun s => portLive s p ∧ (portOf s p).verify = .running n ∧ (portOf s p).verifyDue = false ∧ n < 3 ∧
      (portOf s p).verifyAt + ms (preemptCfg s.cfg p).verify ≤ s.tsu.now) [.ports]
    (fun s t => portOf t p = { portOf s p with verify := .running (n + 1), verifyDue := true })) ∧
  (∀ dt p n, Happens (.preemptVerifyTimeout dt p) dt
    (fun s => portLive s p ∧ (portOf s p).verify = .running n ∧ (portOf s p).verifyDue = false ∧ 3 ≤ n ∧
      (portOf s p).verifyAt + ms (preemptCfg s.cfg p).verify ≤ s.tsu.now) [.ports, .ctr, .levels, .jic]
    (fun s t => (portOf t p).verify = .failed ∧ total t (preemptVerifyFailsCtr p) = total s (preemptVerifyFailsCtr p) + 1 ∧
      levelNow (tgetD t.jic.levels (0x610 + p) []) = true))

/-! ## Errors (18) -/

namespace Sys2Proof.Safety

/-- What a CPX restart may change. -/
def restartParts : List Part := [.tsu, .hpe, .replies, .xdma, .hood, .sessions, .checks, .cpx] ++ errorParts

end Sys2Proof.Safety

/-- ERROR_ACK clears FIRST and the flags and takes the count over (R411); a FIRST not acknowledged for 10 ms is ESCALATED (R412); a log
write that fails, an SRAM error and a CPX lockstep error are recorded and contained as Table 18-6 states. Completion: in each clause
about such a row, for every state and operands that meet its conditions, exec answers a next state: errorAck, errorEscalationTimeout,
errorLogWriteTimeout, errorLogWriteError, sramEccError, cpxLockstepError and cpxRestartDone. -/
def Obligations.ErrorsAreRecordedAndContained : Prop :=
  (∀ z u n, Performs (.errorAck z u n) (opErrorAck u n) 0x0041 z (fun _ => True) 0x0000 (fun _ => []) [.err]
    (fun s t => errUnit t u = { errUnit s u with acked := (errUnit s u).count, first := none, nested := false, escalated := false } ∧
      (∀ v, v ≠ u → errUnit t v = errUnit s v) ∧ t.err.nextSeq = s.err.nextSeq)) ∧
  (∀ dt u f, Happens (.errorEscalationTimeout dt u) dt
    (fun s => clocked s = true ∧ (errUnit s u).first = some f ∧ f.ccyc + ms 10 ≤ s.tsu.now) [.err]
    (fun s t => errUnit t u = { errUnit s u with escalated := true } ∧ ∀ v, v ≠ u → errUnit t v = errUnit s v)) ∧
  (∀ dt u, Happens (.errorEscalationTimeout dt u) dt
    (fun s => ∀ f, (errUnit s u).first = some f → s.tsu.now < f.ccyc + ms 10) [] (fun _ _ => True)) ∧
  (∀ dt, Happens (.errorLogWriteTimeout dt) dt
    (fun s => clocked s = true ∧ ∃ w ∈ recentWrites s, w.1 + us 100 ≤ s.tsu.now) errorParts (fun s t => raises 0x0E 0x0F01 4 s t)) ∧
  (∀ dt, Happens (.errorLogWriteTimeout dt) dt (fun s => ∀ w ∈ recentWrites s, s.tsu.now < w.1 + us 100) [] (fun _ _ => True)) ∧
  (∀ dt, Happens (.errorLogWriteError dt) dt (fun s => clocked s = true ∧ recentWrites s ≠ []) errorParts
    (fun s t => raises 0x0E 0x0F01 4 s t)) ∧
  (∀ dt b, Happens (.sramEccError dt b .correctable) dt (fun s => clocked s = true) errorParts
    (fun s t => raises 0x1A 0x1A01 0 s t)) ∧
  (∀ dt b c, Happens (.sramEccError dt b (.policer c)) dt (fun s => clocked s = true) (.pols :: errorParts)
    (fun s t => raises 0x1A 0x1A03 2 s t ∧ (tgetD t.pols c {}).dead = true)) ∧
  (∀ dt b o, Happens (.sramEccError dt b (.sched o)) dt (fun s => clocked s = true) (.esh :: errorParts)
    (fun s t => raises 0x1A 0x1A04 2 s t ∧ (objOf t o).dead = true)) ∧
  (∀ dt b k, Happens (.sramEccError dt b (.counter k)) dt (fun s => clocked s = true) (.ctr :: .tel :: errorParts)
    (fun s t => raises 0x1A 0x1A05 1 s t ∧ (tget t.tel.ctr k).isNone = true)) ∧
  (∀ dt b g, Happens (.sramEccError dt b (.security g)) dt (fun s => clocked s = true ∧ g < 32) gateParts
    (fun _ t => (groupSt t g).state = .fenced)) ∧
  (∀ dt b, Happens (.sramEccError dt b .errorStore) dt (fun s => clocked s = true) errorParts
    (fun s t => raises 0x1A 0x0F02 4 s t)) ∧
  (∀ dt, Happens (.cpxLockstepError dt) dt
    (fun s => clocked s = true ∧ s.mode.stage = .run ∧ s.mode.zeroized = false) restartParts
    (fun s t => t.cpx.restart = some s.tsu.now ∧ t.cpx.sessions = [] ∧ t.cpx.queue = [] ∧ t.cpx.forwarded = [] ∧
      t.cpx.activation = none ∧ (errUnit t 0x11).latest.code = 0x1101)) ∧
  (∀ dt, Happens (.cpxRestartDone dt) dt (fun s => clocked s = true ∧ s.cpx.activation = none) [.cpx]
    (fun s t => t.cpx = { s.cpx with restart := none })) ∧
  (∀ dt, Happens (.cpxRestartDone dt) dt (fun s => s.cpx.activation ≠ none) [] (fun _ _ => True))

/-- A FATAL error of any unit but hood and SVE enters QUARANTINE (R412), where no session is open and no commit is pending (R58). -/
def Obligations.FatalErrorsQuarantine : Prop :=
  ∀ (unit code inst cls d0 d1 : Nat) (s : State), clocked s = true → s.mode.zeroized = false → unit ≠ 0x12 → unit ≠ 0x13 →
    (errorAt unit code inst 4 cls d0 d1 s).mode.quarantine = true ∧
    (s.mode.quarantine = false → (errorAt unit code inst 4 cls d0 d1 s).cpx.sessions = [] ∧
      (errorAt unit code inst 4 cls d0 d1 s).cpx.staged.sealed = none) ∧
    (unit ≠ 0x15 → raises unit code 4 s (errorAt unit code inst 4 cls d0 d1 s))

namespace Sys2Proof.Safety

/-- What zeroization may change, the fuses apart. -/
def zeroizeParts : List Part :=
  [.mode, .quarantine, .sessions, .checks, .staged, .sealed, .cpx, .hood, .err, .levels, .jic, .ctr, .samples, .smc, .frc, .groups, .ports,
   .hostQueue, .esh, .replies, .hpe, .pounce, .dbg, .hlk, .rx, .sas, .pols, .out]

/-- The block is ZEROIZED: the hood holds no key and no certificate, and nothing is pending in CPX (R401). -/
def zeroed (t : State) : Prop :=
  t.mode.zeroized = true ∧ modeCode t = 0xB ∧ t.hood.slots = [] ∧ t.hood.delegated = [] ∧ t.hood.certs = [] ∧ t.hood.store = [] ∧
    t.cpx.queue = [] ∧ t.cpx.forwarded = [] ∧ t.cpx.activation = none ∧ t.mode.drain = none

end Sys2Proof.Safety

/-- A row that may answer host memory's response (R262, R298, R351, R386): good, in error, or missing after 64 µs. Completion: in each
clause about such a row, for every state and operands that meet its conditions, exec answers a next state: sypMasterResponse and
sypResponseTimeout. -/
def Obligations.HostResponsesAreTaken : Prop :=
  (∀ dt a bad, Happens (.sypMasterResponse dt a bad) dt (fun s => clocked s = true ∧ s.dbg.pounce = [])
    ([.hood, .levels, .jic, .ctr, .samples, .tel, .xdma, .hostQueue, .replies, .hpe, .hlk, .out] ++ errorParts)
    (fun s t => hostAccessDone a bad s t)) ∧
  (∀ dt a, Happens (.sypResponseTimeout dt a) dt (fun s => clocked s = true)
    ([.hood, .levels, .jic, .ctr, .samples, .tel, .xdma, .hostQueue, .replies, .hpe, .hlk, .out] ++ errorParts)
    (fun s t => hostAccessDone a true s t))

/-! ## Keys, lifecycle, firmware and zeroization (17) -/

/-- KEY_INSTALL and KEY_REVOKE write the store, and answer and take effect with its response (R386, R388, R389); KEY_REVOKE first burns
one bit of REVOKE_COUNT, and a delegated key goes at once (R425); FW_KEY_REVOKE burns its key's bit (R393). Completion: in each clause
about such a row, for every state and operands that meet its conditions, exec answers a next state: keyInstall, keyRevoke and
fwKeyRevoke. -/
def Obligations.KeysAreInstalledAndRevoked : Prop :=
  (∀ z b k, Defers (.keyInstall z b) (opKeyInstall b) z (fun _ => b.unwrapped = some k) [.hood, .out]
    (fun c u t => t.hood = { u.hood with store := u.hood.store ++
      [{ change := .install b.keyId { manager := b.keyClass = 1, ecdsaPub := b.ecdsaPub, mldsaPub := b.mldsaPub, secret := k }
         ctx := some c }] })) ∧
  (∀ z k, Burns (.keyRevoke z k) (opKeyRevoke k) z (fun _ => k < 0x100) [.hood]
    (fun c u t => t.hood = { u.hood with store := u.hood.store ++ [{ change := .revoke k, ctx := some c }] } ∧
      t.fuses = { u.fuses with revokeCount := u.fuses.revokeCount ||| burnNext u.fuses.revokeCount } ∧ Output.fuseBurn ∈ t.out)) ∧
  (∀ z k, Performs (.keyRevoke z k) (opKeyRevoke k) 0x0E02 z (fun _ => 0x100 ≤ k) 0x0000 (fun _ => []) [.hood]
    (fun u t => t.hood = { u.hood with delegated := tdel u.hood.delegated k })) ∧
  (∀ z tk, Burns (.fwKeyRevoke z tk) (opFwKeyRevoke tk) z (fun _ => True) []
    (fun _ u t => t.fuses = { u.fuses with fwKeyRevoked := u.fuses.fwKeyRevoked ||| setBit u.fuses.fwKeyRevoked tk.level } ∧
      Output.fuseBurn ∈ t.out ∧
      (replyOnError z = false → Replied z 0x0E0A 0x0000 [(1, (setBit u.fuses.fwKeyRevoked tk.level).toNat)] t)))

/-- LIFECYCLE_ADVANCE burns its target's bit and ends every session with DEBUG CLOSED (R394); RETURNED erases the keys, SCRAPPED
zeroizes; ZEROIZE and a failed self-check of PUF, hood or SVE zeroize (R401). Completion: in each clause about such a row, for every
state and operands that meet its conditions, exec answers a next state: lifecycleAdvance, zeroize and pufCheckFail. -/
def Obligations.LifecycleAndZeroization : Prop :=
  (∀ z b, Burns (.lifecycleAdvance z b) (opLifecycleAdvance b) z (fun _ => b.targetState = 1 ∨ b.targetState = 2)
    [.sessions, .dbg, .pounce]
    (fun _ u t => t.fuses = { u.fuses with lifecycle := u.fuses.lifecycle ||| setBit u.fuses.lifecycle (b.targetState - 1)
                                           fuseLock := u.fuses.fuseLock || decide (b.targetState = 1) } ∧
      t.cpx.sessions = [] ∧ t.dbg.level = .closed ∧
      (replyOnError z = false → Replied z 0x0E06 0x0000 [(1, b.targetState)] t))) ∧
  (∀ z b, Burns (.lifecycleAdvance z b) (opLifecycleAdvance b) z (fun _ => b.targetState = 3) (.cfg :: zeroizeParts)
    (fun c u t => t.fuses.lifecycle = u.fuses.lifecycle ||| setBit u.fuses.lifecycle 2 ∧
      t.hood = { u.hood with slots := [], delegated := [], certs := [], store := u.hood.store ++ [{ change := .clear, ctx := some c }] } ∧
      t.mode.base = .locked)) ∧
  (∀ z b, Burns (.lifecycleAdvance z b) (opLifecycleAdvance b) z
    (fun u => b.targetState = 4 ∧ u.mode.zeroized = false ∧ u.mode.stage = .run) zeroizeParts
    (fun _ u t => bit t.fuses.lifecycle 3 = true ∧ zeroed t ∧
      (replyOnError z = false → Replied z 0x0E06 0x0000 [(1, 4)] t))) ∧
  (∀ z v, Burns (.zeroize z v) (opZeroize v) z (fun u => u.mode.zeroized = false ∧ u.mode.stage = .run) zeroizeParts
    (fun _ u t => zeroed t ∧ (burnt u.fuses.zeroizeCount < 64 →
        t.fuses = { u.fuses with zeroizeCount := u.fuses.zeroizeCount ||| burnNext u.fuses.zeroizeCount }) ∧
      (replyOnError z = false → Replied z 0x0E09 0x0000 [] t))) ∧
  (∀ dt w (s : State), let u := start dt s
    clocked u = true → u.mode.stage = .run → u.mode.zeroized = false →
    ∃ t, exec (.pufCheckFail dt w) s = .next t ∧ zeroed t ∧ Changes (.fuses :: zeroizeParts) u t)

/-- FIRMWARE_STAGE writes its chunk to the staging area and nothing else (R392); FIRMWARE_ACTIVATE of an image that passes begins the
activation, which ends with the new image running or the old one. Completion: in each clause about such a row, for every state and
operands that meet its conditions, exec answers a next state: firmwareStage, firmwareActivate and firmwareActivateDone. -/
def Obligations.FirmwareIsStagedAndActivated : Prop :=
  (∀ z b, Performs (.firmwareStage z b) (opFirmwareStage b) 0x0E07 z (fun _ => True) 0x0000 (fun _ => []) [.cpx]
    (fun u t => t.cpx.staging = memWrites u.cpx.staging b.offset b.chunk ∧
      (∀ a, a < b.offset ∨ b.offset + b.chunk.length ≤ a → memRead t.cpx.staging a = memRead u.cpx.staging a) ∧
      (∀ i (h : i < b.chunk.length), memRead t.cpx.staging (b.offset + i) = b.chunk[i]))) ∧
  (∀ z b, Performs (.firmwareActivate z b) (opFirmwareActivate b) 0x0E08 z (fun u => u.cpx.queue ≠ []) 0x0002 (fun _ => []) [.cpx]
    (fun u t => ∃ a, t.cpx.activation = some a ∧ a.since = u.tsu.now ∧ a.restarting = false)) ∧
  (∀ z b, Burns (.firmwareActivate z b) (opFirmwareActivate b) z (fun u => u.cpx.queue = []) [.cpx]
    (fun _ u t => t.cpx.sessions = [] ∧ t.cpx.restart = some u.tsu.now ∧ (∃ a, t.cpx.activation = some a ∧ a.restarting = true) ∧
      (staged u 13 1 % 2 = 0 → t.fuses = u.fuses) ∧
      (replyOnError z = false → Replied z 0x0E08 0x0002 [] t))) ∧
  (∀ dt a, Happens (.firmwareActivateDone dt true) dt
    (fun s => clocked s = true ∧ s.cpx.activation = some a ∧ a.restarting = true) [.cpx, .levels, .jic]
    (fun s t => t.cpx.activation = none ∧ t.cpx.restart = none ∧ t.cpx.fwVersion = BitVec.ofNat 32 (staged s 4 4) ∧
      t.cpx.fwKeyIndex = staged s 12 1 ∧ levelNow (tgetD t.jic.levels 0x896 []) = true)) ∧
  (∀ dt a, Happens (.firmwareActivateDone dt false) dt
    (fun s => clocked s = true ∧ s.cpx.activation = some a ∧ a.restarting = true) (.cpx :: .draws :: errorParts)
    (fun s t => t.cpx.activation = none ∧ t.cpx.restart = none ∧ t.cpx.fwVersion = s.cpx.fwVersion ∧
      t.cpx.fwDigest = s.cpx.fwDigest))

/-! ## Debug (16) -/

/-- DEBUG_TOKEN_LOAD sets the level and what the token permits (R371, R396), whose expiry returns it to CLOSED; POUNCER_SET lists a
perturbation, which ends with its DURATION or with POUNCER_STOP (R379, R380). Completion: in each clause about such a row, for every
state and operands that meet its conditions, exec answers a next state: debugTokenLoad, tokenExpiry, pouncerSet, pouncerStop and
pouncerDurationExpiry. -/
def Obligations.TokensAndPerturbations : Prop :=
  (∀ z tk, Performs (.debugTokenLoad z tk) (opDebugTokenLoad tk) 0x0D01 z (fun _ => True) 0x0000 (fun _ => [(1, tk.level)])
    [.dbg, .pounce]
    (fun u t => t.dbg.level = (if tk.level = 1 then .observe else .opened) ∧ t.dbg.expiry = tk.expiry ∧
      t.dbg.mask = tk.pouncerMask ∧ t.dbg.freezePermit = bit tk.tokenFlags 0 ∧
      (u.tsu.sync ≠ .unset → t.dbg.expiryCcyc = none))) ∧
  (∀ dt, Happens (.tokenExpiry dt) dt
    (fun s => s.dbg.level ≠ .closed ∧ tokenExpired s = true ∧ s.dbg.freeze = none) [.dbg, .pounce, .frc, .ctr]
    (fun _ t => t.dbg.level = .closed ∧ t.dbg.expiry = 0 ∧ t.dbg.mask = 0 ∧ t.dbg.freezePermit = false ∧ t.dbg.pounce = [])) ∧
  (∀ dt, Happens (.tokenExpiry dt) dt (fun s => tokenExpired s = false) [] (fun _ _ => True)) ∧
  (∀ z b, Performs (.pouncerSet z b) (opPouncerSet b) 0x0D03 z
    (fun _ => b.perturbation ≠ 5 ∧ b.perturbation ≠ 7 ∧ b.perturbation ≠ 8 ∧ b.perturbation ≠ 0xA) 0x0000 (fun _ => [])
    [.pounce, .dbg]
    (fun u t => t.dbg.pounce =
      (running u).filter (fun y => y.cls ≠ b.perturbation || y.target ≠ b.target) ++
        [{ cls := b.perturbation, target := b.target, arg := b.arg, rate := b.rateLog2
           due := if b.duration = 0 then none else some (u.tsu.now + us b.duration) }])) ∧
  (∀ z, Performs (.pouncerStop z) opPouncerStop 0x0D04 z (fun _ => True) 0x0000 (fun _ => []) [.pounce]
    (fun _ t => t.dbg.pounce = [])) ∧
  (∀ dt c n, Happens (.pouncerDurationExpiry dt c n) dt (fun s => clocked s = true) [.pounce]
    (fun s t => t.dbg.pounce = s.dbg.pounce.filter (fun y => !(y.cls = c && y.target = n && y.due.any (fun d => d ≤ s.tsu.now)))))

namespace Sys2Proof.Safety

/-- What the end of a freeze may change. -/
def resumeParts : List Part :=
  [.quarantine, .tsu, .sessions, .sealed, .err, .levels, .jic, .ctr, .samples, .smc, .frc, .groups, .ports, .hostQueue, .esh, .replies, .hpe,
   .pounce, .dbg, .hlk, .sas, .out]

/-- The frozen duration, in steps of 40 ns, is added to TIME as a relative step that leaves SYNC as it is; a freeze whose clocks had not
stopped adds none (R375). -/
def unfrozen (s t : State) : Prop :=
  t.tsu = if s.dbg.frozen = true then
      { s.tsu with step := s.tsu.step ++ [{ due := s.tsu.now + 64, relative := true, time := 0, offset := s.dbg.frozenFor / 64 * 40 * nsUnit
                                            ctx := none, keepSync := true }] }
    else s.tsu

end Sys2Proof.Safety

/-- FREEZE arms a trigger or disarms it (R373); the FREEZE input triggers f in the next ccyc where the level permits it, and is
recorded where it does not (R374); the clocks stop Q ccyc after f (Table 16-2) and start again when the input falls or RESUME is
shifted in (R375). Completion: in each clause about such a row, for every state and operands that meet its conditions, exec answers a
next state: freeze, freezeInput, freezeClockStop and freezeInputFall. -/
def Obligations.FreezesStopTheClocks : Prop :=
  (∀ z n, Performs (.freeze z n) (opFreeze n) 0x0D02 z (fun _ => n ≠ 0) 0x0000 (fun _ => []) [.dbg]
    (fun _ t => t.dbg.armed = if n = 0x80 then 0 else n)) ∧
  (∀ z, Performs (.freeze z 0) (opFreeze 0) 0x0D02 z (fun _ => True) 0x0000 (fun _ => []) [.dbg, .pounce]
    (fun u t => t.dbg.armed = u.dbg.armed ∧ t.dbg.frozen = u.dbg.frozen)) ∧
  (∀ dt, Happens (.freezeInput dt) dt
    (fun s => s.mode.stage = .run ∧ s.mode.zeroized = false ∧ freezeAllowed s = true ∧ s.dbg.freeze = none) [.dbg, .pounce]
    (fun s t => t.dbg.input = true ∧ t.dbg.freeze = some { f := s.tsu.now + 1, byInput := true, time := s.tsu.time })) ∧
  (∀ dt, Happens (.freezeInput dt) dt
    (fun s => s.mode.stage = .run ∧ s.mode.zeroized = false ∧ freezeAllowed s = false) [.dbg, .err]
    (fun s t => t.dbg = { s.dbg with input := true } ∧ raises 0x15 0x1501 0 s t)) ∧
  (∀ dt q n f, Happens (.freezeClockStop dt q n) dt
    (fun s => s.dbg.freeze = some f ∧ s.dbg.frozen = false ∧ q ≤ 4096 ∧ f.f + q = s.tsu.now ∧ s.dbg.level ≠ .closed)
    [.quarantine, .sessions, .checks, .sealed, .err, .levels, .jic, .ctr, .samples, .smc, .frc, .groups, .ports, .hostQueue, .esh, .replies,
     .hpe, .pounce, .dbg, .hlk, .rx, .sas, .pols, .out]
    (fun s t => t.dbg.frozen = true ∧ t.dbg.q = q ∧ t.dbg.freezeCcyc = s.tsu.now % 2 ^ 32)) ∧
  (∀ dt, Happens (.freezeInputFall dt) dt
    (fun s => s.mode.stage ≠ .off ∧ ∀ f, s.dbg.freeze = some f → f.byInput = false) [.dbg]
    (fun s t => t.dbg = { s.dbg with input := false })) ∧
  (∀ dt f, Happens (.freezeInputFall dt) dt
    (fun s => s.mode.stage ≠ .off ∧ s.dbg.freeze = some f ∧ f.byInput = true) resumeParts unfrozen) ∧
  (∀ dt f, Happens (.freezeInputFall dt) dt
    (fun s => s.mode.stage ≠ .off ∧ s.dbg.freeze = some f ∧ f.byInput = true ∧ ∀ e ∈ s.cfg.port, portPowered s e.1 = false) resumeParts
    (fun _ t => t.dbg.frozen = false ∧ t.dbg.freeze = none ∧ t.dbg.input = false))

/-- What each TAP instruction shifts out (Table 16-3, R376, R377), and what CHAIN_SELECT, RESUME and BYPASS hold; in OFF and BRIM none
acts (Table 17-10). Completion: in each clause about such a row, for every state and operands that meet its conditions, exec answers a
next state: idcode, dbgStatus, chainSelect, chainRead, resume and bypass. -/
def Obligations.TapInstructionsShift : Prop :=
  (∀ dt, Happens (.idcode dt) dt (fun s => s.mode.stage = .run ∨ s.mode.stage = .boot) [.out]
    (fun s t => t.out = s.out ++ [.tdo (lsBits 32 (s.fuses.siliconRev.toNat * 2 ^ 28 + 0x4A52 * 4096 + s.fuses.manufacturerId.toNat * 2 + 1))])) ∧
  (∀ dt, Happens (.dbgStatus dt) dt (fun s => s.mode.stage = .run ∨ s.mode.stage = .boot) [.out]
    (fun s t => t.out = s.out ++ [.tdo (lsBits 64 (s.dbg.q * 2 ^ 48 + s.dbg.freezeCcyc * 65536 + s.dbg.discarded * 256 + modeCode s * 16 +
      levelCode s.dbg.level))])) ∧
  (∀ dt v, Happens (.chainSelect dt v) dt (fun s => s.mode.stage = .run ∧ s.mode.zeroized = false) [.dbg]
    (fun s t => t.dbg = { s.dbg with chain := v })) ∧
  (∀ dt n, Happens (.chainRead dt n) dt (fun s => s.mode.stage = .run ∧ s.mode.zeroized = false ∧ s.dbg.level = .closed) [.out]
    (fun s t => t.out = s.out ++ [.tdo ((lsBits 32 (5 * 2 ^ 24) ++ List.replicate (n - 32) false).take n)])) ∧
  (∀ dt, Happens (.resume dt 0x5245534D) dt
    (fun s => s.mode.stage = .run ∧ s.mode.zeroized = false ∧ s.dbg.freeze.isSome = true) resumeParts unfrozen) ∧
  (∀ dt, Happens (.resume dt 0x5245534D) dt
    (fun s => s.mode.stage = .run ∧ s.mode.zeroized = false ∧ s.dbg.freeze.isSome = true ∧ ∀ e ∈ s.cfg.port, portPowered s e.1 = false)
    resumeParts (fun _ t => t.dbg.frozen = false ∧ t.dbg.freeze = none)) ∧
  (∀ dt v, Happens (.resume dt v) dt (fun s => s.mode.stage = .run ∧ s.mode.zeroized = false ∧ v ≠ 0x5245534D) [] (fun _ _ => True)) ∧
  (∀ dt b, Happens (.bypass dt b) dt (fun s => s.mode.stage ≠ .off) [.dbg, .out]
    (fun s t => t.out = s.out ++ [.tdo [false]] ∧ t.dbg = { s.dbg with bypass := b })) ∧
  (∀ i ∈ [Instr.idcode, Instr.dbgStatus], ∀ dt, Happens (i dt) dt (fun s => s.mode.stage = .brim) [.out]
    (fun s t => t.out = s.out ++ [.tdo [false]])) ∧
  (∀ i ∈ [Instr.idcode, Instr.dbgStatus], ∀ dt, Happens (i dt) dt (fun s => s.mode.stage = .off) [] (fun _ _ => True))

/-! ## Hierarchy (19) -/

namespace Sys2Proof.Safety

/-- A frame that the joined manager `i` sent this worker, past the checks of R420 and R421. -/
def managerFrame (h : HlkHead) (s : State) : Prop :=
  hlkRuns s = true ∧ roleOf s = 2 ∧ headOk h s = true ∧ h.tagOk = true ∧ ∃ m, s.hlk.manager = some (h.src, m) ∧ m.rxSeq < h.seq

/-- A frame that a joined worker sent this manager, past the same checks. -/
def workerFrame (h : HlkHead) (s : State) : Prop :=
  hlkRuns s = true ∧ roleOf s = 1 ∧ headOk h s = true ∧ h.tagOk = true ∧
    ∃ w, tget s.hlk.workers h.src = some w ∧ w.state = 1 ∧ w.rxSeq < h.seq

/-- The manager of a worker as a frame heard from it leaves it: its LINK_SEQ and the ccyc at which it was seen. -/
def heardManager (h : HlkHead) (s t : State) : Prop :=
  ∃ m, t.hlk.manager = some (h.src, m) ∧ m.rxSeq = h.seq ∧ m.seen = s.tsu.now

/-- The same of a worker. -/
def heardWorker (h : HlkHead) (s t : State) : Prop :=
  ∃ w, tget t.hlk.workers h.src = some w ∧ w.rxSeq = h.seq ∧ w.seen = s.tsu.now

end Sys2Proof.Safety

/-- Joining (R422): HELLO on each of the worker's HLK ports that is UP, OFFER to a worker whose key matches, CONFIRM to the first valid
offer, and the worker JOINED at its manager. Completion: in each clause about such a row, for every state and operands that meet its
conditions, exec answers a next state: hlkHelloTimer, hlkHello, hlkOffer and hlkConfirm. -/
def Obligations.WorkersJoinTheirManager : Prop :=
  (∀ dt k, Happens (.hlkHelloTimer dt) dt
    (fun s => hlkRuns s = true ∧ roleOf s = 2 ∧ s.hlk.manager = none ∧ s.hlk.helloAt ≤ s.tsu.now ∧ lowestManager s = some k)
    [.hlk, .draws, .hostQueue, .replies, .out]
    (fun s t => t.hlk = { s.hlk with nonce := some ((Config.entropy s.draws).setWidth 256), helloAt := s.tsu.now + ms 100 } ∧
      t.draws = s.draws + 1)) ∧
  (∀ dt h nonce d tag k, Happens (.hlkHello dt h nonce d tag) dt
    (fun s => hlkRuns s = true ∧ h.version = 1 ∧ h.rsvOk = true ∧ h.src ≤ 63 ∧ h.dst = 0x80 ∧ h.port ∈ hlkPorts s.cfg ∧ roleOf s = 1 ∧
      h.src ≠ instOf s ∧ tget s.hlk.workers h.src = none ∧ lowestManager s = some k ∧ keyDigest k = d)
    [.hlk, .draws, .levels, .jic, .hostQueue, .replies, .out]
    (fun s t => ∃ w, tget t.hlk.workers h.src = some w ∧ w.state = 0 ∧ w.port = h.port ∧ w.mac = h.srcMac ∧ w.wkrNonce = nonce ∧
      w.mgrNonce = (Config.entropy s.draws).setWidth 256 ∧ t.draws = s.draws + 1)) ∧
  (∀ dt h a b k, Happens (.hlkOffer dt h a b) dt
    (fun s => hlkRuns s = true ∧ s.hlk.manager = none ∧ roleOf s = 2 ∧ headOk h s = true ∧ h.src ≠ instOf s ∧ h.seq ≠ 0 ∧
      s.hlk.nonce = some b ∧ lowestManager s = some k ∧ h.tagOk = true)
    [.hlk, .tsu, .levels, .jic, .hostQueue, .replies, .out]
    (fun s t => t.tsu.mgrLost = false ∧ ∃ m, t.hlk.manager = some (h.src, m) ∧ m.state = 1 ∧ m.rxSeq = h.seq ∧
      m.lk = linkKey k.secret a b h.src (instOf s))) ∧
  (∀ dt h e m k w, Happens (.hlkConfirm dt h e m) dt
    (fun s => hlkRuns s = true ∧ roleOf s = 1 ∧ headOk h s = true ∧ h.tagOk = true ∧ h.seq ≠ 0 ∧ lowestManager s = some k ∧
      tget s.hlk.workers h.src = some w ∧ w.mgrNonce ≠ 0 ∧ w.port = h.port ∧ w.mac = h.srcMac)
    [.hlk, .levels, .jic, .hostQueue, .replies, .out]
    (fun s t => ∃ x, tget t.hlk.workers h.src = some x ∧ x.state = 1 ∧ x.epoch = e ∧ x.mode = m ∧ x.rxSeq = h.seq ∧
      x.lk = linkKey k.secret w.mgrNonce w.wkrNonce (instOf s) h.src))

/-- Tagged frames of a joined partner move its LINK_SEQ and show it alive (R421, R430); HEARTBEAT carries the intervals (R427, R429); a
frame that fails a check is discarded, recorded, and leaves the partner as it was. Completion: in each clause about such a row, for
every state and operands that meet its conditions, exec answers a next state: hlkHeartbeat, hlkHeartbeatTimer, hlkCommand, hlkReply,
targetTimeout, hlkSummary and summaryTimer. -/
def Obligations.JoinedPartnersExchangeFrames : Prop :=
  (∀ dt h a b, Happens (.hlkHeartbeat dt h a b) dt (fun s => managerFrame h s) [.hlk]
    (fun s t => heardManager h s t ∧ t.hlk.timeInt = a ∧ t.hlk.sumPer = b)) ∧
  (∀ dt h, Happens (.hlkHeartbeat dt h 0 0) dt (fun s => workerFrame h s) [.hlk] (fun s t => heardWorker h s t)) ∧
  (∀ dt h a b, Happens (.hlkHeartbeat dt h a b) dt (fun s => hlkRuns s = true ∧ h.tagOk = false) errorParts
    (fun s t => raises 0x16 0x1602 0 s t)) ∧
  (∀ dt, Happens (.hlkHeartbeatTimer dt) dt (fun s => hlkRuns s = true ∧ roleOf s = 1 ∧ s.hlk.beatAt ≤ s.tsu.now)
    [.hlk, .hostQueue, .replies, .out] (fun s t => t.hlk.beatAt = s.tsu.now + ms 10)) ∧
  (∀ dt i m, Happens (.hlkHeartbeatTimer dt) dt
    (fun s => hlkRuns s = true ∧ roleOf s = 2 ∧ s.hlk.manager = some (i, m) ∧ s.hlk.beatAt ≤ s.tsu.now)
    [.hlk, .hostQueue, .replies, .out]
    (fun s t => t.hlk.beatAt = s.tsu.now + ms 10 ∧ ∃ x, t.hlk.manager = some (i, x) ∧ x.txSeq = m.txSeq + 1)) ∧
  (∀ dt h a b, Happens (.hlkCommand dt h a b) dt (fun s => managerFrame h s ∧ queueFull s = false) [.hlk, .checks]
    (fun s t => heardManager h s t ∧ t.cpx.queue = s.cpx.queue ++ [{ origin := .hlk h.src, length := a.length + b.length }])) ∧
  (∀ dt h r f l, Happens (.hlkReply dt h r) dt
    (fun s => workerFrame h s ∧ s.cpx.forwarded = f :: l ∧ f.target = h.src ∧ f.ctx.opcode = r.opcode ∧
      f.ctx.sequence = r.sequence ∧ f.ctx.correlation = r.correlation ∧
      unanswered f.ctx r.status = false) [.hlk, .checks, .out, .replies, .hostQueue, .ctr]
    (fun s t => t.cpx.forwarded = l ∧ Output.reply f.ctx.origin (relayed r) ∈ t.out)) ∧
  (∀ dt c f l, Happens (.targetTimeout dt c) dt
    (fun s => hlkRuns s = true ∧ s.cpx.forwarded = f :: l ∧ f.ctx.correlation = c ∧ f.due ≤ s.tsu.now)
    ([.checks, .ctr, .out, .replies, .hostQueue, .hlk] ++ errorParts)
    (fun _ t => t.cpx.forwarded = l ∧ (errUnit t 0x16).latest.code = 0x1601 ∧
      ∃ r, Output.reply f.ctx.origin r ∈ t.out ∧ r.status = 0x0602)) ∧
  (∀ dt h m, Happens (.hlkSummary dt h m) dt (fun s => workerFrame h s) [.hlk]
    (fun s t => ∃ w, tget t.hlk.workers h.src = some w ∧ w.page = some (m, seconds s) ∧ w.mode = m.mode ∧ w.epoch = m.epoch)) ∧
  (∀ dt, Happens (.summaryTimer dt) dt
    (fun s => hlkRuns s = true ∧ s.hlk.manager.isSome = true ∧ s.hlk.sumPer ≠ 0 ∧ s.hlk.sumAt ≤ s.tsu.now)
    [.hlk, .hostQueue, .replies, .out] (fun s t => t.hlk.sumAt = s.tsu.now + us s.hlk.sumPer)) ∧
  (∀ dt, Happens (.summaryTimer dt) dt (fun s => s.hlk.sumPer = 0 ∨ s.tsu.now < s.hlk.sumAt) [] (fun _ _ => True))

/-- The exchange of R427: TIME_REQ every TIME_INTERVAL, TIME_RESP in answer, and the worker's times of each; R425 and R426 for a
certificate that a command or the manager brings, and its expiry. Completion: in each clause about such a row, for every state and
operands that meet its conditions, exec answers a next state: timeDistTimer, hlkTimeReq, hlkTimeResp, delegationInstall, hlkDelegation
and delegationExpiry. -/
def Obligations.TimeAndDelegationTravel : Prop :=
  (∀ dt, Happens (.timeDistTimer dt) dt (fun s => hlkRuns s = true ∧ following s = true ∧ s.hlk.reqAt ≤ s.tsu.now)
    [.hlk, .hostQueue, .replies, .out]
    (fun s t => t.hlk.timeN = (s.hlk.timeN + 1) % 2 ^ 32 ∧ t.hlk.reqAt = s.tsu.now + us s.hlk.timeInt ∧
      t.hlk.exchange = ({ n := (s.hlk.timeN + 1) % 2 ^ 32, frame := s.hpe.nextId } :: s.hlk.exchange).take 2)) ∧
  (∀ dt h n, Happens (.hlkTimeReq dt h n) dt (fun s => workerFrame h s) [.hlk, .hostQueue, .replies, .out]
    (fun s t => ∃ w, tget t.hlk.workers h.src = some w ∧ w.t3Frame = some (n, s.hpe.nextId) ∧ w.rxSeq = h.seq)) ∧
  (∀ dt h n t2 t3, Happens (.hlkTimeResp dt h n t2 t3) dt
    (fun s => managerFrame h s ∧ timeOk t2 = true ∧ timeOk t3 = true ∧ ∀ e ∈ s.hlk.exchange, (e.n + 1) % 2 ^ 32 ≠ n) [.hlk]
    (fun s t => heardManager h s t ∧
      t.hlk.exchange = s.hlk.exchange.map (fun e => if e.n = n then { e with t2 := some (ofTime t2), t4 := some (hlkStamp h s) } else e))) ∧
  (∀ z c, Performs (.delegationInstall z c) (opDelegationInstall c) 0x0F03 z (fun u => roleOf u ≠ 1) 0x0000
    (fun _ => [(2, c.keyId)]) [.hood, .frc, .ctr]
    (fun u t => ∃ d, tget t.hood.delegated c.keyId = some d ∧ d.mask = c.groupMask ∧ d.expiry = c.expiry ∧ d.issuer = c.issuer ∧
      (∀ k, k ≠ c.keyId → tget t.hood.delegated k = tget u.hood.delegated k))) ∧
  (∀ z c, Performs (.delegationInstall z c) (opDelegationInstall c) 0x0F03 z (fun u => roleOf u = 1) 0x0000
    (fun _ => [(2, c.keyId)]) [.hood, .frc, .ctr, .hlk, .hostQueue, .replies, .out]
    (fun u t => t.hood.certs = certsKept c u ++ [c])) ∧
  (∀ dt h c, Happens (.hlkDelegation dt h c) dt
    (fun s => managerFrame h s ∧ certRsvZero c = true ∧ (certRanges c).all (fun r => r.2) = true ∧ certNames c s = true ∧
      certValid c s = none ∧ lifecycle s ≠ 3) [.hlk, .hood, .frc, .ctr]
    (fun s t => heardManager h s t ∧ ∃ d, tget t.hood.delegated c.keyId = some d ∧ d.mask = c.groupMask ∧ d.expiry = c.expiry)) ∧
  (∀ dt k d, Happens (.delegationExpiry dt k) dt
    (fun s => clocked s = true ∧ tget s.hood.delegated k = some d ∧ d.expiryCcyc = none ∧ d.expiry ≤ seconds s) [.hood]
    (fun s t => t.hood = { s.hood with delegated := tdel s.hood.delegated k })) ∧
  (∀ dt k d, Happens (.delegationExpiry dt k) dt
    (fun s => tget s.hood.delegated k = some d ∧ d.expiryCcyc = none ∧ seconds s < d.expiry) [] (fun _ _ => True))

namespace Sys2Proof.Safety

/-- What the loss of a partner may change. -/
def lossParts : List Part := [.checks, .tsu, .ctr, .levels, .jic, .hlk, .hostQueue, .replies, .out] ++ errorParts

/-- The worker has lost its manager (R428): bit [6] of DEGRADED_REASON, HOLDOVER for a time base that was set, and HELLO again. -/
def managerLost (s t : State) : Prop :=
  t.hlk.manager = none ∧ t.hlk.timeInt = 0 ∧ t.tsu.mgrLost = true ∧
    t.tsu.sync = (if s.tsu.sync = .set then .holdover else s.tsu.sync) ∧ levelNow (tgetD t.jic.levels 0x899 []) = true

end Sys2Proof.Safety

/-- LEAVE, and 50 ms without a valid frame, end a partner's membership (R428, R430). Completion: in each clause about such a row, for
every state and operands that meet its conditions, exec answers a next state: hlkLeave and hlkPartnerLoss. -/
def Obligations.PartnersAreLost : Prop :=
  (∀ dt h n, Happens (.hlkLeave dt h n) dt (fun s => n ≤ 2 ∧ managerFrame h s) lossParts (fun s t => managerLost s t)) ∧
  (∀ dt h n, Happens (.hlkLeave dt h n) dt (fun s => n ≤ 2 ∧ workerFrame h s) lossParts
    (fun _ t => ∃ w, tget t.hlk.workers h.src = some w ∧ w.state = 3)) ∧
  (∀ dt i m, Happens (.hlkPartnerLoss dt i) dt
    (fun s => hlkRuns s = true ∧ roleOf s = 2 ∧ s.hlk.manager = some (i, m) ∧ m.seen + ms 50 ≤ s.tsu.now) lossParts
    (fun s t => managerLost s t)) ∧
  (∀ dt i w, Happens (.hlkPartnerLoss dt i) dt
    (fun s => hlkRuns s = true ∧ roleOf s = 1 ∧ tget s.hlk.workers i = some w ∧ w.state = 1 ∧ w.seen + ms 50 ≤ s.tsu.now) lossParts
    (fun _ t => ∃ x, tget t.hlk.workers i = some x ∧ x.state = 2)) ∧
  (∀ dt i m, Happens (.hlkPartnerLoss dt i) dt
    (fun s => roleOf s = 2 ∧ s.hlk.manager = some (i, m) ∧ s.tsu.now < m.seen + ms 50) [] (fun _ _ => True))

/-! ## Staging (R54, R57): the settings commands -/

/-- The settings of ports, lanes, transports and SecYs: each is staged as `Stages` says (R24, R54, R57), and nothing that is in force
changes. Completion: in each clause about such a row, for every state and operands that meet its conditions, exec answers a next state:
portSet, portClear, portAddrSet, portVlanSet, laneSet, zelgenTransportSet, secySet, scSet and scClear. -/
def Obligations.PortAndMacsecSettingsAreStaged : Prop :=
  (∀ z b, Stages (.portSet z b) (opPortSet b) 0x0101 z (.portSet b)) ∧
  (∀ z port, Stages (.portClear z port) (opPortClear port) 0x0102 z (.portClear port)) ∧
  (∀ z b, Stages (.portAddrSet z b) (opPortAddrSet b) 0x0103 z (.portAddr b)) ∧
  (∀ z b, Stages (.portVlanSet z b) (opPortVlanSet b) 0x0104 z (.portVlan b)) ∧
  (∀ z b, Stages (.laneSet z b) (opLaneSet b) 0x0105 z (.laneSet b)) ∧
  (∀ z b, Stages (.zelgenTransportSet z b) (opZelgenTransportSet b) 0x0106 z (.transport b)) ∧
  (∀ z b, Stages (.secySet z b) (opSecySet b) 0x0201 z (.secy b)) ∧
  (∀ z b, Stages (.scSet z b) (opScSet b) 0x0202 z (.scSet b)) ∧
  (∀ z b, Stages (.scClear z b) (opScClear b) 0x0203 z (.scClear b))

/-- The settings of classes, senders, policers and the tree: each is staged as `Stages` says (R24, R54, R57), and nothing that is in
force changes. Completion: in each clause about such a row, for every state and operands that meet its conditions, exec answers a next
state: classSet, classClear, senderIdSet, policerSet, policerClear, leafSet, leafClear, nodeSet, nodeClear, portSchedSet,
overheadProfileSet and hostLeafSet. -/
def Obligations.TrafficSettingsAreStaged : Prop :=
  (∀ z b, Stages (.classSet z b) (opClassSet b) 0x0301 z (.classSet b)) ∧
  (∀ z portGroup entry, Stages (.classClear z portGroup entry) (opClassClear portGroup entry) 0x0302 z (.classClear portGroup entry)) ∧
  (∀ z b, Stages (.senderIdSet z b) (opSenderIdSet b) 0x0304 z (.senderId b)) ∧
  (∀ z b, Stages (.policerSet z b) (opPolicerSet b) 0x0401 z (.policer b)) ∧
  (∀ z context, Stages (.policerClear z context) (opPolicerClear context) 0x0402 z (.policerClear context)) ∧
  (∀ z b, Stages (.leafSet z b) (opLeafSet b) 0x0501 z (.leafSet b)) ∧
  (∀ z leaf, Stages (.leafClear z leaf) (opLeafClear leaf) 0x0502 z (.leafClear leaf)) ∧
  (∀ z b, Stages (.nodeSet z b) (opNodeSet b) 0x0503 z (.nodeSet b)) ∧
  (∀ z node, Stages (.nodeClear z node) (opNodeClear node) 0x0504 z (.nodeClear node)) ∧
  (∀ z b, Stages (.portSchedSet z b) (opPortSchedSet b) 0x0505 z (.portSched b)) ∧
  (∀ z b, Stages (.overheadProfileSet z b) (opOverheadProfileSet b) 0x0506 z (.overhead b)) ∧
  (∀ z b, Stages (.hostLeafSet z b) (opHostLeafSet b) 0x0507 z (.hostLeaf b))

/-- The settings of gate lists, preemption, pause, the time base's outputs and rings: each is staged as `Stages` says (R24, R54, R57),
and nothing that is in force changes. Completion: in each clause about such a row, for every state and operands that meet its
conditions, exec answers a next state: gateListSet, preemptSet, pauseSet, ppsSet, tsuCalSet, ringConfig and rxSteerSet. -/
def Obligations.GateTimeAndRingSettingsAreStaged : Prop :=
  (∀ z b, Stages (.gateListSet z b) (opGateListSet b) 0x0601 z (.gateList b)) ∧
  (∀ z b, Stages (.preemptSet z b) (opPreemptSet b) 0x0602 z (.preempt b)) ∧
  (∀ z b, Stages (.pauseSet z b) (opPauseSet b) 0x0603 z (.pause b)) ∧
  (∀ z b, Stages (.ppsSet z b) (opPpsSet b) 0x0705 z (.pps b)) ∧
  (∀ z b, Stages (.tsuCalSet z b) (opTsuCalSet b) 0x0706 z (.tsuCal b)) ∧
  (∀ z b, Stages (.ringConfig z b) (opRingConfig b) 0x0801 z (.ring b)) ∧
  (∀ z b, Stages (.rxSteerSet z b) (opRxSteerSet b) 0x0806 z (.rxSteer b))

/-- The settings of interrupts, telemetry, side memory, power, access and the hierarchy: each is staged as `Stages` says (R24, R54,
R57), and nothing that is in force changes. Completion: in each clause about such a row, for every state and operands that meet its
conditions, exec answers a next state: irqSourceSet, irqTargetSet, battSet, counterWindowSet, sampleSet, queueSampleSet, eventModeSet,
smcSet, frcRegionSet, xdmaChannelSet, groupPowerSet, wakeSet, accessPolicySet, hlkRoleSet, hlkLinkSet, timeDistSet and telemetryAggSet.
-/
def Obligations.ServiceSettingsAreStaged : Prop :=
  (∀ z b, Stages (.irqSourceSet z b) (opIrqSourceSet b) 0x0901 z (.irqSource b)) ∧
  (∀ z b, Stages (.irqTargetSet z b) (opIrqTargetSet b) 0x0902 z (.irqTarget b)) ∧
  (∀ z b, Stages (.battSet z b) (opBattSet b) 0x0A01 z (.batt b)) ∧
  (∀ z b, Stages (.counterWindowSet z b) (opCounterWindowSet b) 0x0A02 z (.window b)) ∧
  (∀ z b, Stages (.sampleSet z b) (opSampleSet b) 0x0A03 z (.sample b)) ∧
  (∀ z b, Stages (.queueSampleSet z b) (opQueueSampleSet b) 0x0A04 z (.queueSample b)) ∧
  (∀ z b, Stages (.eventModeSet z b) (opEventModeSet b) 0x0A05 z (.eventMode b)) ∧
  (∀ z b, Stages (.smcSet z b) (opSmcSet b) 0x0B01 z (.smc b)) ∧
  (∀ z b, Stages (.frcRegionSet z b) (opFrcRegionSet b) 0x0B03 z (.frcRegion b)) ∧
  (∀ z b, Stages (.xdmaChannelSet z b) (opXdmaChannelSet b) 0x0B05 z (.xdma b)) ∧
  (∀ z b, Stages (.groupPowerSet z b) (opGroupPowerSet b) 0x0C02 z (.groupPower b)) ∧
  (∀ z b, Stages (.wakeSet z b) (opWakeSet b) 0x0C03 z (.wake b)) ∧
  (∀ z b, Stages (.accessPolicySet z b) (opAccessPolicySet b) 0x0E04 z (.accessPolicy b)) ∧
  (∀ z b, Stages (.hlkRoleSet z b) (opHlkRoleSet b) 0x0F01 z (.hlkRole b)) ∧
  (∀ z b, Stages (.hlkLinkSet z b) (opHlkLinkSet b) 0x0F02 z (.hlkLink b)) ∧
  (∀ z interval, Stages (.timeDistSet z interval) (opTimeDistSet interval) 0x0F05 z (.timeDist interval)) ∧
  (∀ z b, Stages (.telemetryAggSet z b) (opTelemetryAggSet b) 0x0F06 z (.telemetryAgg b))

/-! ## Queries (R49) -/

/-- What the queries of groups 0x00 to 0x05 answer, read in the state in which each is carried out: the open sessions, the staged set
(Table 2-9), a unit's error records (R410), a port's link and FEC counts, an SA, a class, the refusals of a group's classes, a
policer's tokens and counts, and a scheduled object's tag, due time and tokens. None changes anything that it reads. Completion: in
each clause about such a row, for every state and operands that meet its conditions, exec answers a next state: sessionList,
epochStatus, errorRead, portStateGet, saStateGet, classGet, refusalCountsGet, policerGet and schedStateGet. -/
def Obligations.TrafficQueriesAnswer : Prop :=
  (∀ z, Answers (.sessionList z) opSessionList 0x0012 z (fun u => (1, u.cpx.sessions.length) :: u.cpx.sessions.flatMap (fun e =>
    [(2, 0x8000 + e.1), (2, e.2.keyId), (6, e.2.expiry), (2, e.2.mask.toNat)]))) ∧
  (∀ z, Answers (.epochStatus z) opEpochStatus 0x0023 z (fun u =>
    [(2, u.cpx.epoch), (1, if u.cpx.staged.sealed.isSome then 2 else if u.cpx.staged.count = 0 then 0 else 1), (4, u.cpx.staged.count),
     (48, u.cpx.staged.digest.toNat)] ++ timeFields (u.cpx.staged.sealed.getD {}) ++ timeFields u.cpx.lastEffect)) ∧
  (∀ z n, Answers (.errorRead z n) (opErrorRead n) 0x0040 z (fun u =>
    (match (errUnit u n).first with | some r => errFields r | none => [(48, 0)]) ++
    (if (errUnit u n).count = 0 then [(48, 0)] else errFields (errUnit u n).latest) ++
    [(4, (errUnit u n).count), (4, (errUnit u n).acked), (4, errFlags (errUnit u n)), (8, u.err.nextSeq)])) ∧
  (∀ z p, Answers (.portStateGet z p) (opPortStateGet p) 0x0108 z (fun u =>
    [(1, linkCode u p), (1, modeOf u p), (8, total u (correctedCwCtr p) % 2 ^ 64), (8, total u (uncorrectedCwCtr p) % 2 ^ 64),
     (8, total u (correctedSymbolsCtr p) % 2 ^ 64), (8, total u (codewordsCtr p) % 2 ^ 64), (2, u.cpx.epoch)])) ∧
  (∀ z b, Answers (.saStateGet z b) (opSaStateGet b) 0x0207 z (fun u =>
    [(1, saCode (saOfKey u (saNameKey b)).state), (8, (saOfKey u (saNameKey b)).nextPn),
     (1, if (saOfKey u (saNameKey b)).exhaust then 1 else 0)])) ∧
  (∀ z g n, Answers (.classGet z g n) (opClassGet g n) 0x0303 z (fun u =>
    match tget u.cfg.cls (g * 64 + n) with | some e => classFields e | none => [(64, 0)])) ∧
  (∀ z g, Answers (.refusalCountsGet z g) (opRefusalCountsGet g) 0x0305 z (fun u =>
    (List.range 64).map (fun i => (8, total u (classRefusedCtr g i) % 2 ^ 64)))) ∧
  (∀ z n, Answers (.policerGet z n) (opPolicerGet n) 0x0403 z (fun u =>
    match tget u.cfg.policer n with
    | some b => [(4, signedCode 4 (policerTokens u n b)), (8, total u (passedCtr n) % 2 ^ 64), (8, total u (droppedCtr n) % 2 ^ 64)]
    | none => [(4, 0), (8, 0), (8, 0)])) ∧
  (∀ z k n, Answers (.schedStateGet z k n) (opSchedStateGet k n) 0x0508 z (fun u => schedReply u k n))

/-- What the queries of groups 0x06 to 0x0F answer: a port's gate entry and its next change, the time base, a captured time, a ring's
indices and state, an interrupt target's claim stack, a counter's total, side memory's channels and ranks, the groups' power states and
the mode, the debug level, and the worker list. None changes anything that it reads. Completion: in each clause about such a row, for
every state and operands that meet its conditions, exec answers a next state: gateStateGet, timeGet, tsRead, ringStateGet, irqStateGet,
countersGet, smcStateGet, powerStateGet, debugStateGet, keyList and workerList. -/
def Obligations.ServiceQueriesAnswer : Prop :=
  (∀ z p, Answers (.gateStateGet z p) (opGateStateGet p) 0x0605 z (fun u => gateReply u p)) ∧
  (∀ z, Answers (.timeGet z) opTimeGet 0x0701 z (fun u => timeFields (toTime u.tsu.time) ++
    [(8, signedCode 8 u.tsu.rateAdj), (1, timeState u), (1, u.tsu.todFlags.toNat), (2, u.tsu.utcOffset.toNat), (6, u.tsu.todSeconds), (2, 0)])) ∧
  (∀ z p n, Answers (.tsRead z p n) (opTsRead p n) 0x0707 z (fun u => timeFields (toTime ((captureOf u p n).getD 0)))) ∧
  (∀ z k n, Answers (.ringStateGet z k n) (opRingStateGet k n) 0x0805 z (fun u =>
    [(1, (ringOf u (k * 256 + n)).state), (4, (ringOf u (k * 256 + n)).p), (4, (ringOf u (k * 256 + n)).c),
     (4, (ringOf u (k * 256 + n)).latched), (2, (ringOf u (k * 256 + n)).error)])) ∧
  (∀ z n, Answers (.irqStateGet z n) (opIrqStateGet n) 0x0903 z (fun u =>
    [(1, (target u n).stack.length)] ++ ((target u n).stack.reverse.map (fun e => ((1, e.2) : Nat × Nat)) ++
    List.replicate (16 - (target u n).stack.length) (1, 0xFF)) ++ [(4, (target u n).vanish)])) ∧
  (∀ z g n, Answers (.countersGet z g n) (opCountersGet g n) 0x0A06 z (fun u =>
    (List.range (wordsOf g)).map (fun w => (8, totalWord g (total u (ctrKey g n w)))))) ∧
  (∀ z c, Answers (.smcStateGet z c) (opSmcStateGet c) 0x0B08 z (fun u => smcReply u c)) ∧
  (∀ z, Answers (.powerStateGet z) opPowerStateGet 0x0C04 z (fun u =>
    (List.range 32).map (fun g => (1, grpCode (groupState u g))) ++ [(1, modeCode u)])) ∧
  (∀ z, Answers (.debugStateGet z) opDebugStateGet 0x0D05 z (fun u =>
    [(1, levelCode u.dbg.level), (6, u.dbg.expiry), (2, (pouncerActive u).toNat)])) ∧
  (∀ z, Answers (.keyList z) opKeyList 0x0E03 z (fun u => u.hood.slots.flatMap (fun e =>
    [(2, e.1), (1, if e.2.manager then 1 else 2), (48, (keyDigest e.2).toNat)]))) ∧
  (∀ z, Answers (.workerList z) opWorkerList 0x0F04 z (fun u => (1, u.hlk.workers.length) ::
    u.hlk.workers.flatMap (fun w => [(1, w.1), (1, w.2.state), (6, w.2.seenSec)])))

/-! ## The checks of a command (02 R46, R47, R58) -/

namespace Sys2Proof.Safety

/-- CPX takes up the command now: it runs, no activation drains its queue, and the command waits there and its share may be served
(R43, R392). -/
def takes (z : Zelgen) (u : State) : Prop :=
  processing u = true ∧ u.cpx.restart = none ∧ u.cpx.activation = none ∧ (takeWaiting z.origin u).isSome = true

/-- The command is refused: with no reply to the network where authentication fails (R44), else with this status. Of the block change
only its place in the queue, its frame's end, counters and records; no replay state and no session does. -/
def refused (i : Instr) (op : Op) (z : Zelgen) (s : State) (st : Nat) : Prop :=
  ∃ t, exec i s = .next t ∧ Changes refusedParts (start z.dt s) t ∧
    t.cpx.sessions = (start z.dt s).cpx.sessions ∧ t.cpx.keySeq = (start z.dt s).cpx.keySeq ∧
    (network z.origin = true ∧ 0x0201 ≤ st ∧ st ≤ 0x0206 →
      ∀ o r, Output.reply o r ∈ t.out → Output.reply o r ∈ (start z.dt s).out) ∧
    (network z.origin = false ∨ st < 0x0201 ∨ 0x0206 < st → Replied z op.opcode st [] t)

/-- The checks of R46 ahead of TARGET, for a command with AUTH_KIND 0. -/
def openForm (op : Op) (z : Zelgen) : Prop :=
  authKind z = 0 ∧ z.version = 1 ∧ z.carrierLen = 32 + z.bodyLen ∧ z.bodyLen = roundUp (fieldLen op.body) 4 ∧ z.padZero = true ∧
    op.lenOk = true ∧ field z.flags 4 0 = 0 ∧ field z.target 7 6 = 0 ∧ z.rsv7 = 0 ∧ keyFormOk z = true ∧ op.rsvZero = true

end Sys2Proof.Safety

/-- The order of R46 for a command with a signature or a session tag that names this block: the first check that fails decides the
status, and no replay state moves. -/
def Obligations.ChecksInOrder : Prop :=
  ∀ (i : Instr) (op : Op) (z : Zelgen) (s : State) (st : Nat), commandOf i = some (op, z) → takes z (start z.dt s) →
    authKind z ≠ 0 → field z.target 5 0 = instOf (start z.dt s) → firstFailing (checksOf (seenAs op z) z (start z.dt s)) = some st →
    refused i (seenAs op z) z s st

/-- The same for a command without authentication: only STATUS_GET and ATTEST_GET are carried out, any other is NOT_AUTHORISED; and one
for another block is NO_ROUTE at a block that is not a manager (R42, R46). -/
def Obligations.UnauthenticatedCommandsAreRefused : Prop :=
  ∀ (i : Instr) (op : Op) (z : Zelgen) (s : State), commandOf i = some (op, z) → takes z (start z.dt s) → openForm op z →
    z.undefined = none →
    (field z.target 5 0 = instOf (start z.dt s) → op.opcode ≠ 0x0001 → op.opcode ≠ 0x0002 → refused i op z s 0x0203) ∧
    (field z.target 5 0 ≠ instOf (start z.dt s) → roleOf (start z.dt s) ≠ 1 → refused i op z s 0x0601)

/-- A command passes its checks where, and only where, each of R46's holds; its sequence is then consumed, and is fresh no more (R47). -/
def Obligations.AuthenticationConsumesTheSequence : Prop :=
  (∀ (op : Op) (z : Zelgen) (s : State), (takenUp op z s).isSome = true → authKind z ≠ 0 →
    field z.target 5 0 = instOf (start z.dt s) →
    ((authenticated op z s).isSome = true ↔ firstFailing (checksOf (seenAs op z) z (start z.dt s)) = none)) ∧
  (∀ (op : Op) (z : Zelgen) (s u : State) (c : ReplyCtx), authenticated op z s = some (c, u) → authKind z ≠ 0 → fresh u z = false)

/-- After authentication, the limits of the mode and the lifecycle, and then the parameters, refuse a command with their status; its
sequence stays consumed and it has no effect (R46, R58, R444). -/
def Obligations.ModeAndParametersRefuse : Prop :=
  ∀ (i : Instr) (op : Op) (z : Zelgen) (s u : State) (c : ReplyCtx) (st d : Nat), commandOf i = some (op, z) →
    authenticated op z s = some (c, u) → u.cpx.activation = none → authKind z ≠ 0 → (st < 0x0201 ∨ 0x0206 < st) → 2 < st →
    modeCheck op u = some (st, d) ∨ (modeCheck op u = none ∧ paramCheck op c u = some (st, d)) →
    ∃ t, exec i s = .next t ∧ Changes replyParts u t ∧ Replied z op.opcode st [] t

/-- Outside RUN, in ZEROIZED and FROZEN and past a freeze, a command is not processed and gets no reply (R46); while CPX restarts none is
taken (R392); and one whose transport has none waiting, or whose share of the round is spent, is not taken up (R43). -/
def Obligations.NothingIsProcessedOutsideRun : Prop :=
  ∀ (i : Instr) (op : Op) (z : Zelgen) (s : State), commandOf i = some (op, z) →
    processing (start z.dt s) = false ∨ (start z.dt s).cpx.restart.isSome = true ∨ takeWaiting z.origin (start z.dt s) = none →
    exec i s = .next (start z.dt s)

/-- EPOCH_CANCEL unseals a pending set and keeps the rest of it, its contents, count and digest; EPOCH_DISCARD empties an unsealed set
and is refused with SEALED while a commit is pending (R57). Every settings command is refused with SEALED while a commit is pending,
and with NO_RESOURCE where the set would hold more than 65,536 commands or 1 MiB of bodies; a refused one leaves the set as it is.
Completion: in each clause about such a row, for every state and operands that meet its conditions, exec answers a next state:
epochCancel and epochDiscard. -/
def Obligations.StagedSetIsUnsealedEmptiedAndBounded : Prop :=
  (∀ z, Performs (.epochCancel z) opEpochCancel 0x0021 z (fun _ => True) 0x0000 (fun _ => []) [.sealed]
    (fun u t => t.cpx.staged = { u.cpx.staged with sealed := none })) ∧
  (∀ z, Performs (.epochDiscard z) opEpochDiscard 0x0022 z (fun _ => True) 0x0000 (fun _ => []) [.staged]
    (fun _ t => t.cpx.staged = {})) ∧
  (∀ (z : Zelgen) (s u : State) (c : ReplyCtx), authenticated opEpochDiscard z s = some (c, u) → u.cpx.activation = none →
    authKind z ≠ 0 → modeCheck opEpochDiscard u = none → u.cpx.staged.sealed.isSome = true →
    ∃ t, exec (.epochDiscard z) s = .next t ∧ Changes replyParts u t ∧ Replied z 0x0022 0x0304 [] t) ∧
  (∀ (i : Instr) (op : Op) (z : Zelgen) (e : Edit) (s u : State) (c : ReplyCtx), commandOf i = some (op, z) → op.edit = some e →
    admitted op z s = some (c, u) →
    (u.cpx.staged.sealed.isSome = true → ∃ t, exec i s = .next t ∧ Changes replyParts u t ∧ Replied z op.opcode 0x0304 [] t) ∧
    (u.cpx.staged.sealed = none → 65536 ≤ u.cpx.staged.count ∨ 1048576 < u.cpx.staged.bytes + z.bodyLen →
      ∃ t, exec i s = .next t ∧ Changes replyParts u t ∧ Replied z op.opcode 0x0401 [] t))

/-! ## MACsec's secure associations, gates and pause (05, 08) -/

/-- SA_INSTALL writes an SA, INSTALLED, with EXHAUST_FLAG and the group's source where NEXT_PN starts at 75% (R122, R123, R125);
SA_ENABLE makes an SA ACTIVE, and on transmit the SC's ACTIVE one INSTALLED; SA_RETIRE empties an SA, its key with it, or leaves it
RETIRING while frames are bound (R124, R126). No other SA changes. Completion: in each clause about such a row, for every state and
operands that meet its conditions, exec answers a next state: saInstall, saEnable and saRetire. -/
def Obligations.SecureAssociationsAreManaged : Prop :=
  (∀ z b y, Performs (.saInstall z b) (opSaInstall b) 0x0204 z (fun u => scSecy u b.portGroup b.direction b.scIndex = some y)
    0x0000 (fun _ => []) [.sas, .frc, .ctr, .levels, .jic] (fun u t =>
      saOfKey t (saKey b.portGroup b.direction b.scIndex b.an) =
        { nextPn := b.nextPn, ssci := b.ssci, state := .installed, exhaust := decide (pnThreshold (suiteXpn y.cipherSuite) ≤ b.nextPn)
          key256 := decide (b.keyLen = 32), xpn := suiteXpn y.cipherSuite, sak := b.unwrapped.getD 0
          hkey := Config.ghashKey (b.unwrapped.getD 0) (b.keyLen = 32), salt := b.salt } ∧
      (pnThreshold (suiteXpn y.cipherSuite) ≤ b.nextPn → levelNow (tgetD t.jic.levels (0x810 + b.portGroup) []) = true) ∧
      ∀ j, j ≠ saKey b.portGroup b.direction b.scIndex b.an → saOfKey t j = saOfKey u j)) ∧
  (∀ z b, Performs (.saEnable z b) (opSaEnable b) 0x0205 z (fun _ => True) 0x0000 (fun _ => []) [.sas, .frc, .ctr] (fun u t =>
      saOfKey t (saNameKey b) = { saOfKey u (saNameKey b) with state := .active } ∧
      ∀ j, j ≠ saNameKey b → saOfKey t j =
        if b.direction ≠ 0 ∧ j ∈ saKeysOf b.portGroup b.direction b.scIndex ∧ (saOfKey u j).state = .active
        then { saOfKey u j with state := .installed } else saOfKey u j)) ∧
  (∀ z b, Performs (.saRetire z b) (opSaRetire b) 0x0206 z (fun _ => True) 0x0000 (fun _ => []) [.sas, .frc, .ctr] (fun u t =>
      saOfKey t (saNameKey b) =
        (if (saOfKey u (saNameKey b)).bound = 0 then {} else { saOfKey u (saNameKey b) with state := .retiring }) ∧
      ∀ j, j ≠ saNameKey b → saOfKey t j = saOfKey u j))

/-- PAUSE_SEND's frame waits for the next frame boundary (R208); a pause request sets the port's requested state, or is counted and
recorded as an input error (R206); a refresh is due after REFRESH quanta (Table 8-6); a timer whose expiry has passed is dropped
(R204); a gate cycle's start swaps a pending list in, or starts the next cycle (R195, R196); an entry change takes no frame and no
timer. Completion: in each clause about such a row, for every state and operands that meet its conditions, exec answers a next state:
pauseSend, pauseRequestWord, pauseRefresh, pauseTimerExpiry, gateCycleStart and gateEntryChange. -/
def Obligations.PauseAndGatesFollowTheirTimers : Prop :=
  (∀ z b, Performs (.pauseSend z b) (opPauseSend b) 0x0604 z (fun _ => True) 0x0000 (fun _ => []) [.ports] (fun u t =>
      (portOf t b.port).macDue = (portOf u b.port).macDue ++
        [pauseFrame (macOf u.cfg b.port) (pauseCfg u.cfg b.port).pauseMode b.quanta b.classMask b.classMask] ∧
      ∀ q, q ≠ b.port → portOf t q = portOf u q)) ∧
  (∀ dt pg w, Happens (.pauseRequestWord dt pg w) dt
    (fun s => clocked s = true ∧ groupState s pg = .powered ∧ thas s.cfg.port (pg * 16 + w.portOff) = true ∧
      (pauseCfg s.cfg (pg * 16 + w.portOff)).pauseMode ≠ 0) [.ports]
    (fun s t => (portOf t (pg * 16 + w.portOff)).xoff = w.xoff ∧ ∀ q, q ≠ pg * 16 + w.portOff → portOf t q = portOf s q)) ∧
  (∀ dt pg w, Happens (.pauseRequestWord dt pg w) dt
    (fun s => clocked s = true ∧ groupState s pg = .powered ∧ (thas s.cfg.port (pg * 16 + w.portOff) = false ∨
      (pauseCfg s.cfg (pg * 16 + w.portOff)).pauseMode = 0)) (.ctr :: .ports :: errorParts)
    (fun s t => raises 0x17 0x1704 1 s t)) ∧
  (∀ dt p, Happens (.pauseRefresh dt p) dt
    (fun s => clocked s = true ∧ (portOf s p).link = .up ∧ (pauseCfg s.cfg p).pauseMode ≠ 0 ∧ xoffState s p ≠ 0 ∧
      (portOf s p).xoffAt + quantaCcyc (portSpeed s.cfg p) (pauseCfg s.cfg p).refresh ≤ s.tsu.now) [.ports]
    (fun s t => portOf t p = { portOf s p with genDue := 2 } ∧ ∀ q, q ≠ p → portOf t q = portOf s q)) ∧
  (∀ dt p c, Happens (.pauseTimerExpiry dt p c) dt (fun _ => True) [.ports]
    (fun s t => tgetD (portOf t p).pause c [] = (tgetD (portOf s p).pause c []).filter (fun w => s.tsu.now ≤ w.2) ∧
      (∀ d, d ≠ c → tget (portOf t p).pause d = tget (portOf s p).pause d) ∧ ∀ q, q ≠ p → portOf t q = portOf s q)) ∧
  (∀ dt p g q, Happens (.gateCycleStart dt p) dt
    (fun s => clocked s = true ∧ tget s.gates p = some g ∧ g.pending = some q ∧ g.swapAt ≤ s.tsu.time ∧
      (p < 512 → groupState s (groupOf p) ≠ .gated)) [.ctr, .gates]
    (fun s t => tget t.gates p = some { g with running := some q, anchor := g.swapAt, pending := none, cycleAt := g.swapAt + q.span } ∧
      (∀ j, j ≠ p → tget t.gates j = tget s.gates j) ∧ total t (gateCyclesCtr p) = total s (gateCyclesCtr p) + 1)) ∧
  (∀ dt p g l, Happens (.gateCycleStart dt p) dt
    (fun s => clocked s = true ∧ tget s.gates p = some g ∧ g.pending = none ∧ g.running = some l ∧ g.cycleAt ≤ s.tsu.time ∧
      (p < 512 → groupState s (groupOf p) ≠ .gated)) [.ctr, .gates]
    (fun s t => tget t.gates p = some { g with cycleAt := g.cycleAt + l.span } ∧
      (∀ j, j ≠ p → tget t.gates j = tget s.gates j) ∧ total t (gateCyclesCtr p) = total s (gateCyclesCtr p) + 1)) ∧
  (∀ dt p, Happens (.gateEntryChange dt p) dt (fun _ => True) [.ctr, .ports]
    (fun s t => (portOf t p).pause = (portOf s p).pause ∧ (portOf t p).express.length = (portOf s p).express.length ∧
      (portOf t p).preempts.length = (portOf s p).preempts.length ∧ ∀ q, q ≠ p → portOf t q = portOf s q))

/-! ## Host rings (10) -/

/-- RING_START, RING_STOP and RING_RESET move a ring between its states (Table 10-11): a stop of a running ring is answered when
RING_STOP_DONE has completed every taken entry and then aborted what is posted up to P, with the number of entries that it aborted
(R250); a reset clears the ring (R251). No other ring changes. Completion: in each clause about such a row, for every state and
operands that meet its conditions, exec answers a next state: ringStart, ringStop, ringReset and ringStopDone. -/
def Obligations.RingsRunStopAndReset : Prop :=
  (∀ z t n, Performs (.ringStart z t n) (opRingStart t n) 0x0802 z (fun _ => True) 0x0000 (fun _ => []) [.hpe] (fun u x =>
    ringOf x (ringKey t n) = { ringOf u (ringKey t n) with state := 2 } ∧ ∀ j, j ≠ ringKey t n → ringOf x j = ringOf u j)) ∧
  (∀ z t n, Performs (.ringStop z t n) (opRingStop t n) 0x0803 z (fun u => (ringOf u (ringKey t n)).state = 1)
    0x0000 (fun _ => [(4, 0)]) [] (fun u x => x.hpe.rings = u.hpe.rings)) ∧
  (∀ z t n, Defers (.ringStop z t n) (opRingStop t n) z (fun u => (ringOf u (ringKey t n)).state = 2)
    [.hpe, .replies, .ctr, .samples, .levels, .jic, .frc] (fun c u x =>
    ringOf x (ringKey t n) = { ringOf u (ringKey t n) with state := 3, stop := some c, aborts := 0 } ∧
      ∀ j, j ≠ ringKey t n → ringOf x j = ringOf u j)) ∧
  (∀ z t n, Performs (.ringReset z t n) (opRingReset t n) 0x0804 z (fun _ => True) 0x0000 (fun _ => []) [.hpe, .hostQueue] (fun u x =>
    ringOf x (ringKey t n) = { state := 1 } ∧ x.hpe.staged = u.hpe.staged.filter (fun f => f.ring ≠ ringKey t n) ∧ ∀ j, j ≠ ringKey t n → ringOf x j = ringOf u j)) ∧
  (∀ dt t n c, Happens (.ringStopDone dt t n) dt
    (fun s => processing s = true ∧ t ≠ 2 ∧ (ringOf s (ringKey t n)).state = 3 ∧ (ringOf s (ringKey t n)).taken = [] ∧
      (ringOf s (ringKey t n)).sop = false ∧ (ringOf s (ringKey t n)).stop = some c ∧ c.onError = false)
    [.quarantine, .sessions, .sealed, .err, .levels, .jic, .ctr, .samples, .mem, .frc, .hostQueue, .replies, .hpe, .pounce, .dbg, .hlk,
      .out, .draws]
    (fun s x => (ringOf x (ringKey t n)).state = 1 ∧ (ringOf x (ringKey t n)).taken = [] ∧ (ringOf x (ringKey t n)).stop = none ∧
      ∃ y : Reply, Output.reply c.origin y ∈ x.out ∧ y.status = 0x0000 ∧
        y.body = [(4, (ringOf s (ringKey t n)).aborts + ringFree s (ringKey t n))]))

namespace Sys2Proof.Safety

/-- The ring takes its next entry now: it is RUNNING with entries posted and none taken, and no perturbation holds it (R238). -/
def takesEntry (k : Nat) (s : State) : Prop :=
  ringReady s k = true ∧ (ringOf s k).stallTo = 0 ∧ s.dbg.pounce = [] ∧ (ringOf s k).taken = []

/-- What entries may change. -/
def entryParts : List Part :=
  [.quarantine, .sessions, .checks, .sealed, .err, .levels, .jic, .ctr, .samples, .mem, .frc, .hostQueue, .replies, .hpe, .pounce, .dbg,
   .hlk, .out, .draws]

/-- The entry at the head is complete: C is one place on (R241, R247). -/
def advances (k : Nat) (s t : State) : Prop :=
  (ringOf t k).c = idxAdd (ringLog s k) (ringOf s k).c 1 ∧ (ringOf t k).taken = [] ∧ ∀ j, j ≠ k → ringOf t j = ringOf s j

/-- The ring is in ERROR with this cause (R242 to R246). -/
def inError (k code : Nat) (t : State) : Prop := (ringOf t k).state = 4 ∧ (ringOf t k).error = code

end Sys2Proof.Safety

/-- A posted command is read and queued, with a place among the replies, or answered OVERLOAD where the queue is full (R43, R260); one
that cannot be read is completed and not carried out (R262); the oldest reply is written (R260); a frame's descriptor gives TXM a frame
that is ready (R252); a malformed entry stops its ring in ERROR (R246); a received frame takes the descriptors that cover it, in order
and before any malformed one, or is dropped when its hold time ends (R255). Completion: in each clause about such a row, for every
state and operands that meet its conditions, exec answers a next state: cmdRingFetch, replyRingWrite, ringEntryProcess, rxRingAllot and
rxRingHoldExpiry. -/
def Obligations.EntriesAreTakenInOrder : Prop :=
  (∀ dt n d cmd, Happens (.cmdRingFetch dt n d true cmd) dt
    (fun s => takesEntry (ringKey 2 n) s ∧ (∀ i r l, repliesOf s n ≠ (i, some r) :: l) ∧ s.cpx.restart = none ∧
      badCommand (ringBatched s (ringKey 2 n)) d = false ∧ queueFull s = false) entryParts
    (fun s t => t.cpx.queue = s.cpx.queue ++ [{ origin := .ring n, length := d.bufLen, slot := some s.hpe.nextId }] ∧
      repliesOf t n = repliesOf s n ++ [(s.hpe.nextId, none)] ∧ advances (ringKey 2 n) s t)) ∧
  (∀ dt n d cmd, Happens (.cmdRingFetch dt n d true cmd) dt
    (fun s => takesEntry (ringKey 2 n) s ∧ (∀ i r l, repliesOf s n ≠ (i, some r) :: l) ∧ s.cpx.restart = none ∧
      badCommand (ringBatched s (ringKey 2 n)) d = false ∧ queueFull s = true) entryParts
    (fun s t => t.cpx.queue = s.cpx.queue ∧ advances (ringKey 2 n) s t ∧
      ∃ y : Reply, Output.reply (.ring n) y ∈ t.out ∧ y.status = stOverload ∧ y.opcode = numAt cmd 2 2 ∧ y.sequence = numAt cmd 8 8)) ∧
  (∀ dt n d cmd, Happens (.cmdRingFetch dt n d false cmd) dt
    (fun s => takesEntry (ringKey 2 n) s ∧ (∀ i r l, repliesOf s n ≠ (i, some r) :: l) ∧ s.cpx.restart = none ∧
      badCommand (ringBatched s (ringKey 2 n)) d = false) entryParts
    (fun s t => t.cpx.queue = s.cpx.queue ∧ t.hpe.replies = s.hpe.replies ∧ advances (ringKey 2 n) s t)) ∧
  (∀ dt n d cmd, Happens (.cmdRingFetch dt n d true cmd) dt
    (fun s => takesEntry (ringKey 2 n) s ∧ (∀ i r l, repliesOf s n ≠ (i, some r) :: l) ∧ s.cpx.restart = none ∧
      badCommand (ringBatched s (ringKey 2 n)) d = true) entryParts
    (fun s t => t.cpx.queue = s.cpx.queue ∧ inError (ringKey 2 n) 5 t)) ∧
  (∀ dt n d i r l, Happens (.replyRingWrite dt n d true) dt
    (fun s => takesEntry (ringKey 3 n) s ∧ repliesOf s n = (i, some r) :: l ∧ badReceive false d = false ∧
      replyLen r ≤ d.bufLen) entryParts
    (fun s t => repliesOf t n = l ∧ advances (ringKey 3 n) s t ∧
      Output.hostWrite (ringAccess s (ringKey 3 n)) d.bufAddr ((replyBytes r).take d.bufLen) ∈ t.out)) ∧
  (∀ dt n d b data, Happens (.ringEntryProcess dt 1 n d true data) dt
    (fun s => takesEntry (ringKey 1 n) s ∧ (ringOf s (ringKey 1 n)).sop = false ∧
      badTransmit (ringBatched s (ringKey 1 n)) 0 0 d = false ∧ dEop d = true ∧ bindingOf s.cfg n = some b) entryParts
    (fun s t => ∃ f : HostFrame, f.id = s.hpe.nextId ∧ f.len = d.bufLen ∧ f.enq = s.tsu.now ∧ f.desc = some d ∧
      f.bytes = padTo d.bufLen (data.take d.bufLen) ∧
      hostQueue t b.source b.port = hostQueue s b.source b.port ++ [f])) ∧
  (∀ dt n d data, Happens (.ringEntryProcess dt 2 n d true data) dt
    (fun s => takesEntry (ringKey 2 n) s ∧ badCommand (ringBatched s (ringKey 2 n)) d = true) entryParts
    (fun s t => inError (ringKey 2 n) 5 t)) ∧
  (∀ dt k n d data, Happens (.ringEntryProcess dt k n d true data) dt
    (fun s => (k = 0 ∨ k = 3) ∧ takesEntry (ringKey k n) s ∧ badReceive false d = true) entryParts
    (fun s t => inError (ringKey k n) 5 t)) ∧
  (∀ dt n ds f use, Happens (.rxRingAllot dt n ds) dt
    (fun s => takesEntry n s ∧ headFrame s n = some f ∧ f.ready ≤ s.tsu.now ∧
      coverOf f.info.bytes.length (((ds.take (ringFree s n)).take 64).takeWhile (fun d => !badReceive false d)) = some use) entryParts
    (fun s t => t.hpe.staged = s.hpe.staged.filter (fun g => g.id ≠ f.id) ∧ (ringOf t n).taken.map (fun e => e.desc) = use ∧
      ∀ j, j ≠ n → ringOf t j = ringOf s j)) ∧
  (∀ dt n d ds f, Happens (.rxRingAllot dt n (d :: ds)) dt
    (fun s => takesEntry n s ∧ headFrame s n = some f ∧ f.ready ≤ s.tsu.now ∧ badReceive false d = true) entryParts
    (fun _ t => inError n 5 t)) ∧
  (∀ dt n id f, Happens (.rxRingHoldExpiry dt n id) dt
    (fun s => s.hpe.staged.find? (fun g => g.ring = n && g.id = id) = some f ∧ clocked s = true ∧ f.ready + holdCcyc s n ≤ s.tsu.now)
    [.levels, .jic, .ctr, .samples, .frc, .hpe]
    (fun s t => t.hpe.staged = s.hpe.staged.filter (fun g => g.id ≠ f.id) ∧ t.hpe.rings = s.hpe.rings))

/-! ## Telemetry (12) -/

/-- A counter window shows its word, the total as its ccyc found it, against its own last read, and moves that baseline (R10, R289,
R292); a read of the wrong form is answered with error and counted. A due batt begins with the section of PG0 in its trigger's ccyc, or
is counted as missed while one is written (R294, R295); each further section is read in its own ccyc and the body is written after the
last (R295, R297, R298); its header is written when its body has been answered (R298). A due queue sweep reads 64 of its leaves in each
ccyc (R188, R302). Completion: in each clause about such a row, for every state and operands that meet its conditions, exec answers a
next state: counterWindowRead, battTrigger, battWriteDone and queueSweep. -/
def Obligations.TelemetryIsRead : Prop :=
  (∀ dt id w off b, Happens (.counterWindowRead dt id w off 8) dt
    (fun s => clocked s = true ∧ w < 256 ∧ tget s.cfg.window w = some b ∧ b.accessId = id ∧ accFrozen s id = false ∧
      s.mode.stage ≠ .boot ∧ s.mode.zeroized = false ∧ off % 8 = 0 ∧ off < 65536 ∧ contentCode b.content ≠ 2 ∧
      contentFirst b.content + off / strideOf (contentCode b.content) < indexCount (contentCode b.content)) [.tel, .out]
    (fun s t =>
      let k := ctrKey (contentCode b.content) (contentFirst b.content + off / strideOf (contentCode b.content))
        (off % strideOf (contentCode b.content) / 8)
      Output.sypAnswer false (readerWord (contentCode b.content) (tgetD s.tel.ctrWas k 0) (tgetD s.tel.winBase (winKey w k) 0)) ∈ t.out ∧
      tgetD t.tel.winBase (winKey w k) 0 = tgetD s.tel.ctrWas k 0 ∧ ∀ j, j ≠ winKey w k → tget t.tel.winBase j = tget s.tel.winBase j)) ∧
  (∀ dt id w off width b, Happens (.counterWindowRead dt id w off width) dt
    (fun s => clocked s = true ∧ w < 256 ∧ tget s.cfg.window w = some b ∧ b.accessId = id ∧ accFrozen s id = false ∧
      s.mode.stage ≠ .boot ∧ s.mode.zeroized = false ∧ (width ≠ 8 ∨ off % 8 ≠ 0 ∨ 65536 ≤ off)) [.ctr, .out]
    (fun s t => Output.sypAnswer true 0 ∈ t.out ∧ total t windowBadReadsCtr = total s windowBadReadsCtr + 1)) ∧
  (∀ dt b, Happens (.battTrigger dt) dt
    (fun s => s.cfg.batt = some b ∧ clocked s = true ∧ b.contentMask ≠ 0 ∧ s.tel.battNext ≤ s.tsu.tick ∧ s.tel.battBusy = none ∧
      accFrozen s b.accessId = false ∧ commitNear s = false) [.samples, .tel, .out]
    (fun s t => (∃ r, t.tel.battBusy = some r ∧ r.t0 = s.tsu.now ∧ r.accessId = b.accessId ∧ r.mask = b.contentMask ∧
        r.addr = b.destAddr + s.tel.battSlot % max 1 (battSlots b) * battSlotLen b.contentMask ∧
        r.next = 1 ∧ r.body = battSection s b.contentMask (some 0) ∧ r.totals = sectionTotals s b.contentMask (some 0)) ∧
      t.tel.battNext = (s.tsu.tick / max 1 (b.period * 100) + 1) * max 1 (b.period * 100) ∧
      (bit b.contentMask 16 = false → t.tel.samples = s.tel.samples) ∧ (bit b.contentMask 16 = true → t.tel.samples = []))) ∧
  (∀ dt b r, Happens (.battTrigger dt) dt
    (fun s => s.cfg.batt = some b ∧ clocked s = true ∧ b.contentMask ≠ 0 ∧ s.tel.battNext ≤ s.tsu.tick ∧ s.tel.battBusy = some r) [.tel]
    (fun s t => t.tel.battMissed = s.tel.battMissed + 1 ∧ t.tel.battBusy = some r)) ∧
  (∀ dt r, Happens (.battWriteDone dt) dt (fun s => s.tel.battBusy = some r ∧ clocked s = true ∧ 32 < r.next ∧
      r.t0 + battLen r.mask / 10 ≤ s.tsu.now) [.levels, .jic, .tel, .out]
    (fun s t => t.tel.battBusy = none ∧ t.tel.battSeq = (s.tel.battSeq + 1) % 2 ^ 32 ∧ t.tel.battT0 = some r.t0 ∧
      Output.hostWrite r.accessId r.addr (battHeader r) ∈ t.out)) ∧
  (∀ s r, s.tel.battBusy = some r → r.next ≤ 32 → sectionAt r.t0 r.next ≤ s.tsu.now →
    ∃ x, (battRead s).tel.battBusy = some x ∧ x.next = r.next + 1 ∧
      x.body = r.body ++ battSection s r.mask (if r.next < 32 then some r.next else none) ∧
      (r.next = 32 → Output.hostWrite r.accessId (r.addr + 128) (x.body ++ r.tail) ∈ (battRead s).out)) ∧
  (∀ dt b, Happens (.queueSweep dt) dt
    (fun s => s.cfg.qsample = some b ∧ clocked s = true ∧ s.tel.sweepNext ≤ s.tsu.tick) [.sweep, .tel, .frc]
    (fun s t => t.tel.sweepNext = (s.tsu.tick / max 1 (b.period * 100) + 1) * max 1 (b.period * 100) ∧
      (b.count ≤ 64 → t.tel.sweepRun = none ∧ t.tel.sweepSeq = s.tel.sweepSeq + 1 ∧
        ∃ h, h.length = 32 ∧ t.tel.sweep = h ++ (List.range b.count).flatMap (fun i => sweepEntry s (b.queueMaskBase + i))) ∧
      (64 < b.count → t.tel.sweep = s.tel.sweep ∧ ∃ r, t.tel.sweepRun = some r ∧ r.epoch = s.cpx.epoch ∧ r.base = b.queueMaskBase ∧
        r.count = b.count ∧ r.next = 64 ∧ r.taken = (List.range 64).flatMap (fun i => sweepEntry s (b.queueMaskBase + i))))) ∧
  (∀ s r, s.tel.sweepRun = some r → 64 < r.count - r.next → ∃ x, (sweepRead s).tel.sweepRun = some x ∧ x.next = r.next + 64 ∧
    x.taken = r.taken ++ (List.range 64).flatMap (fun i => sweepEntry s (r.base + r.next + i)) ∧
    (x.changed = if r.changed = none ∧ s.cpx.epoch ≠ r.epoch then some r.next else r.changed))

/-! ## Side memory (13) -/

/-- Side memory's zero-fill and PHY initialisation (R306), refresh, postponed while the recorder is urgent and forced at nine intervals
(R316, R317), the temperature code, self-refresh, retraining windows, PHY updates (R322), and the end of a hammer's throttle (R320).
Completion: in each clause about such a row, for every state and operands that meet its conditions, exec answers a next state:
smcZeroFillDone, dfiInitTimeout, refreshDue, mr4Poll, selfRefreshEntry, retrainWindow, phyUpdateRequest and hammerThrottleExpiry. -/
def Obligations.SideMemoryIsMaintained : Prop :=
  (∀ dt, Happens (.smcZeroFillDone dt) dt (fun s => clocked s = true ∧ s.smc.present = true ∧ s.smc.filled = false) [.smc]
    (fun s t => t.smc.filled = true ∧ t.smc.mem = s.smc.mem ∧ t.smc.ranks = s.smc.ranks)) ∧
  (∀ dt c, Happens (.dfiInitTimeout dt c) dt
    (fun s => clocked s = true ∧ s.smc.present = true ∧ s.smc.filled = false ∧ (chanOf s c).state = .init ∧ ms 10 ≤ s.tsu.now) [.smc]
    (fun _ t => t.smc.present = false ∧ t.smc.table = [])) ∧
  (∀ dt c k, Happens (.refreshDue dt c k) dt
    (fun s => clocked s = true ∧ smcUp s = true ∧ (rankOf s (c * 2 + k)).state ≠ .absent ∧ (rankOf s (c * 2 + k)).selfRefresh = false) [.smc, .out]
    (fun s t => (∀ j, j ≠ c * 2 + k → rankOf t j = rankOf s j) ∧
      (frcUrgent s = false → (rankOf t (c * 2 + k)).owed = (rankOf s (c * 2 + k)).owed - 1 ∧ Output.dfi c k .refresh ∈ t.out) ∧
      (frcUrgent s = true → 0 < (rankOf s (c * 2 + k)).ahead → (rankOf t (c * 2 + k)).ahead = (rankOf s (c * 2 + k)).ahead - 1 ∧
        (rankOf t (c * 2 + k)).owed = (rankOf s (c * 2 + k)).owed) ∧
      (frcUrgent s = true → (rankOf s (c * 2 + k)).ahead = 0 → (rankOf s (c * 2 + k)).owed + 1 < 9 →
        (rankOf t (c * 2 + k)).owed = (rankOf s (c * 2 + k)).owed + 1) ∧
      (frcUrgent s = true → (rankOf s (c * 2 + k)).ahead = 0 → 9 ≤ (rankOf s (c * 2 + k)).owed + 1 →
        (rankOf t (c * 2 + k)).owed = 0 ∧ (chanOf t c).refForced = (chanOf s c).refForced + 1 ∧ Output.dfi c k .refresh ∈ t.out))) ∧
  (∀ dt c k m, Happens (.mr4Poll dt c k m) dt (fun s => clocked s = true) [.smc]
    (fun s t => chanOf t c = { chanOf s c with mr4 := m % 256 } ∧ ∀ j, j ≠ c → chanOf t j = chanOf s j)) ∧
  (∀ dt c k, Happens (.selfRefreshEntry dt c k) dt
    (fun s => clocked s = true ∧ smcUp s = true ∧ (rankOf s (c * 2 + k)).owed = 0 ∧ (rankOf s (c * 2 + k)).lastUse + us 10 ≤ s.tsu.now) [.smc, .out]
    (fun s t => rankOf t (c * 2 + k) = { rankOf s (c * 2 + k) with selfRefresh := true } ∧ Output.dfi c k (.selfRefresh true) ∈ t.out ∧ ∀ j, j ≠ c * 2 + k → rankOf t j = rankOf s j)) ∧
  (∀ dt c, Happens (.retrainWindow dt c) dt
    (fun s => clocked s = true ∧ smcUp s = true ∧ (chanOf s c).windowAt + ms 100 ≤ s.tsu.now ∧ (rankOf s (c * 2)).owed < 4 ∧
      (rankOf s (c * 2 + 1)).owed < 4) [.smc]
    (fun s t => chanOf t c = { chanOf s c with windowAt := s.tsu.now } ∧ ∀ j, j ≠ c → chanOf t j = chanOf s j)) ∧
  (∀ dt c n w, Happens (.phyUpdateRequest dt c n w) dt (fun s => clocked s = true ∧ s.smc.present = true ∧ (n ≤ 2000 ∨ modeCode s = 8)) [.smc]
    (fun s t => chanOf t c = { chanOf s c with phyLate := false } ∧ ∀ j, j ≠ c → chanOf t j = chanOf s j)) ∧
  (∀ dt c n w, Happens (.phyUpdateRequest dt c n w) dt
    (fun s => clocked s = true ∧ s.smc.present = true ∧ 2000 < n ∧ modeCode s ≠ 8 ∧ w < 100000000) [.smc]
    (fun s t => chanOf t c = { chanOf s c with phyLate := true } ∧ ∀ j, j ≠ c → chanOf t j = chanOf s j)) ∧
  (∀ dt c n w, Happens (.phyUpdateRequest dt c n w) dt
    (fun s => clocked s = true ∧ s.smc.present = true ∧ 2000 < n ∧ modeCode s ≠ 8 ∧ 100000000 ≤ w)
    [.quarantine, .sessions, .sealed, .err, .smc, .frc, .pounce, .dbg]
    (fun s t => raises 0x0E 0x0E01 1 s t)) ∧
  (∀ dt c k b q e, Happens (.hammerThrottleExpiry dt c k b q) dt
    (fun s => tget s.smc.throttle (q * 65536 + (c * 2 + k) * 256 + b) = some e ∧ e ≤ s.tsu.now) [.smc]
    (fun s t => tget t.smc.throttle (q * 65536 + (c * 2 + k) * 256 + b) = none ∧
      ∀ j, j ≠ q * 65536 + (c * 2 + k) * 256 + b → tget t.smc.throttle j = tget s.smc.throttle j))

/-- RANK_MIGRATE begins the copy of a rank to the spare (R325); when it is complete the spare takes the rank's place in the table and
the rank is retired, and each granule that read uncorrectable is counted and written with the poison pattern (R310, R325); a channel is
trained again and serves, or is out of service until the next BOOT (R323); a scrub reads its row, activated unless it is open, and
counts and corrects, or counts and records an uncorrectable word (R310 to R313, R319). Completion: in each clause about such a row, for
every state and operands that meet its conditions, exec answers a next state: rankMigrate, rankMigrationComplete, channelFullRetrain,
channelRetrainDone and scrubRead. -/
def Obligations.RanksMigrateAndChannelsTrain : Prop :=
  (∀ z c k sp, Performs (.rankMigrate z c k) (opRankMigrate c k) 0x0B02 z (fun u => spareLeft u = some sp ∧ sp ≠ c * 2 + k)
    0x0002 (fun _ => []) [.smc] (fun u t =>
      t.smc.migration = some { logical := u.smc.table.findIdx (fun x => x = c * 2 + k), src := c * 2 + k, dst := sp } ∧
      (rankOf t sp).state = .migratingTo ∧ (rankOf t (c * 2 + k)).state = .migratingFrom ∧ t.smc.table = u.smc.table ∧
      ∀ j, j ≠ sp → j ≠ c * 2 + k → rankOf t j = rankOf u j)) ∧
  (∀ dt m, Happens (.rankMigrationComplete dt []) dt (fun s => s.smc.migration = some m ∧ clocked s = true) [.levels, .jic, .smc]
    (fun s t => t.smc.poison = s.smc.poison)) ∧
  (∀ dt bad m, Happens (.rankMigrationComplete dt bad) dt (fun s => s.smc.migration = some m ∧ clocked s = true ∧ m.src ≠ m.dst)
    [.quarantine, .sessions, .sealed, .err, .levels, .jic, .smc, .frc, .pounce, .dbg]
    (fun s t => t.smc.migration = none ∧ t.smc.table = s.smc.table.set m.logical m.dst ∧ (rankOf t m.dst).state = .inService ∧
      (rankOf t m.src).state = .retired ∧ (∀ j, j ≠ m.src → j ≠ m.dst → rankOf t j = rankOf s j) ∧
      (rankOf t m.src).ue = (rankOf s m.src).ue + (bad.filter (fun o => decide (o < rankGranules s))).length ∧
      ∀ o ∈ bad, o < rankGranules s → o * max 1 s.smc.table.length + m.logical ∈ t.smc.poison)) ∧
  (∀ dt c, Happens (.channelFullRetrain dt c) dt
    (fun s => clocked s = true ∧ s.smc.filled = true ∧ ((chanOf s c).state = .inService ∨ (chanOf s c).state = .migrating))
    [.levels, .jic, .ctr, .smc, .xdma, .hostQueue, .replies, .hlk, .out]
    (fun s t => chanOf t c = { chanOf s c with state := .training } ∧ ∀ j, j ≠ c → chanOf t j = chanOf s j)) ∧
  (∀ dt c, Happens (.channelRetrainDone dt c true) dt
    (fun s => clocked s = true ∧ (chanOf s c).state = .training ∧ migratingHere s c = false ∧ s.smc.retrain = []) [.smc]
    (fun s t => chanOf t c = { chanOf s c with state := .inService, phyLate := false } ∧ ∀ j, j ≠ c → chanOf t j = chanOf s j)) ∧
  (∀ dt c, Happens (.channelRetrainDone dt c false) dt
    (fun s => clocked s = true ∧ (chanOf s c).state = .training ∧ s.smc.retrain = []) [.smc]
    (fun s t => chanOf t c = { chanOf s c with state := .outOfService, failed := true } ∧ ∀ j, j ≠ c → chanOf t j = chanOf s j)) ∧
  (∀ dt a r b w o, Happens (.scrubRead dt a .corrected) dt
    (fun s => clocked s = true ∧ smcUp s = true ∧ a < capacity s ∧ s.dbg.pounce = [] ∧ locate s a = (r, b, w) ∧ a / 512 ∉ s.smc.poison ∧
      tget (rankOf s r).rows b = some (w, o) ∧ s.tsu.now < o.2 ∧ (rankOf s r).ceTimes.2 < 10000) [.smc, .out]
    (fun s t => (rankOf t r).ce = (rankOf s r).ce + 1 ∧ ∀ j, j ≠ r → rankOf t j = rankOf s j)) ∧
  (∀ dt a r b w o e, Happens (.scrubRead dt a e) dt
    (fun s => clocked s = true ∧ smcUp s = true ∧ a < capacity s ∧ s.dbg.pounce = [] ∧ locate s a = (r, b, w) ∧
      (a / 512 ∈ s.smc.poison ∨ e = .uncorrectable) ∧
      tget (rankOf s r).rows b = some (w, o) ∧ s.tsu.now < o.2 ∧ (rankOf s r).ueRows = [])
    [.quarantine, .sessions, .sealed, .err, .levels, .jic, .ctr, .smc, .frc, .xdma, .hostQueue, .replies, .pounce, .dbg, .hlk, .out, .draws]
    (fun s t => raises 0x0E 0x0E02 2 s t ∧ (rankOf t r).ue = (rankOf s r).ue + 1)) ∧
  (∀ dt a r b w o, Happens (.scrubRead dt a .clean) dt
    (fun s => clocked s = true ∧ smcUp s = true ∧ a < capacity s ∧ s.dbg.pounce = [] ∧ locate s a = (r, b, w) ∧ a / 512 ∉ s.smc.poison ∧
      tget (rankOf s r).rows b = some (w, o) ∧ s.tsu.now < o.2) [.smc, .out]
    (fun s t => rankOf t r = { rankOf s r with selfRefresh := false, lastUse := s.tsu.now, used := true, rows := (rankOf t r).rows } ∧
      (∀ j, j ≠ r → rankOf t j = rankOf s j) ∧ Output.dfi (r / 2) (r % 2) (.read a) ∈ t.out)) ∧
  (∀ dt a r b w, Happens (.scrubRead dt a .clean) dt
    (fun s => clocked s = true ∧ smcUp s = true ∧ a < capacity s ∧ s.dbg.pounce = [] ∧ locate s a = (r, b, w) ∧ a / 512 ∉ s.smc.poison ∧
      (tget (rankOf s r).rows b).all (fun o => decide (o.1 ≠ w ∨ o.2.2 ≤ s.tsu.now)) = true ∧
      tgetD (rankOf s r).hits b 0 ≠ 3)
    [.quarantine, .sessions, .sealed, .err, .levels, .jic, .ctr, .smc, .frc, .xdma, .hostQueue, .replies, .pounce, .dbg, .hlk, .out, .draws]
    (fun s t => Output.dfi (r / 2) (r % 2) (.activate b w) ∈ t.out ∧
      (tgetD (rankOf s r).raa b 0 + 1 < max 1 Config.raaImt → tgetD (rankOf t r).raa b 0 = tgetD (rankOf s r).raa b 0 + 1) ∧
      (max 1 Config.raaImt ≤ tgetD (rankOf s r).raa b 0 + 1 →
        tgetD (rankOf t r).raa b 0 = tgetD (rankOf s r).raa b 0 + 1 - max 1 Config.raaImt ∧
        tgetD (rankOf t r).hits b 0 = tgetD (rankOf s r).hits b 0 + 1) ∧
      tgetD (rankOf t r).acts (b * 4 + 3) 0 = tgetD (rankOf s r).acts (b * 4 + 3) 0 + 1 ∧ ∀ j, j ≠ r → rankOf t j = rankOf s j))

/-! ## The flight recorder and the export DMA (14) -/

/-- FRC_CONTROL starts, clears or stops a region (R338); a partly filled granule goes out after 50 µs (R340); a granule that is written
stands in side memory, unpoisoned, and moves WRITE_PTR, WRAPS and the state as R339 says, and one that fails puts the region in ERROR;
a stop is answered when every granule is (R338). Completion: in each clause about such a row, for every state and operands that meet
its conditions, exec answers a next state: frcControl, frcGranuleFlush, frcGranuleWriteDone and frcRegionStopDone. -/
def Obligations.RegionsRecordAndStop : Prop :=
  (∀ z n, Performs (.frcControl z n 1) (opFrcControl n 1) 0x0B04 z (fun _ => True) 0x0000 (fun _ => []) [.frc] (fun u t =>
    (regionOf t n).state = .recording ∧ ∀ j, j ≠ n → (regionOf t j).state = (regionOf u j).state)) ∧
  (∀ z n, Performs (.frcControl z n 2) (opFrcControl n 2) 0x0B04 z (fun _ => True) 0x0000 (fun _ => []) [.frc] (fun u t =>
    (regionOf t n).writePtr = 0 ∧ (regionOf t n).wraps = 0 ∧ (regionOf t n).state = (regionOf u n).state ∧
    ∀ j, j ≠ n → (regionOf t j).writePtr = (regionOf u j).writePtr ∧ (regionOf t j).wraps = (regionOf u j).wraps)) ∧
  (∀ z n, Defers (.frcControl z n 0) (opFrcControl n 0) z (fun _ => True) [.frc] (fun c u t =>
    (regionOf t n).stopping = some c ∧ (regionOf t n).state = (regionOf u n).state ∧
    ∀ j, j ≠ n → (regionOf t j).stopping = (regionOf u j).stopping)) ∧
  (∀ dt n, Happens (.frcGranuleFlush dt n) dt
    (fun s => clocked s = true ∧ (regionOf s n).state = .recording ∧ (regionOf s n).granule ≠ [] ∧ (regionOf s n).granuleAt + us 50 ≤ s.tsu.now)
    [.frc]
    (fun s t => regionOf t n = { regionOf s n with
        granule := [], inFlight := (regionOf s n).inFlight ++ [(s.tsu.now, padTo 512 (regionOf s n).granule)] } ∧
      ∀ j, j ≠ n → regionOf t j = regionOf s j)) ∧
  (∀ dt n b e l, Happens (.frcGranuleWriteDone dt n true) dt
    (fun s => clocked s = true ∧ smcUp s = true ∧ (regionOf s n).state = .recording ∧ tget s.cfg.frc n = some b ∧
      (regionOf s n).inFlight = e :: l)
    [.quarantine, .sessions, .sealed, .err, .levels, .jic, .mem, .smc, .frc, .pounce, .dbg, .out]
    (fun s t =>
      t.smc.mem = memWrites s.smc.mem (b.base + (regionOf s n).writePtr) e.2 ∧ (b.base + (regionOf s n).writePtr) / 512 ∉ t.smc.poison ∧
      ((regionOf s n).writePtr + 512 < b.size → (regionOf t n).writePtr = (regionOf s n).writePtr + 512 ∧
        (regionOf t n).wraps = (regionOf s n).wraps ∧ (regionOf t n).state = .recording) ∧
      (b.size ≤ (regionOf s n).writePtr + 512 → b.regionMode = 0 → (regionOf t n).writePtr = 0 ∧
        (regionOf t n).wraps = (regionOf s n).wraps + 1 ∧ (regionOf t n).state = .recording) ∧
      (b.size ≤ (regionOf s n).writePtr + 512 → b.regionMode ≠ 0 → (regionOf t n).writePtr = b.size ∧ (regionOf t n).state = .full))) ∧
  (∀ dt n b e l, Happens (.frcGranuleWriteDone dt n false) dt
    (fun s => clocked s = true ∧ (regionOf s n).state = .recording ∧ tget s.cfg.frc n = some b ∧ (regionOf s n).inFlight = e :: l)
    [.quarantine, .sessions, .sealed, .err, .levels, .jic, .frc, .pounce, .dbg]
    (fun s t => raises 0x0F 0x0F03 2 s t ∧ (regionOf t n).state = .error)) ∧
  (∀ dt n c, Happens (.frcRegionStopDone dt n) dt
    (fun s => clocked s = true ∧ (regionOf s n).stopping = some c ∧ (regionOf s n).inFlight = [] ∧ c.onError = false)
    [.ctr, .frc, .hostQueue, .replies, .hlk, .out]
    (fun _ t => (regionOf t n).state = .stopped ∧ (regionOf t n).stopping = none ∧
      ∃ y : Reply, Output.reply c.origin y ∈ t.out ∧ y.status = 0x0000 ∧ y.body = []))

/-- XDMA_START runs a channel from CUR_PTR, or from DESC_ADDR (R347); XDMA_STOP answers CUR_PTR, or LATCHED in ERROR, and waits for the
descriptors in progress (R353); a descriptor is taken in order, and a failed read or a malformed one puts the channel in ERROR (R349);
a completed copy is written back with DONE and counted, one with a failed write with BAD_BUS and the offset (R350, R351). A channel's
write carries side memory's bytes and takes its length from the channel's bucket, which each ccyc refills at BUS_SHARE quarter bytes
(R352). No other channel changes. Completion: in each clause about such a row, for every state and operands that meet its conditions,
exec answers a next state: xdmaStart, xdmaStop, xdmaDescFetch and xdmaDescComplete. -/
def Obligations.ExportChannelsRunTheirChains : Prop :=
  (∀ z c, Performs (.xdmaStart z c) (opXdmaStart c) 0x0B06 z (fun _ => True) 0x0002 (fun _ => []) [.xdma] (fun u t =>
    xchan t c = { xchan u c with
      state := .running, cause := 0, cur := if (xchan u c).cur = 0 then (xdmaCfg u c).descAddr else (xchan u c).cur } ∧
    ∀ j, j ≠ c → xchan t j = xchan u j)) ∧
  (∀ z c, Performs (.xdmaStop z c) (opXdmaStop c) 0x0B07 z (fun u => (xchan u c).state = .idle)
    0x0000 (fun u => [(8, (xchan u c).cur)]) [] (fun u t => t.xdma = u.xdma)) ∧
  (∀ z c, Performs (.xdmaStop z c) (opXdmaStop c) 0x0B07 z (fun u => (xchan u c).state = .error)
    0x0000 (fun u => [(8, (xchan u c).latched)]) [.xdma, .levels, .jic] (fun u t =>
    xchan t c = { xchan u c with state := .idle, cur := (xchan u c).latched } ∧ ∀ j, j ≠ c → xchan t j = xchan u j)) ∧
  (∀ z c, Defers (.xdmaStop z c) (opXdmaStop c) z (fun u => (xchan u c).state = .running ∧ (xchan u c).begun ≠ []) [.xdma] (fun r u t =>
    xchan t c = { xchan u c with state := .stopping, stop := some r } ∧ ∀ j, j ≠ c → xchan t j = xchan u j)) ∧
  (∀ dt c d, Happens (.xdmaDescFetch dt c d true) dt
    (fun s => clocked s = true ∧ halting s = false ∧ (xchan s c).state = .running ∧ (xchan s c).cur ≠ 0 ∧ (xchan s c).begun = [] ∧ xMalformed d = false ∧
      xBadRange s d = false) [.levels, .jic, .ctr, .xdma, .hostQueue, .replies, .hlk, .out]
    (fun s t => xchan t c = { xchan s c with begun := [{ addr := (xchan s c).cur, desc := d, done := none }], cur := d.nextAddr } ∧
      Output.hostRead (xdmaCfg s c).accessId (xchan s c).cur 64 ∈ t.out ∧ ∀ j, j ≠ c → xchan t j = xchan s j)) ∧
  (∀ dt c d, Happens (.xdmaDescFetch dt c d false) dt
    (fun s => clocked s = true ∧ halting s = false ∧ (xchan s c).state = .running ∧ (xchan s c).cur ≠ 0)
    [.quarantine, .sessions, .sealed, .err, .levels, .jic, .ctr, .frc, .xdma, .hostQueue, .replies, .pounce, .dbg, .hlk, .out]
    (fun s t => (xchan t c).state = .error ∧ (xchan t c).cause = 2 ∧ (xchan t c).latched = (xchan s c).cur ∧ raises 0x10 0x0B01 1 s t)) ∧
  (∀ dt c d, Happens (.xdmaDescFetch dt c d true) dt
    (fun s => clocked s = true ∧ halting s = false ∧ (xchan s c).state = .running ∧ (xchan s c).cur ≠ 0 ∧ (xchan s c).begun = [] ∧ xMalformed d = true)
    [.quarantine, .sessions, .sealed, .err, .levels, .jic, .ctr, .frc, .xdma, .hostQueue, .replies, .pounce, .dbg, .hlk, .out]
    (fun s t => (xchan t c).state = .error ∧ (xchan t c).cause = 1 ∧ (xchan t c).latched = (xchan s c).cur ∧ (xchan t c).begun = [])) ∧
  (∀ dt c e, Happens (.xdmaDescComplete dt c .done) dt
    (fun s => clocked s = true ∧ (xchan s c).state = .running ∧ (xchan s c).begun = [e] ∧ e.done = none ∧ e.noted = false ∧ e.ecc = none ∧
      e.sent = e.desc.rows * e.desc.rowBytes ∧ e.fixed = []) [.levels, .jic, .ctr, .xdma, .hostQueue, .replies, .hlk, .out]
    (fun s t => (xchan t c).begun = [] ∧ (xchan t c).done = (xchan s c).done + 1 ∧
      (xchan t c).moved = (xchan s c).moved + e.desc.rows * e.desc.rowBytes ∧ (xchan t c).cur = (xchan s c).cur ∧
      Output.hostWrite (xdmaCfg s c).accessId (e.addr + 56) [1#8, 0#8, 0#8, 0#8, 0#8, 0#8, 0#8, 0#8] ∈ t.out ∧
      ((xchan s c).cur = 0 → (xchan t c).state = .idle) ∧ ((xchan s c).cur ≠ 0 → (xchan t c).state = .running))) ∧
  (∀ dt c e off, Happens (.xdmaDescComplete dt c (.badBus off)) dt
    (fun s => clocked s = true ∧ (xchan s c).state = .running ∧ (xchan s c).begun = [e] ∧ e.done = none ∧ e.noted = false ∧ e.ecc = none ∧
      off < e.sent ∧ e.fixed = [])
    [.quarantine, .sessions, .sealed, .err, .levels, .jic, .ctr, .frc, .xdma, .hostQueue, .replies, .pounce, .dbg, .hlk, .out]
    (fun s t => (xchan t c).begun = [] ∧ (xchan t c).done = (xchan s c).done ∧ (xchan t c).bad = (xchan s c).bad + 1 ∧
      (xchan t c).moved = (xchan s c).moved + off ∧ raises 0x10 0x0B01 1 s t)) ∧
  (∀ s c e, xRun (xchan s c) = some e → s.dbg.pounce = [] → s.smc.poison = [] → 0 < xLen e →
    let p := xPlace e.desc e.sent
    Output.hostWrite (xdmaCfg s c).accessId (e.desc.dstAddr + p.1 * e.desc.dstStride + p.2)
        (((List.range (xLen e)).map (fun i => xSrc s e.desc p.1 (p.2 + i))).map (memRead s.smc.mem)) ∈ (exportWrite c s).out ∧
      (xchan (exportWrite c s) c).bucket = (xchan s c).bucket - 4 * xLen e ∧
      ∀ j, j ≠ c → xchan (exportWrite c s) j = xchan s j) ∧
  (∀ s c b, tget s.cfg.xdma c = some b → thas s.xdma c = true → halting s = true →
    (xchan (exportCcyc s) c).bucket = min 16384 ((xchan s c).bucket + b.busShare))

/-! ## Scheduling (07) -/

namespace Sys2Proof.Safety

/-- What the tables of an engine's scheduler record of an error or a count besides the tree. -/
def treeParts : List Part := [.quarantine, .sessions, .sealed, .err, .ctr, .frc, .esh, .pounce, .dbg]

/-- What a decision or a transmitted frame may change. -/
def sendParts : List Part :=
  [.quarantine, .sessions, .sealed, .err, .levels, .jic, .ctr, .samples, .frc, .ports, .hostQueue, .esh, .replies, .hpe, .pounce,
   .dbg, .hlk, .sas, .out]

/-- A status word's HEAD_LEN is one that a frame may have, where it reports one (R177). -/
def headOk (w : LeafStatus) : Prop := w.backlogged = true → 14 ≤ w.headLen ∧ w.headLen ≤ 16379

/-- No grant of a host leaf waits for its turn in the group. -/
def coreOnly (pg : Nat) (s : State) : Prop := ∀ g, g ∈ (engine s pg).grants → g.host = false ∨ g.released.isSome = true

/-- What a counter of the group counts: nothing while the group is gated (R15). -/
def counts (pg : Nat) (s : State) : Nat := if groupState s pg = .gated then 0 else 1

/-- The group's engine takes the status word of its own core leaf (R177). -/
def takesWord (pg : Nat) (w : LeafStatus) (s : State) : Prop :=
  clocked s = true ∧ fencedOrAbsent s pg = false ∧ coreOnly pg s ∧ groupOfLeaf w.leaf = pg ∧ thas s.cfg.leaf w.leaf = true ∧ leafSources s.cfg w.leaf = [] ∧ headOk w

/-- A shaper as the wheel has moved it at tick `n`: the next coarse slot goes into the fine ring, and the overflow list is sorted in
during the last coarse slot of a revolution; nothing else changes (R186). -/
def turned (n : Nat) (x y : Shaper) : Prop :=
  { y with place := x.place } = x ∧
  (∀ c, x.place = .coarse c → c = (n / 4096 + 1) % 4096 → y.place = placeOf x.due n) ∧
  (∀ c, x.place = .coarse c → c ≠ (n / 4096 + 1) % 4096 → n / 4096 + 1 < x.due / 4096 → y.place = x.place) ∧
  (x.place = .overflow → n / 4096 % 4096 = 4095 → y.place = placeOf x.due n) ∧
  (x.place = .overflow → n / 4096 % 4096 ≠ 4095 → y.place = x.place) ∧
  ((∀ c, x.place ≠ .coarse c) → x.place ≠ .overflow → y.place = x.place)

end Sys2Proof.Safety

/-- A leaf's status word takes effect two ccyc after it came (R171, R177) and its GRANT_DONE is kept with the grant (R180); a word for
another group's leaf is an error (R177). A decision, one in a ccyc at most, grants the chosen leaf up to MAX_BYTES, charges its path
and counts (R171, R173, R176). A grant whose frames have all come is settled, a RELEASED that they exceed is recorded, and a grant not
settled by then is settled 512 ccyc after its grant word (R179, R180, R151). The wheel moves its entries; the due shaper whose turn it
is is released or enters it again, and a late release is counted (R183, R186). Completion: in each clause about such a row, for every
state and operands that meet its conditions, exec answers a next state: leafStatusWord, schedDecision, grantSettle, grantTimeout,
wheelTick and shaperRelease. -/
def Obligations.LeavesAreGrantedAndSettled : Prop :=
  (∀ dt pg w, Happens (.leafStatusWord dt pg w) dt (fun s => takesWord pg w s ∧ w.grantDone = false) [.esh] (fun s t =>
    (tgetD t.esh.words w.leaf []).head? = some (s.tsu.now + 2,
      { backlogged := w.backlogged, headLen := w.headLen, backlog := w.backlogBytes, headEnq := w.headEnq }) ∧
    (∀ l, l ≠ w.leaf → tgetD t.esh.words l [] = tgetD s.esh.words l []) ∧ { t.esh with words := s.esh.words } = s.esh)) ∧
  (∀ dt pg w g, Happens (.leafStatusWord dt pg w) dt
    (fun s => takesWord pg w s ∧ w.grantDone = true ∧ grantOf s pg w.grantId = some g ∧ g.leaf = w.leaf ∧ g.released = none) [.esh]
    (fun s t => grantOf t pg w.grantId = some { g with released := some w.released } ∧
      (∀ i, i ≠ w.grantId → grantOf t pg i = grantOf s pg i) ∧
      (tgetD t.esh.words w.leaf []).head? = some (s.tsu.now + 2,
        { backlogged := w.backlogged, headLen := w.headLen, backlog := w.backlogBytes, headEnq := w.headEnq }))) ∧
  (∀ dt pg w, Happens (.leafStatusWord dt pg w) dt
    (fun s => clocked s = true ∧ fencedOrAbsent s pg = false ∧ coreOnly pg s ∧ groupOfLeaf w.leaf ≠ pg) treeParts
    (fun s t => raises 0x17 0x1703 1 s t ∧ total t (schedStatusErrorsCtr pg) = total s (schedStatusErrorsCtr pg) + counts pg s ∧
      t.esh = s.esh)) ∧
  (∀ dt pg p k n f, Happens (.schedDecision dt pg) dt
    (fun s => clocked s = true ∧ halting s = false ∧ s.mode.zeroized = false ∧ groupState s pg = .powered ∧
      (engine s pg).grants.length < 4096 ∧ (engine s pg).holdTo = 0 ∧ (engine s pg).decided ≠ some s.tsu.now ∧ s.dbg.pounce = [] ∧ choose pg s = some (p, k, n, f) ∧
      leafSources s.cfg f = []) (.draws :: sendParts)
    (fun s t => ∃ g : Grant, (engine t pg).grants = (engine s pg).grants ++ [g] ∧ (engine t pg).decided = some s.tsu.now ∧ g.port = p ∧ g.cls = k ∧ g.node = n ∧ g.leaf = f ∧
      g.maxBytes = max (leafWord s f).headLen (min (schedCfg s.cfg p).grantQuantum (freeAllot s p)) ∧
      g.est = min g.maxBytes (leafWord s f).backlog + overheadOf s.cfg f ∧ g.at_ = s.tsu.now + 1 ∧ g.epoch = s.cpx.epoch ∧
      g.released = none ∧ g.frames = [] ∧ tgetD t.esh.used p 0 = tgetD s.esh.used p 0 + g.maxBytes ∧
      Output.grant pg (grantWord g) ∈ t.out ∧ total t (schedDecisionsCtr pg) = total s (schedDecisionsCtr pg) + 1 ∧
      total t (schedGrantsCtr pg) = total s (schedGrantsCtr pg) + 1)) ∧
  (∀ dt pg, Happens (.schedDecision dt pg) dt (fun s => choose pg s = none ∨ (engine s pg).decided = some s.tsu.now) []
    (fun _ _ => True)) ∧
  (∀ dt pg id g, Happens (.grantSettle dt pg id) dt
    (fun s => grantOf s pg id = some g ∧ g.released = some g.frames.length ∧ coreOnly pg s) [.ctr, .esh]
    (fun s t => (engine t pg).grants = (engine s pg).grants.filter (fun x => x.id ≠ id) ∧
      (leafObj t g.leaf).tag = addTag (leafObj s g.leaf).tag (dF (chargedBytes g) g.wLeaf - dF g.est g.wLeaf) ∧
      tgetD t.esh.used g.port 0 = (((tgetD s.esh.used g.port 0 : Nat) : Int) -
        ((g.maxBytes : Int) - ((g.frames.map (fun f => f.cpiLen)).sum : Nat))).toNat ∧
      total t (schedEmptyGrantsCtr pg) = total s (schedEmptyGrantsCtr pg) + (if g.frames = [] then counts pg s else 0))) ∧
  (∀ dt pg id g n, Happens (.grantSettle dt pg id) dt
    (fun s => clocked s = true ∧ grantOf s pg id = some g ∧ g.released = some n ∧ n < g.frames.length ∧ coreOnly pg s) treeParts
    (fun s t => (engine t pg).grants = (engine s pg).grants.filter (fun x => x.id ≠ id) ∧ raises 0x17 0x1703 1 s t ∧
      total t (schedGrantMismatchesCtr pg) = total s (schedGrantMismatchesCtr pg) + counts pg s)) ∧
  (∀ dt pg id g, Happens (.grantTimeout dt pg id) dt
    (fun s => grantOf s pg id = some g ∧ g.at_ + 512 ≤ s.tsu.now ∧ g.begun = true ∧ g.host = false ∧ g.released = none ∧ coreOnly pg s) [.ctr, .esh]
    (fun s t => (engine t pg).grants = (engine s pg).grants.filter (fun x => x.id ≠ id) ∧
      (leafObj t g.leaf).tag = addTag (leafObj s g.leaf).tag (dF (chargedBytes g) g.wLeaf - dF g.est g.wLeaf))) ∧
  (∀ dt pg id g, Happens (.grantTimeout dt pg id) dt
    (fun s => clocked s = true ∧ grantOf s pg id = some g ∧ g.at_ + 512 ≤ s.tsu.now ∧ g.begun = false ∧ g.host = false ∧
      g.released = none ∧ coreOnly pg s) treeParts
    (fun s t => (engine t pg).grants = (engine s pg).grants.filter (fun x => x.id ≠ id) ∧ raises 0x17 0x1702 1 s t ∧
      total t (txGrantTimeoutsCtr pg) = total s (txGrantTimeoutsCtr pg) + counts pg s)) ∧
  (∀ dt pg, Happens (.wheelTick dt pg) dt (fun _ => True) [.esh] (fun s t =>
    (∀ l, (groupOfLeaf l = pg → turned s.tsu.tick (leafObj s l).shaper (leafObj t l).shaper) ∧
      (groupOfLeaf l ≠ pg → leafObj t l = leafObj s l)) ∧
    (∀ n, (groupOfNode n = pg → turned s.tsu.tick (nodeObj s n).shaper (nodeObj t n).shaper) ∧
      (groupOfNode n ≠ pg → nodeObj t n = nodeObj s n)) ∧
    (∀ p, (groupOf p = pg → turned s.tsu.tick (portObj s p).shaper (portObj t p).shaper) ∧
      (groupOf p ≠ pg → portObj t p = portObj s p)) ∧
    { t.esh with leaves := s.esh.leaves, nodes := s.esh.nodes, ports := s.esh.ports } = s.esh)) ∧
  (∀ dt o, Happens (.shaperRelease dt o) dt
    (fun s => releasesNext o s = true) [.ctr, .esh]
    (fun s t => { objOf t o with shaper := (objOf s o).shaper } = objOf s o ∧ (objOf t o).shaper.tok = (shaperFill s o).tok ∧
      (objOf t o).shaper.last = s.tsu.tick ∧ ((objOf t o).shaper.eligible = true ↔ 0 ≤ (shaperFill s o).tok) ∧
      ((shaperFill s o).tok < 0 → (objOf t o).shaper.due =
        s.tsu.tick + ceilDiv (-(shaperFill s o).tok).toNat (max 1 (shaperCfg s.cfg o).1)) ∧
      total t (schedWheelLateCtr (groupOfObj o)) = total s (schedWheelLateCtr (groupOfObj o)) +
        (if (objOf s o).shaper.due = s.tsu.tick ∧ s.tsu.now = s.tsu.tickAt then 0 else counts (groupOfObj o) s))) ∧
  (∀ dt o, Happens (.shaperRelease dt o) dt (fun s => releasesNext o s = false) [] (fun _ _ => True))

/-! ## Transmission (06) -/

namespace Sys2Proof.Safety

/-- The datapath of a port runs: its link may transmit, its group is powered, it is not drained and the block neither halts nor stops. -/
def lineLive (s : State) (p : Nat) : Prop :=
  clocked s = true ∧ halting s = false ∧ thas s.cfg.port p = true ∧ portPowered s p = true ∧ mayTransmit s p = true ∧ p ∉ s.mode.drained

/-- Nothing of sources 1 and 2 of Table 6-5 is due on the port. -/
def noControl (s : State) (p : Nat) : Prop :=
  (portOf s p).link = .up → controlDue s p = none ∧ (portOf s p).verifyDue = false ∧ (portOf s p).respondDue = false

/-- A whole or first part of a frame, on a port that does not protect, that passes every check of R151 under its grant. -/
def goodStart (s : State) (p : Nat) (g : Grant) (m : TxMeta) (t : TxSlices) : Prop :=
  m.grantId = g.id ∧ g.port = p ∧ startReserved m = false ∧ (∀ e, t.eof = some e → e.rsv = 0 ∧ e.action = 0 ∧ t.nbytes = m.len) ∧
  (t.eof = none → t.nbytes < m.len) ∧ 14 ≤ m.len ∧ m.len ≤ 16379 ∧ m.tsReq = 0 ∧ (∃ l n, leafNode g.cfg m.leaf = some (l, n) ∧ n.port = p) ∧
  protecting g.cfg p = none ∧ (∃ b, tget g.cfg.port p = some b ∧ m.len + 8 ≤ b.mtu ∧ 64 ≤ b.mtu) ∧ mayTransmit s p = true

end Sys2Proof.Safety

/-- Slices that start a frame under their grant put it in the queue that R161 names, as long as it will be on the wire (R156), and
under its grant (R151); slices for a port without a configuration are discarded, counted and raises (R151). A start at a frame boundary
sends the MAC control frame that is due (R207), else the express frame at the head that is ready and permitted (R160). A frame ends
well once its bytes and its end word have come (R163, R167), aborted where the core aborts it (R165) or where the line needs a byte
that has not come (R164): what left is the frame's bytes as TXM built them, and the column of the error after them. A preempted one is
cut where the next column may end it (R166), or at the last column whose mCRC goes before its gate closes (R201), and an mCRC ends it.
Completion: in each clause about such a row, for every state and operands that meet its conditions, exec answers a next state:
cpiTxFrame, txFrameStart, txFrameEnd and txUnderrun. -/
def Obligations.FramesAreTransmitted : Prop :=
  (∀ dt pg t m g, Happens (.cpiTxFrame dt pg t) dt
    (fun s => clocked s = true ∧ groupState s pg = .powered ∧ t.portOff < 16 ∧ thas s.cfg.port (pg * 16 + t.portOff) = true ∧
      t.start = some m ∧ openFrame (portOf s (pg * 16 + t.portOff)) = none ∧ grantOf s pg m.grantId = some g ∧ coreOnly pg s ∧
      goodStart s (pg * 16 + t.portOff) g m t) [.ports, .esh]
    (fun s x => ∃ f : TxFrame, f.source = .core ∧ f.grantId = g.id ∧ f.leaf = m.leaf ∧ f.tc = m.tc ∧ f.len = m.len ∧ f.bytes = t.bytes ∧
      f.sa = none ∧ f.inserted = inserts g.cfg (pg * 16 + t.portOff) t.bytes ∧
      f.tag = (if f.inserted then tagBytes (vlanOf g.cfg (pg * 16 + t.portOff)) f.tci else []) ∧ f.wire = max 64 (m.len + (if f.inserted then 4 else 0) + 4) ∧ f.opened = t.eof.isNone ∧
      (portOf x (pg * 16 + t.portOff)).express = (portOf s (pg * 16 + t.portOff)).express ++ (if f.preempt then [] else [f]) ∧
      (portOf x (pg * 16 + t.portOff)).preempts = (portOf s (pg * 16 + t.portOff)).preempts ++ (if f.preempt then [f] else []) ∧
      grantOf x pg g.id =
        some { g with begun := true, frames := g.frames ++ [{ charge := f.wire + overheadOf g.cfg m.leaf, cpiLen := m.len }] })) ∧
  (∀ dt pg t, Happens (.cpiTxFrame dt pg t) dt
    (fun s => clocked s = true ∧ groupState s pg = .powered ∧ coreOnly pg s ∧ (16 ≤ t.portOff ∨ thas s.cfg.port (pg * 16 + t.portOff) = false)) treeParts
    (fun s x => raises 0x17 0x1701 1 s x ∧ total x (txUngrantedSlicesCtr pg) = total s (txUngrantedSlicesCtr pg) + t.slices ∧
      x.esh = s.esh)) ∧
  (∀ dt p l ph k fr gen, Happens (.txFrameStart dt p l ph k) dt
    (fun s => lineLive s p ∧ (portOf s p).line = none ∧ (portOf s p).lineFree ≤ s.tsu.now ∧ (portOf s p).link = .up ∧
      controlDue s p = some (fr, gen)) [.ctr, .ports, .out]
    (fun s x => Output.macControl p fr ∈ x.out ∧ (portOf x p).line = none ∧ (portOf x p).express.length = (portOf s p).express.length ∧
      (gen = true → (portOf x p).genDue = 0 ∧ (portOf x p).told = xoffState s p ∧ (portOf x p).macDue = (portOf s p).macDue) ∧
      (gen = false → (portOf x p).macDue = (portOf s p).macDue.drop 1))) ∧
  (∀ dt p l ph k f r, Happens (.txFrameStart dt p l ph k) dt
    (fun s => lineLive s p ∧ p < 512 ∧ (portOf s p).line = none ∧ (portOf s p).lineFree ≤ s.tsu.now ∧ noControl s p ∧
      (portOf s p).express = f :: r ∧ permitted s p f = true) [.tsu, .levels, .jic, .ctr, .ports, .hlk]
    (fun s x => (portOf x p).express = r ∧ ∃ y : TxFrame, (portOf x p).line = some y ∧ y.len = f.len ∧ y.wire = f.wire ∧
      y.started = some s.tsu.now ∧ y.fragAt = s.tsu.now ∧ y.stamp = txStamp s p s.tsu.now ph k f.cal ∧
      (f.tsReq = 0 → y.bytes = f.bytes) ∧
      (f.tsReq = 2 → f.sa = none → byteAt f.bytes f.tsOffset % 16 ≤ 2 → y.bytes = writeTime s.cfg p f.tsOffset y.stamp f.bytes))) ∧
  (∀ dt p f a, Happens (.txFrameEnd dt p) dt
    (fun s => clocked s = true ∧ halting s = false ∧ (portOf s p).line = some f ∧ f.action = some a ∧ a ≠ 2 ∧
      8 + (f.wire - f.sent) ≤ lineBytes (portSpeed s.cfg p) (s.tsu.now + 1 - f.fragAt)) sendParts
    (fun _ x => Output.lineFrame p (smdOf f) (((lineBytesOf f).drop f.sent).take (f.wire - f.sent)) .whole ∈ x.out ∧
      (portOf x p).line = none)) ∧
  (∀ dt p f, Happens (.txFrameEnd dt p) dt
    (fun s => clocked s = true ∧ halting s = false ∧ (portOf s p).line = some f ∧ f.action = some 2 ∧ f.opened = false ∧
      8 + (f.head + f.len - f.sent) ≤ lineBytes (portSpeed s.cfg p) (s.tsu.now + 1 - f.fragAt)) sendParts
    (fun s x => Output.lineFrame p (smdOf f) (((lineBytesOf f).drop f.sent).take
        (roundUp (8 + (f.head + f.len - f.sent)) (column (modeOf s p)) - 8)) (.error (column (modeOf s p))) ∈ x.out ∧
      (portOf x p).line = none)) ∧
  (∀ dt p f, Happens (.txUnderrun dt p) dt
    (fun s => clocked s = true ∧ halting s = false ∧ (portOf s p).line = some f ∧ f.action = none ∧ f.opened = true ∧
      8 + (f.head + f.got - f.sent) ≤ lineBytes (portSpeed s.cfg p) (s.tsu.now + 1 - f.fragAt)) sendParts
    (fun s x => Output.lineFrame p (smdOf f) (((lineBytesOf f).drop f.sent).take
        (roundUp ((8 + (f.head + f.got - f.sent)) / column (modeOf s p) * column (modeOf s p)) (column (modeOf s p)) - 8))
        (.error (column (modeOf s p))) ∈ x.out ∧ (portOf x p).line = none ∧
      ∃ y : TxFrame, (portOf x p).opening = some y ∧ y.dropAs = some 5)) ∧
  (∀ dt p l ph k f n, Happens (.txFrameStart dt p l ph k) dt
    (fun s => lineLive s p ∧ (portOf s p).line = some f ∧ (if breakCause s p then breakAt s p f else gateBreak s p f) = some n)
    (.tsu :: sendParts)
    (fun _ x => Output.lineFrame p (smdOf f) (((lineBytesOf f).drop f.sent).take n) .mcrc ∈ x.out))

/-! ## Reception (04, 05) -/

namespace Sys2Proof.Safety

/-- What a received frame may change. -/
def recvParts : List Part :=
  [.quarantine, .sessions, .checks, .sealed, .err, .levels, .jic, .ctr, .samples, .tel, .frc, .groups, .lanes, .ports, .hostQueue, .esh,
   .replies, .hpe, .pounce, .dbg, .hlk, .rx, .sas, .pols, .out, .draws]

/-- What an answer of the buffer ladder may change, or one that is missing. -/
def bpiParts : List Part :=
  [.quarantine, .sessions, .sealed, .err, .levels, .jic, .ctr, .samples, .frc, .pounce, .dbg, .rx, .sas, .out, .draws]

/-- What the release of a held frame may change. -/
def heldParts : List Part := [.checks, .levels, .jic, .ctr, .samples, .frc, .replies, .hpe, .hlk, .rx, .sas, .pols, .out]

/-- The block has a clock, and no perturbation holds an answer of the ladder. -/
def asksLadder (s : State) : Prop := clocked s = true ∧ s.dbg.pounce = []

/-- The handle is one of the request's pool. -/
def handleOf (s : State) (q : BpiReq) (handle : Nat) : Prop :=
  ∃ p, s.rx.ladder[q.pool]? = some p ∧ p.base ≤ handle ∧ handle < p.base + p.count

/-- The number of the pool that a held frame's buffer came from. -/
def poolNumber (s : State) (k : Nat) : Nat := match s.rx.ladder[k]? with | some p => p.number | none => 0

/-- One frame of a port is held in its group, verified, stored and due (R99). -/
def oneHeld (port id : Nat) (h : HeldFrame) (s : State) : Prop :=
  clocked s = true ∧ (rxGroup s (groupOf port)).frames = [(id, h)] ∧ h.info.port = port ∧ h.need ≠ 0 ∧ h.due ≤ s.tsu.now ∧
    h.settled = true ∧ h.need ≤ heldRoom s h ∧ h.asking = false

/-- The frame's turn: its place on the bus of its group is `b`, and `n` of its slices may leave from place `k` of the ccyc on (R107). -/
def hasTurn (pg k id n : Nat) (b : BusFrame) (s : State) : Prop :=
  (rxGroup s pg).bus.find? (fun e => e.1 = id) = some (id, b) ∧ n = min (4 - k) (released s b - b.sent)

/-- Slice `j` of those that leave in a frame's turn, its start metadata given (Tables 4-7, 4-8). -/
def sliceOf (pg k j tag : Nat) (sof : Option Fields) (b : BusFrame) (s : State) : CpiSlice :=
  { pg, ccyc := s.tsu.now, slot := k + j, port := b.info.port % 16, bytes := (b.info.bytes.drop (64 * (b.sent + j))).take 64, sof
    eof := if b.sent + j + 1 = sliceCount b then some (endMeta b.info tag) else none }

end Sys2Proof.Safety

/-- A frame that passes every check, in no class and for the core, joins its group's bus less its FCS, ready once the carder has
decided (R83, R97, R98, R106); a verify mPacket is to be answered (R199); a preamble error is counted where the port receives (R83). On
the bus a frame that has begun sends its next slices, 64 bytes each in the places left of the ccyc (R106, R107); one that begins takes
the next FRAME_TAG and sends its CLI record (R110, R111); one whose error is found before it begins is dropped (R88). An answer of the
buffer ladder goes to the oldest timed-out request and else to the oldest request (R103, R104): a handle of its pool is written to, one
that comes too late is returned, and an unasked answer is an error. A request unanswered for 128 ccyc is an error and is made again of
the next larger pool (R104, R101). A held frame whose ICV verifies is settled and counted, and one whose ICV fails is refused (R99,
R128, R140); a settled one that is due joins the bus with its buffers (R99, R105); buffers go back in the ccyc after their frame
(R105); a read-back that is missing drops the frame (R434). A classifier's return closes its record, an unknown one is counted, and a
record without a return is closed after 4,096 ccyc (R112). Completion: in each clause about such a row, for every state and operands
that meet its conditions, exec answers a next state: rxFrame, rxPreambleError, bpiResponse, bpiResponseTimeout, heldFrameRelease,
bpiRdDataTimeout, cliRv and cliRvTimeout. -/
def Obligations.FramesAreReceived : Prop :=
  (∀ dt f, Happens (.rxFrame dt f) dt
    (fun s => plainFrame f s ∧ destOf s.cfg f.port f.bytes (parse s.cfg f.port f.bytes) = .core ∧ s.dbg.pounce = [] ∧
      rxOpen (pcsCounts f s) f.port = true) recvParts
    (fun s x => (rxGroup x (groupOf f.port)).nextId = (rxGroup s (groupOf f.port)).nextId + 1 ∧
      ∃ b : BusFrame, ((rxGroup s (groupOf f.port)).nextId, b) ∈ (rxGroup x (groupOf f.port)).bus ∧ b.sent = 0 ∧ b.info.port = f.port ∧
        b.info.flags = 0 ∧ b.info.frameLen = f.bytes.length ∧ b.info.epoch = s.cpx.epoch ∧
        b.ready = max s.tsu.now (carderCcyc b.info) ∧ b.whole = decide (f.bytes.length ≤ 256) ∧
        (field (vlanOf s.cfg f.port).tagMode 1 0 = 0 → b.info.bytes = f.bytes.take (f.bytes.length - 4)) ∧
        ∀ e, e ∈ (rxGroup s (groupOf f.port)).bus → e.1 ≠ (rxGroup s (groupOf f.port)).nextId → e ∈ (rxGroup x (groupOf f.port)).bus)) ∧
  (∀ dt f, Happens (.rxFrame dt f) dt
    (fun s => f.mpacket = .verify ∧ (preemptCfg s.cfg f.port).preemptableMask ≠ 0 ∧ bit (portFlags s.cfg f.port) 3 = false ∧
      s.dbg.pounce = [] ∧ rxOpen (pcsCounts f s) f.port = true) recvParts
    (fun s x => (f.codewords = [] → portOf x f.port = { portOf (pcsCounts f s) f.port with respondDue := true }) ∧
      (f.codewords = [] → f.between = [] → portOf x f.port = { portOf s f.port with respondDue := true } ∧
        ∀ q, q ≠ f.port → portOf x q = portOf s q))) ∧
  (∀ dt p, Happens (.rxPreambleError dt p) dt (fun s => rxOpen s p = true) [.ctr]
    (fun s x => total x (rxPreambleErrorsCtr p) = total s (rxPreambleErrorsCtr p) + 1)) ∧
  (∀ dt p, Happens (.rxPreambleError dt p) dt (fun s => rxOpen s p = false) [] (fun _ _ => True)) ∧
  (∀ pg k id n b s, hasTurn pg k id n b s → b.sent ≠ 0 →
    (busTurn pg (k, s) id).1 = k + n ∧
    (∀ j, j < n → Output.cpiSlice (sliceOf pg k j b.tag none b s) ∈ (busTurn pg (k, s) id).2.out) ∧
    (n ≠ 0 → b.sent + n = sliceCount b → b.info.flags = 0 →
      total (busTurn pg (k, s) id).2 (rxFramesOkCtr b.info.port) = total s (rxFramesOkCtr b.info.port) + 1 ∧
      total (busTurn pg (k, s) id).2 (rxBytesOkCtr b.info.port) = total s (rxBytesOkCtr b.info.port) + b.info.frameLen)) ∧
  (∀ pg k id n b s, hasTurn pg k id n b s → b.sent = 0 → (b.info.abort = true → s.tsu.now < b.info.errAt) →
    behind (rxGroup s pg) id b.info = false → n ≠ 0 →
    (busTurn pg (k, s) id).1 = k + n ∧
    (rxGroup (busTurn pg (k, s) id).2 pg).tag = ((rxGroup s pg).tag + 1) % 65536 ∧
    Output.cliRecord pg ([(16, (rxGroup s pg).tag), (16, b.info.epoch)] ++ b.info.cli) ∈ (busTurn pg (k, s) id).2.out ∧
    Output.cpiSlice (sliceOf pg k 0 (rxGroup s pg).tag (some ([(16, b.info.epoch), (16, (rxGroup s pg).tag)] ++ b.info.smeta)) b s) ∈
      (busTurn pg (k, s) id).2.out ∧
    (∀ j, 0 < j → j < n → Output.cpiSlice (sliceOf pg k j (rxGroup s pg).tag none b s) ∈ (busTurn pg (k, s) id).2.out)) ∧
  (∀ pg k id n b s, hasTurn pg k id n b s → b.sent = 0 → b.info.abort = true → b.info.errAt ≤ s.tsu.now →
    (busTurn pg (k, s) id).1 = k ∧ (busTurn pg (k, s) id).2.out = s.out ∧
    (∀ e, e ∈ (rxGroup (busTurn pg (k, s) id).2 pg).bus → e.1 ≠ id) ∧
    ∀ x, x ∈ b.buffers → (s.tsu.now + 1, x.1, x.2) ∈ (rxGroup (busTurn pg (k, s) id).2 pg).returns) ∧
  (∀ dt pg n q r, Happens (.bpiResponse dt pg true n) dt
    (fun s => asksLadder s ∧ (rxGroup s pg).timedOut = q :: r) [.rx]
    (fun s x => rxGroup x pg = { rxGroup s pg with timedOut := r } ∧ ∀ j, j ≠ pg → rxGroup x j = rxGroup s j)) ∧
  (∀ dt pg n q r, Happens (.bpiResponse dt pg false n) dt
    (fun s => asksLadder s ∧ (rxGroup s pg).timedOut = q :: r ∧ handleOf s q n) [.rx, .out]
    (fun s x => rxGroup x pg = { rxGroup s pg with timedOut := r } ∧ Output.bpiFree pg (poolNumber s q.pool) n ∈ x.out)) ∧
  (∀ dt pg n q r h, Happens (.bpiResponse dt pg false n) dt
    (fun s => asksLadder s ∧ (rxGroup s pg).timedOut = [] ∧ (rxGroup s pg).requests = q :: r ∧ handleOf s q n ∧
      (q.frame, h) ∈ (rxGroup s pg).frames) [.rx, .out]
    (fun _ x => Output.bpiWrite pg n ∈ x.out ∧
      ∃ y : HeldFrame, (q.frame, y) ∈ (rxGroup x pg).frames ∧ y.buffers = h.buffers ++ [(q.pool, n)])) ∧
  (∀ dt pg n, Happens (.bpiResponse dt pg true n) dt
    (fun s => asksLadder s ∧ (rxGroup s pg).timedOut = [] ∧ (rxGroup s pg).requests = []) bpiParts
    (fun s x => raises 0x18 0x1804 1 s x ∧ x.rx = s.rx)) ∧
  (∀ dt pg q r, Happens (.bpiResponseTimeout dt pg) dt
    (fun s => clocked s = true ∧ (rxGroup s pg).requests = q :: r ∧ q.at_ + 128 ≤ s.tsu.now) bpiParts
    (fun s x => raises 0x18 0x1803 1 s x ∧ (rxGroup x pg).timedOut = (rxGroup s pg).timedOut ++ [q])) ∧
  (∀ dt pg q r p h, Happens (.bpiResponseTimeout dt pg) dt
    (fun s => clocked s = true ∧ halting s = false ∧ (rxGroup s pg).requests = q :: r ∧ r.length < 16 ∧ q.at_ + 128 ≤ s.tsu.now ∧
      (rxGroup s pg).frames = [(q.frame, h)] ∧ (rxGroup s pg).asked ≠ some s.tsu.now ∧ s.rx.ladder[q.pool + 1]? = some p) bpiParts
    (fun s x => Output.bpiReq pg p.number ∈ x.out ∧
      (rxGroup x pg).requests = r ++ [{ at_ := s.tsu.now, pool := q.pool + 1, port := h.info.port, frame := q.frame }] ∧
      total x (rxBpiTimeoutsCtr q.port) = total s (rxBpiTimeoutsCtr q.port) + 1)) ∧
  (∀ pg id h s k, h.icvOk = true → h.sa = some k → h.pn < 2 ^ 64 - 1 →
    (rxGroup (icvCompare pg id h s) pg).frames =
      (rxGroup s pg).frames.map (fun e => if e.1 = id then (e.1, { e.2 with settled := true }) else e) ∧
    total (icvCompare pg id h s) (inPktsOkCtr (saIndex k)) = total s (inPktsOkCtr (saIndex k)) + 1 ∧
    ((saOfKey s k).state ≠ .empty → (saOfKey s k).nextPn ≤ h.pn → (saOfKey (icvCompare pg id h s) k).nextPn = h.pn + 1)) ∧
  (∀ pg id h s, h.icvOk = false →
    (rxGroup (icvCompare pg id h s) pg).frames = (rxGroup s pg).frames.filter (fun e => e.1 ≠ id) ∧
    (icvCompare pg id h s).out = s.out ∧ (rxGroup (icvCompare pg id h s) pg).bus = (rxGroup s pg).bus ∧
    ∀ x, x ∈ h.buffers → (s.tsu.now + 1, x.1, x.2) ∈ (rxGroup (icvCompare pg id h s) pg).returns) ∧
  (∀ pg s c k n, (c, k, n) ∈ (rxGroup s pg).returns → c ≤ s.tsu.now →
    Output.bpiFree pg (poolNumber s k) n ∈ (returnDue pg s).out ∧ (c, k, n) ∉ (rxGroup (returnDue pg s) pg).returns) ∧
  (∀ dt port id h, Happens (.heldFrameRelease dt port) dt
    (fun s => oneHeld port id h s ∧ halting s = false ∧ h.info.dest = .core ∧ h.info.charged = []) heldParts
    (fun s x => (rxGroup x (groupOf port)).frames = [] ∧
      (∃ b : BusFrame, (id, b) ∈ (rxGroup x (groupOf port)).bus ∧ b.info = h.info ∧ b.buffers = h.buffers ∧ b.sent = 0 ∧
        b.ready = max s.tsu.now (carderCcyc h.info)) ∧
      ∀ b, b ∈ h.buffers → Output.bpiReadReq (groupOf port) b.2 ∈ x.out)) ∧
  (∀ dt port id h, Happens (.bpiRdDataTimeout dt port) dt
    (fun s => oneHeld port id h s ∧ h.due + 128 ≤ s.tsu.now) bpiParts
    (fun s x => raises 0x18 0x1803 1 s x ∧ (rxGroup x (groupOf port)).frames = [] ∧
      ∀ b, b ∈ h.buffers → (s.tsu.now + 1, b.1, b.2) ∈ (rxGroup x (groupOf port)).returns)) ∧
  (∀ dt pg tag v w, Happens (.cliRv dt pg pg tag v) dt
    (fun s => clocked s = true ∧ s.rx.cli.find? (fun w => w.pg = pg && w.tag = tag && s.tsu.now < w.at_ + 4096) = some w)
    [.levels, .jic, .ctr, .samples, .frc, .rx]
    (fun s x => x.rx = { s.rx with cli := s.rx.cli.filter (fun y => !(y.pg = w.pg && y.tag = w.tag && y.at_ = w.at_)) })) ∧
  (∀ dt c pg tag v, Happens (.cliRv dt c pg tag v) dt
    (fun s => clocked s = true ∧
      (c ≠ pg ∨ s.rx.cli.find? (fun w => w.pg = pg && w.tag = tag && s.tsu.now < w.at_ + 4096) = none)) [.ctr]
    (fun s x => total x (cliRvUnknownCtr c) = total s (cliRvUnknownCtr c) + counts c s)) ∧
  (∀ dt pg tag w, Happens (.cliRvTimeout dt pg tag) dt
    (fun s => clocked s = true ∧ s.rx.cli.find? (fun w => w.pg = pg && w.tag = tag && w.at_ + 4096 ≤ s.tsu.now) = some w)
    [.levels, .jic, .ctr, .samples, .frc, .rx]
    (fun s x => x.rx = { s.rx with cli := s.rx.cli.filter (fun y => !(y.pg = w.pg && y.tag = w.tag && y.at_ = w.at_)) } ∧
      (w.sample = none → w.accept = none → total x (cliRvTimeoutsCtr pg) = total s (cliRvTimeoutsCtr pg) + counts pg s)))
end

