-- ==== Sys2Proof/Laws/State.lean ====
section
/-! SUPPORT. Laws of the state: what each named update leaves alone, and the laws of `Changes`. -/
namespace Sys2Proof.Machine

/-! ## One lemma per field and update -/

section Updates
variable (s : State)

@[simp] theorem emit_mode (o : Output) : (emit o s).mode = s.mode := rfl
@[simp] theorem emit_fuses (o : Output) : (emit o s).fuses = s.fuses := rfl
@[simp] theorem emit_tsu (o : Output) : (emit o s).tsu = s.tsu := rfl
@[simp] theorem emit_cpx (o : Output) : (emit o s).cpx = s.cpx := rfl
@[simp] theorem emit_hood (o : Output) : (emit o s).hood = s.hood := rfl
@[simp] theorem emit_cfg (o : Output) : (emit o s).cfg = s.cfg := rfl
@[simp] theorem emit_err (o : Output) : (emit o s).err = s.err := rfl
@[simp] theorem emit_acc (o : Output) : (emit o s).acc = s.acc := rfl
@[simp] theorem emit_jic (o : Output) : (emit o s).jic = s.jic := rfl
@[simp] theorem emit_tel (o : Output) : (emit o s).tel = s.tel := rfl
@[simp] theorem emit_smc (o : Output) : (emit o s).smc = s.smc := rfl
@[simp] theorem emit_frc (o : Output) : (emit o s).frc = s.frc := rfl
@[simp] theorem emit_xdma (o : Output) : (emit o s).xdma = s.xdma := rfl
@[simp] theorem emit_groups (o : Output) : (emit o s).groups = s.groups := rfl
@[simp] theorem emit_lanes (o : Output) : (emit o s).lanes = s.lanes := rfl
@[simp] theorem emit_lif (o : Output) : (emit o s).lif = s.lif := rfl
@[simp] theorem emit_ports (o : Output) : (emit o s).ports = s.ports := rfl
@[simp] theorem emit_gates (o : Output) : (emit o s).gates = s.gates := rfl
@[simp] theorem emit_esh (o : Output) : (emit o s).esh = s.esh := rfl
@[simp] theorem emit_hpe (o : Output) : (emit o s).hpe = s.hpe := rfl
@[simp] theorem emit_dbg (o : Output) : (emit o s).dbg = s.dbg := rfl
@[simp] theorem emit_hlk (o : Output) : (emit o s).hlk = s.hlk := rfl
@[simp] theorem emit_rx (o : Output) : (emit o s).rx = s.rx := rfl
@[simp] theorem emit_sas (o : Output) : (emit o s).sas = s.sas := rfl
@[simp] theorem emit_pols (o : Output) : (emit o s).pols = s.pols := rfl
@[simp] theorem emit_draws (o : Output) : (emit o s).draws = s.draws := rfl
@[simp] theorem emit_pending (o : Output) : (emit o s).pending = s.pending := rfl

@[simp] theorem putPort_mode (p : Nat) (x : Port) : (putPort p x s).mode = s.mode := rfl
@[simp] theorem putPort_fuses (p : Nat) (x : Port) : (putPort p x s).fuses = s.fuses := rfl
@[simp] theorem putPort_tsu (p : Nat) (x : Port) : (putPort p x s).tsu = s.tsu := rfl
@[simp] theorem putPort_cpx (p : Nat) (x : Port) : (putPort p x s).cpx = s.cpx := rfl
@[simp] theorem putPort_hood (p : Nat) (x : Port) : (putPort p x s).hood = s.hood := rfl
@[simp] theorem putPort_cfg (p : Nat) (x : Port) : (putPort p x s).cfg = s.cfg := rfl
@[simp] theorem putPort_err (p : Nat) (x : Port) : (putPort p x s).err = s.err := rfl
@[simp] theorem putPort_acc (p : Nat) (x : Port) : (putPort p x s).acc = s.acc := rfl
@[simp] theorem putPort_jic (p : Nat) (x : Port) : (putPort p x s).jic = s.jic := rfl
@[simp] theorem putPort_tel (p : Nat) (x : Port) : (putPort p x s).tel = s.tel := rfl
@[simp] theorem putPort_smc (p : Nat) (x : Port) : (putPort p x s).smc = s.smc := rfl
@[simp] theorem putPort_frc (p : Nat) (x : Port) : (putPort p x s).frc = s.frc := rfl
@[simp] theorem putPort_xdma (p : Nat) (x : Port) : (putPort p x s).xdma = s.xdma := rfl
@[simp] theorem putPort_groups (p : Nat) (x : Port) : (putPort p x s).groups = s.groups := rfl
@[simp] theorem putPort_lanes (p : Nat) (x : Port) : (putPort p x s).lanes = s.lanes := rfl
@[simp] theorem putPort_lif (p : Nat) (x : Port) : (putPort p x s).lif = s.lif := rfl
@[simp] theorem putPort_gates (p : Nat) (x : Port) : (putPort p x s).gates = s.gates := rfl
@[simp] theorem putPort_esh (p : Nat) (x : Port) : (putPort p x s).esh = s.esh := rfl
@[simp] theorem putPort_hpe (p : Nat) (x : Port) : (putPort p x s).hpe = s.hpe := rfl
@[simp] theorem putPort_dbg (p : Nat) (x : Port) : (putPort p x s).dbg = s.dbg := rfl
@[simp] theorem putPort_hlk (p : Nat) (x : Port) : (putPort p x s).hlk = s.hlk := rfl
@[simp] theorem putPort_rx (p : Nat) (x : Port) : (putPort p x s).rx = s.rx := rfl
@[simp] theorem putPort_sas (p : Nat) (x : Port) : (putPort p x s).sas = s.sas := rfl
@[simp] theorem putPort_pols (p : Nat) (x : Port) : (putPort p x s).pols = s.pols := rfl
@[simp] theorem putPort_out (p : Nat) (x : Port) : (putPort p x s).out = s.out := rfl
@[simp] theorem putPort_draws (p : Nat) (x : Port) : (putPort p x s).draws = s.draws := rfl
@[simp] theorem putPort_pending (p : Nat) (x : Port) : (putPort p x s).pending = s.pending := rfl

@[simp] theorem putLane_mode (n : Nat) (x : Lane) : (putLane n x s).mode = s.mode := rfl
@[simp] theorem putLane_fuses (n : Nat) (x : Lane) : (putLane n x s).fuses = s.fuses := rfl
@[simp] theorem putLane_tsu (n : Nat) (x : Lane) : (putLane n x s).tsu = s.tsu := rfl
@[simp] theorem putLane_cpx (n : Nat) (x : Lane) : (putLane n x s).cpx = s.cpx := rfl
@[simp] theorem putLane_hood (n : Nat) (x : Lane) : (putLane n x s).hood = s.hood := rfl
@[simp] theorem putLane_cfg (n : Nat) (x : Lane) : (putLane n x s).cfg = s.cfg := rfl
@[simp] theorem putLane_err (n : Nat) (x : Lane) : (putLane n x s).err = s.err := rfl
@[simp] theorem putLane_acc (n : Nat) (x : Lane) : (putLane n x s).acc = s.acc := rfl
@[simp] theorem putLane_jic (n : Nat) (x : Lane) : (putLane n x s).jic = s.jic := rfl
@[simp] theorem putLane_tel (n : Nat) (x : Lane) : (putLane n x s).tel = s.tel := rfl
@[simp] theorem putLane_smc (n : Nat) (x : Lane) : (putLane n x s).smc = s.smc := rfl
@[simp] theorem putLane_frc (n : Nat) (x : Lane) : (putLane n x s).frc = s.frc := rfl
@[simp] theorem putLane_xdma (n : Nat) (x : Lane) : (putLane n x s).xdma = s.xdma := rfl
@[simp] theorem putLane_groups (n : Nat) (x : Lane) : (putLane n x s).groups = s.groups := rfl
@[simp] theorem putLane_lif (n : Nat) (x : Lane) : (putLane n x s).lif = s.lif := rfl
@[simp] theorem putLane_ports (n : Nat) (x : Lane) : (putLane n x s).ports = s.ports := rfl
@[simp] theorem putLane_gates (n : Nat) (x : Lane) : (putLane n x s).gates = s.gates := rfl
@[simp] theorem putLane_esh (n : Nat) (x : Lane) : (putLane n x s).esh = s.esh := rfl
@[simp] theorem putLane_hpe (n : Nat) (x : Lane) : (putLane n x s).hpe = s.hpe := rfl
@[simp] theorem putLane_dbg (n : Nat) (x : Lane) : (putLane n x s).dbg = s.dbg := rfl
@[simp] theorem putLane_hlk (n : Nat) (x : Lane) : (putLane n x s).hlk = s.hlk := rfl
@[simp] theorem putLane_rx (n : Nat) (x : Lane) : (putLane n x s).rx = s.rx := rfl
@[simp] theorem putLane_sas (n : Nat) (x : Lane) : (putLane n x s).sas = s.sas := rfl
@[simp] theorem putLane_pols (n : Nat) (x : Lane) : (putLane n x s).pols = s.pols := rfl
@[simp] theorem putLane_out (n : Nat) (x : Lane) : (putLane n x s).out = s.out := rfl
@[simp] theorem putLane_draws (n : Nat) (x : Lane) : (putLane n x s).draws = s.draws := rfl
@[simp] theorem putLane_pending (n : Nat) (x : Lane) : (putLane n x s).pending = s.pending := rfl

@[simp] theorem putGroup_mode (g : Nat) (x : Group) : (putGroup g x s).mode = s.mode := rfl
@[simp] theorem putGroup_fuses (g : Nat) (x : Group) : (putGroup g x s).fuses = s.fuses := rfl
@[simp] theorem putGroup_tsu (g : Nat) (x : Group) : (putGroup g x s).tsu = s.tsu := rfl
@[simp] theorem putGroup_cpx (g : Nat) (x : Group) : (putGroup g x s).cpx = s.cpx := rfl
@[simp] theorem putGroup_hood (g : Nat) (x : Group) : (putGroup g x s).hood = s.hood := rfl
@[simp] theorem putGroup_cfg (g : Nat) (x : Group) : (putGroup g x s).cfg = s.cfg := rfl
@[simp] theorem putGroup_err (g : Nat) (x : Group) : (putGroup g x s).err = s.err := rfl
@[simp] theorem putGroup_acc (g : Nat) (x : Group) : (putGroup g x s).acc = s.acc := rfl
@[simp] theorem putGroup_jic (g : Nat) (x : Group) : (putGroup g x s).jic = s.jic := rfl
@[simp] theorem putGroup_tel (g : Nat) (x : Group) : (putGroup g x s).tel = s.tel := rfl
@[simp] theorem putGroup_smc (g : Nat) (x : Group) : (putGroup g x s).smc = s.smc := rfl
@[simp] theorem putGroup_frc (g : Nat) (x : Group) : (putGroup g x s).frc = s.frc := rfl
@[simp] theorem putGroup_xdma (g : Nat) (x : Group) : (putGroup g x s).xdma = s.xdma := rfl
@[simp] theorem putGroup_lanes (g : Nat) (x : Group) : (putGroup g x s).lanes = s.lanes := rfl
@[simp] theorem putGroup_lif (g : Nat) (x : Group) : (putGroup g x s).lif = s.lif := rfl
@[simp] theorem putGroup_ports (g : Nat) (x : Group) : (putGroup g x s).ports = s.ports := rfl
@[simp] theorem putGroup_gates (g : Nat) (x : Group) : (putGroup g x s).gates = s.gates := rfl
@[simp] theorem putGroup_esh (g : Nat) (x : Group) : (putGroup g x s).esh = s.esh := rfl
@[simp] theorem putGroup_hpe (g : Nat) (x : Group) : (putGroup g x s).hpe = s.hpe := rfl
@[simp] theorem putGroup_dbg (g : Nat) (x : Group) : (putGroup g x s).dbg = s.dbg := rfl
@[simp] theorem putGroup_hlk (g : Nat) (x : Group) : (putGroup g x s).hlk = s.hlk := rfl
@[simp] theorem putGroup_rx (g : Nat) (x : Group) : (putGroup g x s).rx = s.rx := rfl
@[simp] theorem putGroup_sas (g : Nat) (x : Group) : (putGroup g x s).sas = s.sas := rfl
@[simp] theorem putGroup_pols (g : Nat) (x : Group) : (putGroup g x s).pols = s.pols := rfl
@[simp] theorem putGroup_out (g : Nat) (x : Group) : (putGroup g x s).out = s.out := rfl
@[simp] theorem putGroup_draws (g : Nat) (x : Group) : (putGroup g x s).draws = s.draws := rfl
@[simp] theorem putGroup_pending (g : Nat) (x : Group) : (putGroup g x s).pending = s.pending := rfl

@[simp] theorem putRing_mode (k : Nat) (r : Ring) : (putRing k r s).mode = s.mode := rfl
@[simp] theorem putRing_fuses (k : Nat) (r : Ring) : (putRing k r s).fuses = s.fuses := rfl
@[simp] theorem putRing_tsu (k : Nat) (r : Ring) : (putRing k r s).tsu = s.tsu := rfl
@[simp] theorem putRing_cpx (k : Nat) (r : Ring) : (putRing k r s).cpx = s.cpx := rfl
@[simp] theorem putRing_hood (k : Nat) (r : Ring) : (putRing k r s).hood = s.hood := rfl
@[simp] theorem putRing_cfg (k : Nat) (r : Ring) : (putRing k r s).cfg = s.cfg := rfl
@[simp] theorem putRing_err (k : Nat) (r : Ring) : (putRing k r s).err = s.err := rfl
@[simp] theorem putRing_acc (k : Nat) (r : Ring) : (putRing k r s).acc = s.acc := rfl
@[simp] theorem putRing_jic (k : Nat) (r : Ring) : (putRing k r s).jic = s.jic := rfl
@[simp] theorem putRing_tel (k : Nat) (r : Ring) : (putRing k r s).tel = s.tel := rfl
@[simp] theorem putRing_smc (k : Nat) (r : Ring) : (putRing k r s).smc = s.smc := rfl
@[simp] theorem putRing_frc (k : Nat) (r : Ring) : (putRing k r s).frc = s.frc := rfl
@[simp] theorem putRing_xdma (k : Nat) (r : Ring) : (putRing k r s).xdma = s.xdma := rfl
@[simp] theorem putRing_groups (k : Nat) (r : Ring) : (putRing k r s).groups = s.groups := rfl
@[simp] theorem putRing_lanes (k : Nat) (r : Ring) : (putRing k r s).lanes = s.lanes := rfl
@[simp] theorem putRing_lif (k : Nat) (r : Ring) : (putRing k r s).lif = s.lif := rfl
@[simp] theorem putRing_ports (k : Nat) (r : Ring) : (putRing k r s).ports = s.ports := rfl
@[simp] theorem putRing_gates (k : Nat) (r : Ring) : (putRing k r s).gates = s.gates := rfl
@[simp] theorem putRing_esh (k : Nat) (r : Ring) : (putRing k r s).esh = s.esh := rfl
@[simp] theorem putRing_dbg (k : Nat) (r : Ring) : (putRing k r s).dbg = s.dbg := rfl
@[simp] theorem putRing_hlk (k : Nat) (r : Ring) : (putRing k r s).hlk = s.hlk := rfl
@[simp] theorem putRing_rx (k : Nat) (r : Ring) : (putRing k r s).rx = s.rx := rfl
@[simp] theorem putRing_sas (k : Nat) (r : Ring) : (putRing k r s).sas = s.sas := rfl
@[simp] theorem putRing_pols (k : Nat) (r : Ring) : (putRing k r s).pols = s.pols := rfl
@[simp] theorem putRing_out (k : Nat) (r : Ring) : (putRing k r s).out = s.out := rfl
@[simp] theorem putRing_draws (k : Nat) (r : Ring) : (putRing k r s).draws = s.draws := rfl
@[simp] theorem putRing_pending (k : Nat) (r : Ring) : (putRing k r s).pending = s.pending := rfl

@[simp] theorem putReplies_mode (n : Nat) (l : List (Nat × Option Reply)) : (putReplies n l s).mode = s.mode := rfl
@[simp] theorem putReplies_fuses (n : Nat) (l : List (Nat × Option Reply)) : (putReplies n l s).fuses = s.fuses := rfl
@[simp] theorem putReplies_tsu (n : Nat) (l : List (Nat × Option Reply)) : (putReplies n l s).tsu = s.tsu := rfl
@[simp] theorem putReplies_cpx (n : Nat) (l : List (Nat × Option Reply)) : (putReplies n l s).cpx = s.cpx := rfl
@[simp] theorem putReplies_hood (n : Nat) (l : List (Nat × Option Reply)) : (putReplies n l s).hood = s.hood := rfl
@[simp] theorem putReplies_cfg (n : Nat) (l : List (Nat × Option Reply)) : (putReplies n l s).cfg = s.cfg := rfl
@[simp] theorem putReplies_err (n : Nat) (l : List (Nat × Option Reply)) : (putReplies n l s).err = s.err := rfl
@[simp] theorem putReplies_acc (n : Nat) (l : List (Nat × Option Reply)) : (putReplies n l s).acc = s.acc := rfl
@[simp] theorem putReplies_jic (n : Nat) (l : List (Nat × Option Reply)) : (putReplies n l s).jic = s.jic := rfl
@[simp] theorem putReplies_tel (n : Nat) (l : List (Nat × Option Reply)) : (putReplies n l s).tel = s.tel := rfl
@[simp] theorem putReplies_smc (n : Nat) (l : List (Nat × Option Reply)) : (putReplies n l s).smc = s.smc := rfl
@[simp] theorem putReplies_frc (n : Nat) (l : List (Nat × Option Reply)) : (putReplies n l s).frc = s.frc := rfl
@[simp] theorem putReplies_xdma (n : Nat) (l : List (Nat × Option Reply)) : (putReplies n l s).xdma = s.xdma := rfl
@[simp] theorem putReplies_groups (n : Nat) (l : List (Nat × Option Reply)) : (putReplies n l s).groups = s.groups := rfl
@[simp] theorem putReplies_lanes (n : Nat) (l : List (Nat × Option Reply)) : (putReplies n l s).lanes = s.lanes := rfl
@[simp] theorem putReplies_lif (n : Nat) (l : List (Nat × Option Reply)) : (putReplies n l s).lif = s.lif := rfl
@[simp] theorem putReplies_ports (n : Nat) (l : List (Nat × Option Reply)) : (putReplies n l s).ports = s.ports := rfl
@[simp] theorem putReplies_gates (n : Nat) (l : List (Nat × Option Reply)) : (putReplies n l s).gates = s.gates := rfl
@[simp] theorem putReplies_esh (n : Nat) (l : List (Nat × Option Reply)) : (putReplies n l s).esh = s.esh := rfl
@[simp] theorem putReplies_dbg (n : Nat) (l : List (Nat × Option Reply)) : (putReplies n l s).dbg = s.dbg := rfl
@[simp] theorem putReplies_hlk (n : Nat) (l : List (Nat × Option Reply)) : (putReplies n l s).hlk = s.hlk := rfl
@[simp] theorem putReplies_rx (n : Nat) (l : List (Nat × Option Reply)) : (putReplies n l s).rx = s.rx := rfl
@[simp] theorem putReplies_sas (n : Nat) (l : List (Nat × Option Reply)) : (putReplies n l s).sas = s.sas := rfl
@[simp] theorem putReplies_pols (n : Nat) (l : List (Nat × Option Reply)) : (putReplies n l s).pols = s.pols := rfl
@[simp] theorem putReplies_out (n : Nat) (l : List (Nat × Option Reply)) : (putReplies n l s).out = s.out := rfl
@[simp] theorem putReplies_draws (n : Nat) (l : List (Nat × Option Reply)) : (putReplies n l s).draws = s.draws := rfl
@[simp] theorem putReplies_pending (n : Nat) (l : List (Nat × Option Reply)) : (putReplies n l s).pending = s.pending := rfl

@[simp] theorem putUnit_mode (u : Nat) (e : ErrUnit) : (putUnit u e s).mode = s.mode := rfl
@[simp] theorem putUnit_fuses (u : Nat) (e : ErrUnit) : (putUnit u e s).fuses = s.fuses := rfl
@[simp] theorem putUnit_tsu (u : Nat) (e : ErrUnit) : (putUnit u e s).tsu = s.tsu := rfl
@[simp] theorem putUnit_cpx (u : Nat) (e : ErrUnit) : (putUnit u e s).cpx = s.cpx := rfl
@[simp] theorem putUnit_hood (u : Nat) (e : ErrUnit) : (putUnit u e s).hood = s.hood := rfl
@[simp] theorem putUnit_cfg (u : Nat) (e : ErrUnit) : (putUnit u e s).cfg = s.cfg := rfl
@[simp] theorem putUnit_acc (u : Nat) (e : ErrUnit) : (putUnit u e s).acc = s.acc := rfl
@[simp] theorem putUnit_jic (u : Nat) (e : ErrUnit) : (putUnit u e s).jic = s.jic := rfl
@[simp] theorem putUnit_tel (u : Nat) (e : ErrUnit) : (putUnit u e s).tel = s.tel := rfl
@[simp] theorem putUnit_smc (u : Nat) (e : ErrUnit) : (putUnit u e s).smc = s.smc := rfl
@[simp] theorem putUnit_frc (u : Nat) (e : ErrUnit) : (putUnit u e s).frc = s.frc := rfl
@[simp] theorem putUnit_xdma (u : Nat) (e : ErrUnit) : (putUnit u e s).xdma = s.xdma := rfl
@[simp] theorem putUnit_groups (u : Nat) (e : ErrUnit) : (putUnit u e s).groups = s.groups := rfl
@[simp] theorem putUnit_lanes (u : Nat) (e : ErrUnit) : (putUnit u e s).lanes = s.lanes := rfl
@[simp] theorem putUnit_lif (u : Nat) (e : ErrUnit) : (putUnit u e s).lif = s.lif := rfl
@[simp] theorem putUnit_ports (u : Nat) (e : ErrUnit) : (putUnit u e s).ports = s.ports := rfl
@[simp] theorem putUnit_gates (u : Nat) (e : ErrUnit) : (putUnit u e s).gates = s.gates := rfl
@[simp] theorem putUnit_esh (u : Nat) (e : ErrUnit) : (putUnit u e s).esh = s.esh := rfl
@[simp] theorem putUnit_hpe (u : Nat) (e : ErrUnit) : (putUnit u e s).hpe = s.hpe := rfl
@[simp] theorem putUnit_dbg (u : Nat) (e : ErrUnit) : (putUnit u e s).dbg = s.dbg := rfl
@[simp] theorem putUnit_hlk (u : Nat) (e : ErrUnit) : (putUnit u e s).hlk = s.hlk := rfl
@[simp] theorem putUnit_rx (u : Nat) (e : ErrUnit) : (putUnit u e s).rx = s.rx := rfl
@[simp] theorem putUnit_sas (u : Nat) (e : ErrUnit) : (putUnit u e s).sas = s.sas := rfl
@[simp] theorem putUnit_pols (u : Nat) (e : ErrUnit) : (putUnit u e s).pols = s.pols := rfl
@[simp] theorem putUnit_out (u : Nat) (e : ErrUnit) : (putUnit u e s).out = s.out := rfl
@[simp] theorem putUnit_draws (u : Nat) (e : ErrUnit) : (putUnit u e s).draws = s.draws := rfl
@[simp] theorem putUnit_pending (u : Nat) (e : ErrUnit) : (putUnit u e s).pending = s.pending := rfl

@[simp] theorem putTarget_mode (n : Nat) (x : TgtSt) : (putTarget n x s).mode = s.mode := rfl
@[simp] theorem putTarget_fuses (n : Nat) (x : TgtSt) : (putTarget n x s).fuses = s.fuses := rfl
@[simp] theorem putTarget_tsu (n : Nat) (x : TgtSt) : (putTarget n x s).tsu = s.tsu := rfl
@[simp] theorem putTarget_cpx (n : Nat) (x : TgtSt) : (putTarget n x s).cpx = s.cpx := rfl
@[simp] theorem putTarget_hood (n : Nat) (x : TgtSt) : (putTarget n x s).hood = s.hood := rfl
@[simp] theorem putTarget_cfg (n : Nat) (x : TgtSt) : (putTarget n x s).cfg = s.cfg := rfl
@[simp] theorem putTarget_err (n : Nat) (x : TgtSt) : (putTarget n x s).err = s.err := rfl
@[simp] theorem putTarget_acc (n : Nat) (x : TgtSt) : (putTarget n x s).acc = s.acc := rfl
@[simp] theorem putTarget_tel (n : Nat) (x : TgtSt) : (putTarget n x s).tel = s.tel := rfl
@[simp] theorem putTarget_smc (n : Nat) (x : TgtSt) : (putTarget n x s).smc = s.smc := rfl
@[simp] theorem putTarget_frc (n : Nat) (x : TgtSt) : (putTarget n x s).frc = s.frc := rfl
@[simp] theorem putTarget_xdma (n : Nat) (x : TgtSt) : (putTarget n x s).xdma = s.xdma := rfl
@[simp] theorem putTarget_groups (n : Nat) (x : TgtSt) : (putTarget n x s).groups = s.groups := rfl
@[simp] theorem putTarget_lanes (n : Nat) (x : TgtSt) : (putTarget n x s).lanes = s.lanes := rfl
@[simp] theorem putTarget_lif (n : Nat) (x : TgtSt) : (putTarget n x s).lif = s.lif := rfl
@[simp] theorem putTarget_ports (n : Nat) (x : TgtSt) : (putTarget n x s).ports = s.ports := rfl
@[simp] theorem putTarget_gates (n : Nat) (x : TgtSt) : (putTarget n x s).gates = s.gates := rfl
@[simp] theorem putTarget_esh (n : Nat) (x : TgtSt) : (putTarget n x s).esh = s.esh := rfl
@[simp] theorem putTarget_hpe (n : Nat) (x : TgtSt) : (putTarget n x s).hpe = s.hpe := rfl
@[simp] theorem putTarget_dbg (n : Nat) (x : TgtSt) : (putTarget n x s).dbg = s.dbg := rfl
@[simp] theorem putTarget_hlk (n : Nat) (x : TgtSt) : (putTarget n x s).hlk = s.hlk := rfl
@[simp] theorem putTarget_rx (n : Nat) (x : TgtSt) : (putTarget n x s).rx = s.rx := rfl
@[simp] theorem putTarget_sas (n : Nat) (x : TgtSt) : (putTarget n x s).sas = s.sas := rfl
@[simp] theorem putTarget_pols (n : Nat) (x : TgtSt) : (putTarget n x s).pols = s.pols := rfl
@[simp] theorem putTarget_out (n : Nat) (x : TgtSt) : (putTarget n x s).out = s.out := rfl
@[simp] theorem putTarget_draws (n : Nat) (x : TgtSt) : (putTarget n x s).draws = s.draws := rfl
@[simp] theorem putTarget_pending (n : Nat) (x : TgtSt) : (putTarget n x s).pending = s.pending := rfl

@[simp] theorem putRegion_mode (n : Nat) (r : Region) : (putRegion n r s).mode = s.mode := rfl
@[simp] theorem putRegion_fuses (n : Nat) (r : Region) : (putRegion n r s).fuses = s.fuses := rfl
@[simp] theorem putRegion_tsu (n : Nat) (r : Region) : (putRegion n r s).tsu = s.tsu := rfl
@[simp] theorem putRegion_cpx (n : Nat) (r : Region) : (putRegion n r s).cpx = s.cpx := rfl
@[simp] theorem putRegion_hood (n : Nat) (r : Region) : (putRegion n r s).hood = s.hood := rfl
@[simp] theorem putRegion_cfg (n : Nat) (r : Region) : (putRegion n r s).cfg = s.cfg := rfl
@[simp] theorem putRegion_err (n : Nat) (r : Region) : (putRegion n r s).err = s.err := rfl
@[simp] theorem putRegion_acc (n : Nat) (r : Region) : (putRegion n r s).acc = s.acc := rfl
@[simp] theorem putRegion_jic (n : Nat) (r : Region) : (putRegion n r s).jic = s.jic := rfl
@[simp] theorem putRegion_tel (n : Nat) (r : Region) : (putRegion n r s).tel = s.tel := rfl
@[simp] theorem putRegion_smc (n : Nat) (r : Region) : (putRegion n r s).smc = s.smc := rfl
@[simp] theorem putRegion_xdma (n : Nat) (r : Region) : (putRegion n r s).xdma = s.xdma := rfl
@[simp] theorem putRegion_groups (n : Nat) (r : Region) : (putRegion n r s).groups = s.groups := rfl
@[simp] theorem putRegion_lanes (n : Nat) (r : Region) : (putRegion n r s).lanes = s.lanes := rfl
@[simp] theorem putRegion_lif (n : Nat) (r : Region) : (putRegion n r s).lif = s.lif := rfl
@[simp] theorem putRegion_ports (n : Nat) (r : Region) : (putRegion n r s).ports = s.ports := rfl
@[simp] theorem putRegion_gates (n : Nat) (r : Region) : (putRegion n r s).gates = s.gates := rfl
@[simp] theorem putRegion_esh (n : Nat) (r : Region) : (putRegion n r s).esh = s.esh := rfl
@[simp] theorem putRegion_hpe (n : Nat) (r : Region) : (putRegion n r s).hpe = s.hpe := rfl
@[simp] theorem putRegion_dbg (n : Nat) (r : Region) : (putRegion n r s).dbg = s.dbg := rfl
@[simp] theorem putRegion_hlk (n : Nat) (r : Region) : (putRegion n r s).hlk = s.hlk := rfl
@[simp] theorem putRegion_rx (n : Nat) (r : Region) : (putRegion n r s).rx = s.rx := rfl
@[simp] theorem putRegion_sas (n : Nat) (r : Region) : (putRegion n r s).sas = s.sas := rfl
@[simp] theorem putRegion_pols (n : Nat) (r : Region) : (putRegion n r s).pols = s.pols := rfl
@[simp] theorem putRegion_out (n : Nat) (r : Region) : (putRegion n r s).out = s.out := rfl
@[simp] theorem putRegion_draws (n : Nat) (r : Region) : (putRegion n r s).draws = s.draws := rfl
@[simp] theorem putRegion_pending (n : Nat) (r : Region) : (putRegion n r s).pending = s.pending := rfl

@[simp] theorem putBudget_mode (g : Nat) (b : Budget) : (putBudget g b s).mode = s.mode := rfl
@[simp] theorem putBudget_fuses (g : Nat) (b : Budget) : (putBudget g b s).fuses = s.fuses := rfl
@[simp] theorem putBudget_tsu (g : Nat) (b : Budget) : (putBudget g b s).tsu = s.tsu := rfl
@[simp] theorem putBudget_cpx (g : Nat) (b : Budget) : (putBudget g b s).cpx = s.cpx := rfl
@[simp] theorem putBudget_hood (g : Nat) (b : Budget) : (putBudget g b s).hood = s.hood := rfl
@[simp] theorem putBudget_cfg (g : Nat) (b : Budget) : (putBudget g b s).cfg = s.cfg := rfl
@[simp] theorem putBudget_err (g : Nat) (b : Budget) : (putBudget g b s).err = s.err := rfl
@[simp] theorem putBudget_acc (g : Nat) (b : Budget) : (putBudget g b s).acc = s.acc := rfl
@[simp] theorem putBudget_jic (g : Nat) (b : Budget) : (putBudget g b s).jic = s.jic := rfl
@[simp] theorem putBudget_tel (g : Nat) (b : Budget) : (putBudget g b s).tel = s.tel := rfl
@[simp] theorem putBudget_smc (g : Nat) (b : Budget) : (putBudget g b s).smc = s.smc := rfl
@[simp] theorem putBudget_xdma (g : Nat) (b : Budget) : (putBudget g b s).xdma = s.xdma := rfl
@[simp] theorem putBudget_groups (g : Nat) (b : Budget) : (putBudget g b s).groups = s.groups := rfl
@[simp] theorem putBudget_lanes (g : Nat) (b : Budget) : (putBudget g b s).lanes = s.lanes := rfl
@[simp] theorem putBudget_lif (g : Nat) (b : Budget) : (putBudget g b s).lif = s.lif := rfl
@[simp] theorem putBudget_ports (g : Nat) (b : Budget) : (putBudget g b s).ports = s.ports := rfl
@[simp] theorem putBudget_gates (g : Nat) (b : Budget) : (putBudget g b s).gates = s.gates := rfl
@[simp] theorem putBudget_esh (g : Nat) (b : Budget) : (putBudget g b s).esh = s.esh := rfl
@[simp] theorem putBudget_hpe (g : Nat) (b : Budget) : (putBudget g b s).hpe = s.hpe := rfl
@[simp] theorem putBudget_dbg (g : Nat) (b : Budget) : (putBudget g b s).dbg = s.dbg := rfl
@[simp] theorem putBudget_hlk (g : Nat) (b : Budget) : (putBudget g b s).hlk = s.hlk := rfl
@[simp] theorem putBudget_rx (g : Nat) (b : Budget) : (putBudget g b s).rx = s.rx := rfl
@[simp] theorem putBudget_sas (g : Nat) (b : Budget) : (putBudget g b s).sas = s.sas := rfl
@[simp] theorem putBudget_pols (g : Nat) (b : Budget) : (putBudget g b s).pols = s.pols := rfl
@[simp] theorem putBudget_out (g : Nat) (b : Budget) : (putBudget g b s).out = s.out := rfl
@[simp] theorem putBudget_draws (g : Nat) (b : Budget) : (putBudget g b s).draws = s.draws := rfl
@[simp] theorem putBudget_pending (g : Nat) (b : Budget) : (putBudget g b s).pending = s.pending := rfl

@[simp] theorem putGate_mode (p : Nat) (g : GateSt) : (putGate p g s).mode = s.mode := rfl
@[simp] theorem putGate_fuses (p : Nat) (g : GateSt) : (putGate p g s).fuses = s.fuses := rfl
@[simp] theorem putGate_tsu (p : Nat) (g : GateSt) : (putGate p g s).tsu = s.tsu := rfl
@[simp] theorem putGate_cpx (p : Nat) (g : GateSt) : (putGate p g s).cpx = s.cpx := rfl
@[simp] theorem putGate_hood (p : Nat) (g : GateSt) : (putGate p g s).hood = s.hood := rfl
@[simp] theorem putGate_cfg (p : Nat) (g : GateSt) : (putGate p g s).cfg = s.cfg := rfl
@[simp] theorem putGate_err (p : Nat) (g : GateSt) : (putGate p g s).err = s.err := rfl
@[simp] theorem putGate_acc (p : Nat) (g : GateSt) : (putGate p g s).acc = s.acc := rfl
@[simp] theorem putGate_jic (p : Nat) (g : GateSt) : (putGate p g s).jic = s.jic := rfl
@[simp] theorem putGate_tel (p : Nat) (g : GateSt) : (putGate p g s).tel = s.tel := rfl
@[simp] theorem putGate_smc (p : Nat) (g : GateSt) : (putGate p g s).smc = s.smc := rfl
@[simp] theorem putGate_frc (p : Nat) (g : GateSt) : (putGate p g s).frc = s.frc := rfl
@[simp] theorem putGate_xdma (p : Nat) (g : GateSt) : (putGate p g s).xdma = s.xdma := rfl
@[simp] theorem putGate_groups (p : Nat) (g : GateSt) : (putGate p g s).groups = s.groups := rfl
@[simp] theorem putGate_lanes (p : Nat) (g : GateSt) : (putGate p g s).lanes = s.lanes := rfl
@[simp] theorem putGate_lif (p : Nat) (g : GateSt) : (putGate p g s).lif = s.lif := rfl
@[simp] theorem putGate_ports (p : Nat) (g : GateSt) : (putGate p g s).ports = s.ports := rfl
@[simp] theorem putGate_esh (p : Nat) (g : GateSt) : (putGate p g s).esh = s.esh := rfl
@[simp] theorem putGate_hpe (p : Nat) (g : GateSt) : (putGate p g s).hpe = s.hpe := rfl
@[simp] theorem putGate_dbg (p : Nat) (g : GateSt) : (putGate p g s).dbg = s.dbg := rfl
@[simp] theorem putGate_hlk (p : Nat) (g : GateSt) : (putGate p g s).hlk = s.hlk := rfl
@[simp] theorem putGate_rx (p : Nat) (g : GateSt) : (putGate p g s).rx = s.rx := rfl
@[simp] theorem putGate_sas (p : Nat) (g : GateSt) : (putGate p g s).sas = s.sas := rfl
@[simp] theorem putGate_pols (p : Nat) (g : GateSt) : (putGate p g s).pols = s.pols := rfl
@[simp] theorem putGate_out (p : Nat) (g : GateSt) : (putGate p g s).out = s.out := rfl
@[simp] theorem putGate_draws (p : Nat) (g : GateSt) : (putGate p g s).draws = s.draws := rfl
@[simp] theorem putGate_pending (p : Nat) (g : GateSt) : (putGate p g s).pending = s.pending := rfl

@[simp] theorem putAcc_mode (i : Nat) (a : AccSt) : (putAcc i a s).mode = s.mode := rfl
@[simp] theorem putAcc_fuses (i : Nat) (a : AccSt) : (putAcc i a s).fuses = s.fuses := rfl
@[simp] theorem putAcc_tsu (i : Nat) (a : AccSt) : (putAcc i a s).tsu = s.tsu := rfl
@[simp] theorem putAcc_cpx (i : Nat) (a : AccSt) : (putAcc i a s).cpx = s.cpx := rfl
@[simp] theorem putAcc_hood (i : Nat) (a : AccSt) : (putAcc i a s).hood = s.hood := rfl
@[simp] theorem putAcc_cfg (i : Nat) (a : AccSt) : (putAcc i a s).cfg = s.cfg := rfl
@[simp] theorem putAcc_err (i : Nat) (a : AccSt) : (putAcc i a s).err = s.err := rfl
@[simp] theorem putAcc_jic (i : Nat) (a : AccSt) : (putAcc i a s).jic = s.jic := rfl
@[simp] theorem putAcc_tel (i : Nat) (a : AccSt) : (putAcc i a s).tel = s.tel := rfl
@[simp] theorem putAcc_smc (i : Nat) (a : AccSt) : (putAcc i a s).smc = s.smc := rfl
@[simp] theorem putAcc_frc (i : Nat) (a : AccSt) : (putAcc i a s).frc = s.frc := rfl
@[simp] theorem putAcc_xdma (i : Nat) (a : AccSt) : (putAcc i a s).xdma = s.xdma := rfl
@[simp] theorem putAcc_groups (i : Nat) (a : AccSt) : (putAcc i a s).groups = s.groups := rfl
@[simp] theorem putAcc_lanes (i : Nat) (a : AccSt) : (putAcc i a s).lanes = s.lanes := rfl
@[simp] theorem putAcc_lif (i : Nat) (a : AccSt) : (putAcc i a s).lif = s.lif := rfl
@[simp] theorem putAcc_ports (i : Nat) (a : AccSt) : (putAcc i a s).ports = s.ports := rfl
@[simp] theorem putAcc_gates (i : Nat) (a : AccSt) : (putAcc i a s).gates = s.gates := rfl
@[simp] theorem putAcc_esh (i : Nat) (a : AccSt) : (putAcc i a s).esh = s.esh := rfl
@[simp] theorem putAcc_hpe (i : Nat) (a : AccSt) : (putAcc i a s).hpe = s.hpe := rfl
@[simp] theorem putAcc_dbg (i : Nat) (a : AccSt) : (putAcc i a s).dbg = s.dbg := rfl
@[simp] theorem putAcc_hlk (i : Nat) (a : AccSt) : (putAcc i a s).hlk = s.hlk := rfl
@[simp] theorem putAcc_rx (i : Nat) (a : AccSt) : (putAcc i a s).rx = s.rx := rfl
@[simp] theorem putAcc_sas (i : Nat) (a : AccSt) : (putAcc i a s).sas = s.sas := rfl
@[simp] theorem putAcc_pols (i : Nat) (a : AccSt) : (putAcc i a s).pols = s.pols := rfl
@[simp] theorem putAcc_out (i : Nat) (a : AccSt) : (putAcc i a s).out = s.out := rfl
@[simp] theorem putAcc_draws (i : Nat) (a : AccSt) : (putAcc i a s).draws = s.draws := rfl
@[simp] theorem putAcc_pending (i : Nat) (a : AccSt) : (putAcc i a s).pending = s.pending := rfl

@[simp] theorem putX_mode (c : Nat) (x : XChan) : (putX c x s).mode = s.mode := rfl
@[simp] theorem putX_fuses (c : Nat) (x : XChan) : (putX c x s).fuses = s.fuses := rfl
@[simp] theorem putX_tsu (c : Nat) (x : XChan) : (putX c x s).tsu = s.tsu := rfl
@[simp] theorem putX_cpx (c : Nat) (x : XChan) : (putX c x s).cpx = s.cpx := rfl
@[simp] theorem putX_hood (c : Nat) (x : XChan) : (putX c x s).hood = s.hood := rfl
@[simp] theorem putX_cfg (c : Nat) (x : XChan) : (putX c x s).cfg = s.cfg := rfl
@[simp] theorem putX_err (c : Nat) (x : XChan) : (putX c x s).err = s.err := rfl
@[simp] theorem putX_acc (c : Nat) (x : XChan) : (putX c x s).acc = s.acc := rfl
@[simp] theorem putX_jic (c : Nat) (x : XChan) : (putX c x s).jic = s.jic := rfl
@[simp] theorem putX_tel (c : Nat) (x : XChan) : (putX c x s).tel = s.tel := rfl
@[simp] theorem putX_smc (c : Nat) (x : XChan) : (putX c x s).smc = s.smc := rfl
@[simp] theorem putX_frc (c : Nat) (x : XChan) : (putX c x s).frc = s.frc := rfl
@[simp] theorem putX_groups (c : Nat) (x : XChan) : (putX c x s).groups = s.groups := rfl
@[simp] theorem putX_lanes (c : Nat) (x : XChan) : (putX c x s).lanes = s.lanes := rfl
@[simp] theorem putX_lif (c : Nat) (x : XChan) : (putX c x s).lif = s.lif := rfl
@[simp] theorem putX_ports (c : Nat) (x : XChan) : (putX c x s).ports = s.ports := rfl
@[simp] theorem putX_gates (c : Nat) (x : XChan) : (putX c x s).gates = s.gates := rfl
@[simp] theorem putX_esh (c : Nat) (x : XChan) : (putX c x s).esh = s.esh := rfl
@[simp] theorem putX_hpe (c : Nat) (x : XChan) : (putX c x s).hpe = s.hpe := rfl
@[simp] theorem putX_dbg (c : Nat) (x : XChan) : (putX c x s).dbg = s.dbg := rfl
@[simp] theorem putX_hlk (c : Nat) (x : XChan) : (putX c x s).hlk = s.hlk := rfl
@[simp] theorem putX_rx (c : Nat) (x : XChan) : (putX c x s).rx = s.rx := rfl
@[simp] theorem putX_sas (c : Nat) (x : XChan) : (putX c x s).sas = s.sas := rfl
@[simp] theorem putX_pols (c : Nat) (x : XChan) : (putX c x s).pols = s.pols := rfl
@[simp] theorem putX_out (c : Nat) (x : XChan) : (putX c x s).out = s.out := rfl
@[simp] theorem putX_draws (c : Nat) (x : XChan) : (putX c x s).draws = s.draws := rfl
@[simp] theorem putX_pending (c : Nat) (x : XChan) : (putX c x s).pending = s.pending := rfl

@[simp] theorem putRank_mode (r : Nat) (x : RankInfo) : (putRank r x s).mode = s.mode := rfl
@[simp] theorem putRank_fuses (r : Nat) (x : RankInfo) : (putRank r x s).fuses = s.fuses := rfl
@[simp] theorem putRank_tsu (r : Nat) (x : RankInfo) : (putRank r x s).tsu = s.tsu := rfl
@[simp] theorem putRank_cpx (r : Nat) (x : RankInfo) : (putRank r x s).cpx = s.cpx := rfl
@[simp] theorem putRank_hood (r : Nat) (x : RankInfo) : (putRank r x s).hood = s.hood := rfl
@[simp] theorem putRank_cfg (r : Nat) (x : RankInfo) : (putRank r x s).cfg = s.cfg := rfl
@[simp] theorem putRank_err (r : Nat) (x : RankInfo) : (putRank r x s).err = s.err := rfl
@[simp] theorem putRank_acc (r : Nat) (x : RankInfo) : (putRank r x s).acc = s.acc := rfl
@[simp] theorem putRank_jic (r : Nat) (x : RankInfo) : (putRank r x s).jic = s.jic := rfl
@[simp] theorem putRank_tel (r : Nat) (x : RankInfo) : (putRank r x s).tel = s.tel := rfl
@[simp] theorem putRank_frc (r : Nat) (x : RankInfo) : (putRank r x s).frc = s.frc := rfl
@[simp] theorem putRank_xdma (r : Nat) (x : RankInfo) : (putRank r x s).xdma = s.xdma := rfl
@[simp] theorem putRank_groups (r : Nat) (x : RankInfo) : (putRank r x s).groups = s.groups := rfl
@[simp] theorem putRank_lanes (r : Nat) (x : RankInfo) : (putRank r x s).lanes = s.lanes := rfl
@[simp] theorem putRank_lif (r : Nat) (x : RankInfo) : (putRank r x s).lif = s.lif := rfl
@[simp] theorem putRank_ports (r : Nat) (x : RankInfo) : (putRank r x s).ports = s.ports := rfl
@[simp] theorem putRank_gates (r : Nat) (x : RankInfo) : (putRank r x s).gates = s.gates := rfl
@[simp] theorem putRank_esh (r : Nat) (x : RankInfo) : (putRank r x s).esh = s.esh := rfl
@[simp] theorem putRank_hpe (r : Nat) (x : RankInfo) : (putRank r x s).hpe = s.hpe := rfl
@[simp] theorem putRank_dbg (r : Nat) (x : RankInfo) : (putRank r x s).dbg = s.dbg := rfl
@[simp] theorem putRank_hlk (r : Nat) (x : RankInfo) : (putRank r x s).hlk = s.hlk := rfl
@[simp] theorem putRank_rx (r : Nat) (x : RankInfo) : (putRank r x s).rx = s.rx := rfl
@[simp] theorem putRank_sas (r : Nat) (x : RankInfo) : (putRank r x s).sas = s.sas := rfl
@[simp] theorem putRank_pols (r : Nat) (x : RankInfo) : (putRank r x s).pols = s.pols := rfl
@[simp] theorem putRank_out (r : Nat) (x : RankInfo) : (putRank r x s).out = s.out := rfl
@[simp] theorem putRank_draws (r : Nat) (x : RankInfo) : (putRank r x s).draws = s.draws := rfl
@[simp] theorem putRank_pending (r : Nat) (x : RankInfo) : (putRank r x s).pending = s.pending := rfl

@[simp] theorem putChan_mode (c : Nat) (x : ChanInfo) : (putChan c x s).mode = s.mode := rfl
@[simp] theorem putChan_fuses (c : Nat) (x : ChanInfo) : (putChan c x s).fuses = s.fuses := rfl
@[simp] theorem putChan_tsu (c : Nat) (x : ChanInfo) : (putChan c x s).tsu = s.tsu := rfl
@[simp] theorem putChan_cpx (c : Nat) (x : ChanInfo) : (putChan c x s).cpx = s.cpx := rfl
@[simp] theorem putChan_hood (c : Nat) (x : ChanInfo) : (putChan c x s).hood = s.hood := rfl
@[simp] theorem putChan_cfg (c : Nat) (x : ChanInfo) : (putChan c x s).cfg = s.cfg := rfl
@[simp] theorem putChan_err (c : Nat) (x : ChanInfo) : (putChan c x s).err = s.err := rfl
@[simp] theorem putChan_acc (c : Nat) (x : ChanInfo) : (putChan c x s).acc = s.acc := rfl
@[simp] theorem putChan_jic (c : Nat) (x : ChanInfo) : (putChan c x s).jic = s.jic := rfl
@[simp] theorem putChan_tel (c : Nat) (x : ChanInfo) : (putChan c x s).tel = s.tel := rfl
@[simp] theorem putChan_frc (c : Nat) (x : ChanInfo) : (putChan c x s).frc = s.frc := rfl
@[simp] theorem putChan_xdma (c : Nat) (x : ChanInfo) : (putChan c x s).xdma = s.xdma := rfl
@[simp] theorem putChan_groups (c : Nat) (x : ChanInfo) : (putChan c x s).groups = s.groups := rfl
@[simp] theorem putChan_lanes (c : Nat) (x : ChanInfo) : (putChan c x s).lanes = s.lanes := rfl
@[simp] theorem putChan_lif (c : Nat) (x : ChanInfo) : (putChan c x s).lif = s.lif := rfl
@[simp] theorem putChan_ports (c : Nat) (x : ChanInfo) : (putChan c x s).ports = s.ports := rfl
@[simp] theorem putChan_gates (c : Nat) (x : ChanInfo) : (putChan c x s).gates = s.gates := rfl
@[simp] theorem putChan_esh (c : Nat) (x : ChanInfo) : (putChan c x s).esh = s.esh := rfl
@[simp] theorem putChan_hpe (c : Nat) (x : ChanInfo) : (putChan c x s).hpe = s.hpe := rfl
@[simp] theorem putChan_dbg (c : Nat) (x : ChanInfo) : (putChan c x s).dbg = s.dbg := rfl
@[simp] theorem putChan_hlk (c : Nat) (x : ChanInfo) : (putChan c x s).hlk = s.hlk := rfl
@[simp] theorem putChan_rx (c : Nat) (x : ChanInfo) : (putChan c x s).rx = s.rx := rfl
@[simp] theorem putChan_sas (c : Nat) (x : ChanInfo) : (putChan c x s).sas = s.sas := rfl
@[simp] theorem putChan_pols (c : Nat) (x : ChanInfo) : (putChan c x s).pols = s.pols := rfl
@[simp] theorem putChan_out (c : Nat) (x : ChanInfo) : (putChan c x s).out = s.out := rfl
@[simp] theorem putChan_draws (c : Nat) (x : ChanInfo) : (putChan c x s).draws = s.draws := rfl
@[simp] theorem putChan_pending (c : Nat) (x : ChanInfo) : (putChan c x s).pending = s.pending := rfl

@[simp] theorem putRx_mode (g : Nat) (x : RxGroup) : (putRx g x s).mode = s.mode := rfl
@[simp] theorem putRx_fuses (g : Nat) (x : RxGroup) : (putRx g x s).fuses = s.fuses := rfl
@[simp] theorem putRx_tsu (g : Nat) (x : RxGroup) : (putRx g x s).tsu = s.tsu := rfl
@[simp] theorem putRx_cpx (g : Nat) (x : RxGroup) : (putRx g x s).cpx = s.cpx := rfl
@[simp] theorem putRx_hood (g : Nat) (x : RxGroup) : (putRx g x s).hood = s.hood := rfl
@[simp] theorem putRx_cfg (g : Nat) (x : RxGroup) : (putRx g x s).cfg = s.cfg := rfl
@[simp] theorem putRx_err (g : Nat) (x : RxGroup) : (putRx g x s).err = s.err := rfl
@[simp] theorem putRx_acc (g : Nat) (x : RxGroup) : (putRx g x s).acc = s.acc := rfl
@[simp] theorem putRx_jic (g : Nat) (x : RxGroup) : (putRx g x s).jic = s.jic := rfl
@[simp] theorem putRx_tel (g : Nat) (x : RxGroup) : (putRx g x s).tel = s.tel := rfl
@[simp] theorem putRx_smc (g : Nat) (x : RxGroup) : (putRx g x s).smc = s.smc := rfl
@[simp] theorem putRx_frc (g : Nat) (x : RxGroup) : (putRx g x s).frc = s.frc := rfl
@[simp] theorem putRx_xdma (g : Nat) (x : RxGroup) : (putRx g x s).xdma = s.xdma := rfl
@[simp] theorem putRx_groups (g : Nat) (x : RxGroup) : (putRx g x s).groups = s.groups := rfl
@[simp] theorem putRx_lanes (g : Nat) (x : RxGroup) : (putRx g x s).lanes = s.lanes := rfl
@[simp] theorem putRx_lif (g : Nat) (x : RxGroup) : (putRx g x s).lif = s.lif := rfl
@[simp] theorem putRx_ports (g : Nat) (x : RxGroup) : (putRx g x s).ports = s.ports := rfl
@[simp] theorem putRx_gates (g : Nat) (x : RxGroup) : (putRx g x s).gates = s.gates := rfl
@[simp] theorem putRx_esh (g : Nat) (x : RxGroup) : (putRx g x s).esh = s.esh := rfl
@[simp] theorem putRx_hpe (g : Nat) (x : RxGroup) : (putRx g x s).hpe = s.hpe := rfl
@[simp] theorem putRx_dbg (g : Nat) (x : RxGroup) : (putRx g x s).dbg = s.dbg := rfl
@[simp] theorem putRx_hlk (g : Nat) (x : RxGroup) : (putRx g x s).hlk = s.hlk := rfl
@[simp] theorem putRx_sas (g : Nat) (x : RxGroup) : (putRx g x s).sas = s.sas := rfl
@[simp] theorem putRx_pols (g : Nat) (x : RxGroup) : (putRx g x s).pols = s.pols := rfl
@[simp] theorem putRx_out (g : Nat) (x : RxGroup) : (putRx g x s).out = s.out := rfl
@[simp] theorem putRx_draws (g : Nat) (x : RxGroup) : (putRx g x s).draws = s.draws := rfl
@[simp] theorem putRx_pending (g : Nat) (x : RxGroup) : (putRx g x s).pending = s.pending := rfl

@[simp] theorem putEngine_mode (g : Nat) (e : Engine) : (putEngine g e s).mode = s.mode := rfl
@[simp] theorem putEngine_fuses (g : Nat) (e : Engine) : (putEngine g e s).fuses = s.fuses := rfl
@[simp] theorem putEngine_tsu (g : Nat) (e : Engine) : (putEngine g e s).tsu = s.tsu := rfl
@[simp] theorem putEngine_cpx (g : Nat) (e : Engine) : (putEngine g e s).cpx = s.cpx := rfl
@[simp] theorem putEngine_hood (g : Nat) (e : Engine) : (putEngine g e s).hood = s.hood := rfl
@[simp] theorem putEngine_cfg (g : Nat) (e : Engine) : (putEngine g e s).cfg = s.cfg := rfl
@[simp] theorem putEngine_err (g : Nat) (e : Engine) : (putEngine g e s).err = s.err := rfl
@[simp] theorem putEngine_acc (g : Nat) (e : Engine) : (putEngine g e s).acc = s.acc := rfl
@[simp] theorem putEngine_jic (g : Nat) (e : Engine) : (putEngine g e s).jic = s.jic := rfl
@[simp] theorem putEngine_tel (g : Nat) (e : Engine) : (putEngine g e s).tel = s.tel := rfl
@[simp] theorem putEngine_smc (g : Nat) (e : Engine) : (putEngine g e s).smc = s.smc := rfl
@[simp] theorem putEngine_frc (g : Nat) (e : Engine) : (putEngine g e s).frc = s.frc := rfl
@[simp] theorem putEngine_xdma (g : Nat) (e : Engine) : (putEngine g e s).xdma = s.xdma := rfl
@[simp] theorem putEngine_groups (g : Nat) (e : Engine) : (putEngine g e s).groups = s.groups := rfl
@[simp] theorem putEngine_lanes (g : Nat) (e : Engine) : (putEngine g e s).lanes = s.lanes := rfl
@[simp] theorem putEngine_lif (g : Nat) (e : Engine) : (putEngine g e s).lif = s.lif := rfl
@[simp] theorem putEngine_ports (g : Nat) (e : Engine) : (putEngine g e s).ports = s.ports := rfl
@[simp] theorem putEngine_gates (g : Nat) (e : Engine) : (putEngine g e s).gates = s.gates := rfl
@[simp] theorem putEngine_hpe (g : Nat) (e : Engine) : (putEngine g e s).hpe = s.hpe := rfl
@[simp] theorem putEngine_dbg (g : Nat) (e : Engine) : (putEngine g e s).dbg = s.dbg := rfl
@[simp] theorem putEngine_hlk (g : Nat) (e : Engine) : (putEngine g e s).hlk = s.hlk := rfl
@[simp] theorem putEngine_rx (g : Nat) (e : Engine) : (putEngine g e s).rx = s.rx := rfl
@[simp] theorem putEngine_sas (g : Nat) (e : Engine) : (putEngine g e s).sas = s.sas := rfl
@[simp] theorem putEngine_pols (g : Nat) (e : Engine) : (putEngine g e s).pols = s.pols := rfl
@[simp] theorem putEngine_out (g : Nat) (e : Engine) : (putEngine g e s).out = s.out := rfl
@[simp] theorem putEngine_draws (g : Nat) (e : Engine) : (putEngine g e s).draws = s.draws := rfl
@[simp] theorem putEngine_pending (g : Nat) (e : Engine) : (putEngine g e s).pending = s.pending := rfl

@[simp] theorem putLeaf_mode (n : Nat) (x : Sched) : (putLeaf n x s).mode = s.mode := rfl
@[simp] theorem putLeaf_fuses (n : Nat) (x : Sched) : (putLeaf n x s).fuses = s.fuses := rfl
@[simp] theorem putLeaf_tsu (n : Nat) (x : Sched) : (putLeaf n x s).tsu = s.tsu := rfl
@[simp] theorem putLeaf_cpx (n : Nat) (x : Sched) : (putLeaf n x s).cpx = s.cpx := rfl
@[simp] theorem putLeaf_hood (n : Nat) (x : Sched) : (putLeaf n x s).hood = s.hood := rfl
@[simp] theorem putLeaf_cfg (n : Nat) (x : Sched) : (putLeaf n x s).cfg = s.cfg := rfl
@[simp] theorem putLeaf_err (n : Nat) (x : Sched) : (putLeaf n x s).err = s.err := rfl
@[simp] theorem putLeaf_acc (n : Nat) (x : Sched) : (putLeaf n x s).acc = s.acc := rfl
@[simp] theorem putLeaf_jic (n : Nat) (x : Sched) : (putLeaf n x s).jic = s.jic := rfl
@[simp] theorem putLeaf_tel (n : Nat) (x : Sched) : (putLeaf n x s).tel = s.tel := rfl
@[simp] theorem putLeaf_smc (n : Nat) (x : Sched) : (putLeaf n x s).smc = s.smc := rfl
@[simp] theorem putLeaf_frc (n : Nat) (x : Sched) : (putLeaf n x s).frc = s.frc := rfl
@[simp] theorem putLeaf_xdma (n : Nat) (x : Sched) : (putLeaf n x s).xdma = s.xdma := rfl
@[simp] theorem putLeaf_groups (n : Nat) (x : Sched) : (putLeaf n x s).groups = s.groups := rfl
@[simp] theorem putLeaf_lanes (n : Nat) (x : Sched) : (putLeaf n x s).lanes = s.lanes := rfl
@[simp] theorem putLeaf_lif (n : Nat) (x : Sched) : (putLeaf n x s).lif = s.lif := rfl
@[simp] theorem putLeaf_ports (n : Nat) (x : Sched) : (putLeaf n x s).ports = s.ports := rfl
@[simp] theorem putLeaf_gates (n : Nat) (x : Sched) : (putLeaf n x s).gates = s.gates := rfl
@[simp] theorem putLeaf_hpe (n : Nat) (x : Sched) : (putLeaf n x s).hpe = s.hpe := rfl
@[simp] theorem putLeaf_dbg (n : Nat) (x : Sched) : (putLeaf n x s).dbg = s.dbg := rfl
@[simp] theorem putLeaf_hlk (n : Nat) (x : Sched) : (putLeaf n x s).hlk = s.hlk := rfl
@[simp] theorem putLeaf_rx (n : Nat) (x : Sched) : (putLeaf n x s).rx = s.rx := rfl
@[simp] theorem putLeaf_sas (n : Nat) (x : Sched) : (putLeaf n x s).sas = s.sas := rfl
@[simp] theorem putLeaf_pols (n : Nat) (x : Sched) : (putLeaf n x s).pols = s.pols := rfl
@[simp] theorem putLeaf_out (n : Nat) (x : Sched) : (putLeaf n x s).out = s.out := rfl
@[simp] theorem putLeaf_draws (n : Nat) (x : Sched) : (putLeaf n x s).draws = s.draws := rfl
@[simp] theorem putLeaf_pending (n : Nat) (x : Sched) : (putLeaf n x s).pending = s.pending := rfl

@[simp] theorem putNode_mode (n : Nat) (x : Sched) : (putNode n x s).mode = s.mode := rfl
@[simp] theorem putNode_fuses (n : Nat) (x : Sched) : (putNode n x s).fuses = s.fuses := rfl
@[simp] theorem putNode_tsu (n : Nat) (x : Sched) : (putNode n x s).tsu = s.tsu := rfl
@[simp] theorem putNode_cpx (n : Nat) (x : Sched) : (putNode n x s).cpx = s.cpx := rfl
@[simp] theorem putNode_hood (n : Nat) (x : Sched) : (putNode n x s).hood = s.hood := rfl
@[simp] theorem putNode_cfg (n : Nat) (x : Sched) : (putNode n x s).cfg = s.cfg := rfl
@[simp] theorem putNode_err (n : Nat) (x : Sched) : (putNode n x s).err = s.err := rfl
@[simp] theorem putNode_acc (n : Nat) (x : Sched) : (putNode n x s).acc = s.acc := rfl
@[simp] theorem putNode_jic (n : Nat) (x : Sched) : (putNode n x s).jic = s.jic := rfl
@[simp] theorem putNode_tel (n : Nat) (x : Sched) : (putNode n x s).tel = s.tel := rfl
@[simp] theorem putNode_smc (n : Nat) (x : Sched) : (putNode n x s).smc = s.smc := rfl
@[simp] theorem putNode_frc (n : Nat) (x : Sched) : (putNode n x s).frc = s.frc := rfl
@[simp] theorem putNode_xdma (n : Nat) (x : Sched) : (putNode n x s).xdma = s.xdma := rfl
@[simp] theorem putNode_groups (n : Nat) (x : Sched) : (putNode n x s).groups = s.groups := rfl
@[simp] theorem putNode_lanes (n : Nat) (x : Sched) : (putNode n x s).lanes = s.lanes := rfl
@[simp] theorem putNode_lif (n : Nat) (x : Sched) : (putNode n x s).lif = s.lif := rfl
@[simp] theorem putNode_ports (n : Nat) (x : Sched) : (putNode n x s).ports = s.ports := rfl
@[simp] theorem putNode_gates (n : Nat) (x : Sched) : (putNode n x s).gates = s.gates := rfl
@[simp] theorem putNode_hpe (n : Nat) (x : Sched) : (putNode n x s).hpe = s.hpe := rfl
@[simp] theorem putNode_dbg (n : Nat) (x : Sched) : (putNode n x s).dbg = s.dbg := rfl
@[simp] theorem putNode_hlk (n : Nat) (x : Sched) : (putNode n x s).hlk = s.hlk := rfl
@[simp] theorem putNode_rx (n : Nat) (x : Sched) : (putNode n x s).rx = s.rx := rfl
@[simp] theorem putNode_sas (n : Nat) (x : Sched) : (putNode n x s).sas = s.sas := rfl
@[simp] theorem putNode_pols (n : Nat) (x : Sched) : (putNode n x s).pols = s.pols := rfl
@[simp] theorem putNode_out (n : Nat) (x : Sched) : (putNode n x s).out = s.out := rfl
@[simp] theorem putNode_draws (n : Nat) (x : Sched) : (putNode n x s).draws = s.draws := rfl
@[simp] theorem putNode_pending (n : Nat) (x : Sched) : (putNode n x s).pending = s.pending := rfl

@[simp] theorem putClass_mode (p k : Nat) (x : Sched) : (putClass p k x s).mode = s.mode := rfl
@[simp] theorem putClass_fuses (p k : Nat) (x : Sched) : (putClass p k x s).fuses = s.fuses := rfl
@[simp] theorem putClass_tsu (p k : Nat) (x : Sched) : (putClass p k x s).tsu = s.tsu := rfl
@[simp] theorem putClass_cpx (p k : Nat) (x : Sched) : (putClass p k x s).cpx = s.cpx := rfl
@[simp] theorem putClass_hood (p k : Nat) (x : Sched) : (putClass p k x s).hood = s.hood := rfl
@[simp] theorem putClass_cfg (p k : Nat) (x : Sched) : (putClass p k x s).cfg = s.cfg := rfl
@[simp] theorem putClass_err (p k : Nat) (x : Sched) : (putClass p k x s).err = s.err := rfl
@[simp] theorem putClass_acc (p k : Nat) (x : Sched) : (putClass p k x s).acc = s.acc := rfl
@[simp] theorem putClass_jic (p k : Nat) (x : Sched) : (putClass p k x s).jic = s.jic := rfl
@[simp] theorem putClass_tel (p k : Nat) (x : Sched) : (putClass p k x s).tel = s.tel := rfl
@[simp] theorem putClass_smc (p k : Nat) (x : Sched) : (putClass p k x s).smc = s.smc := rfl
@[simp] theorem putClass_frc (p k : Nat) (x : Sched) : (putClass p k x s).frc = s.frc := rfl
@[simp] theorem putClass_xdma (p k : Nat) (x : Sched) : (putClass p k x s).xdma = s.xdma := rfl
@[simp] theorem putClass_groups (p k : Nat) (x : Sched) : (putClass p k x s).groups = s.groups := rfl
@[simp] theorem putClass_lanes (p k : Nat) (x : Sched) : (putClass p k x s).lanes = s.lanes := rfl
@[simp] theorem putClass_lif (p k : Nat) (x : Sched) : (putClass p k x s).lif = s.lif := rfl
@[simp] theorem putClass_ports (p k : Nat) (x : Sched) : (putClass p k x s).ports = s.ports := rfl
@[simp] theorem putClass_gates (p k : Nat) (x : Sched) : (putClass p k x s).gates = s.gates := rfl
@[simp] theorem putClass_hpe (p k : Nat) (x : Sched) : (putClass p k x s).hpe = s.hpe := rfl
@[simp] theorem putClass_dbg (p k : Nat) (x : Sched) : (putClass p k x s).dbg = s.dbg := rfl
@[simp] theorem putClass_hlk (p k : Nat) (x : Sched) : (putClass p k x s).hlk = s.hlk := rfl
@[simp] theorem putClass_rx (p k : Nat) (x : Sched) : (putClass p k x s).rx = s.rx := rfl
@[simp] theorem putClass_sas (p k : Nat) (x : Sched) : (putClass p k x s).sas = s.sas := rfl
@[simp] theorem putClass_pols (p k : Nat) (x : Sched) : (putClass p k x s).pols = s.pols := rfl
@[simp] theorem putClass_out (p k : Nat) (x : Sched) : (putClass p k x s).out = s.out := rfl
@[simp] theorem putClass_draws (p k : Nat) (x : Sched) : (putClass p k x s).draws = s.draws := rfl
@[simp] theorem putClass_pending (p k : Nat) (x : Sched) : (putClass p k x s).pending = s.pending := rfl

@[simp] theorem putPortObj_mode (p : Nat) (x : Sched) : (putPortObj p x s).mode = s.mode := rfl
@[simp] theorem putPortObj_fuses (p : Nat) (x : Sched) : (putPortObj p x s).fuses = s.fuses := rfl
@[simp] theorem putPortObj_tsu (p : Nat) (x : Sched) : (putPortObj p x s).tsu = s.tsu := rfl
@[simp] theorem putPortObj_cpx (p : Nat) (x : Sched) : (putPortObj p x s).cpx = s.cpx := rfl
@[simp] theorem putPortObj_hood (p : Nat) (x : Sched) : (putPortObj p x s).hood = s.hood := rfl
@[simp] theorem putPortObj_cfg (p : Nat) (x : Sched) : (putPortObj p x s).cfg = s.cfg := rfl
@[simp] theorem putPortObj_err (p : Nat) (x : Sched) : (putPortObj p x s).err = s.err := rfl
@[simp] theorem putPortObj_acc (p : Nat) (x : Sched) : (putPortObj p x s).acc = s.acc := rfl
@[simp] theorem putPortObj_jic (p : Nat) (x : Sched) : (putPortObj p x s).jic = s.jic := rfl
@[simp] theorem putPortObj_tel (p : Nat) (x : Sched) : (putPortObj p x s).tel = s.tel := rfl
@[simp] theorem putPortObj_smc (p : Nat) (x : Sched) : (putPortObj p x s).smc = s.smc := rfl
@[simp] theorem putPortObj_frc (p : Nat) (x : Sched) : (putPortObj p x s).frc = s.frc := rfl
@[simp] theorem putPortObj_xdma (p : Nat) (x : Sched) : (putPortObj p x s).xdma = s.xdma := rfl
@[simp] theorem putPortObj_groups (p : Nat) (x : Sched) : (putPortObj p x s).groups = s.groups := rfl
@[simp] theorem putPortObj_lanes (p : Nat) (x : Sched) : (putPortObj p x s).lanes = s.lanes := rfl
@[simp] theorem putPortObj_lif (p : Nat) (x : Sched) : (putPortObj p x s).lif = s.lif := rfl
@[simp] theorem putPortObj_ports (p : Nat) (x : Sched) : (putPortObj p x s).ports = s.ports := rfl
@[simp] theorem putPortObj_gates (p : Nat) (x : Sched) : (putPortObj p x s).gates = s.gates := rfl
@[simp] theorem putPortObj_hpe (p : Nat) (x : Sched) : (putPortObj p x s).hpe = s.hpe := rfl
@[simp] theorem putPortObj_dbg (p : Nat) (x : Sched) : (putPortObj p x s).dbg = s.dbg := rfl
@[simp] theorem putPortObj_hlk (p : Nat) (x : Sched) : (putPortObj p x s).hlk = s.hlk := rfl
@[simp] theorem putPortObj_rx (p : Nat) (x : Sched) : (putPortObj p x s).rx = s.rx := rfl
@[simp] theorem putPortObj_sas (p : Nat) (x : Sched) : (putPortObj p x s).sas = s.sas := rfl
@[simp] theorem putPortObj_pols (p : Nat) (x : Sched) : (putPortObj p x s).pols = s.pols := rfl
@[simp] theorem putPortObj_out (p : Nat) (x : Sched) : (putPortObj p x s).out = s.out := rfl
@[simp] theorem putPortObj_draws (p : Nat) (x : Sched) : (putPortObj p x s).draws = s.draws := rfl
@[simp] theorem putPortObj_pending (p : Nat) (x : Sched) : (putPortObj p x s).pending = s.pending := rfl

end Updates

/-! ## Tables and memories -/

@[simp] theorem tget_nil {α : Type} (k : Nat) : tget ([] : Tab α) k = none := rfl

/-- What an entry reads as after one is written. -/
theorem tget_tput {α : Type} (t : Tab α) (k j : Nat) (v : α) : tget (tput t k v) j = if j = k then some v else tget t j := by
  fun_induction tput t k v <;> simp only [tget] <;> grind [tget]

theorem tget_tput_self {α : Type} (t : Tab α) (k : Nat) (v : α) : tget (tput t k v) k = some v := by rw [tget_tput, if_pos rfl]

theorem tget_tput_ne {α : Type} (t : Tab α) (k j : Nat) (v : α) (h : j ≠ k) : tget (tput t k v) j = tget t j := by
  rw [tget_tput, if_neg h]

/-- A table reads as the first of its entries of that key. -/
theorem tget_eq {α : Type} (t : Tab α) (k : Nat) : tget t k = (t.find? (fun e => e.1 = k)).map (fun e => e.2) := by
  fun_induction tget t k <;> grind

theorem tget_tdel_self {α : Type} (t : Tab α) (k : Nat) : tget (tdel t k) k = none := by
  simp [tget_eq, tdel]

theorem tget_tdel_ne {α : Type} (t : Tab α) (k j : Nat) (h : j ≠ k) : tget (tdel t k) j = tget t j := by
  rw [tget_eq, tget_eq, tdel, List.find?_filter]
  congr 2
  funext e
  grind

/-- The canonical form is that of a list whose keys rise strictly. -/
theorem tab_wf_iff {α : Type} (t : Tab α) : Tab.wf t = true ↔ t.Pairwise (fun a b => a.1 < b.1) := by
  rw [← List.isChain_iff_pairwise]
  fun_induction Tab.wf t <;> simp_all

/-- Where a written entry stands: among entries of the table, those of lower keys before it. -/
theorem tput_split {α : Type} (t : Tab α) (k : Nat) (v : α) : ∃ l r, tput t k v = l ++ (k, v) :: r ∧ (l ++ r).Sublist t ∧
    (∀ e ∈ l, e.1 < k) ∧ (Tab.wf t = true → ∀ e ∈ r, k < e.1) := by
  fun_induction tput t k v
  case case1 => exact ⟨[], [], rfl, .slnil, by simp, by simp⟩
  case case2 j a r h =>
    refine ⟨[], (j, a) :: r, rfl, .refl _, by simp, fun w e he => ?_⟩
    grind [tab_wf_iff, List.pairwise_cons]
  case case3 a r _ => exact ⟨[], r, rfl, .cons _ (.refl _), by simp, by grind [tab_wf_iff, List.pairwise_cons]⟩
  case case4 j a r h1 h2 ih =>
    obtain ⟨l, x, e, hs, hl, hx⟩ := ih
    exact ⟨(j, a) :: l, x, by rw [e]; rfl, hs.cons_cons _, by grind, fun w => hx (by grind [tab_wf_iff, List.pairwise_cons])⟩

theorem mem_tput {α : Type} (t : Tab α) (k : Nat) (v : α) (e : Nat × α) (h : e ∈ tput t k v) : e = (k, v) ∨ e ∈ t := by
  obtain ⟨l, r, hp, hs, -⟩ := tput_split t k v
  exact (List.mem_cons.mp (List.perm_middle.mem_iff.mp (hp ▸ h))).imp_right hs.mem

theorem tdel_wf {α : Type} (t : Tab α) (k : Nat) (h : Tab.wf t = true) : Tab.wf (tdel t k) = true := by
  rw [tab_wf_iff] at h ⊢
  exact h.sublist List.filter_sublist

theorem tput_wf {α : Type} (t : Tab α) (k : Nat) (v : α) (h : Tab.wf t = true) : Tab.wf (tput t k v) = true := by
  obtain ⟨l, r, hp, hs, hl, hr⟩ := tput_split t k v
  have hw := ((tab_wf_iff t).mp h).sublist hs
  rw [tab_wf_iff, hp]
  grind [List.pairwise_cons]

theorem tgetD_tput_self {α : Type} (t : Tab α) (k : Nat) (v d : α) : tgetD (tput t k v) k d = v := by
  simp [tgetD, tget_tput_self]

theorem tgetD_tput_ne {α : Type} (t : Tab α) (k j : Nat) (v d : α) (h : j ≠ k) : tgetD (tput t k v) j d = tgetD t j d := by
  simp [tgetD, tget_tput_ne t k j v h]

/-- Writing a byte keeps the canonical form of a memory. -/
theorem memWrite_wf (m : List Host.Cell) (a : Nat) (b : Byte) (h : Memory.wf m = true) : Memory.wf (memWrite m a b) = true := by
  simp only [Memory.wf, Bool.and_eq_true, List.all_eq_true, decide_eq_true_eq] at h ⊢
  unfold memWrite
  split
  · exact ⟨tdel_wf m a h.1, fun e he => h.2 e (List.mem_filter.mp he).1⟩
  · rename_i hb
    refine ⟨tput_wf m a b h.1, fun e he => ?_⟩
    rcases mem_tput m a b e he with rfl | he
    · exact hb
    · exact h.2 e he

theorem memWrites_wf (bs : List Byte) : ∀ (m : List Host.Cell) (a : Nat), Memory.wf m = true → Memory.wf (memWrites m a bs) = true := by
  induction bs with
  | nil => exact fun m a h => h
  | cons b r ih => exact fun m a h => ih _ _ (memWrite_wf m a b h)

/-- A byte written reads back. -/
theorem memRead_memWrite_self (m : List Host.Cell) (a : Nat) (b : Byte) : memRead (memWrite m a b) a = b := by
  unfold memRead memWrite
  split
  · rename_i h; subst h; simp [tget_tdel_self]
  · simp [tget_tput_self]

/-- Every other byte reads as before. -/
theorem memRead_memWrite_ne (m : List Host.Cell) (a x : Nat) (b : Byte) (h : x ≠ a) :
    memRead (memWrite m a b) x = memRead m x := by
  unfold memRead memWrite
  split
  · rw [tget_tdel_ne m a x h]
  · rw [tget_tput_ne m a x b h]

end Sys2Proof.Machine

namespace Sys2Proof.Safety
open Sys2Proof.Machine

/-! ## Laws of `Changes` -/

theorem Changes.refl (l : List Part) (s : State) : Changes l s s := by
  intro p _; cases p <;> first | rfl | exact fun _ => rfl | exact fun _ h => h

theorem Part.same_trans {p : Part} {s t u : State} (h1 : p.same s t) (h2 : p.same t u) : p.same s u := by
  cases p
  case staged =>
    intro h
    have e := h1 h
    exact (h2 (by rw [e]; exact h)).trans e
  case sealed =>
    intro h
    have e := h1 h
    exact (h2 (by rw [e]; exact h)).trans e
  case sent => exact fun o h => h2 o (h1 o h)
  all_goals exact Eq.trans h2 h1

theorem Changes.trans {l : List Part} {s t u : State} (h1 : Changes l s t) (h2 : Changes l t u) : Changes l s u :=
  fun p hp => Part.same_trans (h1 p hp) (h2 p hp)

theorem Changes.mono {l l' : List Part} {s t : State} (h : Changes l s t) (hl : ∀ p ∈ l, p ∈ l') : Changes l' s t :=
  fun p hp => h p (fun hm => hp (hl p hm))

theorem Changes.foldl {α : Type} {l : List Part} (f : State → α → State) (hf : ∀ a x, Changes l a (f a x)) :
    ∀ (xs : List α) (s : State), Changes l s (xs.foldl f s)
  | [], s => Changes.refl l s
  | x :: xs, s => (hf s x).trans (Changes.foldl f hf xs (f s x))

theorem mode_of_parts (a b : ModeSt) (h0 : { b with shown := 0, quarantine := false } = { a with shown := 0, quarantine := false }) (h1 : b.shown = a.shown) (h2 : b.quarantine = a.quarantine) : b = a := by
  cases a; cases b; simp_all

theorem staged_of_parts (s t : State) (h0 : Part.staged.same s t) (h1 : Part.sealed.same s t) : t.cpx.staged = s.cpx.staged :=
  (em (s.cpx.staged.sealed = none)).elim h0 h1

theorem cpx_of_parts (a b : Cpx) (h0 : b.sessions = a.sessions) (h1 : (b.keySeq, b.queue, b.round, b.unauth, b.forwarded) = (a.keySeq, a.queue, a.round, a.unauth, a.forwarded)) (h2 : b.staged = a.staged) (h3 : { b with sessions := [], keySeq := [], queue := [], round := [], unauth := [], forwarded := [], staged := {} } = { a with sessions := [], keySeq := [], queue := [], round := [], unauth := [], forwarded := [], staged := {} }) : b = a := by
  cases a; cases b; simp_all

theorem jic_of_parts (a b : Jic) (h0 : b.levels = a.levels) (h1 : { b with levels := [] } = { a with levels := [] }) : b = a := by
  cases a; cases b; simp_all

theorem tel_of_parts (a b : Tel) (h0 : (b.ctr, b.ctrWas, b.evPrev, b.evUp) = (a.ctr, a.ctrWas, a.evPrev, a.evUp)) (h1 : b.samples = a.samples) (h2 : (b.sweep, b.sweepRun, b.sweepSeq) = (a.sweep, a.sweepRun, a.sweepSeq)) (h3 : { b with ctr := [], ctrWas := [], evPrev := [], evUp := [], samples := [], sweep := [], sweepRun := none, sweepSeq := 0 } = { a with ctr := [], ctrWas := [], evPrev := [], evUp := [], samples := [], sweep := [], sweepRun := none, sweepSeq := 0 }) : b = a := by
  cases a; cases b; simp_all

theorem smc_of_parts (a b : Smc) (h0 : b.mem = a.mem) (h1 : { b with mem := [] } = { a with mem := [] }) : b = a := by
  cases a; cases b; simp_all

theorem esh_of_parts (a b : Esh) (h0 : b.host = a.host) (h1 : { b with host := [] } = { a with host := [] }) : b = a := by
  cases a; cases b; simp_all

theorem hpe_of_parts (a b : Hpe) (h0 : (b.replies, b.nextId) = (a.replies, a.nextId)) (h1 : (b.rings, b.staged) = (a.rings, a.staged)) : b = a := by
  cases a; cases b; simp_all

theorem dbg_of_parts (a b : Dbg) (h0 : (b.pounce, b.frozenFor) = (a.pounce, a.frozenFor)) (h1 : { b with pounce := [], frozenFor := 0 } = { a with pounce := [], frozenFor := 0 }) : b = a := by
  cases a; cases b; simp_all

/-- A state of which no part has changed is the same state. -/
theorem Changes.eq {s t : State} (h : Changes [] s t) : t = s := by
  have g : ∀ p : Part, p.same s t := fun p => h p (by simp)
  have e_mode : t.mode = s.mode := mode_of_parts _ _ (g .mode) (g .shown) (g .quarantine)
  have e_cpx : t.cpx = s.cpx := cpx_of_parts _ _ (g .sessions) (g .checks) (staged_of_parts _ _ (g .staged) (g .sealed)) (g .cpx)
  have e_jic : t.jic = s.jic := jic_of_parts _ _ (g .levels) (g .jic)
  have e_tel : t.tel = s.tel := tel_of_parts _ _ (g .ctr) (g .samples) (g .sweep) (g .tel)
  have e_smc : t.smc = s.smc := smc_of_parts _ _ (g .mem) (g .smc)
  have e_esh : t.esh = s.esh := esh_of_parts _ _ (g .hostQueue) (g .esh)
  have e_hpe : t.hpe = s.hpe := hpe_of_parts _ _ (g .replies) (g .hpe)
  have e_dbg : t.dbg = s.dbg := dbg_of_parts _ _ (g .pounce) (g .dbg)
  cases s; cases t
  simp only [State.mk.injEq]
  exact ⟨e_mode, g .fuses, g .tsu, e_cpx, g .hood, g .cfg, g .err, g .acc, e_jic, e_tel, e_smc, g .frc, g .xdma, g .groups, g .lanes, g .lif, g .ports, g .gates, e_esh, e_hpe, e_dbg, g .hlk, g .rx, g .sas, g .pols, g .out, g .draws, g .pending⟩

/-! ## One part written -/

theorem changes_mode (s : State) x : Changes [.mode, .quarantine, .shown] s { s with mode := x } := by
  intro p hp; cases p <;> first | rfl | exact fun _ => rfl | exact fun _ h => h | simp at hp
theorem changes_fuses (s : State) x : Changes [.fuses] s { s with fuses := x } := by
  intro p hp; cases p <;> first | rfl | exact fun _ => rfl | exact fun _ h => h | simp at hp
theorem changes_tsu (s : State) x : Changes [.tsu] s { s with tsu := x } := by
  intro p hp; cases p <;> first | rfl | exact fun _ => rfl | exact fun _ h => h | simp at hp
theorem changes_cpx (s : State) x : Changes [.sessions, .checks, .staged, .sealed, .cpx] s { s with cpx := x } := by
  intro p hp; cases p <;> first | rfl | exact fun _ => rfl | exact fun _ h => h | simp at hp
theorem changes_hood (s : State) x : Changes [.hood] s { s with hood := x } := by
  intro p hp; cases p <;> first | rfl | exact fun _ => rfl | exact fun _ h => h | simp at hp
theorem changes_cfg (s : State) x : Changes [.cfg] s { s with cfg := x } := by
  intro p hp; cases p <;> first | rfl | exact fun _ => rfl | exact fun _ h => h | simp at hp
theorem changes_err (s : State) x : Changes [.err] s { s with err := x } := by
  intro p hp; cases p <;> first | rfl | exact fun _ => rfl | exact fun _ h => h | simp at hp
theorem changes_acc (s : State) x : Changes [.acc] s { s with acc := x } := by
  intro p hp; cases p <;> first | rfl | exact fun _ => rfl | exact fun _ h => h | simp at hp
theorem changes_jic (s : State) x : Changes [.levels, .jic] s { s with jic := x } := by
  intro p hp; cases p <;> first | rfl | exact fun _ => rfl | exact fun _ h => h | simp at hp
theorem changes_tel (s : State) x : Changes [.ctr, .sweep, .samples, .tel] s { s with tel := x } := by
  intro p hp; cases p <;> first | rfl | exact fun _ => rfl | exact fun _ h => h | simp at hp
theorem changes_smc (s : State) x : Changes [.mem, .smc] s { s with smc := x } := by
  intro p hp; cases p <;> first | rfl | exact fun _ => rfl | exact fun _ h => h | simp at hp
theorem changes_frc (s : State) x : Changes [.frc] s { s with frc := x } := by
  intro p hp; cases p <;> first | rfl | exact fun _ => rfl | exact fun _ h => h | simp at hp
theorem changes_xdma (s : State) x : Changes [.xdma] s { s with xdma := x } := by
  intro p hp; cases p <;> first | rfl | exact fun _ => rfl | exact fun _ h => h | simp at hp
theorem changes_groups (s : State) x : Changes [.groups] s { s with groups := x } := by
  intro p hp; cases p <;> first | rfl | exact fun _ => rfl | exact fun _ h => h | simp at hp
theorem changes_lanes (s : State) x : Changes [.lanes] s { s with lanes := x } := by
  intro p hp; cases p <;> first | rfl | exact fun _ => rfl | exact fun _ h => h | simp at hp
theorem changes_lif (s : State) x : Changes [.lif] s { s with lif := x } := by
  intro p hp; cases p <;> first | rfl | exact fun _ => rfl | exact fun _ h => h | simp at hp
theorem changes_ports (s : State) x : Changes [.ports] s { s with ports := x } := by
  intro p hp; cases p <;> first | rfl | exact fun _ => rfl | exact fun _ h => h | simp at hp
theorem changes_gates (s : State) x : Changes [.gates] s { s with gates := x } := by
  intro p hp; cases p <;> first | rfl | exact fun _ => rfl | exact fun _ h => h | simp at hp
theorem changes_esh (s : State) x : Changes [.hostQueue, .esh] s { s with esh := x } := by
  intro p hp; cases p <;> first | rfl | exact fun _ => rfl | exact fun _ h => h | simp at hp
theorem changes_hpe (s : State) x : Changes [.replies, .hpe] s { s with hpe := x } := by
  intro p hp; cases p <;> first | rfl | exact fun _ => rfl | exact fun _ h => h | simp at hp
theorem changes_dbg (s : State) x : Changes [.pounce, .dbg] s { s with dbg := x } := by
  intro p hp; cases p <;> first | rfl | exact fun _ => rfl | exact fun _ h => h | simp at hp
theorem changes_hlk (s : State) x : Changes [.hlk] s { s with hlk := x } := by
  intro p hp; cases p <;> first | rfl | exact fun _ => rfl | exact fun _ h => h | simp at hp
theorem changes_rx (s : State) x : Changes [.rx] s { s with rx := x } := by
  intro p hp; cases p <;> first | rfl | exact fun _ => rfl | exact fun _ h => h | simp at hp
theorem changes_sas (s : State) x : Changes [.sas] s { s with sas := x } := by
  intro p hp; cases p <;> first | rfl | exact fun _ => rfl | exact fun _ h => h | simp at hp
theorem changes_pols (s : State) x : Changes [.pols] s { s with pols := x } := by
  intro p hp; cases p <;> first | rfl | exact fun _ => rfl | exact fun _ h => h | simp at hp
theorem changes_out (s : State) x : Changes [.out, .sent] s { s with out := x } := by
  intro p hp; cases p <;> first | rfl | exact fun _ => rfl | exact fun _ h => h | simp at hp
theorem changes_draws (s : State) x : Changes [.draws] s { s with draws := x } := by
  intro p hp; cases p <;> first | rfl | exact fun _ => rfl | exact fun _ h => h | simp at hp
theorem changes_pending (s : State) x : Changes [.pending] s { s with pending := x } := by
  intro p hp; cases p <;> first | rfl | exact fun _ => rfl | exact fun _ h => h | simp at hp

end Sys2Proof.Safety
end

