-- ==== Sys2Proof/Laws/Fields.lean ====
section
/-! SUPPORT. A field of a part that did not change is the same. -/
namespace Sys2Proof.Safety
open Sys2Proof.Machine

variable {l : List Part} {s t : State}

/-- What the part `.mode` holds. -/
theorem Changes.mode_rest (h : Changes l s t) (hp : Part.mode ∉ l) :
    { t.mode with shown := 0, quarantine := false } = { s.mode with shown := 0, quarantine := false } := h .mode hp

/-- What the part `.cpx` holds. -/
theorem Changes.cpx_rest (h : Changes l s t) (hp : Part.cpx ∉ l) :
    { t.cpx with sessions := [], keySeq := [], queue := [], round := [], unauth := [], forwarded := [], staged := {} } = { s.cpx with sessions := [], keySeq := [], queue := [], round := [], unauth := [], forwarded := [], staged := {} } := h .cpx hp

/-- What the part `.jic` holds. -/
theorem Changes.jic_rest (h : Changes l s t) (hp : Part.jic ∉ l) :
    { t.jic with levels := [] } = { s.jic with levels := [] } := h .jic hp

/-- What the part `.tel` holds. -/
theorem Changes.tel_rest (h : Changes l s t) (hp : Part.tel ∉ l) :
    { t.tel with ctr := [], ctrWas := [], evPrev := [], evUp := [], samples := [], sweep := [], sweepRun := none, sweepSeq := 0 } = { s.tel with ctr := [], ctrWas := [], evPrev := [], evUp := [], samples := [], sweep := [], sweepRun := none, sweepSeq := 0 } := h .tel hp

/-- What the part `.smc` holds. -/
theorem Changes.smc_rest (h : Changes l s t) (hp : Part.smc ∉ l) :
    { t.smc with mem := [] } = { s.smc with mem := [] } := h .smc hp

/-- What the part `.esh` holds. -/
theorem Changes.esh_rest (h : Changes l s t) (hp : Part.esh ∉ l) :
    { t.esh with host := [] } = { s.esh with host := [] } := h .esh hp

/-- What the part `.dbg` holds. -/
theorem Changes.dbg_rest (h : Changes l s t) (hp : Part.dbg ∉ l) :
    { t.dbg with pounce := [], frozenFor := 0 } = { s.dbg with pounce := [], frozenFor := 0 } := h .dbg hp

theorem Changes.fuses (h : Changes l s t) (hp : Part.fuses ∉ l) : t.fuses = s.fuses := h .fuses hp
theorem Changes.tsu (h : Changes l s t) (hp : Part.tsu ∉ l) : t.tsu = s.tsu := h .tsu hp
theorem Changes.hood (h : Changes l s t) (hp : Part.hood ∉ l) : t.hood = s.hood := h .hood hp
theorem Changes.cfg (h : Changes l s t) (hp : Part.cfg ∉ l) : t.cfg = s.cfg := h .cfg hp
theorem Changes.err (h : Changes l s t) (hp : Part.err ∉ l) : t.err = s.err := h .err hp
theorem Changes.acc (h : Changes l s t) (hp : Part.acc ∉ l) : t.acc = s.acc := h .acc hp
theorem Changes.frc (h : Changes l s t) (hp : Part.frc ∉ l) : t.frc = s.frc := h .frc hp
theorem Changes.xdma (h : Changes l s t) (hp : Part.xdma ∉ l) : t.xdma = s.xdma := h .xdma hp
theorem Changes.groups (h : Changes l s t) (hp : Part.groups ∉ l) : t.groups = s.groups := h .groups hp
theorem Changes.lanes (h : Changes l s t) (hp : Part.lanes ∉ l) : t.lanes = s.lanes := h .lanes hp
theorem Changes.lif (h : Changes l s t) (hp : Part.lif ∉ l) : t.lif = s.lif := h .lif hp
theorem Changes.ports (h : Changes l s t) (hp : Part.ports ∉ l) : t.ports = s.ports := h .ports hp
theorem Changes.gates (h : Changes l s t) (hp : Part.gates ∉ l) : t.gates = s.gates := h .gates hp
theorem Changes.hlk (h : Changes l s t) (hp : Part.hlk ∉ l) : t.hlk = s.hlk := h .hlk hp
theorem Changes.rx (h : Changes l s t) (hp : Part.rx ∉ l) : t.rx = s.rx := h .rx hp
theorem Changes.sas (h : Changes l s t) (hp : Part.sas ∉ l) : t.sas = s.sas := h .sas hp
theorem Changes.pols (h : Changes l s t) (hp : Part.pols ∉ l) : t.pols = s.pols := h .pols hp
theorem Changes.out (h : Changes l s t) (hp : Part.out ∉ l) : t.out = s.out := h .out hp
theorem Changes.draws (h : Changes l s t) (hp : Part.draws ∉ l) : t.draws = s.draws := h .draws hp
theorem Changes.pending (h : Changes l s t) (hp : Part.pending ∉ l) : t.pending = s.pending := h .pending hp

theorem Changes.mode_stage (h : Changes l s t) (hp : Part.mode ∉ l) : t.mode.stage = s.mode.stage :=
  (congrArg ModeSt.stage (h.mode_rest hp) :)
theorem Changes.mode_base (h : Changes l s t) (hp : Part.mode ∉ l) : t.mode.base = s.mode.base :=
  (congrArg ModeSt.base (h.mode_rest hp) :)
theorem Changes.mode_quarantine (h : Changes l s t) (hp : Part.quarantine ∉ l) : t.mode.quarantine = s.mode.quarantine := h .quarantine hp
theorem Changes.mode_zeroized (h : Changes l s t) (hp : Part.mode ∉ l) : t.mode.zeroized = s.mode.zeroized :=
  (congrArg ModeSt.zeroized (h.mode_rest hp) :)
theorem Changes.mode_drain (h : Changes l s t) (hp : Part.mode ∉ l) : t.mode.drain = s.mode.drain :=
  (congrArg ModeSt.drain (h.mode_rest hp) :)
theorem Changes.mode_drained (h : Changes l s t) (hp : Part.mode ∉ l) : t.mode.drained = s.mode.drained :=
  (congrArg ModeSt.drained (h.mode_rest hp) :)
theorem Changes.mode_brimCause (h : Changes l s t) (hp : Part.mode ∉ l) : t.mode.brimCause = s.mode.brimCause :=
  (congrArg ModeSt.brimCause (h.mode_rest hp) :)
theorem Changes.mode_wakeCause (h : Changes l s t) (hp : Part.mode ∉ l) : t.mode.wakeCause = s.mode.wakeCause :=
  (congrArg ModeSt.wakeCause (h.mode_rest hp) :)
theorem Changes.mode_shown (h : Changes l s t) (hp : Part.shown ∉ l) : t.mode.shown = s.mode.shown := h .shown hp
theorem Changes.mode_brimRstN (h : Changes l s t) (hp : Part.mode ∉ l) : t.mode.brimRstN = s.mode.brimRstN :=
  (congrArg ModeSt.brimRstN (h.mode_rest hp) :)
theorem Changes.mode_coreRstN (h : Changes l s t) (hp : Part.mode ∉ l) : t.mode.coreRstN = s.mode.coreRstN :=
  (congrArg ModeSt.coreRstN (h.mode_rest hp) :)
theorem Changes.mode_coreGood (h : Changes l s t) (hp : Part.mode ∉ l) : t.mode.coreGood = s.mode.coreGood :=
  (congrArg ModeSt.coreGood (h.mode_rest hp) :)
theorem Changes.mode_sramGood (h : Changes l s t) (hp : Part.mode ∉ l) : t.mode.sramGood = s.mode.sramGood :=
  (congrArg ModeSt.sramGood (h.mode_rest hp) :)
theorem Changes.mode_pwrReq (h : Changes l s t) (hp : Part.mode ∉ l) : t.mode.pwrReq = s.mode.pwrReq :=
  (congrArg ModeSt.pwrReq (h.mode_rest hp) :)
theorem Changes.mode_bootStatus (h : Changes l s t) (hp : Part.mode ∉ l) : t.mode.bootStatus = s.mode.bootStatus :=
  (congrArg ModeSt.bootStatus (h.mode_rest hp) :)
theorem Changes.mode_fuseBad (h : Changes l s t) (hp : Part.mode ∉ l) : t.mode.fuseBad = s.mode.fuseBad :=
  (congrArg ModeSt.fuseBad (h.mode_rest hp) :)
theorem Changes.cpx_bootTag (h : Changes l s t) (hp : Part.cpx ∉ l) : t.cpx.bootTag = s.cpx.bootTag :=
  (congrArg Cpx.bootTag (h.cpx_rest hp) :)
theorem Changes.cpx_epoch (h : Changes l s t) (hp : Part.cpx ∉ l) : t.cpx.epoch = s.cpx.epoch :=
  (congrArg Cpx.epoch (h.cpx_rest hp) :)
theorem Changes.cpx_fwVersion (h : Changes l s t) (hp : Part.cpx ∉ l) : t.cpx.fwVersion = s.cpx.fwVersion :=
  (congrArg Cpx.fwVersion (h.cpx_rest hp) :)
theorem Changes.cpx_fwDigest (h : Changes l s t) (hp : Part.cpx ∉ l) : t.cpx.fwDigest = s.cpx.fwDigest :=
  (congrArg Cpx.fwDigest (h.cpx_rest hp) :)
theorem Changes.cpx_fwKeyIndex (h : Changes l s t) (hp : Part.cpx ∉ l) : t.cpx.fwKeyIndex = s.cpx.fwKeyIndex :=
  (congrArg Cpx.fwKeyIndex (h.cpx_rest hp) :)
theorem Changes.cpx_sessions (h : Changes l s t) (hp : Part.sessions ∉ l) : t.cpx.sessions = s.cpx.sessions := h .sessions hp
theorem Changes.cpx_keySeq (h : Changes l s t) (hp : Part.checks ∉ l) : t.cpx.keySeq = s.cpx.keySeq := by
  have h1 : (t.cpx.keySeq, t.cpx.queue, t.cpx.round, t.cpx.unauth, t.cpx.forwarded) = (s.cpx.keySeq, s.cpx.queue, s.cpx.round, s.cpx.unauth, s.cpx.forwarded) := h .checks hp
  exact congrArg Prod.fst h1
theorem Changes.cpx_queue (h : Changes l s t) (hp : Part.checks ∉ l) : t.cpx.queue = s.cpx.queue := by
  have h1 : (t.cpx.keySeq, t.cpx.queue, t.cpx.round, t.cpx.unauth, t.cpx.forwarded) = (s.cpx.keySeq, s.cpx.queue, s.cpx.round, s.cpx.unauth, s.cpx.forwarded) := h .checks hp
  exact congrArg Prod.fst (congrArg Prod.snd h1)
theorem Changes.cpx_round (h : Changes l s t) (hp : Part.checks ∉ l) : t.cpx.round = s.cpx.round := by
  have h1 : (t.cpx.keySeq, t.cpx.queue, t.cpx.round, t.cpx.unauth, t.cpx.forwarded) = (s.cpx.keySeq, s.cpx.queue, s.cpx.round, s.cpx.unauth, s.cpx.forwarded) := h .checks hp
  exact congrArg Prod.fst (congrArg Prod.snd (congrArg Prod.snd h1))
theorem Changes.cpx_unauth (h : Changes l s t) (hp : Part.checks ∉ l) : t.cpx.unauth = s.cpx.unauth := by
  have h1 : (t.cpx.keySeq, t.cpx.queue, t.cpx.round, t.cpx.unauth, t.cpx.forwarded) = (s.cpx.keySeq, s.cpx.queue, s.cpx.round, s.cpx.unauth, s.cpx.forwarded) := h .checks hp
  exact congrArg Prod.fst (congrArg Prod.snd (congrArg Prod.snd (congrArg Prod.snd h1)))
theorem Changes.cpx_attests (h : Changes l s t) (hp : Part.cpx ∉ l) : t.cpx.attests = s.cpx.attests :=
  (congrArg Cpx.attests (h.cpx_rest hp) :)
theorem Changes.cpx_staged (h : Changes l s t) (hp : Part.staged ∉ l) (hq : Part.sealed ∉ l) : t.cpx.staged = s.cpx.staged :=
  staged_of_parts _ _ (h .staged hp) (h .sealed hq)
theorem Changes.cpx_open (h : Changes l s t) (hp : Part.staged ∉ l) (hs : s.cpx.staged.sealed = none) : t.cpx.staged = s.cpx.staged :=
  h .staged hp hs
theorem Changes.cpx_lastEffect (h : Changes l s t) (hp : Part.cpx ∉ l) : t.cpx.lastEffect = s.cpx.lastEffect :=
  (congrArg Cpx.lastEffect (h.cpx_rest hp) :)
theorem Changes.cpx_lastEffectCcyc (h : Changes l s t) (hp : Part.cpx ∉ l) : t.cpx.lastEffectCcyc = s.cpx.lastEffectCcyc :=
  (congrArg Cpx.lastEffectCcyc (h.cpx_rest hp) :)
theorem Changes.cpx_staging (h : Changes l s t) (hp : Part.cpx ∉ l) : t.cpx.staging = s.cpx.staging :=
  (congrArg Cpx.staging (h.cpx_rest hp) :)
theorem Changes.cpx_activation (h : Changes l s t) (hp : Part.cpx ∉ l) : t.cpx.activation = s.cpx.activation :=
  (congrArg Cpx.activation (h.cpx_rest hp) :)
theorem Changes.cpx_restart (h : Changes l s t) (hp : Part.cpx ∉ l) : t.cpx.restart = s.cpx.restart :=
  (congrArg Cpx.restart (h.cpx_rest hp) :)
theorem Changes.cpx_lastLockstep (h : Changes l s t) (hp : Part.cpx ∉ l) : t.cpx.lastLockstep = s.cpx.lastLockstep :=
  (congrArg Cpx.lastLockstep (h.cpx_rest hp) :)
theorem Changes.cpx_forwarded (h : Changes l s t) (hp : Part.checks ∉ l) : t.cpx.forwarded = s.cpx.forwarded := by
  have h1 : (t.cpx.keySeq, t.cpx.queue, t.cpx.round, t.cpx.unauth, t.cpx.forwarded) = (s.cpx.keySeq, s.cpx.queue, s.cpx.round, s.cpx.unauth, s.cpx.forwarded) := h .checks hp
  exact congrArg Prod.snd (congrArg Prod.snd (congrArg Prod.snd (congrArg Prod.snd h1)))
theorem Changes.jic_levels (h : Changes l s t) (hp : Part.levels ∉ l) : t.jic.levels = s.jic.levels := h .levels hp
theorem Changes.jic_enable (h : Changes l s t) (hp : Part.jic ∉ l) : t.jic.enable = s.jic.enable :=
  (congrArg Jic.enable (h.jic_rest hp) :)
theorem Changes.jic_soft (h : Changes l s t) (hp : Part.jic ∉ l) : t.jic.soft = s.jic.soft :=
  (congrArg Jic.soft (h.jic_rest hp) :)
theorem Changes.jic_kept (h : Changes l s t) (hp : Part.jic ∉ l) : t.jic.kept = s.jic.kept :=
  (congrArg Jic.kept (h.jic_rest hp) :)
theorem Changes.jic_stay (h : Changes l s t) (hp : Part.jic ∉ l) : t.jic.stay = s.jic.stay :=
  (congrArg Jic.stay (h.jic_rest hp) :)
theorem Changes.jic_raised (h : Changes l s t) (hp : Part.jic ∉ l) : t.jic.raised = s.jic.raised :=
  (congrArg Jic.raised (h.jic_rest hp) :)
theorem Changes.jic_modDue (h : Changes l s t) (hp : Part.jic ∉ l) : t.jic.modDue = s.jic.modDue :=
  (congrArg Jic.modDue (h.jic_rest hp) :)
theorem Changes.jic_targets (h : Changes l s t) (hp : Part.jic ∉ l) : t.jic.targets = s.jic.targets :=
  (congrArg Jic.targets (h.jic_rest hp) :)
theorem Changes.jic_fault (h : Changes l s t) (hp : Part.jic ∉ l) : t.jic.fault = s.jic.fault :=
  (congrArg Jic.fault (h.jic_rest hp) :)
theorem Changes.tel_ctr (h : Changes l s t) (hp : Part.ctr ∉ l) : t.tel.ctr = s.tel.ctr := by
  have h1 : (t.tel.ctr, t.tel.ctrWas, t.tel.evPrev, t.tel.evUp) = (s.tel.ctr, s.tel.ctrWas, s.tel.evPrev, s.tel.evUp) := h .ctr hp
  exact congrArg Prod.fst h1
theorem Changes.tel_ctrWas (h : Changes l s t) (hp : Part.ctr ∉ l) : t.tel.ctrWas = s.tel.ctrWas := by
  have h1 : (t.tel.ctr, t.tel.ctrWas, t.tel.evPrev, t.tel.evUp) = (s.tel.ctr, s.tel.ctrWas, s.tel.evPrev, s.tel.evUp) := h .ctr hp
  exact congrArg Prod.fst (congrArg Prod.snd h1)
theorem Changes.tel_winBase (h : Changes l s t) (hp : Part.tel ∉ l) : t.tel.winBase = s.tel.winBase :=
  (congrArg Tel.winBase (h.tel_rest hp) :)
theorem Changes.tel_winLatch (h : Changes l s t) (hp : Part.tel ∉ l) : t.tel.winLatch = s.tel.winLatch :=
  (congrArg Tel.winLatch (h.tel_rest hp) :)
theorem Changes.tel_battBase (h : Changes l s t) (hp : Part.tel ∉ l) : t.tel.battBase = s.tel.battBase :=
  (congrArg Tel.battBase (h.tel_rest hp) :)
theorem Changes.tel_battSeq (h : Changes l s t) (hp : Part.tel ∉ l) : t.tel.battSeq = s.tel.battSeq :=
  (congrArg Tel.battSeq (h.tel_rest hp) :)
theorem Changes.tel_battSlot (h : Changes l s t) (hp : Part.tel ∉ l) : t.tel.battSlot = s.tel.battSlot :=
  (congrArg Tel.battSlot (h.tel_rest hp) :)
theorem Changes.tel_battT0 (h : Changes l s t) (hp : Part.tel ∉ l) : t.tel.battT0 = s.tel.battT0 :=
  (congrArg Tel.battT0 (h.tel_rest hp) :)
theorem Changes.tel_battMissed (h : Changes l s t) (hp : Part.tel ∉ l) : t.tel.battMissed = s.tel.battMissed :=
  (congrArg Tel.battMissed (h.tel_rest hp) :)
theorem Changes.tel_battFailed (h : Changes l s t) (hp : Part.tel ∉ l) : t.tel.battFailed = s.tel.battFailed :=
  (congrArg Tel.battFailed (h.tel_rest hp) :)
theorem Changes.tel_battLost (h : Changes l s t) (hp : Part.tel ∉ l) : t.tel.battLost = s.tel.battLost :=
  (congrArg Tel.battLost (h.tel_rest hp) :)
theorem Changes.tel_battBusy (h : Changes l s t) (hp : Part.tel ∉ l) : t.tel.battBusy = s.tel.battBusy :=
  (congrArg Tel.battBusy (h.tel_rest hp) :)
theorem Changes.tel_battHold (h : Changes l s t) (hp : Part.tel ∉ l) : t.tel.battHold = s.tel.battHold :=
  (congrArg Tel.battHold (h.tel_rest hp) :)
theorem Changes.tel_battNext (h : Changes l s t) (hp : Part.tel ∉ l) : t.tel.battNext = s.tel.battNext :=
  (congrArg Tel.battNext (h.tel_rest hp) :)
theorem Changes.tel_lfsr (h : Changes l s t) (hp : Part.tel ∉ l) : t.tel.lfsr = s.tel.lfsr :=
  (congrArg Tel.lfsr (h.tel_rest hp) :)
theorem Changes.tel_samples (h : Changes l s t) (hp : Part.samples ∉ l) : t.tel.samples = s.tel.samples := h .samples hp
theorem Changes.tel_sweepSeq (h : Changes l s t) (hp : Part.sweep ∉ l) : t.tel.sweepSeq = s.tel.sweepSeq := by
  have h1 : (t.tel.sweep, t.tel.sweepRun, t.tel.sweepSeq) = (s.tel.sweep, s.tel.sweepRun, s.tel.sweepSeq) := h .sweep hp
  exact congrArg Prod.snd (congrArg Prod.snd h1)
theorem Changes.tel_sweep (h : Changes l s t) (hp : Part.sweep ∉ l) : t.tel.sweep = s.tel.sweep := by
  have h1 : (t.tel.sweep, t.tel.sweepRun, t.tel.sweepSeq) = (s.tel.sweep, s.tel.sweepRun, s.tel.sweepSeq) := h .sweep hp
  exact congrArg Prod.fst h1
theorem Changes.tel_sweepRun (h : Changes l s t) (hp : Part.sweep ∉ l) : t.tel.sweepRun = s.tel.sweepRun := by
  have h1 : (t.tel.sweep, t.tel.sweepRun, t.tel.sweepSeq) = (s.tel.sweep, s.tel.sweepRun, s.tel.sweepSeq) := h .sweep hp
  exact congrArg Prod.fst (congrArg Prod.snd h1)
theorem Changes.tel_sweepNext (h : Changes l s t) (hp : Part.tel ∉ l) : t.tel.sweepNext = s.tel.sweepNext :=
  (congrArg Tel.sweepNext (h.tel_rest hp) :)
theorem Changes.tel_evPrev (h : Changes l s t) (hp : Part.ctr ∉ l) : t.tel.evPrev = s.tel.evPrev := by
  have h1 : (t.tel.ctr, t.tel.ctrWas, t.tel.evPrev, t.tel.evUp) = (s.tel.ctr, s.tel.ctrWas, s.tel.evPrev, s.tel.evUp) := h .ctr hp
  exact congrArg Prod.fst (congrArg Prod.snd (congrArg Prod.snd h1))
theorem Changes.tel_evUp (h : Changes l s t) (hp : Part.ctr ∉ l) : t.tel.evUp = s.tel.evUp := by
  have h1 : (t.tel.ctr, t.tel.ctrWas, t.tel.evPrev, t.tel.evUp) = (s.tel.ctr, s.tel.ctrWas, s.tel.evPrev, s.tel.evUp) := h .ctr hp
  exact congrArg Prod.snd (congrArg Prod.snd (congrArg Prod.snd h1))
theorem Changes.smc_present (h : Changes l s t) (hp : Part.smc ∉ l) : t.smc.present = s.smc.present :=
  (congrArg Smc.present (h.smc_rest hp) :)
theorem Changes.smc_filled (h : Changes l s t) (hp : Part.smc ∉ l) : t.smc.filled = s.smc.filled :=
  (congrArg Smc.filled (h.smc_rest hp) :)
theorem Changes.smc_lost (h : Changes l s t) (hp : Part.smc ∉ l) : t.smc.lost = s.smc.lost :=
  (congrArg Smc.lost (h.smc_rest hp) :)
theorem Changes.smc_noSpare (h : Changes l s t) (hp : Part.smc ∉ l) : t.smc.noSpare = s.smc.noSpare :=
  (congrArg Smc.noSpare (h.smc_rest hp) :)
theorem Changes.smc_rankSize (h : Changes l s t) (hp : Part.smc ∉ l) : t.smc.rankSize = s.smc.rankSize :=
  (congrArg Smc.rankSize (h.smc_rest hp) :)
theorem Changes.smc_dataRate (h : Changes l s t) (hp : Part.smc ∉ l) : t.smc.dataRate = s.smc.dataRate :=
  (congrArg Smc.dataRate (h.smc_rest hp) :)
theorem Changes.smc_table (h : Changes l s t) (hp : Part.smc ∉ l) : t.smc.table = s.smc.table :=
  (congrArg Smc.table (h.smc_rest hp) :)
theorem Changes.smc_ranks (h : Changes l s t) (hp : Part.smc ∉ l) : t.smc.ranks = s.smc.ranks :=
  (congrArg Smc.ranks (h.smc_rest hp) :)
theorem Changes.smc_chans (h : Changes l s t) (hp : Part.smc ∉ l) : t.smc.chans = s.smc.chans :=
  (congrArg Smc.chans (h.smc_rest hp) :)
theorem Changes.smc_mem (h : Changes l s t) (hp : Part.mem ∉ l) : t.smc.mem = s.smc.mem := h .mem hp
theorem Changes.smc_poison (h : Changes l s t) (hp : Part.smc ∉ l) : t.smc.poison = s.smc.poison :=
  (congrArg Smc.poison (h.smc_rest hp) :)
theorem Changes.smc_migration (h : Changes l s t) (hp : Part.smc ∉ l) : t.smc.migration = s.smc.migration :=
  (congrArg Smc.migration (h.smc_rest hp) :)
theorem Changes.smc_throttle (h : Changes l s t) (hp : Part.smc ∉ l) : t.smc.throttle = s.smc.throttle :=
  (congrArg Smc.throttle (h.smc_rest hp) :)
theorem Changes.smc_retrain (h : Changes l s t) (hp : Part.smc ∉ l) : t.smc.retrain = s.smc.retrain :=
  (congrArg Smc.retrain (h.smc_rest hp) :)
theorem Changes.esh_leaves (h : Changes l s t) (hp : Part.esh ∉ l) : t.esh.leaves = s.esh.leaves :=
  (congrArg Esh.leaves (h.esh_rest hp) :)
theorem Changes.esh_nodes (h : Changes l s t) (hp : Part.esh ∉ l) : t.esh.nodes = s.esh.nodes :=
  (congrArg Esh.nodes (h.esh_rest hp) :)
theorem Changes.esh_classes (h : Changes l s t) (hp : Part.esh ∉ l) : t.esh.classes = s.esh.classes :=
  (congrArg Esh.classes (h.esh_rest hp) :)
theorem Changes.esh_ports (h : Changes l s t) (hp : Part.esh ∉ l) : t.esh.ports = s.esh.ports :=
  (congrArg Esh.ports (h.esh_rest hp) :)
theorem Changes.esh_used (h : Changes l s t) (hp : Part.esh ∉ l) : t.esh.used = s.esh.used :=
  (congrArg Esh.used (h.esh_rest hp) :)
theorem Changes.esh_words (h : Changes l s t) (hp : Part.esh ∉ l) : t.esh.words = s.esh.words :=
  (congrArg Esh.words (h.esh_rest hp) :)
theorem Changes.esh_engines (h : Changes l s t) (hp : Part.esh ∉ l) : t.esh.engines = s.esh.engines :=
  (congrArg Esh.engines (h.esh_rest hp) :)
theorem Changes.esh_host (h : Changes l s t) (hp : Part.hostQueue ∉ l) : t.esh.host = s.esh.host := h .hostQueue hp
theorem Changes.esh_turn (h : Changes l s t) (hp : Part.esh ∉ l) : t.esh.turn = s.esh.turn :=
  (congrArg Esh.turn (h.esh_rest hp) :)
theorem Changes.hpe_rings (h : Changes l s t) (hp : Part.hpe ∉ l) : t.hpe.rings = s.hpe.rings := by
  have h1 : (t.hpe.rings, t.hpe.staged) = (s.hpe.rings, s.hpe.staged) := h .hpe hp
  exact congrArg Prod.fst h1
theorem Changes.hpe_replies (h : Changes l s t) (hp : Part.replies ∉ l) : t.hpe.replies = s.hpe.replies := by
  have h1 : (t.hpe.replies, t.hpe.nextId) = (s.hpe.replies, s.hpe.nextId) := h .replies hp
  exact congrArg Prod.fst h1
theorem Changes.hpe_staged (h : Changes l s t) (hp : Part.hpe ∉ l) : t.hpe.staged = s.hpe.staged := by
  have h1 : (t.hpe.rings, t.hpe.staged) = (s.hpe.rings, s.hpe.staged) := h .hpe hp
  exact congrArg Prod.snd h1
theorem Changes.hpe_nextId (h : Changes l s t) (hp : Part.replies ∉ l) : t.hpe.nextId = s.hpe.nextId := by
  have h1 : (t.hpe.replies, t.hpe.nextId) = (s.hpe.replies, s.hpe.nextId) := h .replies hp
  exact congrArg Prod.snd h1
theorem Changes.dbg_level (h : Changes l s t) (hp : Part.dbg ∉ l) : t.dbg.level = s.dbg.level :=
  (congrArg Dbg.level (h.dbg_rest hp) :)
theorem Changes.dbg_expiry (h : Changes l s t) (hp : Part.dbg ∉ l) : t.dbg.expiry = s.dbg.expiry :=
  (congrArg Dbg.expiry (h.dbg_rest hp) :)
theorem Changes.dbg_expiryCcyc (h : Changes l s t) (hp : Part.dbg ∉ l) : t.dbg.expiryCcyc = s.dbg.expiryCcyc :=
  (congrArg Dbg.expiryCcyc (h.dbg_rest hp) :)
theorem Changes.dbg_mask (h : Changes l s t) (hp : Part.dbg ∉ l) : t.dbg.mask = s.dbg.mask :=
  (congrArg Dbg.mask (h.dbg_rest hp) :)
theorem Changes.dbg_freezePermit (h : Changes l s t) (hp : Part.dbg ∉ l) : t.dbg.freezePermit = s.dbg.freezePermit :=
  (congrArg Dbg.freezePermit (h.dbg_rest hp) :)
theorem Changes.dbg_frozen (h : Changes l s t) (hp : Part.dbg ∉ l) : t.dbg.frozen = s.dbg.frozen :=
  (congrArg Dbg.frozen (h.dbg_rest hp) :)
theorem Changes.dbg_freeze (h : Changes l s t) (hp : Part.dbg ∉ l) : t.dbg.freeze = s.dbg.freeze :=
  (congrArg Dbg.freeze (h.dbg_rest hp) :)
theorem Changes.dbg_input (h : Changes l s t) (hp : Part.dbg ∉ l) : t.dbg.input = s.dbg.input :=
  (congrArg Dbg.input (h.dbg_rest hp) :)
theorem Changes.dbg_armed (h : Changes l s t) (hp : Part.dbg ∉ l) : t.dbg.armed = s.dbg.armed :=
  (congrArg Dbg.armed (h.dbg_rest hp) :)
theorem Changes.dbg_await (h : Changes l s t) (hp : Part.dbg ∉ l) : t.dbg.await = s.dbg.await :=
  (congrArg Dbg.await (h.dbg_rest hp) :)
theorem Changes.dbg_q (h : Changes l s t) (hp : Part.dbg ∉ l) : t.dbg.q = s.dbg.q :=
  (congrArg Dbg.q (h.dbg_rest hp) :)
theorem Changes.dbg_freezeCcyc (h : Changes l s t) (hp : Part.dbg ∉ l) : t.dbg.freezeCcyc = s.dbg.freezeCcyc :=
  (congrArg Dbg.freezeCcyc (h.dbg_rest hp) :)
theorem Changes.dbg_discarded (h : Changes l s t) (hp : Part.dbg ∉ l) : t.dbg.discarded = s.dbg.discarded :=
  (congrArg Dbg.discarded (h.dbg_rest hp) :)
theorem Changes.dbg_frozenFor (h : Changes l s t) (hp : Part.pounce ∉ l) : t.dbg.frozenFor = s.dbg.frozenFor := by
  have h1 : (t.dbg.pounce, t.dbg.frozenFor) = (s.dbg.pounce, s.dbg.frozenFor) := h .pounce hp
  exact congrArg Prod.snd h1
theorem Changes.dbg_pounce (h : Changes l s t) (hp : Part.pounce ∉ l) : t.dbg.pounce = s.dbg.pounce := by
  have h1 : (t.dbg.pounce, t.dbg.frozenFor) = (s.dbg.pounce, s.dbg.frozenFor) := h .pounce hp
  exact congrArg Prod.fst h1
theorem Changes.dbg_chain (h : Changes l s t) (hp : Part.dbg ∉ l) : t.dbg.chain = s.dbg.chain :=
  (congrArg Dbg.chain (h.dbg_rest hp) :)
theorem Changes.dbg_rotated (h : Changes l s t) (hp : Part.dbg ∉ l) : t.dbg.rotated = s.dbg.rotated :=
  (congrArg Dbg.rotated (h.dbg_rest hp) :)
theorem Changes.dbg_bypass (h : Changes l s t) (hp : Part.dbg ∉ l) : t.dbg.bypass = s.dbg.bypass :=
  (congrArg Dbg.bypass (h.dbg_rest hp) :)

theorem Changes.clocked (h : Changes l s t) (h1 : Part.mode ∉ l) (h2 : Part.dbg ∉ l) : clocked t = clocked s := by
  unfold Machine.clocked; rw [h.mode_stage h1, h.dbg_frozen h2]

theorem Changes.sent (h : Changes l s t) (hp : Part.sent ∉ l) {o : Output} (ho : o ∈ s.out) : o ∈ t.out := h .sent hp o ho

end Sys2Proof.Safety
end

