-- ==== Sys2Proof/Laws/Updates.lean ====
section
/-! SUPPORT. The update of each field of the state: what it changes (`Changes` of Safety); folds, outputs. -/
namespace Sys2Proof.Safety
open Sys2Proof.Machine

theorem Changes.sub {L M pl : List Part} (h : ∀ p ∈ L, p ∈ pl) (g : ∀ p ∈ M, p ∈ L) : ∀ p ∈ M, p ∈ pl := fun p hp => h p (g p hp)

theorem Changes.foldl_frame {α : Type} {pl : List Part} {z0 s : State} {f : State → α → State} {xs : List α} (h : Changes pl z0 s)
    (hf : ∀ a x, Changes pl z0 a → Changes pl z0 (f a x)) : Changes pl z0 (xs.foldl f s) :=
  List.foldlRecOn xs f h (fun a ha x _ => hf a x ha)

theorem Changes.foldl_snd {α β : Type} {pl : List Part} {z0 : State} {f : β × State → α → β × State} {xs : List α} {a : β × State}
    (h : Changes pl z0 a.2) (hf : ∀ a x, Changes pl z0 a.2 → Changes pl z0 (f a x).2) : Changes pl z0 (xs.foldl f a).2 :=
  List.foldlRecOn (motive := fun c => Changes pl z0 c.2) xs f h (fun a ha x _ => hf a x ha)

theorem emit_frame {pl : List Part} {z0 : State} {o : Output} {s : State} (hz : Changes pl z0 s)
    (hpl : ∀ p ∈ ([.out] : List Part), p ∈ pl) : Changes pl z0 (emit o s) :=
  hz.trans (Changes.mono (l := [.out]) (by
    intro p hp; cases p
    case sent => exact fun _ h => List.mem_append_left _ h
    all_goals first | rfl | exact fun _ => rfl | simp at hp) hpl)

theorem emits_frame {pl : List Part} {z0 : State} {l : List Output} {s : State} (hz : Changes pl z0 s)
    (hpl : ∀ p ∈ ([.out] : List Part), p ∈ pl) : Changes pl z0 (emits l s) :=
  hz.trans (Changes.mono (l := [.out]) (by
    intro p hp; cases p
    case sent => exact fun _ h => List.mem_append_left _ h
    all_goals first | rfl | exact fun _ => rfl | simp at hp) hpl)

theorem discardPending_frame {pl : List Part} {z0 s : State} (hz : Changes pl z0 s)
    (hpl : ∀ p ∈ ([.sealed] : List Part), p ∈ pl) : Changes pl z0 (discardPending s) :=
  hz.trans (Changes.mono (l := [.sealed]) (by
    unfold discardPending; split
    · rename_i h
      intro p hp; cases p
      case staged => intro h1; rw [h1] at h; cases h
      all_goals first | rfl | exact fun _ h => h | simp at hp
    · exact Changes.refl _ _) hpl)

theorem upd_acc {pl : List Part} {z0 s : State} {x0}  (h : Changes pl z0 s)
    (hl : ∀ p ∈ ([.acc] : List Part), p ∈ pl) : Changes pl z0 { s with acc := x0 } :=
  h.trans (Changes.mono (l := [.acc]) (by intro p hp; cases p <;> first | rfl | exact fun _ => rfl | exact fun _ h => h | simp at hp) hl)

theorem upd_cfg {pl : List Part} {z0 s : State} {x0}  (h : Changes pl z0 s)
    (hl : ∀ p ∈ ([.cfg] : List Part), p ∈ pl) : Changes pl z0 { s with cfg := x0 } :=
  h.trans (Changes.mono (l := [.cfg]) (by intro p hp; cases p <;> first | rfl | exact fun _ => rfl | exact fun _ h => h | simp at hp) hl)

theorem upd_cpx'checks {pl : List Part} {z0 s : State} {x0} (k0 : x0.sessions = s.cpx.sessions) (k1 : x0.staged = s.cpx.staged) (k2 : { x0 with sessions := [], keySeq := [], queue := [], round := [], unauth := [], forwarded := [], staged := {} } = { s.cpx with sessions := [], keySeq := [], queue := [], round := [], unauth := [], forwarded := [], staged := {} }) (h : Changes pl z0 s)
    (hl : ∀ p ∈ ([.checks] : List Part), p ∈ pl) : Changes pl z0 { s with cpx := x0 } :=
  h.trans (Changes.mono (l := [.checks]) (by intro p hp; cases p <;> first | rfl | exact fun _ => rfl | exact fun _ h => h | exact k0 | exact k1 | exact fun _ => k1 | exact k2 | simp at hp) hl)

theorem upd_cpx'checks'cpx {pl : List Part} {z0 s : State} {x0} (k0 : x0.sessions = s.cpx.sessions) (k1 : x0.staged = s.cpx.staged) (h : Changes pl z0 s)
    (hl : ∀ p ∈ ([.checks, .cpx] : List Part), p ∈ pl) : Changes pl z0 { s with cpx := x0 } :=
  h.trans (Changes.mono (l := [.checks, .cpx]) (by intro p hp; cases p <;> first | rfl | exact fun _ => rfl | exact fun _ h => h | exact k0 | exact k1 | exact fun _ => k1 | simp at hp) hl)

theorem upd_cpx'cpx {pl : List Part} {z0 s : State} {x0} (k0 : x0.sessions = s.cpx.sessions) (k1 : (x0.keySeq, x0.queue, x0.round, x0.unauth, x0.forwarded) = (s.cpx.keySeq, s.cpx.queue, s.cpx.round, s.cpx.unauth, s.cpx.forwarded)) (k2 : x0.staged = s.cpx.staged) (h : Changes pl z0 s)
    (hl : ∀ p ∈ ([.cpx] : List Part), p ∈ pl) : Changes pl z0 { s with cpx := x0 } :=
  h.trans (Changes.mono (l := [.cpx]) (by intro p hp; cases p <;> first | rfl | exact fun _ => rfl | exact fun _ h => h | exact k0 | exact k1 | exact k2 | exact fun _ => k2 | simp at hp) hl)

theorem upd_cpx'sessions {pl : List Part} {z0 s : State} {x0} (k0 : (x0.keySeq, x0.queue, x0.round, x0.unauth, x0.forwarded) = (s.cpx.keySeq, s.cpx.queue, s.cpx.round, s.cpx.unauth, s.cpx.forwarded)) (k1 : x0.staged = s.cpx.staged) (k2 : { x0 with sessions := [], keySeq := [], queue := [], round := [], unauth := [], forwarded := [], staged := {} } = { s.cpx with sessions := [], keySeq := [], queue := [], round := [], unauth := [], forwarded := [], staged := {} }) (h : Changes pl z0 s)
    (hl : ∀ p ∈ ([.sessions] : List Part), p ∈ pl) : Changes pl z0 { s with cpx := x0 } :=
  h.trans (Changes.mono (l := [.sessions]) (by intro p hp; cases p <;> first | rfl | exact fun _ => rfl | exact fun _ h => h | exact k0 | exact k1 | exact fun _ => k1 | exact k2 | simp at hp) hl)

theorem upd_dbg {pl : List Part} {z0 s : State} {x0}  (h : Changes pl z0 s)
    (hl : ∀ p ∈ ([.pounce, .dbg] : List Part), p ∈ pl) : Changes pl z0 { s with dbg := x0 } :=
  h.trans (Changes.mono (l := [.pounce, .dbg]) (by intro p hp; cases p <;> first | rfl | exact fun _ => rfl | exact fun _ h => h | simp at hp) hl)

theorem upd_dbg'dbg {pl : List Part} {z0 s : State} {x0} (k0 : (x0.pounce, x0.frozenFor) = (s.dbg.pounce, s.dbg.frozenFor)) (h : Changes pl z0 s)
    (hl : ∀ p ∈ ([.dbg] : List Part), p ∈ pl) : Changes pl z0 { s with dbg := x0 } :=
  h.trans (Changes.mono (l := [.dbg]) (by intro p hp; cases p <;> first | rfl | exact fun _ => rfl | exact fun _ h => h | exact k0 | simp at hp) hl)

theorem upd_dbg'pounce {pl : List Part} {z0 s : State} {x0} (k0 : { x0 with pounce := [], frozenFor := 0 } = { s.dbg with pounce := [], frozenFor := 0 }) (h : Changes pl z0 s)
    (hl : ∀ p ∈ ([.pounce] : List Part), p ∈ pl) : Changes pl z0 { s with dbg := x0 } :=
  h.trans (Changes.mono (l := [.pounce]) (by intro p hp; cases p <;> first | rfl | exact fun _ => rfl | exact fun _ h => h | exact k0 | simp at hp) hl)

theorem upd_draws {pl : List Part} {z0 s : State} {x0}  (h : Changes pl z0 s)
    (hl : ∀ p ∈ ([.draws] : List Part), p ∈ pl) : Changes pl z0 { s with draws := x0 } :=
  h.trans (Changes.mono (l := [.draws]) (by intro p hp; cases p <;> first | rfl | exact fun _ => rfl | exact fun _ h => h | simp at hp) hl)

theorem upd_err {pl : List Part} {z0 s : State} {x0}  (h : Changes pl z0 s)
    (hl : ∀ p ∈ ([.err] : List Part), p ∈ pl) : Changes pl z0 { s with err := x0 } :=
  h.trans (Changes.mono (l := [.err]) (by intro p hp; cases p <;> first | rfl | exact fun _ => rfl | exact fun _ h => h | simp at hp) hl)

theorem upd_err_smc'mem {pl : List Part} {z0 s : State} {x0} {x1} (k0 : { x1 with mem := [] } = { s.smc with mem := [] }) (h : Changes pl z0 s)
    (hl : ∀ p ∈ ([.err, .mem] : List Part), p ∈ pl) : Changes pl z0 { s with err := x0, smc := x1 } :=
  h.trans (Changes.mono (l := [.err, .mem]) (by intro p hp; cases p <;> first | rfl | exact fun _ => rfl | exact fun _ h => h | exact k0 | simp at hp) hl)

theorem upd_esh {pl : List Part} {z0 s : State} {x0}  (h : Changes pl z0 s)
    (hl : ∀ p ∈ ([.hostQueue, .esh] : List Part), p ∈ pl) : Changes pl z0 { s with esh := x0 } :=
  h.trans (Changes.mono (l := [.hostQueue, .esh]) (by intro p hp; cases p <;> first | rfl | exact fun _ => rfl | exact fun _ h => h | simp at hp) hl)

theorem upd_esh'esh {pl : List Part} {z0 s : State} {x0} (k0 : x0.host = s.esh.host) (h : Changes pl z0 s)
    (hl : ∀ p ∈ ([.esh] : List Part), p ∈ pl) : Changes pl z0 { s with esh := x0 } :=
  h.trans (Changes.mono (l := [.esh]) (by intro p hp; cases p <;> first | rfl | exact fun _ => rfl | exact fun _ h => h | exact k0 | simp at hp) hl)

theorem upd_esh'hostQueue {pl : List Part} {z0 s : State} {x0} (k0 : { x0 with host := [] } = { s.esh with host := [] }) (h : Changes pl z0 s)
    (hl : ∀ p ∈ ([.hostQueue] : List Part), p ∈ pl) : Changes pl z0 { s with esh := x0 } :=
  h.trans (Changes.mono (l := [.hostQueue]) (by intro p hp; cases p <;> first | rfl | exact fun _ => rfl | exact fun _ h => h | exact k0 | simp at hp) hl)

theorem upd_esh'hostQueue_hpe'replies {pl : List Part} {z0 s : State} {x0} {x1} (k0 : { x0 with host := [] } = { s.esh with host := [] }) (k1 : (x1.rings, x1.staged) = (s.hpe.rings, s.hpe.staged)) (h : Changes pl z0 s)
    (hl : ∀ p ∈ ([.hostQueue, .replies] : List Part), p ∈ pl) : Changes pl z0 { s with esh := x0, hpe := x1 } :=
  h.trans (Changes.mono (l := [.hostQueue, .replies]) (by intro p hp; cases p <;> first | rfl | exact fun _ => rfl | exact fun _ h => h | exact k0 | exact k1 | simp at hp) hl)

theorem upd_frc {pl : List Part} {z0 s : State} {x0}  (h : Changes pl z0 s)
    (hl : ∀ p ∈ ([.frc] : List Part), p ∈ pl) : Changes pl z0 { s with frc := x0 } :=
  h.trans (Changes.mono (l := [.frc]) (by intro p hp; cases p <;> first | rfl | exact fun _ => rfl | exact fun _ h => h | simp at hp) hl)

theorem upd_fuses {pl : List Part} {z0 s : State} {x0}  (h : Changes pl z0 s)
    (hl : ∀ p ∈ ([.fuses] : List Part), p ∈ pl) : Changes pl z0 { s with fuses := x0 } :=
  h.trans (Changes.mono (l := [.fuses]) (by intro p hp; cases p <;> first | rfl | exact fun _ => rfl | exact fun _ h => h | simp at hp) hl)

theorem upd_fuses_pending {pl : List Part} {z0 s : State} {x0} {x1}  (h : Changes pl z0 s)
    (hl : ∀ p ∈ ([.fuses, .pending] : List Part), p ∈ pl) : Changes pl z0 { s with fuses := x0, pending := x1 } :=
  h.trans (Changes.mono (l := [.fuses, .pending]) (by intro p hp; cases p <;> first | rfl | exact fun _ => rfl | exact fun _ h => h | simp at hp) hl)

theorem upd_gates {pl : List Part} {z0 s : State} {x0}  (h : Changes pl z0 s)
    (hl : ∀ p ∈ ([.gates] : List Part), p ∈ pl) : Changes pl z0 { s with gates := x0 } :=
  h.trans (Changes.mono (l := [.gates]) (by intro p hp; cases p <;> first | rfl | exact fun _ => rfl | exact fun _ h => h | simp at hp) hl)

theorem upd_groups {pl : List Part} {z0 s : State} {x0}  (h : Changes pl z0 s)
    (hl : ∀ p ∈ ([.groups] : List Part), p ∈ pl) : Changes pl z0 { s with groups := x0 } :=
  h.trans (Changes.mono (l := [.groups]) (by intro p hp; cases p <;> first | rfl | exact fun _ => rfl | exact fun _ h => h | simp at hp) hl)

theorem upd_hlk {pl : List Part} {z0 s : State} {x0}  (h : Changes pl z0 s)
    (hl : ∀ p ∈ ([.hlk] : List Part), p ∈ pl) : Changes pl z0 { s with hlk := x0 } :=
  h.trans (Changes.mono (l := [.hlk]) (by intro p hp; cases p <;> first | rfl | exact fun _ => rfl | exact fun _ h => h | simp at hp) hl)

theorem upd_hood {pl : List Part} {z0 s : State} {x0}  (h : Changes pl z0 s)
    (hl : ∀ p ∈ ([.hood] : List Part), p ∈ pl) : Changes pl z0 { s with hood := x0 } :=
  h.trans (Changes.mono (l := [.hood]) (by intro p hp; cases p <;> first | rfl | exact fun _ => rfl | exact fun _ h => h | simp at hp) hl)

theorem upd_hood_hlk {pl : List Part} {z0 s : State} {x0} {x1}  (h : Changes pl z0 s)
    (hl : ∀ p ∈ ([.hood, .hlk] : List Part), p ∈ pl) : Changes pl z0 { s with hood := x0, hlk := x1 } :=
  h.trans (Changes.mono (l := [.hood, .hlk]) (by intro p hp; cases p <;> first | rfl | exact fun _ => rfl | exact fun _ h => h | simp at hp) hl)

theorem upd_hpe {pl : List Part} {z0 s : State} {x0}  (h : Changes pl z0 s)
    (hl : ∀ p ∈ ([.replies, .hpe] : List Part), p ∈ pl) : Changes pl z0 { s with hpe := x0 } :=
  h.trans (Changes.mono (l := [.replies, .hpe]) (by intro p hp; cases p <;> first | rfl | exact fun _ => rfl | exact fun _ h => h | simp at hp) hl)

theorem upd_hpe'hpe {pl : List Part} {z0 s : State} {x0} (k0 : (x0.replies, x0.nextId) = (s.hpe.replies, s.hpe.nextId)) (h : Changes pl z0 s)
    (hl : ∀ p ∈ ([.hpe] : List Part), p ∈ pl) : Changes pl z0 { s with hpe := x0 } :=
  h.trans (Changes.mono (l := [.hpe]) (by intro p hp; cases p <;> first | rfl | exact fun _ => rfl | exact fun _ h => h | exact k0 | simp at hp) hl)

theorem upd_hpe'replies {pl : List Part} {z0 s : State} {x0} (k0 : (x0.rings, x0.staged) = (s.hpe.rings, s.hpe.staged)) (h : Changes pl z0 s)
    (hl : ∀ p ∈ ([.replies] : List Part), p ∈ pl) : Changes pl z0 { s with hpe := x0 } :=
  h.trans (Changes.mono (l := [.replies]) (by intro p hp; cases p <;> first | rfl | exact fun _ => rfl | exact fun _ h => h | exact k0 | simp at hp) hl)

theorem upd_jic'jic {pl : List Part} {z0 s : State} {x0} (k0 : x0.levels = s.jic.levels) (h : Changes pl z0 s)
    (hl : ∀ p ∈ ([.jic] : List Part), p ∈ pl) : Changes pl z0 { s with jic := x0 } :=
  h.trans (Changes.mono (l := [.jic]) (by intro p hp; cases p <;> first | rfl | exact fun _ => rfl | exact fun _ h => h | exact k0 | simp at hp) hl)

theorem upd_jic'levels {pl : List Part} {z0 s : State} {x0} (k0 : { x0 with levels := [] } = { s.jic with levels := [] }) (h : Changes pl z0 s)
    (hl : ∀ p ∈ ([.levels] : List Part), p ∈ pl) : Changes pl z0 { s with jic := x0 } :=
  h.trans (Changes.mono (l := [.levels]) (by intro p hp; cases p <;> first | rfl | exact fun _ => rfl | exact fun _ h => h | exact k0 | simp at hp) hl)

theorem upd_lanes {pl : List Part} {z0 s : State} {x0}  (h : Changes pl z0 s)
    (hl : ∀ p ∈ ([.lanes] : List Part), p ∈ pl) : Changes pl z0 { s with lanes := x0 } :=
  h.trans (Changes.mono (l := [.lanes]) (by intro p hp; cases p <;> first | rfl | exact fun _ => rfl | exact fun _ h => h | simp at hp) hl)

theorem upd_lif {pl : List Part} {z0 s : State} {x0}  (h : Changes pl z0 s)
    (hl : ∀ p ∈ ([.lif] : List Part), p ∈ pl) : Changes pl z0 { s with lif := x0 } :=
  h.trans (Changes.mono (l := [.lif]) (by intro p hp; cases p <;> first | rfl | exact fun _ => rfl | exact fun _ h => h | simp at hp) hl)

theorem upd_mode {pl : List Part} {z0 s : State} {x0}  (h : Changes pl z0 s)
    (hl : ∀ p ∈ ([.mode, .quarantine, .shown] : List Part), p ∈ pl) : Changes pl z0 { s with mode := x0 } :=
  h.trans (Changes.mono (l := [.mode, .quarantine, .shown]) (by intro p hp; cases p <;> first | rfl | exact fun _ => rfl | exact fun _ h => h | simp at hp) hl)

theorem upd_mode'mode {pl : List Part} {z0 s : State} {x0} (k0 : x0.quarantine = s.mode.quarantine) (k1 : x0.shown = s.mode.shown) (h : Changes pl z0 s)
    (hl : ∀ p ∈ ([.mode] : List Part), p ∈ pl) : Changes pl z0 { s with mode := x0 } :=
  h.trans (Changes.mono (l := [.mode]) (by intro p hp; cases p <;> first | rfl | exact fun _ => rfl | exact fun _ h => h | exact k0 | exact k1 | simp at hp) hl)

theorem upd_mode'mode'quarantine {pl : List Part} {z0 s : State} {x0} (k0 : x0.shown = s.mode.shown) (h : Changes pl z0 s)
    (hl : ∀ p ∈ ([.mode, .quarantine] : List Part), p ∈ pl) : Changes pl z0 { s with mode := x0 } :=
  h.trans (Changes.mono (l := [.mode, .quarantine]) (by intro p hp; cases p <;> first | rfl | exact fun _ => rfl | exact fun _ h => h | exact k0 | simp at hp) hl)

theorem upd_mode'mode'quarantine_cpx'cpx_hood_rx {pl : List Part} {z0 s : State} {x0} {x1} {x2} {x3} (k0 : x0.shown = s.mode.shown) (k1 : x1.sessions = s.cpx.sessions) (k2 : (x1.keySeq, x1.queue, x1.round, x1.unauth, x1.forwarded) = (s.cpx.keySeq, s.cpx.queue, s.cpx.round, s.cpx.unauth, s.cpx.forwarded)) (k3 : x1.staged = s.cpx.staged) (h : Changes pl z0 s)
    (hl : ∀ p ∈ ([.mode, .quarantine, .cpx, .hood, .rx] : List Part), p ∈ pl) : Changes pl z0 { s with mode := x0, cpx := x1, hood := x2, rx := x3 } :=
  h.trans (Changes.mono (l := [.mode, .quarantine, .cpx, .hood, .rx]) (by intro p hp; cases p <;> first | rfl | exact fun _ => rfl | exact fun _ h => h | exact k0 | exact k1 | exact k2 | exact k3 | exact fun _ => k3 | simp at hp) hl)

theorem upd_mode'mode_cpx'staged'sealed'cpx_cfg {pl : List Part} {z0 s : State} {x0} {x1} {x2} (k0 : x0.quarantine = s.mode.quarantine) (k1 : x0.shown = s.mode.shown) (k2 : x1.sessions = s.cpx.sessions) (k3 : (x1.keySeq, x1.queue, x1.round, x1.unauth, x1.forwarded) = (s.cpx.keySeq, s.cpx.queue, s.cpx.round, s.cpx.unauth, s.cpx.forwarded)) (h : Changes pl z0 s)
    (hl : ∀ p ∈ ([.mode, .staged, .sealed, .cpx, .cfg] : List Part), p ∈ pl) : Changes pl z0 { s with mode := x0, cpx := x1, cfg := x2 } :=
  h.trans (Changes.mono (l := [.mode, .staged, .sealed, .cpx, .cfg]) (by intro p hp; cases p <;> first | rfl | exact fun _ => rfl | exact fun _ h => h | exact k0 | exact k1 | exact k2 | exact k3 | simp at hp) hl)

theorem upd_mode'mode_dbg'dbg {pl : List Part} {z0 s : State} {x0} {x1} (k0 : x0.quarantine = s.mode.quarantine) (k1 : x0.shown = s.mode.shown) (k2 : (x1.pounce, x1.frozenFor) = (s.dbg.pounce, s.dbg.frozenFor)) (h : Changes pl z0 s)
    (hl : ∀ p ∈ ([.mode, .dbg] : List Part), p ∈ pl) : Changes pl z0 { s with mode := x0, dbg := x1 } :=
  h.trans (Changes.mono (l := [.mode, .dbg]) (by intro p hp; cases p <;> first | rfl | exact fun _ => rfl | exact fun _ h => h | exact k0 | exact k1 | exact k2 | simp at hp) hl)

theorem upd_mode'quarantine {pl : List Part} {z0 s : State} {x0} (k0 : { x0 with shown := 0, quarantine := false } = { s.mode with shown := 0, quarantine := false }) (k1 : x0.shown = s.mode.shown) (h : Changes pl z0 s)
    (hl : ∀ p ∈ ([.quarantine] : List Part), p ∈ pl) : Changes pl z0 { s with mode := x0 } :=
  h.trans (Changes.mono (l := [.quarantine]) (by intro p hp; cases p <;> first | rfl | exact fun _ => rfl | exact fun _ h => h | exact k0 | exact k1 | simp at hp) hl)

theorem upd_mode'quarantine_dbg'pounce {pl : List Part} {z0 s : State} {x0} {x1} (k0 : { x0 with shown := 0, quarantine := false } = { s.mode with shown := 0, quarantine := false }) (k1 : x0.shown = s.mode.shown) (k2 : { x1 with pounce := [], frozenFor := 0 } = { s.dbg with pounce := [], frozenFor := 0 }) (h : Changes pl z0 s)
    (hl : ∀ p ∈ ([.quarantine, .pounce] : List Part), p ∈ pl) : Changes pl z0 { s with mode := x0, dbg := x1 } :=
  h.trans (Changes.mono (l := [.quarantine, .pounce]) (by intro p hp; cases p <;> first | rfl | exact fun _ => rfl | exact fun _ h => h | exact k0 | exact k1 | exact k2 | simp at hp) hl)

theorem upd_mode'shown {pl : List Part} {z0 s : State} {x0} (k0 : { x0 with shown := 0, quarantine := false } = { s.mode with shown := 0, quarantine := false }) (k1 : x0.quarantine = s.mode.quarantine) (h : Changes pl z0 s)
    (hl : ∀ p ∈ ([.shown] : List Part), p ∈ pl) : Changes pl z0 { s with mode := x0 } :=
  h.trans (Changes.mono (l := [.shown]) (by intro p hp; cases p <;> first | rfl | exact fun _ => rfl | exact fun _ h => h | exact k0 | exact k1 | simp at hp) hl)

theorem upd_mode'shown_dbg {pl : List Part} {z0 s : State} {x0} {x1} (k0 : { x0 with shown := 0, quarantine := false } = { s.mode with shown := 0, quarantine := false }) (k1 : x0.quarantine = s.mode.quarantine) (h : Changes pl z0 s)
    (hl : ∀ p ∈ ([.shown, .pounce, .dbg] : List Part), p ∈ pl) : Changes pl z0 { s with mode := x0, dbg := x1 } :=
  h.trans (Changes.mono (l := [.shown, .pounce, .dbg]) (by intro p hp; cases p <;> first | rfl | exact fun _ => rfl | exact fun _ h => h | exact k0 | exact k1 | simp at hp) hl)

theorem upd_mode_cfg_groups {pl : List Part} {z0 s : State} {x0} {x1} {x2}  (h : Changes pl z0 s)
    (hl : ∀ p ∈ ([.mode, .quarantine, .shown, .cfg, .groups] : List Part), p ∈ pl) : Changes pl z0 { s with mode := x0, cfg := x1, groups := x2 } :=
  h.trans (Changes.mono (l := [.mode, .quarantine, .shown, .cfg, .groups]) (by intro p hp; cases p <;> first | rfl | exact fun _ => rfl | exact fun _ h => h | simp at hp) hl)

theorem upd_mode_tsu_cpx_hood_cfg_err_acc_jic_tel_smc_frc_xdma_groups_lanes_lif_ports_gates_esh_hpe_dbg_hlk_rx_sas_pols {pl : List Part} {z0 s : State} {x0} {x1} {x2} {x3} {x4} {x5} {x6} {x7} {x8} {x9} {x10} {x11} {x12} {x13} {x14} {x15} {x16} {x17} {x18} {x19} {x20} {x21} {x22} {x23}  (h : Changes pl z0 s)
    (hl : ∀ p ∈ ([.mode, .quarantine, .shown, .tsu, .sessions, .checks, .staged, .sealed, .cpx, .hood, .cfg, .err, .acc, .levels, .jic, .ctr, .sweep, .samples, .tel, .mem, .smc, .frc, .xdma, .groups, .lanes, .lif, .ports, .gates, .hostQueue, .esh, .replies, .hpe, .pounce, .dbg, .hlk, .rx, .sas, .pols] : List Part), p ∈ pl) : Changes pl z0 { s with mode := x0, tsu := x1, cpx := x2, hood := x3, cfg := x4, err := x5, acc := x6, jic := x7, tel := x8, smc := x9, frc := x10, xdma := x11, groups := x12, lanes := x13, lif := x14, ports := x15, gates := x16, esh := x17, hpe := x18, dbg := x19, hlk := x20, rx := x21, sas := x22, pols := x23 } :=
  h.trans (Changes.mono (l := [.mode, .quarantine, .shown, .tsu, .sessions, .checks, .staged, .sealed, .cpx, .hood, .cfg, .err, .acc, .levels, .jic, .ctr, .sweep, .samples, .tel, .mem, .smc, .frc, .xdma, .groups, .lanes, .lif, .ports, .gates, .hostQueue, .esh, .replies, .hpe, .pounce, .dbg, .hlk, .rx, .sas, .pols]) (by intro p hp; cases p <;> first | rfl | exact fun _ => rfl | exact fun _ h => h | simp at hp) hl)

theorem upd_pols {pl : List Part} {z0 s : State} {x0}  (h : Changes pl z0 s)
    (hl : ∀ p ∈ ([.pols] : List Part), p ∈ pl) : Changes pl z0 { s with pols := x0 } :=
  h.trans (Changes.mono (l := [.pols]) (by intro p hp; cases p <;> first | rfl | exact fun _ => rfl | exact fun _ h => h | simp at hp) hl)

theorem upd_ports {pl : List Part} {z0 s : State} {x0}  (h : Changes pl z0 s)
    (hl : ∀ p ∈ ([.ports] : List Part), p ∈ pl) : Changes pl z0 { s with ports := x0 } :=
  h.trans (Changes.mono (l := [.ports]) (by intro p hp; cases p <;> first | rfl | exact fun _ => rfl | exact fun _ h => h | simp at hp) hl)

theorem upd_rx {pl : List Part} {z0 s : State} {x0}  (h : Changes pl z0 s)
    (hl : ∀ p ∈ ([.rx] : List Part), p ∈ pl) : Changes pl z0 { s with rx := x0 } :=
  h.trans (Changes.mono (l := [.rx]) (by intro p hp; cases p <;> first | rfl | exact fun _ => rfl | exact fun _ h => h | simp at hp) hl)

theorem upd_sas {pl : List Part} {z0 s : State} {x0}  (h : Changes pl z0 s)
    (hl : ∀ p ∈ ([.sas] : List Part), p ∈ pl) : Changes pl z0 { s with sas := x0 } :=
  h.trans (Changes.mono (l := [.sas]) (by intro p hp; cases p <;> first | rfl | exact fun _ => rfl | exact fun _ h => h | simp at hp) hl)

theorem upd_smc {pl : List Part} {z0 s : State} {x0}  (h : Changes pl z0 s)
    (hl : ∀ p ∈ ([.mem, .smc] : List Part), p ∈ pl) : Changes pl z0 { s with smc := x0 } :=
  h.trans (Changes.mono (l := [.mem, .smc]) (by intro p hp; cases p <;> first | rfl | exact fun _ => rfl | exact fun _ h => h | simp at hp) hl)

theorem upd_smc'smc {pl : List Part} {z0 s : State} {x0} (k0 : x0.mem = s.smc.mem) (h : Changes pl z0 s)
    (hl : ∀ p ∈ ([.smc] : List Part), p ∈ pl) : Changes pl z0 { s with smc := x0 } :=
  h.trans (Changes.mono (l := [.smc]) (by intro p hp; cases p <;> first | rfl | exact fun _ => rfl | exact fun _ h => h | exact k0 | simp at hp) hl)

theorem upd_tel {pl : List Part} {z0 s : State} {x0}  (h : Changes pl z0 s)
    (hl : ∀ p ∈ ([.ctr, .sweep, .samples, .tel] : List Part), p ∈ pl) : Changes pl z0 { s with tel := x0 } :=
  h.trans (Changes.mono (l := [.ctr, .sweep, .samples, .tel]) (by intro p hp; cases p <;> first | rfl | exact fun _ => rfl | exact fun _ h => h | simp at hp) hl)

theorem upd_tel'ctr {pl : List Part} {z0 s : State} {x0} (k0 : (x0.sweep, x0.sweepRun, x0.sweepSeq) = (s.tel.sweep, s.tel.sweepRun, s.tel.sweepSeq)) (k1 : x0.samples = s.tel.samples) (k2 : { x0 with ctr := [], ctrWas := [], evPrev := [], evUp := [], samples := [], sweep := [], sweepRun := none, sweepSeq := 0 } = { s.tel with ctr := [], ctrWas := [], evPrev := [], evUp := [], samples := [], sweep := [], sweepRun := none, sweepSeq := 0 }) (h : Changes pl z0 s)
    (hl : ∀ p ∈ ([.ctr] : List Part), p ∈ pl) : Changes pl z0 { s with tel := x0 } :=
  h.trans (Changes.mono (l := [.ctr]) (by intro p hp; cases p <;> first | rfl | exact fun _ => rfl | exact fun _ h => h | exact k0 | exact k1 | exact k2 | simp at hp) hl)

theorem upd_tel'ctr'tel {pl : List Part} {z0 s : State} {x0} (k0 : (x0.sweep, x0.sweepRun, x0.sweepSeq) = (s.tel.sweep, s.tel.sweepRun, s.tel.sweepSeq)) (k1 : x0.samples = s.tel.samples) (h : Changes pl z0 s)
    (hl : ∀ p ∈ ([.ctr, .tel] : List Part), p ∈ pl) : Changes pl z0 { s with tel := x0 } :=
  h.trans (Changes.mono (l := [.ctr, .tel]) (by intro p hp; cases p <;> first | rfl | exact fun _ => rfl | exact fun _ h => h | exact k0 | exact k1 | simp at hp) hl)

theorem upd_tel'samples {pl : List Part} {z0 s : State} {x0} (k0 : (x0.ctr, x0.ctrWas, x0.evPrev, x0.evUp) = (s.tel.ctr, s.tel.ctrWas, s.tel.evPrev, s.tel.evUp)) (k1 : (x0.sweep, x0.sweepRun, x0.sweepSeq) = (s.tel.sweep, s.tel.sweepRun, s.tel.sweepSeq)) (k2 : { x0 with ctr := [], ctrWas := [], evPrev := [], evUp := [], samples := [], sweep := [], sweepRun := none, sweepSeq := 0 } = { s.tel with ctr := [], ctrWas := [], evPrev := [], evUp := [], samples := [], sweep := [], sweepRun := none, sweepSeq := 0 }) (h : Changes pl z0 s)
    (hl : ∀ p ∈ ([.samples] : List Part), p ∈ pl) : Changes pl z0 { s with tel := x0 } :=
  h.trans (Changes.mono (l := [.samples]) (by intro p hp; cases p <;> first | rfl | exact fun _ => rfl | exact fun _ h => h | exact k0 | exact k1 | exact k2 | simp at hp) hl)

theorem upd_tel'samples'tel {pl : List Part} {z0 s : State} {x0} (k0 : (x0.ctr, x0.ctrWas, x0.evPrev, x0.evUp) = (s.tel.ctr, s.tel.ctrWas, s.tel.evPrev, s.tel.evUp)) (k1 : (x0.sweep, x0.sweepRun, x0.sweepSeq) = (s.tel.sweep, s.tel.sweepRun, s.tel.sweepSeq)) (h : Changes pl z0 s)
    (hl : ∀ p ∈ ([.samples, .tel] : List Part), p ∈ pl) : Changes pl z0 { s with tel := x0 } :=
  h.trans (Changes.mono (l := [.samples, .tel]) (by intro p hp; cases p <;> first | rfl | exact fun _ => rfl | exact fun _ h => h | exact k0 | exact k1 | simp at hp) hl)

theorem upd_tel'sweep {pl : List Part} {z0 s : State} {x0} (k0 : (x0.ctr, x0.ctrWas, x0.evPrev, x0.evUp) = (s.tel.ctr, s.tel.ctrWas, s.tel.evPrev, s.tel.evUp)) (k1 : x0.samples = s.tel.samples) (k2 : { x0 with ctr := [], ctrWas := [], evPrev := [], evUp := [], samples := [], sweep := [], sweepRun := none, sweepSeq := 0 } = { s.tel with ctr := [], ctrWas := [], evPrev := [], evUp := [], samples := [], sweep := [], sweepRun := none, sweepSeq := 0 }) (h : Changes pl z0 s)
    (hl : ∀ p ∈ ([.sweep] : List Part), p ∈ pl) : Changes pl z0 { s with tel := x0 } :=
  h.trans (Changes.mono (l := [.sweep]) (by intro p hp; cases p <;> first | rfl | exact fun _ => rfl | exact fun _ h => h | exact k0 | exact k1 | exact k2 | simp at hp) hl)

theorem upd_tel'sweep'tel {pl : List Part} {z0 s : State} {x0} (k0 : (x0.ctr, x0.ctrWas, x0.evPrev, x0.evUp) = (s.tel.ctr, s.tel.ctrWas, s.tel.evPrev, s.tel.evUp)) (k1 : x0.samples = s.tel.samples) (h : Changes pl z0 s)
    (hl : ∀ p ∈ ([.sweep, .tel] : List Part), p ∈ pl) : Changes pl z0 { s with tel := x0 } :=
  h.trans (Changes.mono (l := [.sweep, .tel]) (by intro p hp; cases p <;> first | rfl | exact fun _ => rfl | exact fun _ h => h | exact k0 | exact k1 | simp at hp) hl)

theorem upd_tel'tel {pl : List Part} {z0 s : State} {x0} (k0 : (x0.ctr, x0.ctrWas, x0.evPrev, x0.evUp) = (s.tel.ctr, s.tel.ctrWas, s.tel.evPrev, s.tel.evUp)) (k1 : (x0.sweep, x0.sweepRun, x0.sweepSeq) = (s.tel.sweep, s.tel.sweepRun, s.tel.sweepSeq)) (k2 : x0.samples = s.tel.samples) (h : Changes pl z0 s)
    (hl : ∀ p ∈ ([.tel] : List Part), p ∈ pl) : Changes pl z0 { s with tel := x0 } :=
  h.trans (Changes.mono (l := [.tel]) (by intro p hp; cases p <;> first | rfl | exact fun _ => rfl | exact fun _ h => h | exact k0 | exact k1 | exact k2 | simp at hp) hl)

theorem upd_tsu {pl : List Part} {z0 s : State} {x0}  (h : Changes pl z0 s)
    (hl : ∀ p ∈ ([.tsu] : List Part), p ∈ pl) : Changes pl z0 { s with tsu := x0 } :=
  h.trans (Changes.mono (l := [.tsu]) (by intro p hp; cases p <;> first | rfl | exact fun _ => rfl | exact fun _ h => h | simp at hp) hl)

theorem upd_tsu_cpx'checks_hood_frc_xdma_hpe {pl : List Part} {z0 s : State} {x0} {x1} {x2} {x3} {x4} {x5} (k0 : x1.sessions = s.cpx.sessions) (k1 : x1.staged = s.cpx.staged) (k2 : { x1 with sessions := [], keySeq := [], queue := [], round := [], unauth := [], forwarded := [], staged := {} } = { s.cpx with sessions := [], keySeq := [], queue := [], round := [], unauth := [], forwarded := [], staged := {} }) (h : Changes pl z0 s)
    (hl : ∀ p ∈ ([.tsu, .checks, .hood, .frc, .xdma, .replies, .hpe] : List Part), p ∈ pl) : Changes pl z0 { s with tsu := x0, cpx := x1, hood := x2, frc := x3, xdma := x4, hpe := x5 } :=
  h.trans (Changes.mono (l := [.tsu, .checks, .hood, .frc, .xdma, .replies, .hpe]) (by intro p hp; cases p <;> first | rfl | exact fun _ => rfl | exact fun _ h => h | exact k0 | exact k1 | exact fun _ => k1 | exact k2 | simp at hp) hl)

theorem upd_tsu_hlk {pl : List Part} {z0 s : State} {x0} {x1}  (h : Changes pl z0 s)
    (hl : ∀ p ∈ ([.tsu, .hlk] : List Part), p ∈ pl) : Changes pl z0 { s with tsu := x0, hlk := x1 } :=
  h.trans (Changes.mono (l := [.tsu, .hlk]) (by intro p hp; cases p <;> first | rfl | exact fun _ => rfl | exact fun _ h => h | simp at hp) hl)

theorem upd_tsu_tel'ctr {pl : List Part} {z0 s : State} {x0} {x1} (k0 : (x1.sweep, x1.sweepRun, x1.sweepSeq) = (s.tel.sweep, s.tel.sweepRun, s.tel.sweepSeq)) (k1 : x1.samples = s.tel.samples) (k2 : { x1 with ctr := [], ctrWas := [], evPrev := [], evUp := [], samples := [], sweep := [], sweepRun := none, sweepSeq := 0 } = { s.tel with ctr := [], ctrWas := [], evPrev := [], evUp := [], samples := [], sweep := [], sweepRun := none, sweepSeq := 0 }) (h : Changes pl z0 s)
    (hl : ∀ p ∈ ([.tsu, .ctr] : List Part), p ∈ pl) : Changes pl z0 { s with tsu := x0, tel := x1 } :=
  h.trans (Changes.mono (l := [.tsu, .ctr]) (by intro p hp; cases p <;> first | rfl | exact fun _ => rfl | exact fun _ h => h | exact k0 | exact k1 | exact k2 | simp at hp) hl)

theorem upd_xdma {pl : List Part} {z0 s : State} {x0}  (h : Changes pl z0 s)
    (hl : ∀ p ∈ ([.xdma] : List Part), p ∈ pl) : Changes pl z0 { s with xdma := x0 } :=
  h.trans (Changes.mono (l := [.xdma]) (by intro p hp; cases p <;> first | rfl | exact fun _ => rfl | exact fun _ h => h | simp at hp) hl)

end Sys2Proof.Safety
end

