-- ==== Sys2Proof/Laws/FrameShared.lean ====
section
/-! SUPPORT. What each shared operation changes at most (`Changes` of Safety): counters, records, errors, replies, the passing of time. -/
namespace Sys2Proof.Safety
open Sys2Proof.Machine

/-! ## Flags -/

theorem pounceFires_frame {pl : List Part} {z0 : State} {cls tgt : Nat} {s : State}
    (hz : Changes pl z0 s) (hpl : ∀ p ∈ ([.draws] : List Part), p ∈ pl) : Changes pl z0 (pounceFires cls tgt s).2 := by
  unfold pounceFires
  repeat' (first
      | with_reducible assumption | with_reducible exact Changes.sub hpl (by decide) | dsimp only | split
      | with_reducible apply upd_draws)

theorem pounceFires_of {pl : List Part} {z0 : State} {cls tgt : Nat} {s : State} {y : Option Nat} {t : State} (he : pounceFires cls tgt s = (y, t))
    (hz : Changes pl z0 s) (hpl : ∀ p ∈ ([.draws] : List Part), p ∈ pl) : Changes pl z0 t := by
  have := pounceFires_frame (z0 := z0) (cls := cls) (tgt := tgt) (s := s) hz hpl; rw [he] at this; exact this

/-! ## Counters -/

theorem count_frame {pl : List Part} {z0 : State} {k n : Nat} {s : State}
    (hz : Changes pl z0 s) (hpl : ∀ p ∈ ([.ctr] : List Part), p ∈ pl) : Changes pl z0 (count k n s) := by
  unfold count
  repeat' (first
      | with_reducible assumption | with_reducible exact Changes.sub hpl (by decide) | dsimp only | split
      | with_reducible refine upd_tel'ctr (by with_reducible rfl) (by with_reducible rfl) (by with_reducible rfl) ?_ ?_)

theorem tally_frame {pl : List Part} {z0 : State} {k : Nat} {s : State}
    (hz : Changes pl z0 s) (hpl : ∀ p ∈ ([.ctr] : List Part), p ∈ pl) : Changes pl z0 (tally k s) := by
  unfold tally
  repeat' (first
      | with_reducible assumption | with_reducible exact Changes.sub hpl (by decide) | with_reducible apply count_frame)

theorem tallyIn_frame {pl : List Part} {z0 : State} {g k : Nat} {s : State}
    (hz : Changes pl z0 s) (hpl : ∀ p ∈ ([.ctr] : List Part), p ∈ pl) : Changes pl z0 (tallyIn g k s) := by
  unfold tallyIn
  repeat' (first
      | with_reducible assumption | with_reducible exact Changes.sub hpl (by decide) | with_reducible apply tally_frame
      | dsimp only | split)

theorem tallyAt_frame {pl : List Part} {z0 : State} {p k : Nat} {s : State}
    (hz : Changes pl z0 s) (hpl : ∀ p ∈ ([.ctr] : List Part), p ∈ pl) : Changes pl z0 (tallyAt p k s) := by
  unfold tallyAt
  repeat' (first
      | with_reducible assumption | with_reducible exact Changes.sub hpl (by decide) | with_reducible apply tallyIn_frame
      | with_reducible apply tally_frame | dsimp only | split)

/-! ## Ops -/

theorem draw_frame {pl : List Part} {z0 : State} {s : State}
    (hz : Changes pl z0 s) (hpl : ∀ p ∈ ([.draws] : List Part), p ∈ pl) : Changes pl z0 (draw s).2 := by
  unfold draw
  repeat' (first
      | with_reducible assumption | with_reducible exact Changes.sub hpl (by decide) | dsimp only | split
      | with_reducible apply upd_draws)

theorem draw_of {pl : List Part} {z0 : State} {s : State} {y : Digest} {t : State} (he : draw s = (y, t))
    (hz : Changes pl z0 s) (hpl : ∀ p ∈ ([.draws] : List Part), p ∈ pl) : Changes pl z0 t := by
  have := draw_frame (z0 := z0) (s := s) hz hpl; rw [he] at this; exact this

theorem setLevel_frame {pl : List Part} {z0 : State} {n : Nat} {b : Bool} {s : State}
    (hz : Changes pl z0 s) (hpl : ∀ p ∈ ([.levels] : List Part), p ∈ pl) : Changes pl z0 (setLevel n b s) := by
  unfold setLevel
  repeat' (first
      | with_reducible assumption | with_reducible exact Changes.sub hpl (by decide) | dsimp only | split
      | with_reducible refine upd_jic'levels (by with_reducible rfl) ?_ ?_)

theorem raiseEvent_frame {pl : List Part} {z0 : State} {n : Nat} {s : State}
    (hz : Changes pl z0 s) (hpl : ∀ p ∈ ([.levels, .jic] : List Part), p ∈ pl) : Changes pl z0 (raiseEvent n s) := by
  unfold raiseEvent
  repeat' (first
      | with_reducible assumption | with_reducible exact Changes.sub hpl (by decide) | with_reducible apply setLevel_frame
      | dsimp only | split | with_reducible refine upd_jic'jic (by with_reducible rfl) ?_ ?_)

theorem clearEvent_frame {pl : List Part} {z0 : State} {n : Nat} {s : State}
    (hz : Changes pl z0 s) (hpl : ∀ p ∈ ([.levels] : List Part), p ∈ pl) : Changes pl z0 (clearEvent n s) := by
  unfold clearEvent
  repeat' (first
      | with_reducible assumption | with_reducible exact Changes.sub hpl (by decide) | with_reducible apply setLevel_frame
      | dsimp only | split)

theorem putRegion_frame {pl : List Part} {z0 : State} {n : Nat} {r : Region} {s : State}
    (hz : Changes pl z0 s) (hpl : ∀ p ∈ ([.frc] : List Part), p ∈ pl) : Changes pl z0 (putRegion n r s) := by
  unfold putRegion
  repeat' (first
      | with_reducible assumption | with_reducible exact Changes.sub hpl (by decide) | dsimp only | split
      | with_reducible apply upd_frc)

theorem putBudget_frame {pl : List Part} {z0 : State} {g : Nat} {b : Budget} {s : State}
    (hz : Changes pl z0 s) (hpl : ∀ p ∈ ([.frc] : List Part), p ∈ pl) : Changes pl z0 (putBudget g b s) := by
  unfold putBudget
  repeat' (first
      | with_reducible assumption | with_reducible exact Changes.sub hpl (by decide) | dsimp only | split
      | with_reducible apply upd_frc)

theorem loseRecord_frame {pl : List Part} {z0 : State} {n : Option Nat} {s : State}
    (hz : Changes pl z0 s) (hpl : ∀ p ∈ ([.frc] : List Part), p ∈ pl) : Changes pl z0 (loseRecord n s) := by
  unfold loseRecord
  repeat' (first
      | with_reducible assumption | with_reducible exact Changes.sub hpl (by decide) | with_reducible apply putRegion_frame
      | dsimp only | split | with_reducible apply upd_frc)

theorem admitRecord_frame {pl : List Part} {z0 : State} {r : Rec} {word : Nat} {s : State}
    (hz : Changes pl z0 s) (hpl : ∀ p ∈ ([.frc] : List Part), p ∈ pl) : Changes pl z0 (admitRecord r word s) := by
  unfold admitRecord
  repeat' (first
      | with_reducible assumption | with_reducible exact Changes.sub hpl (by decide) | with_reducible apply loseRecord_frame
      | with_reducible apply putRegion_frame | dsimp only | split | with_reducible apply upd_frc)

theorem suppressRecord_frame {pl : List Part} {z0 : State} {g kind : Nat} {s : State}
    (hz : Changes pl z0 s) (hpl : ∀ p ∈ ([.ctr, .frc] : List Part), p ∈ pl) : Changes pl z0 (suppressRecord g kind s) := by
  unfold suppressRecord
  repeat' (first
      | with_reducible assumption | with_reducible exact Changes.sub hpl (by decide) | with_reducible apply tally_frame
      | with_reducible apply putBudget_frame | dsimp only | split)

theorem takeIn_frame {pl : List Part} {z0 : State} {r : Rec} {s : State}
    (hz : Changes pl z0 s) (hpl : ∀ p ∈ ([.ctr, .frc] : List Part), p ∈ pl) : Changes pl z0 (takeIn r s) := by
  unfold takeIn
  repeat' (first
      | with_reducible assumption | with_reducible exact Changes.sub hpl (by decide) | with_reducible apply admitRecord_frame
      | with_reducible apply loseRecord_frame | with_reducible apply suppressRecord_frame | with_reducible apply putBudget_frame
      | dsimp only | split)

theorem record_frame {pl : List Part} {z0 : State} {r : Rec} {s : State}
    (hz : Changes pl z0 s) (hpl : ∀ p ∈ ([.frc] : List Part), p ∈ pl) : Changes pl z0 (record r s) := by
  unfold record
  repeat' (first
      | with_reducible assumption | with_reducible exact Changes.sub hpl (by decide) | dsimp only | split
      | with_reducible apply upd_frc)

theorem admitReady_frame {pl : List Part} {z0 : State} {s : State}
    (hz : Changes pl z0 s) (hpl : ∀ p ∈ ([.ctr, .frc] : List Part), p ∈ pl) : Changes pl z0 (admitReady s) := by
  unfold admitReady
  repeat' (first
      | with_reducible assumption | with_reducible exact Changes.sub hpl (by decide) | with_reducible apply takeIn_frame
      | (with_reducible apply Changes.foldl_frame; rotate_left; intro _ _ _) | dsimp only | split | with_reducible apply upd_frc)

theorem eventRecord_frame {pl : List Part} {z0 : State} {code : Nat} {detail : List Byte} {s : State}
    (hz : Changes pl z0 s) (hpl : ∀ p ∈ ([.frc] : List Part), p ∈ pl) : Changes pl z0 (eventRecord code detail s) := by
  unfold eventRecord
  repeat' (first
      | with_reducible assumption | with_reducible exact Changes.sub hpl (by decide) | with_reducible apply record_frame)

theorem putUnit_frame {pl : List Part} {z0 : State} {u : Nat} {e : ErrUnit} {s : State}
    (hz : Changes pl z0 s) (hpl : ∀ p ∈ ([.err] : List Part), p ∈ pl) : Changes pl z0 (putUnit u e s) := by
  unfold putUnit
  repeat' (first
      | with_reducible assumption | with_reducible exact Changes.sub hpl (by decide) | dsimp only | split
      | with_reducible apply upd_err)

theorem logError_frame {pl : List Part} {z0 : State} {u : Nat} {r : ErrRec} {s : State}
    (hz : Changes pl z0 s) (hpl : ∀ p ∈ ([.err, .mem] : List Part), p ∈ pl) : Changes pl z0 (logError u r s) := by
  unfold logError
  repeat' (first
      | with_reducible assumption | with_reducible exact Changes.sub hpl (by decide) | with_reducible apply putUnit_frame
      | dsimp only | split | with_reducible refine upd_err_smc'mem (by with_reducible rfl) ?_ ?_)

theorem endSessions_frame {pl : List Part} {z0 : State} {s : State}
    (hz : Changes pl z0 s) (hpl : ∀ p ∈ ([.sessions] : List Part), p ∈ pl) : Changes pl z0 (endSessions s) := by
  unfold endSessions
  repeat' (first
      | with_reducible assumption | with_reducible exact Changes.sub hpl (by decide) | dsimp only | split
      | with_reducible refine upd_cpx'sessions (by with_reducible rfl) (by with_reducible rfl) (by with_reducible rfl) ?_ ?_)

theorem setDebug_frame {pl : List Part} {z0 : State} {lv : DbgLevel} {s : State}
    (hz : Changes pl z0 s) (hpl : ∀ p ∈ ([.frc, .pounce, .dbg] : List Part), p ∈ pl) : Changes pl z0 (setDebug lv s) := by
  unfold setDebug
  repeat' (first
      | with_reducible assumption | with_reducible exact Changes.sub hpl (by decide) | with_reducible apply eventRecord_frame
      | dsimp only | split | with_reducible apply upd_dbg)

theorem closeLevel_frame {pl : List Part} {z0 : State} {s : State}
    (hz : Changes pl z0 s) (hpl : ∀ p ∈ ([.frc, .pounce, .dbg] : List Part), p ∈ pl) : Changes pl z0 (closeLevel s) := by
  unfold closeLevel
  repeat' (first
      | with_reducible assumption | with_reducible exact Changes.sub hpl (by decide) | with_reducible apply setDebug_frame
      | dsimp only | split | with_reducible refine upd_dbg'dbg (by with_reducible rfl) ?_ ?_)

theorem enterQuarantine_frame {pl : List Part} {z0 : State} {s : State}
    (hz : Changes pl z0 s) (hpl : ∀ p ∈ ([.quarantine, .sessions, .sealed, .frc, .pounce, .dbg] : List Part), p ∈ pl) :
      Changes pl z0 (enterQuarantine s) := by
  unfold enterQuarantine
  repeat' (first
      | with_reducible assumption | with_reducible exact Changes.sub hpl (by decide) | with_reducible apply endSessions_frame
      | with_reducible apply discardPending_frame | with_reducible apply closeLevel_frame | dsimp only | split
      | with_reducible refine upd_mode'quarantine_dbg'pounce (by with_reducible rfl) (by with_reducible rfl) (by with_reducible rfl) ?_ ?_)

theorem storeError_frame {pl : List Part} {z0 : State} {r : ErrRec} {s : State}
    (hz : Changes pl z0 s) (hpl : ∀ p ∈ ([.err] : List Part), p ∈ pl) : Changes pl z0 (storeError r s) := by
  unfold storeError
  repeat' (first
      | with_reducible assumption | with_reducible exact Changes.sub hpl (by decide) | with_reducible apply putUnit_frame
      | dsimp only | split | with_reducible apply upd_err)

theorem raiseError_frame {pl : List Part} {z0 : State} {gen : Nat} {r : ErrRec} {s : State}
    (hz : Changes pl z0 s) (hpl : ∀ p ∈ ([.err] : List Part), p ∈ pl) : Changes pl z0 (raiseError gen r s) := by
  unfold raiseError
  repeat' (first
      | with_reducible assumption | with_reducible exact Changes.sub hpl (by decide) | with_reducible apply storeError_frame
      | dsimp only | split | with_reducible apply upd_err)

theorem numberError_frame {pl : List Part} {z0 : State} {r : ErrRec} {s : State}
    (hz : Changes pl z0 s) (hpl : ∀ p ∈ ([.err, .mem] : List Part), p ∈ pl) : Changes pl z0 (numberError r s) := by
  unfold numberError
  repeat' (first
      | with_reducible assumption | with_reducible exact Changes.sub hpl (by decide) | with_reducible apply logError_frame
      | with_reducible apply storeError_frame)

theorem numberErrors_frame {pl : List Part} {z0 : State} {s : State}
    (hz : Changes pl z0 s) (hpl : ∀ p ∈ ([.err, .mem] : List Part), p ∈ pl) : Changes pl z0 (numberErrors s) := by
  unfold numberErrors
  repeat' (first
      | with_reducible assumption | with_reducible exact Changes.sub hpl (by decide) | with_reducible apply numberError_frame
      | (with_reducible apply Changes.foldl_frame; rotate_left; intro _ _ _) | dsimp only | split | with_reducible apply upd_err)

theorem dbgNote_frame {pl : List Part} {z0 : State} {gen : Nat} {s : State}
    (hz : Changes pl z0 s) (hpl : ∀ p ∈ ([.err] : List Part), p ∈ pl) : Changes pl z0 (dbgNote gen s) := by
  unfold dbgNote
  repeat' (first
      | with_reducible assumption | with_reducible exact Changes.sub hpl (by decide) | with_reducible apply raiseError_frame)

theorem triggerFreeze_frame {pl : List Part} {z0 : State} {f : Nat} {byInput : Bool} {s : State}
    (hz : Changes pl z0 s) (hpl : ∀ p ∈ ([.pounce, .dbg] : List Part), p ∈ pl) : Changes pl z0 (triggerFreeze f byInput s) := by
  unfold triggerFreeze
  repeat' (first
      | with_reducible assumption | with_reducible exact Changes.sub hpl (by decide) | dsimp only | split
      | with_reducible apply upd_dbg)

theorem replyWritten_frame {pl : List Part} {z0 : State} {id : Nat} {s : State}
    (hz : Changes pl z0 s) (hpl : ∀ p ∈ ([.pounce, .dbg] : List Part), p ∈ pl) : Changes pl z0 (replyWritten id s) := by
  unfold replyWritten
  repeat' (first
      | with_reducible assumption | with_reducible exact Changes.sub hpl (by decide) | with_reducible apply triggerFreeze_frame
      | dsimp only | split | with_reducible refine upd_dbg'dbg (by with_reducible rfl) ?_ ?_)

theorem armedFires_frame {pl : List Part} {z0 : State} {kind : Nat} {s : State}
    (hz : Changes pl z0 s) (hpl : ∀ p ∈ ([.err, .pounce, .dbg] : List Part), p ∈ pl) : Changes pl z0 (armedFires kind s) := by
  unfold armedFires
  repeat' (first
      | with_reducible assumption | with_reducible exact Changes.sub hpl (by decide) | with_reducible apply triggerFreeze_frame
      | with_reducible apply dbgNote_frame | dsimp only | split
      | with_reducible refine upd_dbg'dbg (by with_reducible rfl) ?_ ?_)

theorem errorWith_frame {pl : List Part} {z0 : State} {injected : Bool} {gen unit code inst sev cls d0 d1 : Nat} {s : State}
    (hz : Changes pl z0 s) (hpl : ∀ p ∈ ([.quarantine, .sessions, .sealed, .err, .frc, .pounce, .dbg] : List Part), p ∈ pl) :
      Changes pl z0 (errorWith injected gen unit code inst sev cls d0 d1 s) := by
  unfold errorWith
  repeat' (first
      | with_reducible assumption | with_reducible exact Changes.sub hpl (by decide)
      | with_reducible apply enterQuarantine_frame | with_reducible apply armedFires_frame
      | with_reducible apply raiseError_frame | dsimp only | split)

theorem errorAt_frame {pl : List Part} {z0 : State} {unit code inst sev cls d0 d1 : Nat} {s : State}
    (hz : Changes pl z0 s) (hpl : ∀ p ∈ ([.quarantine, .sessions, .sealed, .err, .frc, .pounce, .dbg] : List Part), p ∈ pl) :
      Changes pl z0 (errorAt unit code inst sev cls d0 d1 s) := by
  unfold errorAt
  repeat' (first
      | with_reducible assumption | with_reducible exact Changes.sub hpl (by decide) | with_reducible apply errorWith_frame)

theorem spillSamples_frame {pl : List Part} {z0 : State} {fuel : Nat} {s : State}
    (hz : Changes pl z0 s) (hpl : ∀ p ∈ ([.samples, .frc] : List Part), p ∈ pl) : Changes pl z0 (spillSamples fuel s) := by
  induction fuel generalizing s with
  | zero =>
    unfold spillSamples
    repeat' (first
      | with_reducible assumption)
  | succ _ ih =>
    unfold spillSamples
    repeat' (first
        | with_reducible assumption | with_reducible exact Changes.sub hpl (by decide) | with_reducible apply ih
        | with_reducible apply admitRecord_frame | dsimp only | split
        | with_reducible refine upd_tel'samples (by with_reducible rfl) (by with_reducible rfl) (by with_reducible rfl) ?_ ?_)

theorem pushSample_frame {pl : List Part} {z0 : State} {f : Fields} {s : State}
    (hz : Changes pl z0 s) (hpl : ∀ p ∈ ([.levels, .jic, .ctr, .samples] : List Part), p ∈ pl) : Changes pl z0 (pushSample f s) := by
  unfold pushSample
  repeat' (first
      | with_reducible assumption | with_reducible exact Changes.sub hpl (by decide) | with_reducible apply tally_frame
      | with_reducible apply raiseEvent_frame | dsimp only | split
      | with_reducible refine upd_tel'samples (by with_reducible rfl) (by with_reducible rfl) (by with_reducible rfl) ?_ ?_)

theorem takeSweep_frame {pl : List Part} {z0 : State} {fuel : Nat} {s : State}
    (hz : Changes pl z0 s) (hpl : ∀ p ∈ ([.frc] : List Part), p ∈ pl) : Changes pl z0 (takeSweep fuel s) := by
  induction fuel generalizing s with
  | zero => unfold takeSweep; exact hz
  | succ n ih =>
    rcases hs : s.frc.sweep with _ | ⟨h0, rest, i⟩ <;> unfold takeSweep <;> simp only [hs]
    · exact hz
    · have h : ∀ x, Changes pl z0 { s with frc := x } := fun x => upd_frc hz (Changes.sub hpl (by decide))
      repeat' split
      all_goals first
        | exact hz
        | exact ih (admitRecord_frame (h _) hpl)
        | exact ih (loseRecord_frame (h _) (Changes.sub hpl (by decide)))

theorem recordCcyc_frame {pl : List Part} {z0 : State} {s : State}
    (hz : Changes pl z0 s) (hpl : ∀ p ∈ ([.ctr, .samples, .frc] : List Part), p ∈ pl) : Changes pl z0 (recordCcyc s) := by
  unfold recordCcyc
  repeat' (first
      | with_reducible assumption | with_reducible exact Changes.sub hpl (by decide) | with_reducible apply admitReady_frame
      | with_reducible apply spillSamples_frame | with_reducible apply takeSweep_frame | dsimp only | split)

theorem endSample_frame {pl : List Part} {z0 : State} {code tag what : Nat} {f : Option Fields} {s : State}
    (hz : Changes pl z0 s) (hpl : ∀ p ∈ ([.levels, .jic, .ctr, .samples] : List Part), p ∈ pl) : Changes pl z0 (endSample code
      tag what f s) := by
  unfold endSample
  repeat' (first
      | with_reducible assumption | with_reducible exact Changes.sub hpl (by decide) | with_reducible apply pushSample_frame
      | dsimp only | split)

theorem putPort_frame {pl : List Part} {z0 : State} {p : Nat} {x : Port} {s : State}
    (hz : Changes pl z0 s) (hpl : ∀ p ∈ ([.ports] : List Part), p ∈ pl) : Changes pl z0 (putPort p x s) := by
  unfold putPort
  repeat' (first
      | with_reducible assumption | with_reducible exact Changes.sub hpl (by decide) | dsimp only | split
      | with_reducible apply upd_ports)

/-! ## Port -/

theorem putLane_frame {pl : List Part} {z0 : State} {n : Nat} {l : Lane} {s : State}
    (hz : Changes pl z0 s) (hpl : ∀ p ∈ ([.lanes] : List Part), p ∈ pl) : Changes pl z0 (putLane n l s) := by
  unfold putLane
  repeat' (first
      | with_reducible assumption | with_reducible exact Changes.sub hpl (by decide) | dsimp only | split
      | with_reducible apply upd_lanes)

/-! ## Batt -/

theorem battRead_frame {pl : List Part} {z0 : State} {s : State}
    (hz : Changes pl z0 s) (hpl : ∀ p ∈ ([.tel, .out] : List Part), p ∈ pl) : Changes pl z0 (battRead s) := by
  unfold battRead
  repeat' (first
      | with_reducible assumption | with_reducible exact Changes.sub hpl (by decide) | with_reducible apply emit_frame
      | dsimp only | split
      | with_reducible refine upd_tel'tel (by with_reducible rfl) (by with_reducible rfl) (by with_reducible rfl) ?_ ?_)

theorem battSnapshot_frame {pl : List Part} {z0 : State} {b : BattBody} {s : State}
    (hz : Changes pl z0 s) (hpl : ∀ p ∈ ([.samples, .tel, .out] : List Part), p ∈ pl) : Changes pl z0 (battSnapshot b s) := by
  unfold battSnapshot
  repeat' (first
      | with_reducible assumption | with_reducible exact Changes.sub hpl (by decide) | with_reducible apply battRead_frame
      | dsimp only | split | with_reducible refine upd_tel'samples'tel (by with_reducible rfl) (by with_reducible rfl) ?_ ?_)

/-! ## Esh -/

theorem putLeaf_frame {pl : List Part} {z0 : State} {n : Nat} {x : Sched} {s : State}
    (hz : Changes pl z0 s) (hpl : ∀ p ∈ ([.esh] : List Part), p ∈ pl) : Changes pl z0 (putLeaf n x s) := by
  unfold putLeaf
  repeat' (first
      | with_reducible assumption | with_reducible exact Changes.sub hpl (by decide) | dsimp only | split
      | with_reducible refine upd_esh'esh (by with_reducible rfl) ?_ ?_)

theorem putNode_frame {pl : List Part} {z0 : State} {n : Nat} {x : Sched} {s : State}
    (hz : Changes pl z0 s) (hpl : ∀ p ∈ ([.esh] : List Part), p ∈ pl) : Changes pl z0 (putNode n x s) := by
  unfold putNode
  repeat' (first
      | with_reducible assumption | with_reducible exact Changes.sub hpl (by decide) | dsimp only | split
      | with_reducible refine upd_esh'esh (by with_reducible rfl) ?_ ?_)

theorem putClass_frame {pl : List Part} {z0 : State} {p k : Nat} {x : Sched} {s : State}
    (hz : Changes pl z0 s) (hpl : ∀ p ∈ ([.esh] : List Part), p ∈ pl) : Changes pl z0 (putClass p k x s) := by
  unfold putClass
  repeat' (first
      | with_reducible assumption | with_reducible exact Changes.sub hpl (by decide) | dsimp only | split
      | with_reducible refine upd_esh'esh (by with_reducible rfl) ?_ ?_)

theorem putPortObj_frame {pl : List Part} {z0 : State} {p : Nat} {x : Sched} {s : State}
    (hz : Changes pl z0 s) (hpl : ∀ p ∈ ([.esh] : List Part), p ∈ pl) : Changes pl z0 (putPortObj p x s) := by
  unfold putPortObj
  repeat' (first
      | with_reducible assumption | with_reducible exact Changes.sub hpl (by decide) | dsimp only | split
      | with_reducible refine upd_esh'esh (by with_reducible rfl) ?_ ?_)

theorem putEngine_frame {pl : List Part} {z0 : State} {g : Nat} {e : Engine} {s : State}
    (hz : Changes pl z0 s) (hpl : ∀ p ∈ ([.esh] : List Part), p ∈ pl) : Changes pl z0 (putEngine g e s) := by
  unfold putEngine
  repeat' (first
      | with_reducible assumption | with_reducible exact Changes.sub hpl (by decide) | dsimp only | split
      | with_reducible refine upd_esh'esh (by with_reducible rfl) ?_ ?_)

theorem refreshReady_frame {pl : List Part} {z0 : State} {s : State}
    (hz : Changes pl z0 s) (hpl : ∀ p ∈ ([.esh] : List Part), p ∈ pl) : Changes pl z0 (refreshReady s) := by
  unfold refreshReady
  repeat' (first
      | with_reducible assumption | with_reducible exact Changes.sub hpl (by decide) | with_reducible apply putPortObj_frame
      | with_reducible apply putClass_frame | with_reducible apply putNode_frame | with_reducible apply putLeaf_frame
      | (with_reducible apply Changes.foldl_frame; rotate_left; intro _ _ _) | dsimp only | split)

theorem putObj_frame {pl : List Part} {z0 : State} {o : ShaperObj} {x : Sched} {s : State}
    (hz : Changes pl z0 s) (hpl : ∀ p ∈ ([.esh] : List Part), p ∈ pl) : Changes pl z0 (putObj o x s) := by
  unfold putObj
  repeat' (first
      | with_reducible assumption | with_reducible exact Changes.sub hpl (by decide) | with_reducible apply putLeaf_frame
      | with_reducible apply putNode_frame | with_reducible apply putPortObj_frame | dsimp only | split)

theorem shaperCharge_frame {pl : List Part} {z0 : State} {o : ShaperObj} {c : Int} {s : State}
    (hz : Changes pl z0 s) (hpl : ∀ p ∈ ([.esh] : List Part), p ∈ pl) : Changes pl z0 (shaperCharge o c s) := by
  unfold shaperCharge
  repeat' (first
      | with_reducible assumption | with_reducible exact Changes.sub hpl (by decide) | with_reducible apply putObj_frame
      | dsimp only | split)

theorem shaperRelease_frame {pl : List Part} {z0 : State} {o : ShaperObj} {s : State}
    (hz : Changes pl z0 s) (hpl : ∀ p ∈ ([.ctr, .esh] : List Part), p ∈ pl) : Changes pl z0 (shaperRelease o s) := by
  unfold shaperRelease
  repeat' (first
      | with_reducible assumption | with_reducible exact Changes.sub hpl (by decide) | with_reducible apply putObj_frame
      | with_reducible apply putEngine_frame | with_reducible apply tallyIn_frame | dsimp only | split)

theorem wheelTick_frame {pl : List Part} {z0 : State} {g : Nat} {s : State}
    (hz : Changes pl z0 s) (hpl : ∀ p ∈ ([.esh] : List Part), p ∈ pl) : Changes pl z0 (wheelTick g s) := by
  unfold wheelTick
  repeat' (first
      | with_reducible assumption | with_reducible exact Changes.sub hpl (by decide) | dsimp only | split
      | with_reducible refine upd_esh'esh (by with_reducible rfl) ?_ ?_)

theorem moveTags_frame {pl : List Part} {z0 : State} {g : Grant} {f : Nat → Int} {s : State}
    (hz : Changes pl z0 s) (hpl : ∀ p ∈ ([.esh] : List Part), p ∈ pl) : Changes pl z0 (moveTags g f s) := by
  unfold moveTags
  repeat' (first
      | with_reducible assumption | with_reducible exact Changes.sub hpl (by decide) | with_reducible apply putPortObj_frame
      | with_reducible apply putClass_frame | with_reducible apply putNode_frame | with_reducible apply putLeaf_frame
      | dsimp only | split)

theorem chargePath_frame {pl : List Part} {z0 : State} {g : Grant} {c : Int} {s : State}
    (hz : Changes pl z0 s) (hpl : ∀ p ∈ ([.esh] : List Part), p ∈ pl) : Changes pl z0 (chargePath g c s) := by
  unfold chargePath
  repeat' (first
      | with_reducible assumption | with_reducible exact Changes.sub hpl (by decide) | with_reducible apply shaperCharge_frame)

theorem useBytes_frame {pl : List Part} {z0 : State} {p : Nat} {d : Int} {s : State}
    (hz : Changes pl z0 s) (hpl : ∀ p ∈ ([.esh] : List Part), p ∈ pl) : Changes pl z0 (useBytes p d s) := by
  unfold useBytes
  repeat' (first
      | with_reducible assumption | with_reducible exact Changes.sub hpl (by decide) | dsimp only | split
      | with_reducible refine upd_esh'esh (by with_reducible rfl) ?_ ?_)

theorem settleGrant_frame {pl : List Part} {z0 : State} {pg : Nat} {g : Grant} {s : State}
    (hz : Changes pl z0 s) (hpl : ∀ p ∈ ([.ctr, .esh] : List Part), p ∈ pl) : Changes pl z0 (settleGrant pg g s) := by
  unfold settleGrant
  repeat' (first
      | with_reducible assumption | with_reducible exact Changes.sub hpl (by decide) | with_reducible apply putEngine_frame
      | with_reducible apply tallyIn_frame | with_reducible apply useBytes_frame | with_reducible apply chargePath_frame
      | with_reducible apply moveTags_frame | dsimp only | split)

theorem mapGrant_frame {pl : List Part} {z0 : State} {pg id : Nat} {f : Grant → Grant} {s : State}
    (hz : Changes pl z0 s) (hpl : ∀ p ∈ ([.esh] : List Part), p ∈ pl) : Changes pl z0 (mapGrant pg id f s) := by
  unfold mapGrant
  repeat' (first
      | with_reducible assumption | with_reducible exact Changes.sub hpl (by decide) | with_reducible apply putEngine_frame)

theorem markDropped_frame {pl : List Part} {z0 : State} {pg : Nat} {f : TxFrame} {s : State}
    (hz : Changes pl z0 s) (hpl : ∀ p ∈ ([.esh] : List Part), p ∈ pl) : Changes pl z0 (markDropped pg f s) := by
  unfold markDropped
  repeat' (first
      | with_reducible assumption | with_reducible exact Changes.sub hpl (by decide) | with_reducible apply mapGrant_frame
      | dsimp only | split)

/-! ## Smc -/

theorem putRank_frame {pl : List Part} {z0 : State} {r : Nat} {x : RankInfo} {s : State}
    (hz : Changes pl z0 s) (hpl : ∀ p ∈ ([.smc] : List Part), p ∈ pl) : Changes pl z0 (putRank r x s) := by
  unfold putRank
  repeat' (first
      | with_reducible assumption | with_reducible exact Changes.sub hpl (by decide) | dsimp only | split
      | with_reducible refine upd_smc'smc (by with_reducible rfl) ?_ ?_)

theorem putChan_frame {pl : List Part} {z0 : State} {c : Nat} {x : ChanInfo} {s : State}
    (hz : Changes pl z0 s) (hpl : ∀ p ∈ ([.smc] : List Part), p ∈ pl) : Changes pl z0 (putChan c x s) := by
  unfold putChan
  repeat' (first
      | with_reducible assumption | with_reducible exact Changes.sub hpl (by decide) | dsimp only | split
      | with_reducible refine upd_smc'smc (by with_reducible rfl) ?_ ?_)

theorem smcError_frame {pl : List Part} {z0 : State} {r code sev cls d0 d1 : Nat} {s : State} {gen : Nat}
    (hz : Changes pl z0 s) (hpl : ∀ p ∈ ([.quarantine, .sessions, .sealed, .err, .frc, .pounce, .dbg] : List Part), p ∈ pl) :
      Changes pl z0 (smcError r code sev cls d0 d1 s gen) := by
  unfold smcError
  repeat' (first
      | with_reducible assumption | with_reducible exact Changes.sub hpl (by decide) | with_reducible apply errorWith_frame)

theorem throttle_frame {pl : List Part} {z0 : State} {r bank : Nat} {s : State}
    (hz : Changes pl z0 s) (hpl : ∀ p ∈ ([.quarantine, .sessions, .sealed, .err, .smc, .frc, .pounce, .dbg] : List Part),
      p ∈ pl) : Changes pl z0 (throttle r bank s) := by
  unfold throttle
  repeat' (first
      | with_reducible assumption | with_reducible exact Changes.sub hpl (by decide) | with_reducible apply smcError_frame
      | with_reducible apply putChan_frame | dsimp only | split
      | with_reducible refine upd_smc'smc (by with_reducible rfl) ?_ ?_)

theorem dfiRequest_frame {pl : List Part} {z0 : State} {r bank row a : Nat} {asleep hit : Bool} {data : Option (List Byte)} {s : State}
    (hz : Changes pl z0 s) (hpl : ∀ p ∈ ([.out] : List Part), p ∈ pl) : Changes pl z0 (dfiRequest r bank row a asleep hit data s) := by
  unfold dfiRequest
  repeat' (first
      | with_reducible assumption | with_reducible exact Changes.sub hpl (by decide) | with_reducible apply emits_frame)

theorem touch_frame {pl : List Part} {z0 : State} {q a : Nat} {data : Option (List Byte)} {s0 : State}
    (hz : Changes pl z0 s0) (hpl : ∀ p ∈ ([.quarantine, .sessions, .sealed, .err, .smc, .frc, .pounce, .dbg, .out] : List
      Part), p ∈ pl) : Changes pl z0 (touch q a data s0) := by
  unfold touch
  repeat' (first
      | with_reducible assumption | with_reducible exact Changes.sub hpl (by decide) | with_reducible apply putRank_frame
      | with_reducible apply dfiRequest_frame | with_reducible apply throttle_frame | with_reducible apply putChan_frame
      | dsimp only | split)

theorem noteLate_frame {pl : List Part} {z0 : State} {q a issued : Nat} {s : State}
    (hz : Changes pl z0 s) (hpl : ∀ p ∈ ([.smc] : List Part), p ∈ pl) : Changes pl z0 (noteLate q a issued s) := by
  unfold noteLate
  repeat' (first
      | with_reducible assumption | with_reducible exact Changes.sub hpl (by decide) | with_reducible apply putChan_frame
      | dsimp only | split)

theorem smcCcyc_frame {pl : List Part} {z0 : State} {s : State}
    (hz : Changes pl z0 s) (hpl : ∀ p ∈ ([.quarantine, .sessions, .sealed, .err, .smc, .frc, .pounce, .dbg, .out] : List
      Part), p ∈ pl) : Changes pl z0 (smcCcyc s) := by
  unfold smcCcyc
  repeat' (first
      | with_reducible assumption | with_reducible exact Changes.sub hpl (by decide) | with_reducible apply noteLate_frame
      | with_reducible apply touch_frame | (with_reducible apply Changes.foldl_frame; rotate_left; intro _ _ _) | dsimp only
      | split)

/-! ## Export -/

theorem putX_frame {pl : List Part} {z0 : State} {c : Nat} {x : XChan} {s : State}
    (hz : Changes pl z0 s) (hpl : ∀ p ∈ ([.xdma] : List Part), p ∈ pl) : Changes pl z0 (putX c x s) := by
  unfold putX
  repeat' (first
      | with_reducible assumption | with_reducible exact Changes.sub hpl (by decide) | dsimp only | split
      | with_reducible apply upd_xdma)

theorem readErrors_frame {pl : List Part} {z0 : State} {s : State} {l : List Nat}
    (hz : Changes pl z0 s) (hpl : ∀ p ∈ ([.draws] : List Part), p ∈ pl) : Changes pl z0 (readErrors s l).2 := by
  refine Changes.foldl_snd (a := ((none, []), s)) hz fun a b ha => ?_
  split
  · exact ha
  · split <;> exact pounceFires_of (by assumption) ha hpl


theorem readErrors_of {pl : List Part} {z0 : State} {s : State} {l : List Nat} {y : (Option Nat × List Nat)} {t : State} (he : readErrors s l = (y, t))
    (hz : Changes pl z0 s) (hpl : ∀ p ∈ ([.draws] : List Part), p ∈ pl) : Changes pl z0 t := by
  have := readErrors_frame (z0 := z0) (s := s) (l := l) hz hpl; rw [he] at this; exact this

theorem exportWrite_frame {pl : List Part} {z0 : State} {c : Nat} {s : State}
    (hz : Changes pl z0 s) (hpl : ∀ p ∈ ([.quarantine, .sessions, .sealed, .err, .smc, .frc, .xdma, .pounce, .dbg, .out,
      .draws] : List Part), p ∈ pl) : Changes pl z0 (exportWrite c s) := by
  unfold exportWrite
  repeat' (first
      | with_reducible assumption | with_reducible exact Changes.sub hpl (by decide)
      | with_reducible refine readErrors_of (by assumption) ?_ ?_ | with_reducible apply readErrors_frame
      | with_reducible apply putX_frame | with_reducible apply touch_frame | with_reducible apply emit_frame
      | (with_reducible apply Changes.foldl_frame; rotate_left; intro _ _ _) | dsimp only | split)

theorem exportWrites_frame {pl : List Part} {z0 : State} {n : Nat} {s : State}
    (hz : Changes pl z0 s) (hpl : ∀ p ∈ ([.quarantine, .sessions, .sealed, .err, .smc, .frc, .xdma, .pounce, .dbg, .out,
      .draws] : List Part), p ∈ pl) : Changes pl z0 (exportWrites n s) := by
  induction n generalizing s with
  | zero =>
    unfold exportWrites
    repeat' (first
      | with_reducible assumption)
  | succ _ ih =>
    unfold exportWrites
    repeat' (first
        | with_reducible assumption | with_reducible exact Changes.sub hpl (by decide) | with_reducible apply ih
        | with_reducible apply exportWrite_frame | dsimp only | split)

theorem exportCcyc_frame {pl : List Part} {z0 : State} {s : State}
    (hz : Changes pl z0 s) (hpl : ∀ p ∈ ([.quarantine, .sessions, .sealed, .err, .smc, .frc, .xdma, .pounce, .dbg, .out,
      .draws] : List Part), p ∈ pl) : Changes pl z0 (exportCcyc s) := by
  unfold exportCcyc
  repeat' (first
      | with_reducible assumption | with_reducible exact Changes.sub hpl (by decide) | with_reducible apply exportWrites_frame
      | dsimp only | split | with_reducible apply upd_xdma)

/-! ## Lif -/

theorem drivePins_frame {pl : List Part} {z0 : State} {s : State}
    (hz : Changes pl z0 s) (hpl : ∀ p ∈ ([.lif] : List Part), p ∈ pl) : Changes pl z0 (drivePins s) := by
  unfold drivePins
  repeat' (first
      | with_reducible assumption | with_reducible exact Changes.sub hpl (by decide) | dsimp only | split
      | with_reducible apply upd_lif)

/-! ## Police -/

theorem polTake_frame {pl : List Part} {z0 : State} {at_ : Nat} {c : Charge} {s : State}
    (hz : Changes pl z0 s) (hpl : ∀ p ∈ ([.ctr, .pols] : List Part), p ∈ pl) : Changes pl z0 (polTake at_ c s) := by
  unfold polTake
  repeat' (first
      | with_reducible assumption | with_reducible exact Changes.sub hpl (by decide) | with_reducible apply tally_frame
      | dsimp only | split | with_reducible apply upd_pols)

theorem polTakes_frame {pl : List Part} {z0 : State} {at_ : Nat} {cs : List Charge} {s : State}
    (hz : Changes pl z0 s) (hpl : ∀ p ∈ ([.ctr, .pols] : List Part), p ∈ pl) : Changes pl z0 (polTakes at_ cs s) := by
  unfold polTakes
  repeat' (first
      | with_reducible assumption | with_reducible exact Changes.sub hpl (by decide) | with_reducible apply polTake_frame
      | (with_reducible apply Changes.foldl_frame; rotate_left; intro _ _ _))

theorem polDrops_frame {pl : List Part} {z0 : State} {cs : List Charge} {s : State}
    (hz : Changes pl z0 s) (hpl : ∀ p ∈ ([.ctr] : List Part), p ∈ pl) : Changes pl z0 (polDrops cs s) := by
  unfold polDrops
  repeat' (first
      | with_reducible assumption | with_reducible exact Changes.sub hpl (by decide) | with_reducible apply tally_frame
      | (with_reducible apply Changes.foldl_frame; rotate_left; intro _ _ _))

theorem police_frame {pl : List Part} {z0 : State} {at_ : Nat} {cs : List Charge} {s : State}
    (hz : Changes pl z0 s) (hpl : ∀ p ∈ ([.ctr, .pols] : List Part), p ∈ pl) : Changes pl z0 (police at_ cs s).2 := by
  unfold police
  repeat' (first
      | with_reducible assumption | with_reducible exact Changes.sub hpl (by decide) | with_reducible apply polDrops_frame
      | with_reducible apply polTakes_frame | dsimp only | split)

theorem police_of {pl : List Part} {z0 : State} {at_ : Nat} {cs : List Charge} {s : State} {y : Bool} {t : State} (he : police at_ cs s = (y, t))
    (hz : Changes pl z0 s) (hpl : ∀ p ∈ ([.ctr, .pols] : List Part), p ∈ pl) : Changes pl z0 t := by
  have := police_frame (z0 := z0) (at_ := at_) (cs := cs) (s := s) hz hpl; rw [he] at this; exact this

/-! ## Sa -/

theorem saEvent_frame {pl : List Part} {z0 : State} {k code : Nat} {s : State}
    (hz : Changes pl z0 s) (hpl : ∀ p ∈ ([.frc] : List Part), p ∈ pl) : Changes pl z0 (saEvent k code s) := by
  unfold saEvent
  repeat' (first
      | with_reducible assumption | with_reducible exact Changes.sub hpl (by decide) | with_reducible apply eventRecord_frame)

theorem putSa_frame {pl : List Part} {z0 : State} {k : Nat} {a : Sa} {s : State}
    (hz : Changes pl z0 s) (hpl : ∀ p ∈ ([.frc, .sas] : List Part), p ∈ pl) : Changes pl z0 (putSa k a s) := by
  unfold putSa
  repeat' (first
      | with_reducible assumption | with_reducible exact Changes.sub hpl (by decide) | with_reducible apply saEvent_frame
      | dsimp only | split | with_reducible apply upd_sas)

theorem retireSa_frame {pl : List Part} {z0 : State} {k : Nat} {s : State}
    (hz : Changes pl z0 s) (hpl : ∀ p ∈ ([.frc, .sas] : List Part), p ∈ pl) : Changes pl z0 (retireSa k s) := by
  unfold retireSa
  repeat' (first
      | with_reducible assumption | with_reducible exact Changes.sub hpl (by decide) | with_reducible apply putSa_frame
      | dsimp only | split)

theorem unbindSa_frame {pl : List Part} {z0 : State} {k : Nat} {s : State}
    (hz : Changes pl z0 s) (hpl : ∀ p ∈ ([.frc, .sas] : List Part), p ∈ pl) : Changes pl z0 (unbindSa k s) := by
  unfold unbindSa
  repeat' (first
      | with_reducible assumption | with_reducible exact Changes.sub hpl (by decide) | with_reducible apply putSa_frame
      | dsimp only | split)

theorem movePn_frame {pl : List Part} {z0 : State} {k n : Nat} {s : State}
    (hz : Changes pl z0 s) (hpl : ∀ p ∈ ([.levels, .jic, .frc, .sas] : List Part), p ∈ pl) : Changes pl z0 (movePn k n s) := by
  unfold movePn
  repeat' (first
      | with_reducible assumption | with_reducible exact Changes.sub hpl (by decide) | with_reducible apply putSa_frame
      | with_reducible apply raiseEvent_frame | dsimp only | split)

/-! ## RxBus -/

theorem putRx_frame {pl : List Part} {z0 : State} {g : Nat} {x : RxGroup} {s : State}
    (hz : Changes pl z0 s) (hpl : ∀ p ∈ ([.rx] : List Part), p ∈ pl) : Changes pl z0 (putRx g x s) := by
  unfold putRx
  repeat' (first
      | with_reducible assumption | with_reducible exact Changes.sub hpl (by decide) | dsimp only | split
      | with_reducible apply upd_rx)

theorem refuseFrame_frame {pl : List Part} {z0 : State} {port reason : Nat} {cls sc : Option Nat} {r : Rec} {sample : Option Fields} {s : State}
    (hz : Changes pl z0 s) (hpl : ∀ p ∈ ([.err, .levels, .jic, .ctr, .samples, .frc, .pounce, .dbg] : List Part), p ∈ pl) :
      Changes pl z0 (refuseFrame port reason cls sc r sample s) := by
  unfold refuseFrame
  repeat' (first
      | with_reducible assumption | with_reducible exact Changes.sub hpl (by decide) | with_reducible apply armedFires_frame
      | with_reducible apply endSample_frame | with_reducible apply record_frame | with_reducible apply tally_frame | dsimp only
      | split)

theorem mapHeld_frame {pl : List Part} {z0 : State} {pg id : Nat} {f : HeldFrame → HeldFrame} {s : State}
    (hz : Changes pl z0 s) (hpl : ∀ p ∈ ([.rx] : List Part), p ∈ pl) : Changes pl z0 (mapHeld pg id f s) := by
  unfold mapHeld
  repeat' (first
      | with_reducible assumption | with_reducible exact Changes.sub hpl (by decide) | with_reducible apply putRx_frame)

theorem removeHeld_frame {pl : List Part} {z0 : State} {pg id : Nat} {s : State}
    (hz : Changes pl z0 s) (hpl : ∀ p ∈ ([.rx] : List Part), p ∈ pl) : Changes pl z0 (removeHeld pg id s) := by
  unfold removeHeld
  repeat' (first
      | with_reducible assumption | with_reducible exact Changes.sub hpl (by decide) | with_reducible apply putRx_frame)

theorem freeBuffers_frame {pl : List Part} {z0 : State} {pg : Nat} {l : List (Nat × Nat)} {s : State}
    (hz : Changes pl z0 s) (hpl : ∀ p ∈ ([.rx] : List Part), p ∈ pl) : Changes pl z0 (freeBuffers pg l s) := by
  unfold freeBuffers
  repeat' (first
      | with_reducible assumption | with_reducible exact Changes.sub hpl (by decide) | with_reducible apply putRx_frame)

theorem returnDue_frame {pl : List Part} {z0 : State} {pg : Nat} {s : State}
    (hz : Changes pl z0 s) (hpl : ∀ p ∈ ([.rx, .out] : List Part), p ∈ pl) : Changes pl z0 (returnDue pg s) := by
  unfold returnDue
  repeat' (first
      | with_reducible assumption | with_reducible exact Changes.sub hpl (by decide) | with_reducible apply emits_frame
      | with_reducible apply putRx_frame)

theorem unbindHeld_frame {pl : List Part} {z0 : State} {h : HeldFrame} {s : State}
    (hz : Changes pl z0 s) (hpl : ∀ p ∈ ([.frc, .sas] : List Part), p ∈ pl) : Changes pl z0 (unbindHeld h s) := by
  unfold unbindHeld
  repeat' (first
      | with_reducible assumption | with_reducible exact Changes.sub hpl (by decide) | with_reducible apply unbindSa_frame
      | dsimp only | split)

theorem dropHeld_frame {pl : List Part} {z0 : State} {pg id ctr : Nat} {h : HeldFrame} {s : State}
    (hz : Changes pl z0 s) (hpl : ∀ p ∈ ([.levels, .jic, .ctr, .samples, .frc, .rx, .sas] : List Part), p ∈ pl) : Changes pl
      z0 (dropHeld pg id ctr h s) := by
  unfold dropHeld
  repeat' (first
      | with_reducible assumption | with_reducible exact Changes.sub hpl (by decide) | with_reducible apply freeBuffers_frame
      | with_reducible apply endSample_frame | with_reducible apply unbindHeld_frame | with_reducible apply tally_frame
      | with_reducible apply removeHeld_frame)

theorem exhaustHeld_frame {pl : List Part} {z0 : State} {pg id ctr : Nat} {s : State}
    (hz : Changes pl z0 s) (hpl : ∀ p ∈ ([.levels, .jic, .ctr, .samples, .frc, .rx, .sas] : List Part), p ∈ pl) : Changes pl
      z0 (exhaustHeld pg id ctr s) := by
  unfold exhaustHeld
  repeat' (first
      | with_reducible assumption | with_reducible exact Changes.sub hpl (by decide) | with_reducible apply dropHeld_frame
      | dsimp only | split)

theorem stageHeld_frame {pl : List Part} {z0 : State} {pg : Nat} {e : Nat × HeldFrame} {s : State}
    (hz : Changes pl z0 s) (hpl : ∀ p ∈ ([.levels, .jic, .ctr, .samples, .frc, .rx, .sas] : List Part), p ∈ pl) : Changes pl
      z0 (stageHeld pg e s) := by
  unfold stageHeld
  repeat' (first
      | with_reducible assumption | with_reducible exact Changes.sub hpl (by decide) | with_reducible apply mapHeld_frame
      | with_reducible apply exhaustHeld_frame | dsimp only | split)

theorem noteNeeds_frame {pl : List Part} {z0 : State} {pg : Nat} {s : State}
    (hz : Changes pl z0 s) (hpl : ∀ p ∈ ([.rx] : List Part), p ∈ pl) : Changes pl z0 (noteNeeds pg s) := by
  unfold noteNeeds
  repeat' (first
      | with_reducible assumption | with_reducible exact Changes.sub hpl (by decide) | with_reducible apply mapHeld_frame
      | (with_reducible apply Changes.foldl_frame; rotate_left; intro _ _ _) | dsimp only | split)

theorem askNext_frame {pl : List Part} {z0 : State} {pg : Nat} {s : State}
    (hz : Changes pl z0 s) (hpl : ∀ p ∈ ([.rx, .out] : List Part), p ∈ pl) : Changes pl z0 (askNext pg s) := by
  unfold askNext
  repeat' (first
      | with_reducible assumption | with_reducible exact Changes.sub hpl (by decide) | with_reducible apply emit_frame
      | with_reducible apply mapHeld_frame | with_reducible apply putRx_frame | dsimp only | split)

theorem pumpBpi_frame {pl : List Part} {z0 : State} {pg : Nat} {s : State}
    (hz : Changes pl z0 s) (hpl : ∀ p ∈ ([.rx, .out] : List Part), p ∈ pl) : Changes pl z0 (pumpBpi pg s) := by
  unfold pumpBpi
  repeat' (first
      | with_reducible assumption | with_reducible exact Changes.sub hpl (by decide) | with_reducible apply askNext_frame
      | with_reducible apply noteNeeds_frame)

theorem verified_frame {pl : List Part} {z0 : State} {h : HeldFrame} {s : State}
    (hz : Changes pl z0 s) (hpl : ∀ p ∈ ([.levels, .jic, .ctr, .frc, .sas] : List Part), p ∈ pl) : Changes pl z0 (verified h s) := by
  unfold verified
  repeat' (first
      | with_reducible assumption | with_reducible exact Changes.sub hpl (by decide) | with_reducible apply count_frame
      | with_reducible apply tally_frame | with_reducible apply movePn_frame | dsimp only | split)

theorem icvCompare_frame {pl : List Part} {z0 : State} {pg id : Nat} {h : HeldFrame} {s : State}
    (hz : Changes pl z0 s) (hpl : ∀ p ∈ ([.err, .levels, .jic, .ctr, .samples, .frc, .pounce, .dbg, .rx, .sas] : List Part),
      p ∈ pl) : Changes pl z0 (icvCompare pg id h s) := by
  unfold icvCompare
  repeat' (first
      | with_reducible assumption | with_reducible exact Changes.sub hpl (by decide) | with_reducible apply verified_frame
      | with_reducible apply mapHeld_frame | with_reducible apply freeBuffers_frame | with_reducible apply refuseFrame_frame
      | with_reducible apply unbindHeld_frame | with_reducible apply removeHeld_frame | dsimp only | split)

theorem icvDue_frame {pl : List Part} {z0 : State} {pg : Nat} {s : State}
    (hz : Changes pl z0 s) (hpl : ∀ p ∈ ([.err, .levels, .jic, .ctr, .samples, .frc, .pounce, .dbg, .rx, .sas] : List Part),
      p ∈ pl) : Changes pl z0 (icvDue pg s) := by
  unfold icvDue
  repeat' (first
      | with_reducible assumption | with_reducible exact Changes.sub hpl (by decide) | with_reducible apply icvCompare_frame
      | (with_reducible apply Changes.foldl_frame; rotate_left; intro _ _ _) | dsimp only | split)

theorem sendSlices_frame {pl : List Part} {z0 : State} {k pg slot : Nat} {b : BusFrame} {s : State}
    (hz : Changes pl z0 s) (hpl : ∀ p ∈ ([.out] : List Part), p ∈ pl) : Changes pl z0 (sendSlices k pg slot b s).2 := by
  induction k generalizing pg slot b s with
  | zero =>
    unfold sendSlices
    repeat' (first
      | with_reducible assumption)
  | succ _ ih =>
    unfold sendSlices
    repeat' (first
        | with_reducible assumption | with_reducible exact Changes.sub hpl (by decide) | with_reducible apply ih
        | with_reducible apply emit_frame)

theorem sendSlices_of {pl : List Part} {z0 : State} {k pg slot : Nat} {b : BusFrame} {s : State} {y : BusFrame} {t : State} (he : sendSlices k pg slot b s = (y, t))
    (hz : Changes pl z0 s) (hpl : ∀ p ∈ ([.out] : List Part), p ∈ pl) : Changes pl z0 t := by
  have := sendSlices_frame (z0 := z0) (k := k) (pg := pg) (slot := slot) (b := b) (s := s) hz hpl; rw [he] at this; exact this

theorem startBus_frame {pl : List Part} {z0 : State} {pg : Nat} {b : BusFrame} {s : State}
    (hz : Changes pl z0 s) (hpl : ∀ p ∈ ([.rx, .out] : List Part), p ∈ pl) : Changes pl z0 (startBus pg b s).2 := by
  unfold startBus
  repeat' (first
      | with_reducible assumption | with_reducible exact Changes.sub hpl (by decide) | with_reducible apply emit_frame
      | with_reducible apply putRx_frame | dsimp only | split | with_reducible apply upd_rx)

theorem startBus_of {pl : List Part} {z0 : State} {pg : Nat} {b : BusFrame} {s : State} {y : BusFrame} {t : State} (he : startBus pg b s = (y, t))
    (hz : Changes pl z0 s) (hpl : ∀ p ∈ ([.rx, .out] : List Part), p ∈ pl) : Changes pl z0 t := by
  have := startBus_frame (z0 := z0) (pg := pg) (b := b) (s := s) hz hpl; rw [he] at this; exact this

theorem endBus_frame {pl : List Part} {z0 : State} {i : RxInfo} {s : State}
    (hz : Changes pl z0 s) (hpl : ∀ p ∈ ([.ctr] : List Part), p ∈ pl) : Changes pl z0 (endBus i s) := by
  unfold endBus
  repeat' (first
      | with_reducible assumption | with_reducible exact Changes.sub hpl (by decide) | with_reducible apply count_frame
      | with_reducible apply tally_frame | dsimp only | split)

theorem putBus_frame {pl : List Part} {z0 : State} {pg id : Nat} {b : BusFrame} {s : State}
    (hz : Changes pl z0 s) (hpl : ∀ p ∈ ([.rx] : List Part), p ∈ pl) : Changes pl z0 (putBus pg id b s) := by
  unfold putBus
  repeat' (first
      | with_reducible assumption | with_reducible exact Changes.sub hpl (by decide) | with_reducible apply putRx_frame)

theorem removeBus_frame {pl : List Part} {z0 : State} {pg id : Nat} {s : State}
    (hz : Changes pl z0 s) (hpl : ∀ p ∈ ([.rx] : List Part), p ∈ pl) : Changes pl z0 (removeBus pg id s) := by
  unfold removeBus
  repeat' (first
      | with_reducible assumption | with_reducible exact Changes.sub hpl (by decide) | with_reducible apply putRx_frame)

theorem busTurn_frame {pl : List Part} {z0 : State} {pg id : Nat} {a : Nat × State}
    (hz : Changes pl z0 a.2) (hpl : ∀ p ∈ ([.levels, .jic, .ctr, .samples, .rx, .out] : List Part), p ∈ pl) : Changes pl z0
      (busTurn pg a id).2 := by
  unfold busTurn
  dsimp only
  split
  · exact hz
  · rename_i b _
    split
    · exact freeBuffers_frame (endSample_frame (tally_frame (removeBus_frame hz (Changes.sub hpl (by decide)))
        (Changes.sub hpl (by decide))) (Changes.sub hpl (by decide))) (Changes.sub hpl (by decide))
    · split
      · exact hz
      · have h : Changes pl z0 (if b.sent = 0 then startBus pg b a.2 else (b, a.2)).2 := by
          split
          · exact startBus_frame hz (Changes.sub hpl (by decide))
          · exact hz
        generalize (if b.sent = 0 then startBus pg b a.2 else (b, a.2)) = c at h ⊢
        have h2 := sendSlices_frame (k := min (4 - a.1) (released a.2 b - b.sent)) (pg := pg) (slot := a.1) (b := c.1) h
          (Changes.sub hpl (by decide))
        dsimp only
        split
        · exact freeBuffers_frame (endBus_frame (removeBus_frame h2 (Changes.sub hpl (by decide))) (Changes.sub hpl (by decide)))
            (Changes.sub hpl (by decide))
        · exact putBus_frame h2 (Changes.sub hpl (by decide))

theorem busCcyc_frame {pl : List Part} {z0 : State} {pg : Nat} {s : State}
    (hz : Changes pl z0 s) (hpl : ∀ p ∈ ([.levels, .jic, .ctr, .samples, .rx, .out] : List Part), p ∈ pl) : Changes pl z0
      (busCcyc pg s) :=
  Changes.foldl_snd (a := (0, s)) hz fun _ _ ha => busTurn_frame ha hpl

theorem joinBus_frame {pl : List Part} {z0 : State} {pg id : Nat} {b : BusFrame} {s : State}
    (hz : Changes pl z0 s) (hpl : ∀ p ∈ ([.rx] : List Part), p ∈ pl) : Changes pl z0 (joinBus pg id b s) := by
  unfold joinBus
  repeat' (first
      | with_reducible assumption | with_reducible exact Changes.sub hpl (by decide) | with_reducible apply putRx_frame)

theorem cutBuses_frame {pl : List Part} {z0 : State} {pg : Nat} {s : State}
    (hz : Changes pl z0 s) (hpl : ∀ p ∈ ([.ctr, .rx] : List Part), p ∈ pl) : Changes pl z0 (cutBuses pg s) := by
  unfold cutBuses
  repeat' (first
      | with_reducible assumption | with_reducible exact Changes.sub hpl (by decide) | with_reducible apply tally_frame
      | with_reducible apply putRx_frame | (with_reducible apply Changes.foldl_frame; rotate_left; intro _ _ _))

theorem rxGroupCcyc_frame {pl : List Part} {z0 : State} {pg : Nat} {s : State}
    (hz : Changes pl z0 s) (hpl : ∀ p ∈ ([.err, .levels, .jic, .ctr, .samples, .frc, .pounce, .dbg, .rx, .sas, .out] : List
      Part), p ∈ pl) : Changes pl z0 (rxGroupCcyc pg s) := by
  unfold rxGroupCcyc
  repeat' (first
      | with_reducible assumption | with_reducible exact Changes.sub hpl (by decide) | with_reducible apply busCcyc_frame
      | with_reducible apply returnDue_frame | with_reducible apply icvDue_frame | with_reducible apply pumpBpi_frame
      | with_reducible apply stageHeld_frame | (with_reducible apply Changes.foldl_frame; rotate_left; intro _ _ _) | dsimp only
      | split)

theorem rxCcyc_frame {pl : List Part} {z0 : State} {s : State}
    (hz : Changes pl z0 s) (hpl : ∀ p ∈ ([.err, .levels, .jic, .ctr, .samples, .frc, .pounce, .dbg, .rx, .sas, .out] : List
      Part), p ∈ pl) : Changes pl z0 (rxCcyc s) := by
  unfold rxCcyc
  repeat' (first
      | with_reducible assumption | with_reducible exact Changes.sub hpl (by decide) | with_reducible apply rxGroupCcyc_frame
      | (with_reducible apply Changes.foldl_frame; rotate_left; intro _ _ _))

/-! ## Clock -/

theorem putTarget_frame {pl : List Part} {z0 : State} {t : Nat} {x : TgtSt} {s : State}
    (hz : Changes pl z0 s) (hpl : ∀ p ∈ ([.jic] : List Part), p ∈ pl) : Changes pl z0 (putTarget t x s) := by
  unfold putTarget
  repeat' (first
      | with_reducible assumption | with_reducible exact Changes.sub hpl (by decide) | dsimp only | split
      | with_reducible refine upd_jic'jic (by with_reducible rfl) ?_ ?_)

theorem endStays_frame {pl : List Part} {z0 : State} {c : Nat} {s : State}
    (hz : Changes pl z0 s) (hpl : ∀ p ∈ ([.jic] : List Part), p ∈ pl) : Changes pl z0 (endStays c s) := by
  unfold endStays
  repeat' (first
      | with_reducible assumption | with_reducible exact Changes.sub hpl (by decide) | dsimp only | split
      | with_reducible refine upd_jic'jic (by with_reducible rfl) ?_ ?_)

theorem noteStay_frame {pl : List Part} {z0 : State} {t n : Nat} {s : State}
    (hz : Changes pl z0 s) (hpl : ∀ p ∈ ([.jic] : List Part), p ∈ pl) : Changes pl z0 (noteStay t n s) := by
  unfold noteStay
  repeat' (first
      | with_reducible assumption | with_reducible exact Changes.sub hpl (by decide) | dsimp only | split
      | with_reducible refine upd_jic'jic (by with_reducible rfl) ?_ ?_)

theorem cpxClaim_frame {pl : List Part} {z0 : State} {c n : Nat} {s : State}
    (hz : Changes pl z0 s) (hpl : ∀ p ∈ ([.levels, .jic] : List Part), p ∈ pl) : Changes pl z0 (cpxClaim c n s) := by
  unfold cpxClaim
  repeat' (first
      | with_reducible assumption | with_reducible exact Changes.sub hpl (by decide) | with_reducible apply clearEvent_frame
      | dsimp only | split | with_reducible refine upd_jic'jic (by with_reducible rfl) ?_ ?_)

theorem vanish_frame {pl : List Part} {z0 : State} {n : Nat} {s : State}
    (hz : Changes pl z0 s) (hpl : ∀ p ∈ ([.levels] : List Part), p ∈ pl) : Changes pl z0 (vanish n s) := by
  unfold vanish
  repeat' (first
      | with_reducible assumption | with_reducible exact Changes.sub hpl (by decide) | with_reducible apply setLevel_frame
      | dsimp only | split | with_reducible refine upd_jic'levels (by with_reducible rfl) ?_ ?_)

theorem vanishes_frame {pl : List Part} {z0 : State} {n : Nat} {s : State}
    (hz : Changes pl z0 s) (hpl : ∀ p ∈ ([.levels, .draws] : List Part), p ∈ pl) : Changes pl z0 (vanishes n s) := by
  unfold vanishes
  repeat' (first
      | with_reducible assumption | with_reducible exact Changes.sub hpl (by decide)
      | with_reducible refine pounceFires_of (by assumption) ?_ ?_ | with_reducible apply pounceFires_frame
      | with_reducible apply vanish_frame | dsimp only | split)

theorem presentOne_frame {pl : List Part} {z0 : State} {c t : Nat} {s : State}
    (hz : Changes pl z0 s) (hpl : ∀ p ∈ ([.levels, .jic, .draws] : List Part), p ∈ pl) : Changes pl z0 (presentOne c t s) := by
  unfold presentOne
  lift_lets
  intro x best gone now out fresh x1 j s1
  clear_value fresh x1 out now gone best
  have h1 : Changes pl z0 s1 := by
    simp only [s1]
    split
    · exact hz
    · split
      · exact upd_jic'jic (by rfl) hz (Changes.sub hpl (by decide))
      · exact hz
  clear_value s1
  have h2 : Changes pl z0 (if x1 = x then s1 else putTarget t x1 s1) := by
    split
    · exact h1
    · exact putTarget_frame h1 (Changes.sub hpl (by decide))
  repeat' (first
      | with_reducible assumption | with_reducible exact Changes.sub hpl (by decide) | with_reducible apply cpxClaim_frame
      | with_reducible apply vanishes_frame | with_reducible apply noteStay_frame | dsimp only | split)

theorem takeFault_frame {pl : List Part} {z0 : State} {c : Nat} {s : State}
    (hz : Changes pl z0 s) (hpl : ∀ p ∈ ([.levels] : List Part), p ∈ pl) : Changes pl z0 (takeFault c s) := by
  unfold takeFault
  repeat' (first
      | with_reducible assumption | with_reducible exact Changes.sub hpl (by decide) | with_reducible apply clearEvent_frame
      | dsimp only | split)

theorem presentAt_frame {pl : List Part} {z0 : State} {s : State} {c : Nat}
    (hz : Changes pl z0 s) (hpl : ∀ p ∈ ([.levels, .jic, .draws] : List Part), p ∈ pl) : Changes pl z0 (presentAt s c) := by
  unfold presentAt
  repeat' (first
      | with_reducible assumption | with_reducible exact Changes.sub hpl (by decide) | with_reducible apply takeFault_frame
      | with_reducible apply presentOne_frame | with_reducible apply endStays_frame
      | (with_reducible apply Changes.foldl_frame; rotate_left; intro _ _ _))

theorem syncLevels_frame {pl : List Part} {z0 : State} {s : State}
    (hz : Changes pl z0 s) (hpl : ∀ p ∈ ([.levels] : List Part), p ∈ pl) : Changes pl z0 (syncLevels s) := by
  unfold syncLevels
  repeat' (first
      | with_reducible assumption | with_reducible exact Changes.sub hpl (by decide) | with_reducible apply setLevel_frame
      | (with_reducible apply Changes.foldl_frame; rotate_left; intro _ _ _) | dsimp only | split)

theorem countEdges_frame {pl : List Part} {z0 : State} {s : State}
    (hz : Changes pl z0 s) (hpl : ∀ p ∈ ([.ctr] : List Part), p ∈ pl) : Changes pl z0 (countEdges s) := by
  unfold countEdges
  repeat' (first
      | with_reducible assumption | with_reducible exact Changes.sub hpl (by decide) | with_reducible apply tally_frame
      | (with_reducible apply Changes.foldl_frame; rotate_left; intro _ _ _) | dsimp only | split
      | with_reducible refine upd_tel'ctr (by with_reducible rfl) (by with_reducible rfl) (by with_reducible rfl) ?_ ?_)

theorem noteMode_frame {pl : List Part} {z0 : State} {s : State}
    (hz : Changes pl z0 s) (hpl : ∀ p ∈ ([.shown, .frc, .pounce, .dbg] : List Part), p ∈ pl) : Changes pl z0 (noteMode s) := by
  unfold noteMode
  repeat' (first
      | with_reducible assumption | with_reducible exact Changes.sub hpl (by decide) | with_reducible apply eventRecord_frame
      | dsimp only | split | with_reducible refine upd_mode'shown_dbg (by with_reducible rfl) (by with_reducible rfl) ?_ ?_)

theorem note_frame {pl : List Part} {z0 : State} {s0 : State}
    (hz : Changes pl z0 s0) (hpl : ∀ p ∈ ([.shown, .err, .levels, .ctr, .mem, .frc, .pounce, .dbg] : List Part), p ∈ pl) :
      Changes pl z0 (note s0) := by
  unfold note
  repeat' (first
      | with_reducible assumption | with_reducible exact Changes.sub hpl (by decide) | with_reducible apply numberErrors_frame
      | with_reducible apply countEdges_frame | with_reducible apply syncLevels_frame | with_reducible apply noteMode_frame
      | dsimp only | split | with_reducible refine upd_mode'shown (by with_reducible rfl) (by with_reducible rfl) ?_ ?_)

theorem advanceTime_frame {pl : List Part} {z0 : State} {s : State}
    (hz : Changes pl z0 s) (hpl : ∀ p ∈ ([.tsu] : List Part), p ∈ pl) : Changes pl z0 (advanceTime s) := by
  unfold advanceTime
  repeat' (first
      | with_reducible assumption | with_reducible exact Changes.sub hpl (by decide) | dsimp only | split
      | with_reducible apply upd_tsu)

theorem countPause_frame {pl : List Part} {z0 : State} {s : State}
    (hz : Changes pl z0 s) (hpl : ∀ p ∈ ([.ctr] : List Part), p ∈ pl) : Changes pl z0 (countPause s) := by
  unfold countPause
  repeat' (first
      | with_reducible assumption | with_reducible exact Changes.sub hpl (by decide) | with_reducible apply tally_frame
      | (with_reducible apply Changes.foldl_frame; rotate_left; intro _ _ _) | dsimp only | split)

theorem endedPauses_frame {pl : List Part} {z0 : State} {s : State}
    (hz : Changes pl z0 s) (hpl : ∀ p ∈ ([.ports] : List Part), p ∈ pl) : Changes pl z0 (endedPauses s) := by
  unfold endedPauses
  repeat' (first
      | with_reducible assumption | with_reducible exact Changes.sub hpl (by decide) | dsimp only | split
      | with_reducible apply upd_ports)

theorem takeOwed_frame {pl : List Part} {z0 : State} {s : State}
    (hz : Changes pl z0 s) (hpl : ∀ p ∈ ([.pols] : List Part), p ∈ pl) : Changes pl z0 (takeOwed s) := by
  unfold takeOwed
  repeat' (first
      | with_reducible assumption | with_reducible exact Changes.sub hpl (by decide) | dsimp only | split
      | with_reducible apply upd_pols)

theorem countLevels_frame {pl : List Part} {z0 : State} {s : State}
    (hz : Changes pl z0 s) (hpl : ∀ p ∈ ([.ctr] : List Part), p ∈ pl) : Changes pl z0 (countLevels s) := by
  unfold countLevels
  repeat' (first
      | with_reducible assumption | with_reducible exact Changes.sub hpl (by decide) | with_reducible apply tally_frame
      | (with_reducible apply Changes.foldl_frame; rotate_left; intro _ _ _) | dsimp only | split)

theorem countSve_frame {pl : List Part} {z0 : State} {s : State}
    (hz : Changes pl z0 s) (hpl : ∀ p ∈ ([.ctr] : List Part), p ∈ pl) : Changes pl z0 (countSve s) := by
  unfold countSve
  repeat' (first
      | with_reducible assumption | with_reducible exact Changes.sub hpl (by decide) | dsimp only | split
      | with_reducible refine upd_tel'ctr (by with_reducible rfl) (by with_reducible rfl) (by with_reducible rfl) ?_ ?_)

theorem idleSlots_frame {pl : List Part} {z0 : State} {p speed : Nat} {s : State}
    (hz : Changes pl z0 s) (hpl : ∀ p ∈ ([.ctr, .ports] : List Part), p ∈ pl) : Changes pl z0 (idleSlots p speed s) := by
  unfold idleSlots
  repeat' (first
      | with_reducible assumption | with_reducible exact Changes.sub hpl (by decide) | with_reducible apply count_frame
      | with_reducible apply putPort_frame | dsimp only | split)

theorem countSlots_frame {pl : List Part} {z0 : State} {s : State}
    (hz : Changes pl z0 s) (hpl : ∀ p ∈ ([.ctr, .ports] : List Part), p ∈ pl) : Changes pl z0 (countSlots s) := by
  unfold countSlots
  repeat' (first
      | with_reducible assumption | with_reducible exact Changes.sub hpl (by decide) | with_reducible apply idleSlots_frame
      | (with_reducible apply Changes.foldl_frame; rotate_left; intro _ _ _))

theorem bringUps_frame {pl : List Part} {z0 : State} {s : State}
    (hz : Changes pl z0 s) (hpl : ∀ p ∈ ([.ports] : List Part), p ∈ pl) : Changes pl z0 (bringUps s) := by
  unfold bringUps
  repeat' (first
      | with_reducible assumption | with_reducible exact Changes.sub hpl (by decide) | dsimp only | split
      | with_reducible apply upd_ports)

theorem endSweep_frame {pl : List Part} {z0 : State} {r : SweepRun} {s : State}
    (hz : Changes pl z0 s) (hpl : ∀ p ∈ ([.sweep, .frc] : List Part), p ∈ pl) : Changes pl z0 (endSweep r s) := by
  unfold endSweep
  lift_lets
  intro head old s1 wanted new
  have h1 : Changes pl z0 s1 := upd_tel'sweep (by rfl) (by rfl) (by rfl) hz (Changes.sub hpl (by decide))
  clear_value new wanted s1
  repeat' split
  all_goals first
    | exact h1
    | exact upd_frc h1 (Changes.sub hpl (by decide))

theorem sweepRead_frame {pl : List Part} {z0 : State} {s : State}
    (hz : Changes pl z0 s) (hpl : ∀ p ∈ ([.sweep, .frc] : List Part), p ∈ pl) : Changes pl z0 (sweepRead s) := by
  unfold sweepRead
  repeat' (first
      | with_reducible assumption | with_reducible exact Changes.sub hpl (by decide) | with_reducible apply endSweep_frame
      | dsimp only | split
      | with_reducible refine upd_tel'sweep (by with_reducible rfl) (by with_reducible rfl) (by with_reducible rfl) ?_ ?_)

theorem keepTotals_frame {pl : List Part} {z0 : State} {s : State}
    (hz : Changes pl z0 s) (hpl : ∀ p ∈ ([.tsu, .ctr] : List Part), p ∈ pl) : Changes pl z0 (keepTotals s) := by
  unfold keepTotals
  repeat' (first
      | with_reducible assumption | with_reducible exact Changes.sub hpl (by decide) | dsimp only | split
      | with_reducible refine upd_tsu_tel'ctr (by with_reducible rfl) (by with_reducible rfl) (by with_reducible rfl) ?_ ?_)

theorem ageErrors_frame {pl : List Part} {z0 : State} {s : State}
    (hz : Changes pl z0 s) (hpl : ∀ p ∈ ([.err] : List Part), p ∈ pl) : Changes pl z0 (ageErrors s) := by
  unfold ageErrors
  repeat' (first
      | with_reducible assumption | with_reducible exact Changes.sub hpl (by decide) | dsimp only | split
      | with_reducible apply upd_err)

theorem freezeCut_frame {pl : List Part} {z0 : State} {s : State}
    (hz : Changes pl z0 s) (hpl : ∀ p ∈ ([.ctr, .rx] : List Part), p ∈ pl) : Changes pl z0 (freezeCut s) := by
  unfold freezeCut
  repeat' (first
      | with_reducible assumption | with_reducible exact Changes.sub hpl (by decide) | with_reducible apply cutBuses_frame
      | (with_reducible apply Changes.foldl_frame; rotate_left; intro _ _ _) | dsimp only | split)

theorem nextCcyc_frame {pl : List Part} {z0 : State} {s : State}
    (hz : Changes pl z0 s) (hpl : ∀ p ∈ ([.quarantine, .tsu, .sessions, .sealed, .err, .levels, .jic, .ctr, .sweep, .samples,
      .tel, .smc, .frc, .xdma, .ports, .esh, .pounce, .dbg, .rx, .sas, .pols, .out, .draws] : List Part), p ∈ pl) : Changes pl
      z0 (nextCcyc s) := by
  unfold nextCcyc
  repeat' (first
      | with_reducible assumption | with_reducible exact Changes.sub hpl (by decide) | with_reducible apply battRead_frame
      | with_reducible apply keepTotals_frame | with_reducible apply ageErrors_frame | with_reducible apply exportCcyc_frame
      | with_reducible apply smcCcyc_frame | with_reducible apply rxCcyc_frame | with_reducible apply freezeCut_frame
      | with_reducible apply sweepRead_frame | with_reducible apply bringUps_frame | with_reducible apply presentAt_frame
      | with_reducible apply takeOwed_frame | with_reducible apply endedPauses_frame | with_reducible apply advanceTime_frame
      | with_reducible apply recordCcyc_frame | with_reducible apply countSve_frame | with_reducible apply countPause_frame
      | with_reducible apply countLevels_frame | with_reducible apply countSlots_frame | with_reducible apply refreshReady_frame)

theorem tick_frame {pl : List Part} {z0 : State} {s : State}
    (hz : Changes pl z0 s) (hpl : ∀ p ∈ ([.quarantine, .shown, .tsu, .sessions, .sealed, .err, .levels, .jic, .ctr, .sweep,
      .samples, .tel, .mem, .smc, .frc, .xdma, .ports, .esh, .pounce, .dbg, .rx, .sas, .pols, .out, .draws] : List Part),
      p ∈ pl) : Changes pl z0 (tick s) := by
  unfold tick
  repeat' (first
      | with_reducible assumption | with_reducible exact Changes.sub hpl (by decide) | with_reducible apply note_frame
      | with_reducible apply nextCcyc_frame | dsimp only | split
      | with_reducible refine upd_dbg'pounce (by with_reducible rfl) ?_ ?_)

theorem advance_frame {pl : List Part} {z0 : State} {d : Nat} {s : State}
    (hz : Changes pl z0 s) (hpl : ∀ p ∈ ([.quarantine, .shown, .tsu, .sessions, .sealed, .err, .levels, .jic, .ctr, .sweep,
      .samples, .tel, .mem, .smc, .frc, .xdma, .ports, .esh, .pounce, .dbg, .rx, .sas, .pols, .out, .draws] : List Part),
      p ∈ pl) : Changes pl z0 (advance d s) := by
  induction d generalizing s with
  | zero =>
    unfold advance
    repeat' (first
      | with_reducible assumption)
  | succ _ ih =>
    unfold advance
    repeat' (first
        | with_reducible assumption | with_reducible exact Changes.sub hpl (by decide) | with_reducible apply ih
        | with_reducible apply tick_frame)

theorem settled_frame {pl : List Part} {z0 : State} {s : State}
    (hz : Changes pl z0 s) (hpl : ∀ p ∈ ([.lif, .esh] : List Part), p ∈ pl) : Changes pl z0 (settled s) := by
  unfold settled
  repeat' (first
      | with_reducible assumption | with_reducible exact Changes.sub hpl (by decide) | with_reducible apply drivePins_frame
      | with_reducible apply refreshReady_frame | dsimp only | split)

/-! ## Operands -/

theorem putRing_frame {pl : List Part} {z0 : State} {k : Nat} {r : Ring} {s : State}
    (hz : Changes pl z0 s) (hpl : ∀ p ∈ ([.hpe] : List Part), p ∈ pl) : Changes pl z0 (putRing k r s) := by
  unfold putRing
  repeat' (first
      | with_reducible assumption | with_reducible exact Changes.sub hpl (by decide) | dsimp only | split
      | with_reducible refine upd_hpe'hpe (by with_reducible rfl) ?_ ?_)

theorem putReplies_frame {pl : List Part} {z0 : State} {n : Nat} {l : List (Nat × Option Reply)} {s : State}
    (hz : Changes pl z0 s) (hpl : ∀ p ∈ ([.replies] : List Part), p ∈ pl) : Changes pl z0 (putReplies n l s) := by
  unfold putReplies
  repeat' (first
      | with_reducible assumption | with_reducible exact Changes.sub hpl (by decide) | dsimp only | split
      | with_reducible refine upd_hpe'replies (by with_reducible rfl) ?_ ?_)

theorem takeSlot_frame {pl : List Part} {z0 : State} {n : Nat} {s : State}
    (hz : Changes pl z0 s) (hpl : ∀ p ∈ ([.replies] : List Part), p ∈ pl) : Changes pl z0 (takeSlot n s).2 := by
  unfold takeSlot
  repeat' (first
      | with_reducible assumption | with_reducible exact Changes.sub hpl (by decide) | with_reducible apply putReplies_frame
      | dsimp only | split | with_reducible refine upd_hpe'replies (by with_reducible rfl) ?_ ?_)

theorem takeSlot_of {pl : List Part} {z0 : State} {n : Nat} {s : State} {y : Nat} {t : State} (he : takeSlot n s = (y, t))
    (hz : Changes pl z0 s) (hpl : ∀ p ∈ ([.replies] : List Part), p ∈ pl) : Changes pl z0 t := by
  have := takeSlot_frame (z0 := z0) (n := n) (s := s) hz hpl; rw [he] at this; exact this

theorem queueHost_frame {pl : List Part} {z0 : State} {source port : Nat} {bytes : List Byte} {s : State}
    (hz : Changes pl z0 s) (hpl : ∀ p ∈ ([.hostQueue, .replies] : List Part), p ∈ pl) : Changes pl z0 (queueHost source port
      bytes s) := by
  unfold queueHost
  repeat' (first
      | with_reducible assumption | with_reducible exact Changes.sub hpl (by decide) | dsimp only | split
      | with_reducible refine upd_esh'hostQueue_hpe'replies (by with_reducible rfl) (by with_reducible rfl) ?_ ?_)

theorem dropSlot_frame {pl : List Part} {z0 : State} {n : Nat} {slot : Option Nat} {s : State}
    (hz : Changes pl z0 s) (hpl : ∀ p ∈ ([.replies] : List Part), p ∈ pl) : Changes pl z0 (dropSlot n slot s) := by
  unfold dropSlot
  repeat' (first
      | with_reducible assumption | with_reducible exact Changes.sub hpl (by decide) | with_reducible apply putReplies_frame
      | dsimp only | split)

theorem sendHlk_frame {pl : List Part} {z0 : State} {port : Nat} {mac : Mac} {kind : Nat} {frame : Fields} {s : State}
    (hz : Changes pl z0 s) (hpl : ∀ p ∈ ([.hostQueue, .replies, .out] : List Part), p ∈ pl) : Changes pl z0 (sendHlk port mac
      kind frame s) := by
  unfold sendHlk
  repeat' (first
      | with_reducible assumption | with_reducible exact Changes.sub hpl (by decide) | with_reducible apply queueHost_frame
      | with_reducible apply emit_frame)

theorem sendWorker_frame {pl : List Part} {z0 : State} {i kind len : Nat} {payload : Fields} {s : State}
    (hz : Changes pl z0 s) (hpl : ∀ p ∈ ([.hostQueue, .replies, .hlk, .out] : List Part), p ∈ pl) : Changes pl z0 (sendWorker
      i kind len payload s) := by
  unfold sendWorker
  repeat' (first
      | with_reducible assumption | with_reducible exact Changes.sub hpl (by decide) | with_reducible apply sendHlk_frame
      | dsimp only | split | with_reducible apply upd_hlk)

theorem sendManager_frame {pl : List Part} {z0 : State} {kind len : Nat} {payload : Fields} {s : State}
    (hz : Changes pl z0 s) (hpl : ∀ p ∈ ([.hostQueue, .replies, .hlk, .out] : List Part), p ∈ pl) : Changes pl z0 (sendManager
      kind len payload s) := by
  unfold sendManager
  repeat' (first
      | with_reducible assumption | with_reducible exact Changes.sub hpl (by decide) | with_reducible apply sendHlk_frame
      | dsimp only | split | with_reducible apply upd_hlk)

theorem sendNet_frame {pl : List Part} {z0 : State} {p : Nat} {n : NetPath} {rest : List Byte} {s : State}
    (hz : Changes pl z0 s) (hpl : ∀ p ∈ ([.ctr, .hostQueue, .replies] : List Part), p ∈ pl) : Changes pl z0 (sendNet p n rest s) := by
  unfold sendNet
  repeat' (first
      | with_reducible assumption | with_reducible exact Changes.sub hpl (by decide) | with_reducible apply queueHost_frame
      | with_reducible apply tally_frame | dsimp only | split)

theorem dropReplies_frame {pl : List Part} {z0 : State} {p : Nat} {s : State}
    (hz : Changes pl z0 s) (hpl : ∀ p ∈ ([.ctr, .hostQueue] : List Part), p ∈ pl) : Changes pl z0 (dropReplies p s) := by
  unfold dropReplies
  repeat' (first
      | with_reducible assumption | with_reducible exact Changes.sub hpl (by decide) | with_reducible apply count_frame
      | dsimp only | split | with_reducible refine upd_esh'hostQueue (by with_reducible rfl) ?_ ?_)

theorem deliverReply_frame {pl : List Part} {z0 : State} {ctx : ReplyCtx} {r : Reply} {s : State}
    (hz : Changes pl z0 s) (hpl : ∀ p ∈ ([.ctr, .hostQueue, .replies, .hlk, .out] : List Part), p ∈ pl) : Changes pl z0
      (deliverReply ctx r s) := by
  unfold deliverReply
  repeat' (first
      | with_reducible assumption | with_reducible exact Changes.sub hpl (by decide) | with_reducible apply dropSlot_frame
      | with_reducible apply tally_frame | with_reducible apply emit_frame | with_reducible apply putReplies_frame
      | with_reducible apply sendNet_frame | with_reducible apply sendManager_frame | dsimp only | split)

theorem countRefused_frame {pl : List Part} {z0 : State} {ctx : ReplyCtx} {s : State}
    (hz : Changes pl z0 s) (hpl : ∀ p ∈ ([.ctr] : List Part), p ∈ pl) : Changes pl z0 (countRefused ctx s) := by
  unfold countRefused
  repeat' (first
      | with_reducible assumption | with_reducible exact Changes.sub hpl (by decide) | with_reducible apply tally_frame
      | dsimp only | split)

theorem answer_frame {pl : List Part} {z0 : State} {ctx : ReplyCtx} {status detail : Nat} {body : Fields} {s : State}
    (hz : Changes pl z0 s) (hpl : ∀ p ∈ ([.ctr, .hostQueue, .replies, .hlk, .out] : List Part), p ∈ pl) : Changes pl z0
      (answer ctx status detail body s) := by
  unfold answer
  repeat' (first
      | with_reducible assumption | with_reducible exact Changes.sub hpl (by decide) | with_reducible apply dropSlot_frame
      | with_reducible apply countRefused_frame | with_reducible apply deliverReply_frame | dsimp only | split)

theorem commandRecord_frame {pl : List Part} {z0 : State} {ctx : ReplyCtx} {status : Nat} {s : State}
    (hz : Changes pl z0 s) (hpl : ∀ p ∈ ([.frc] : List Part), p ∈ pl) : Changes pl z0 (commandRecord ctx status s) := by
  unfold commandRecord
  repeat' (first
      | with_reducible assumption | with_reducible exact Changes.sub hpl (by decide) | with_reducible apply record_frame)

/-! ## Zelgen -/

theorem consume_frame {pl : List Part} {z0 : State} {z : Zelgen} {s : State}
    (hz : Changes pl z0 s) (hpl : ∀ p ∈ ([.sessions, .checks] : List Part), p ∈ pl) : Changes pl z0 (consume z s) := by
  unfold consume
  repeat' (first
      | with_reducible assumption | with_reducible exact Changes.sub hpl (by decide) | dsimp only | split
      | with_reducible refine upd_cpx'checks (by with_reducible rfl) (by with_reducible rfl) (by with_reducible rfl) ?_ ?_
      | with_reducible refine upd_cpx'sessions (by with_reducible rfl) (by with_reducible rfl) (by with_reducible rfl) ?_ ?_)

theorem unauthLimit_some {pl : List Part} {z0 : State} {p : Nat} {s : State} {t : State} (he : unauthLimit p s = some t)
    (hz : Changes pl z0 s) (hpl : ∀ p ∈ ([.checks] : List Part), p ∈ pl) : Changes pl z0 t := by
  unfold unauthLimit at he
  dsimp only at he
  repeat' split at he
  all_goals first
    | contradiction
    | (injection he with he; subst he; repeat' (first
     | with_reducible assumption | with_reducible exact Changes.sub hpl (by decide) | dsimp only | split
     | with_reducible refine upd_cpx'checks (by with_reducible rfl) (by with_reducible rfl) (by with_reducible rfl) ?_ ?_))

theorem forward_some {pl : List Part} {z0 : State} {op : Op} {ctx : ReplyCtx} {z : Zelgen} {s : State} {t : State} (he : forward op ctx z s = some t)
    (hz : Changes pl z0 s) (hpl : ∀ p ∈ ([.checks, .hostQueue, .replies, .hlk, .out] : List Part), p ∈ pl) : Changes pl z0 t := by
  unfold forward at he
  dsimp only at he
  repeat' split at he
  all_goals first
    | contradiction
    | (injection he with he; subst he; repeat' (first
     | with_reducible assumption | with_reducible exact Changes.sub hpl (by decide) | with_reducible apply sendWorker_frame
     | with_reducible apply emit_frame | dsimp only | split
     | with_reducible refine upd_cpx'checks (by with_reducible rfl) (by with_reducible rfl) (by with_reducible rfl) ?_ ?_))

theorem settleFrame_frame {pl : List Part} {z0 : State} {w : Waiting} {ok : Bool} {s : State}
    (hz : Changes pl z0 s) (hpl : ∀ p ∈ ([.err, .levels, .jic, .ctr, .samples, .frc, .pounce, .dbg, .pols] : List Part),
      p ∈ pl) : Changes pl z0 (settleFrame w ok s) := by
  unfold settleFrame
  repeat' (first
      | with_reducible assumption | with_reducible exact Changes.sub hpl (by decide) | with_reducible apply endSample_frame
      | with_reducible apply count_frame | with_reducible apply tally_frame | with_reducible apply record_frame
      | with_reducible apply polTakes_frame | with_reducible apply armedFires_frame | dsimp only | split)

theorem activationRestart_frame {pl : List Part} {z0 : State} {s : State}
    (hz : Changes pl z0 s) (hpl : ∀ p ∈ ([.fuses, .sessions, .cpx, .out] : List Part), p ∈ pl) : Changes pl z0
      (activationRestart s) := by
  unfold activationRestart
  repeat' (first
      | with_reducible assumption | with_reducible exact Changes.sub hpl (by decide) | with_reducible apply endSessions_frame
      | with_reducible apply emit_frame | dsimp only | split
      | with_reducible refine upd_cpx'cpx (by with_reducible rfl) (by with_reducible rfl) (by with_reducible rfl) ?_ ?_
      | with_reducible apply upd_fuses)

end Sys2Proof.Safety
end

