-- ==== Sys2Proof/Laws/FrameTraffic.lean ====
section
/-! SUPPORT. What each operation of the ports, the scheduler and the rings changes at most (`Changes` of Safety). -/
namespace Sys2Proof.Safety
open Sys2Proof.Machine

/-! ## Macsec -/

theorem enableSa_frame {pl : List Part} {z0 : State} {b : SaName} {s : State}
    (hz : Changes pl z0 s) (hpl : ∀ p ∈ ([.frc, .sas] : List Part), p ∈ pl) : Changes pl z0 (enableSa b s) := by
  unfold enableSa
  repeat' (first
      | with_reducible assumption | with_reducible exact Changes.sub hpl (by decide) | with_reducible apply putSa_frame
      | (with_reducible apply Changes.foldl_frame; rotate_left; intro _ _ _) | dsimp only | split)

/-! ## Scheduler -/

theorem cpiError_frame {pl : List Part} {z0 : State} {pg code cls d0 : Nat} {s : State}
    (hz : Changes pl z0 s) (hpl : ∀ p ∈ ([.quarantine, .sessions, .sealed, .err, .frc, .pounce, .dbg] : List Part), p ∈ pl) :
      Changes pl z0 (cpiError pg code cls d0 s) := by
  unfold cpiError
  repeat' (first
      | with_reducible assumption | with_reducible exact Changes.sub hpl (by decide) | with_reducible apply errorAt_frame)

theorem pushWord_frame {pl : List Part} {z0 : State} {leaf : Nat} {w : LeafWord} {s : State}
    (hz : Changes pl z0 s) (hpl : ∀ p ∈ ([.esh] : List Part), p ∈ pl) : Changes pl z0 (pushWord leaf w s) := by
  unfold pushWord
  repeat' (first
      | with_reducible assumption | with_reducible exact Changes.sub hpl (by decide) | dsimp only | split
      | with_reducible refine upd_esh'esh (by with_reducible rfl) ?_ ?_)

theorem grantDone_frame {pl : List Part} {z0 : State} {pg : Nat} {w : LeafStatus} {s : State}
    (hz : Changes pl z0 s) (hpl : ∀ p ∈ ([.quarantine, .sessions, .sealed, .err, .ctr, .frc, .esh, .pounce, .dbg] : List
      Part), p ∈ pl) : Changes pl z0 (grantDone pg w s) := by
  unfold grantDone
  repeat' (first
      | with_reducible assumption | with_reducible exact Changes.sub hpl (by decide) | with_reducible apply mapGrant_frame
      | with_reducible apply cpiError_frame | with_reducible apply tallyIn_frame | dsimp only | split)

theorem leafStatusWord_frame {pl : List Part} {z0 : State} {pg : Nat} {w : LeafStatus} {s : State}
    (hz : Changes pl z0 s) (hpl : ∀ p ∈ ([.quarantine, .sessions, .sealed, .err, .ctr, .frc, .esh, .pounce, .dbg] : List
      Part), p ∈ pl) : Changes pl z0 (leafStatusWord pg w s) := by
  unfold leafStatusWord
  repeat' (first
      | with_reducible assumption | with_reducible exact Changes.sub hpl (by decide) | with_reducible apply cpiError_frame
      | with_reducible apply tallyIn_frame | with_reducible apply pushWord_frame | with_reducible apply grantDone_frame
      | dsimp only | split)

theorem grantMismatch_frame {pl : List Part} {z0 : State} {pg : Nat} {g : Grant} {s : State}
    (hz : Changes pl z0 s) (hpl : ∀ p ∈ ([.quarantine, .sessions, .sealed, .err, .ctr, .frc, .pounce, .dbg] : List Part),
      p ∈ pl) : Changes pl z0 (grantMismatch pg g s) := by
  unfold grantMismatch
  repeat' (first
      | with_reducible assumption | with_reducible exact Changes.sub hpl (by decide) | with_reducible apply cpiError_frame
      | with_reducible apply tallyIn_frame | dsimp only | split)

theorem grantSettle_frame {pl : List Part} {z0 : State} {pg id : Nat} {s : State}
    (hz : Changes pl z0 s) (hpl : ∀ p ∈ ([.quarantine, .sessions, .sealed, .err, .ctr, .frc, .esh, .pounce, .dbg] : List
      Part), p ∈ pl) : Changes pl z0 (grantSettle pg id s) := by
  unfold grantSettle
  repeat' (first
      | with_reducible assumption | with_reducible exact Changes.sub hpl (by decide) | with_reducible apply settleGrant_frame
      | with_reducible apply grantMismatch_frame | dsimp only | split)

theorem grantTimeout_frame {pl : List Part} {z0 : State} {pg id : Nat} {s : State}
    (hz : Changes pl z0 s) (hpl : ∀ p ∈ ([.quarantine, .sessions, .sealed, .err, .ctr, .frc, .esh, .pounce, .dbg] : List
      Part), p ∈ pl) : Changes pl z0 (grantTimeout pg id s) := by
  unfold grantTimeout
  repeat' (first
      | with_reducible assumption | with_reducible exact Changes.sub hpl (by decide) | with_reducible apply settleGrant_frame
      | with_reducible apply grantMismatch_frame | with_reducible apply putEngine_frame | with_reducible apply cpiError_frame
      | with_reducible apply tallyIn_frame | dsimp only | split)

/-! ## Wire -/

theorem countCause_frame {pl : List Part} {z0 : State} {p cause : Nat} {sc : Option Nat} {s : State}
    (hz : Changes pl z0 s) (hpl : ∀ p ∈ ([.ctr, .ports] : List Part), p ∈ pl) : Changes pl z0 (countCause p cause sc s) := by
  unfold countCause
  repeat' (first
      | with_reducible assumption | with_reducible exact Changes.sub hpl (by decide) | with_reducible apply tally_frame
      | with_reducible apply putPort_frame | dsimp only | split)

/-! ## Rings -/

theorem answerStop_frame {pl : List Part} {z0 : State} {key : Nat} {s : State}
    (hz : Changes pl z0 s) (hpl : ∀ p ∈ ([.ctr, .hostQueue, .replies, .hpe, .hlk, .out] : List Part), p ∈ pl) : Changes pl z0
      (answerStop key s) := by
  unfold answerStop
  repeat' (first
      | with_reducible assumption | with_reducible exact Changes.sub hpl (by decide) | with_reducible apply answer_frame
      | with_reducible apply putRing_frame | dsimp only | split)

theorem ringDrop_frame {pl : List Part} {z0 : State} {ctr : Nat} {i : RxInfo} {s : State}
    (hz : Changes pl z0 s) (hpl : ∀ p ∈ ([.levels, .jic, .ctr, .samples] : List Part), p ∈ pl) : Changes pl z0 (ringDrop ctr i s) := by
  unfold ringDrop
  repeat' (first
      | with_reducible assumption | with_reducible exact Changes.sub hpl (by decide) | with_reducible apply endSample_frame
      | with_reducible apply tally_frame | dsimp only | split)

theorem dropStaged_frame {pl : List Part} {z0 : State} {key ctr : Nat} {s : State}
    (hz : Changes pl z0 s) (hpl : ∀ p ∈ ([.levels, .jic, .ctr, .samples, .hpe] : List Part), p ∈ pl) : Changes pl z0
      (dropStaged key ctr s) := by
  unfold dropStaged
  repeat' (first
      | with_reducible assumption | with_reducible exact Changes.sub hpl (by decide) | with_reducible apply ringDrop_frame
      | (with_reducible apply Changes.foldl_frame; rotate_left; intro _ _ _) | dsimp only | split
      | with_reducible refine upd_hpe'hpe (by with_reducible rfl) ?_ ?_)

theorem discardReplies_frame {pl : List Part} {z0 : State} {key : Nat} {s : State}
    (hz : Changes pl z0 s) (hpl : ∀ p ∈ ([.ctr, .replies] : List Part), p ∈ pl) : Changes pl z0 (discardReplies key s) := by
  unfold discardReplies
  repeat' (first
      | with_reducible assumption | with_reducible exact Changes.sub hpl (by decide) | with_reducible apply count_frame
      | with_reducible apply putReplies_frame | dsimp only | split)

theorem dropHostFrames_frame {pl : List Part} {z0 : State} {key : Nat} {s : State}
    (hz : Changes pl z0 s) (hpl : ∀ p ∈ ([.hostQueue] : List Part), p ∈ pl) : Changes pl z0 (dropHostFrames key s) := by
  unfold dropHostFrames
  repeat' (first
      | with_reducible assumption | with_reducible exact Changes.sub hpl (by decide) | dsimp only | split
      | with_reducible refine upd_esh'hostQueue (by with_reducible rfl) ?_ ?_)

theorem ringError_frame {pl : List Part} {z0 : State} {key code latched : Nat} {timeout : Bool} {s : State}
    (hz : Changes pl z0 s) (hpl : ∀ p ∈ ([.quarantine, .sessions, .sealed, .err, .levels, .jic, .ctr, .samples, .frc,
      .hostQueue, .replies, .hpe, .pounce, .dbg, .hlk, .out] : List Part), p ∈ pl) : Changes pl z0 (ringError key code latched
      timeout s) := by
  unfold ringError
  repeat' (first
      | with_reducible assumption | with_reducible exact Changes.sub hpl (by decide) | with_reducible apply errorAt_frame
      | with_reducible apply tally_frame | with_reducible apply discardReplies_frame | with_reducible apply dropStaged_frame
      | with_reducible apply putRing_frame | with_reducible apply answerStop_frame | with_reducible apply dropHostFrames_frame
      | dsimp only | split)

theorem wakeEvent_frame {pl : List Part} {z0 : State} {key : Nat} {s : State}
    (hz : Changes pl z0 s) (hpl : ∀ p ∈ ([.jic] : List Part), p ∈ pl) : Changes pl z0 (wakeEvent key s) := by
  unfold wakeEvent
  repeat' (first
      | with_reducible assumption | with_reducible exact Changes.sub hpl (by decide) | dsimp only | split
      | with_reducible refine upd_jic'jic (by with_reducible rfl) ?_ ?_)

theorem completeEntry_frame {pl : List Part} {z0 : State} {key : Nat} {e : RingEntry} {c : Cpl} {s : State}
    (hz : Changes pl z0 s) (hpl : ∀ p ∈ ([.quarantine, .sessions, .sealed, .err, .levels, .jic, .ctr, .samples, .frc,
      .hostQueue, .replies, .hpe, .pounce, .dbg, .hlk, .out] : List Part), p ∈ pl) : Changes pl z0 (completeEntry key e c s) :=
      by
  unfold completeEntry
  repeat' (first
      | with_reducible assumption | with_reducible exact Changes.sub hpl (by decide) | with_reducible apply ringError_frame
      | with_reducible apply wakeEvent_frame | with_reducible apply tally_frame | with_reducible apply emit_frame
      | with_reducible apply putRing_frame | dsimp only | split)

theorem flushEntries_frame {pl : List Part} {z0 : State} {key : Nat} {l : List RingEntry} {s : State}
    (hz : Changes pl z0 s) (hpl : ∀ p ∈ ([.quarantine, .sessions, .sealed, .err, .levels, .jic, .ctr, .samples, .frc,
      .hostQueue, .replies, .hpe, .pounce, .dbg, .hlk, .out] : List Part), p ∈ pl) : Changes pl z0 (flushEntries key l s) := by
  induction l generalizing key s with
  | nil =>
    unfold flushEntries
    repeat' (first
      | with_reducible assumption)
  | cons _ _ ih =>
    unfold flushEntries
    repeat' (first
        | with_reducible assumption | with_reducible exact Changes.sub hpl (by decide) | with_reducible apply ih
        | with_reducible apply completeEntry_frame | dsimp only | split)

theorem flushRing_frame {pl : List Part} {z0 : State} {key : Nat} {s : State}
    (hz : Changes pl z0 s) (hpl : ∀ p ∈ ([.quarantine, .sessions, .sealed, .err, .levels, .jic, .ctr, .samples, .frc,
      .hostQueue, .replies, .hpe, .pounce, .dbg, .hlk, .out] : List Part), p ∈ pl) : Changes pl z0 (flushRing key s) := by
  unfold flushRing
  repeat' (first
      | with_reducible assumption | with_reducible exact Changes.sub hpl (by decide) | with_reducible apply flushEntries_frame
      | dsimp only | split)

theorem mapFrame_frame {pl : List Part} {z0 : State} {key frame : Nat} {f : RingEntry → RingEntry} {s : State}
    (hz : Changes pl z0 s) (hpl : ∀ p ∈ ([.hpe] : List Part), p ∈ pl) : Changes pl z0 (mapFrame key frame f s) := by
  unfold mapFrame
  repeat' (first
      | with_reducible assumption | with_reducible exact Changes.sub hpl (by decide) | with_reducible apply putRing_frame)

theorem takeEntry_frame {pl : List Part} {z0 : State} {key : Nat} {e : RingEntry} {s : State}
    (hz : Changes pl z0 s) (hpl : ∀ p ∈ ([.hpe] : List Part), p ∈ pl) : Changes pl z0 (takeEntry key e s) := by
  unfold takeEntry
  repeat' (first
      | with_reducible assumption | with_reducible exact Changes.sub hpl (by decide) | with_reducible apply putRing_frame)

theorem completeFrame_frame {pl : List Part} {z0 : State} {key frame : Nat} {c : Cpl} {s : State}
    (hz : Changes pl z0 s) (hpl : ∀ p ∈ ([.quarantine, .sessions, .sealed, .err, .levels, .jic, .ctr, .samples, .frc,
      .hostQueue, .replies, .hpe, .pounce, .dbg, .hlk, .out] : List Part), p ∈ pl) : Changes pl z0 (completeFrame key frame c s)
      := by
  unfold completeFrame
  repeat' (first
      | with_reducible assumption | with_reducible exact Changes.sub hpl (by decide) | with_reducible apply flushRing_frame
      | with_reducible apply putRing_frame)

theorem freshId_frame {pl : List Part} {z0 : State} {s : State}
    (hz : Changes pl z0 s) (hpl : ∀ p ∈ ([.replies] : List Part), p ∈ pl) : Changes pl z0 (freshId s).2 := by
  unfold freshId
  repeat' (first
      | with_reducible assumption | with_reducible exact Changes.sub hpl (by decide) | dsimp only | split
      | with_reducible refine upd_hpe'replies (by with_reducible rfl) ?_ ?_)

theorem freshId_of {pl : List Part} {z0 : State} {s : State} {y : Nat} {t : State} (he : freshId s = (y, t))
    (hz : Changes pl z0 s) (hpl : ∀ p ∈ ([.replies] : List Part), p ∈ pl) : Changes pl z0 t := by
  have := freshId_frame (z0 := z0) (s := s) hz hpl; rw [he] at this; exact this

theorem discardRingFrames_frame {pl : List Part} {z0 : State} {n : Nat} {s : State}
    (hz : Changes pl z0 s) (hpl : ∀ p ∈ ([.ctr, .frc, .ports, .esh, .sas] : List Part), p ∈ pl) : Changes pl z0
      (discardRingFrames n s) := by
  unfold discardRingFrames
  repeat' (first
      | with_reducible assumption | with_reducible exact Changes.sub hpl (by decide) | with_reducible apply unbindSa_frame
      | with_reducible apply markDropped_frame | with_reducible apply useBytes_frame | with_reducible apply countCause_frame
      | with_reducible apply putPort_frame | (with_reducible apply Changes.foldl_frame; rotate_left; intro _ _ _) | dsimp only
      | split)

theorem freezeRing_frame {pl : List Part} {z0 : State} {key : Nat} {s : State}
    (hz : Changes pl z0 s) (hpl : ∀ p ∈ ([.checks, .levels, .jic, .ctr, .samples, .frc, .ports, .hostQueue, .esh, .replies,
      .hpe, .hlk, .sas, .out] : List Part), p ∈ pl) : Changes pl z0 (freezeRing key s) := by
  unfold freezeRing
  repeat' (first
      | with_reducible assumption | with_reducible exact Changes.sub hpl (by decide) | with_reducible apply dropStaged_frame
      | with_reducible apply putRing_frame | with_reducible apply answerStop_frame
      | with_reducible apply discardRingFrames_frame | with_reducible apply dropHostFrames_frame
      | with_reducible apply dropSlot_frame | with_reducible apply discardReplies_frame
      | (with_reducible apply Changes.foldl_frame; rotate_left; intro _ _ _) | dsimp only | split
      | with_reducible refine upd_cpx'checks (by with_reducible rfl) (by with_reducible rfl) (by with_reducible rfl) ?_ ?_)

theorem freezeRings_frame {pl : List Part} {z0 : State} {id : Nat} {s : State}
    (hz : Changes pl z0 s) (hpl : ∀ p ∈ ([.checks, .levels, .jic, .ctr, .samples, .frc, .ports, .hostQueue, .esh, .replies,
      .hpe, .hlk, .sas, .out] : List Part), p ∈ pl) : Changes pl z0 (freezeRings id s) := by
  unfold freezeRings
  repeat' (first
      | with_reducible assumption | with_reducible exact Changes.sub hpl (by decide) | with_reducible apply freezeRing_frame
      | (with_reducible apply Changes.foldl_frame; rotate_left; intro _ _ _) | dsimp only | split)

theorem unfreezeRings_frame {pl : List Part} {z0 : State} {id : Nat} {s : State}
    (hz : Changes pl z0 s) (hpl : ∀ p ∈ ([.quarantine, .sessions, .sealed, .err, .levels, .jic, .ctr, .samples, .frc,
      .hostQueue, .replies, .hpe, .pounce, .dbg, .hlk, .out] : List Part), p ∈ pl) : Changes pl z0 (unfreezeRings id s) := by
  unfold unfreezeRings
  repeat' (first
      | with_reducible assumption | with_reducible exact Changes.sub hpl (by decide) | with_reducible apply ringError_frame
      | (with_reducible apply Changes.foldl_frame; rotate_left; intro _ _ _) | dsimp only | split)

theorem stopRing_frame {pl : List Part} {z0 : State} {key : Nat} {ctx : ReplyCtx} {s : State}
    (hz : Changes pl z0 s) (hpl : ∀ p ∈ ([.levels, .jic, .ctr, .samples, .replies, .hpe] : List Part), p ∈ pl) : Changes pl z0
      (stopRing key ctx s) := by
  unfold stopRing
  repeat' (first
      | with_reducible assumption | with_reducible exact Changes.sub hpl (by decide) | with_reducible apply discardReplies_frame
      | with_reducible apply dropStaged_frame | with_reducible apply putRing_frame | dsimp only | split)

theorem resetRing_frame {pl : List Part} {z0 : State} {key : Nat} {s : State}
    (hz : Changes pl z0 s) (hpl : ∀ p ∈ ([.hostQueue, .hpe] : List Part), p ∈ pl) : Changes pl z0 (resetRing key s) := by
  unfold resetRing
  repeat' (first
      | with_reducible assumption | with_reducible exact Changes.sub hpl (by decide) | with_reducible apply putRing_frame
      | with_reducible apply dropHostFrames_frame | dsimp only | split
      | with_reducible refine upd_hpe'hpe (by with_reducible rfl) ?_ ?_)

theorem stallCheck_frame {pl : List Part} {z0 : State} {key : Nat} {s : State}
    (hz : Changes pl z0 s) (hpl : ∀ p ∈ ([.hpe, .draws] : List Part), p ∈ pl) : Changes pl z0 (stallCheck key s).2 := by
  unfold stallCheck
  repeat' (first
      | with_reducible assumption | with_reducible exact Changes.sub hpl (by decide) | with_reducible apply putRing_frame
      | with_reducible refine pounceFires_of (by assumption) ?_ ?_ | with_reducible apply pounceFires_frame | dsimp only | split)

theorem stallCheck_of {pl : List Part} {z0 : State} {key : Nat} {s : State} {y : Bool} {t : State} (he : stallCheck key s = (y, t))
    (hz : Changes pl z0 s) (hpl : ∀ p ∈ ([.hpe, .draws] : List Part), p ∈ pl) : Changes pl z0 t := by
  have := stallCheck_frame (z0 := z0) (key := key) (s := s) hz hpl; rw [he] at this; exact this

theorem takeMalformed_frame {pl : List Part} {z0 : State} {key : Nat} {d : Descriptor} {s : State}
    (hz : Changes pl z0 s) (hpl : ∀ p ∈ ([.quarantine, .sessions, .sealed, .err, .levels, .jic, .ctr, .samples, .frc,
      .hostQueue, .replies, .hpe, .pounce, .dbg, .hlk, .out] : List Part), p ∈ pl) : Changes pl z0 (takeMalformed key d s) := by
  unfold takeMalformed
  repeat' (first
      | with_reducible assumption | with_reducible exact Changes.sub hpl (by decide) | with_reducible apply flushRing_frame
      | with_reducible apply takeEntry_frame)

theorem txEntry_frame {pl : List Part} {z0 : State} {key : Nat} {d : Descriptor} {ok : Bool} {data : List Byte} {s : State}
    (hz : Changes pl z0 s) (hpl : ∀ p ∈ ([.quarantine, .sessions, .sealed, .err, .levels, .jic, .ctr, .samples, .frc,
      .hostQueue, .replies, .hpe, .pounce, .dbg, .hlk, .out] : List Part), p ∈ pl) : Changes pl z0 (txEntry key d ok data s) :=
      by
  unfold txEntry
  repeat' (first
      | with_reducible assumption | with_reducible exact Changes.sub hpl (by decide)
      | with_reducible refine freshId_of (by assumption) ?_ ?_ | with_reducible apply freshId_frame
      | with_reducible apply completeFrame_frame | with_reducible apply putRing_frame | with_reducible apply takeEntry_frame
      | dsimp only | split | with_reducible refine upd_esh'hostQueue (by with_reducible rfl) ?_ ?_)

theorem ringEntry_frame {pl : List Part} {z0 : State} {t n : Nat} {d : Descriptor} {ok : Bool} {data : List Byte} {s : State}
    (hz : Changes pl z0 s) (hpl : ∀ p ∈ ([.quarantine, .sessions, .sealed, .err, .levels, .jic, .ctr, .samples, .frc,
      .hostQueue, .replies, .hpe, .pounce, .dbg, .hlk, .out, .draws] : List Part), p ∈ pl) : Changes pl z0 (ringEntry t n d ok
      data s) := by
  unfold ringEntry
  repeat' (first
      | with_reducible assumption | with_reducible exact Changes.sub hpl (by decide)
      | with_reducible refine stallCheck_of (by assumption) ?_ ?_ | with_reducible apply stallCheck_frame
      | with_reducible apply txEntry_frame | with_reducible apply takeMalformed_frame | dsimp only | split)

theorem cmdFetch_frame {pl : List Part} {z0 : State} {n : Nat} {d : Descriptor} {ok : Bool} {cmd : List Byte} {s : State}
    (hz : Changes pl z0 s) (hpl : ∀ p ∈ ([.quarantine, .sessions, .checks, .sealed, .err, .levels, .jic, .ctr, .samples, .frc,
      .hostQueue, .replies, .hpe, .pounce, .dbg, .hlk, .out, .draws] : List Part), p ∈ pl) : Changes pl z0 (cmdFetch n d ok cmd
      s) := by
  unfold cmdFetch
  repeat' (first
      | with_reducible assumption | with_reducible exact Changes.sub hpl (by decide)
      | with_reducible refine stallCheck_of (by assumption) ?_ ?_ | with_reducible apply stallCheck_frame
      | with_reducible apply takeMalformed_frame | with_reducible apply flushRing_frame | with_reducible apply takeEntry_frame
      | with_reducible refine takeSlot_of (by assumption) ?_ ?_ | with_reducible apply takeSlot_frame
      | with_reducible apply deliverReply_frame | with_reducible apply count_frame | dsimp only | split
      | with_reducible refine upd_cpx'checks (by with_reducible rfl) (by with_reducible rfl) (by with_reducible rfl) ?_ ?_)

theorem replyWrite_frame {pl : List Part} {z0 : State} {n : Nat} {d : Descriptor} {ok : Bool} {s : State}
    (hz : Changes pl z0 s) (hpl : ∀ p ∈ ([.quarantine, .sessions, .sealed, .err, .levels, .jic, .ctr, .samples, .frc,
      .hostQueue, .replies, .hpe, .pounce, .dbg, .hlk, .out, .draws] : List Part), p ∈ pl) : Changes pl z0 (replyWrite n d ok s)
      := by
  unfold replyWrite
  repeat' (first
      | with_reducible assumption | with_reducible exact Changes.sub hpl (by decide)
      | with_reducible refine stallCheck_of (by assumption) ?_ ?_ | with_reducible apply stallCheck_frame
      | with_reducible apply takeMalformed_frame | with_reducible apply replyWritten_frame | with_reducible apply count_frame
      | with_reducible apply flushRing_frame | with_reducible apply takeEntry_frame | with_reducible apply putReplies_frame
      | with_reducible apply emit_frame | dsimp only | split)

theorem abortRest_frame {pl : List Part} {z0 : State} {fuel key : Nat} {s : State}
    (hz : Changes pl z0 s) (hpl : ∀ p ∈ ([.quarantine, .sessions, .sealed, .err, .levels, .jic, .ctr, .samples, .frc,
      .hostQueue, .replies, .hpe, .pounce, .dbg, .hlk, .out, .draws] : List Part), p ∈ pl) : Changes pl z0 (abortRest fuel key
      s) := by
  induction fuel generalizing key s with
  | zero =>
    unfold abortRest
    repeat' (first
      | with_reducible assumption)
  | succ _ ih =>
    unfold abortRest
    repeat' (first
        | with_reducible assumption | with_reducible exact Changes.sub hpl (by decide) | with_reducible apply ih
        | with_reducible apply flushRing_frame | with_reducible apply takeEntry_frame | dsimp only | split
        | with_reducible apply upd_draws)

theorem ringStopDone_frame {pl : List Part} {z0 : State} {t n : Nat} {s : State}
    (hz : Changes pl z0 s) (hpl : ∀ p ∈ ([.quarantine, .sessions, .sealed, .err, .levels, .jic, .ctr, .samples, .frc,
      .hostQueue, .replies, .hpe, .pounce, .dbg, .hlk, .out, .draws] : List Part), p ∈ pl) : Changes pl z0 (ringStopDone t n s)
      := by
  unfold ringStopDone
  repeat' (first
      | with_reducible assumption | with_reducible exact Changes.sub hpl (by decide) | with_reducible apply answerStop_frame
      | with_reducible apply putRing_frame | with_reducible apply abortRest_frame | with_reducible apply flushRing_frame
      | dsimp only | split)

/-! ## Access -/

theorem putAcc_frame {pl : List Part} {z0 : State} {id : Nat} {a : AccSt} {s : State}
    (hz : Changes pl z0 s) (hpl : ∀ p ∈ ([.acc] : List Part), p ∈ pl) : Changes pl z0 (putAcc id a s) := by
  unfold putAcc
  repeat' (first
      | with_reducible assumption | with_reducible exact Changes.sub hpl (by decide) | dsimp only | split
      | with_reducible apply upd_acc)

theorem sypError_frame {pl : List Part} {z0 : State} {s : State}
    (hz : Changes pl z0 s) (hpl : ∀ p ∈ ([.out] : List Part), p ∈ pl) : Changes pl z0 (sypError s) := by
  unfold sypError
  repeat' (first | with_reducible assumption | with_reducible exact Changes.sub hpl (by decide) | with_reducible apply emit_frame)

theorem sypOk_frame {pl : List Part} {z0 : State} {v : Nat} {s : State}
    (hz : Changes pl z0 s) (hpl : ∀ p ∈ ([.out] : List Part), p ∈ pl) : Changes pl z0 (sypOk v s) := by
  unfold sypOk
  repeat' (first | with_reducible assumption | with_reducible exact Changes.sub hpl (by decide) | with_reducible apply emit_frame)

theorem freezeChannels_frame {pl : List Part} {z0 : State} {id : Nat} {s : State}
    (hz : Changes pl z0 s) (hpl : ∀ p ∈ ([.ctr, .xdma, .hostQueue, .replies, .hlk, .out] : List Part), p ∈ pl) : Changes pl z0
      (freezeChannels id s) := by
  unfold freezeChannels
  repeat' (first
      | with_reducible assumption | with_reducible exact Changes.sub hpl (by decide) | with_reducible apply answer_frame
      | with_reducible apply putX_frame | (with_reducible apply Changes.foldl_frame; rotate_left; intro _ _ _) | dsimp only
      | split)

theorem maskTargets_frame {pl : List Part} {z0 : State} {id : Nat} {s : State}
    (hz : Changes pl z0 s) (hpl : ∀ p ∈ ([.jic] : List Part), p ∈ pl) : Changes pl z0 (maskTargets id s) := by
  unfold maskTargets
  repeat' (first
      | with_reducible assumption | with_reducible exact Changes.sub hpl (by decide) | with_reducible apply putTarget_frame
      | (with_reducible apply Changes.foldl_frame; rotate_left; intro _ _ _) | dsimp only | split
      | with_reducible refine upd_jic'jic (by with_reducible rfl) ?_ ?_)

theorem freezeId_frame {pl : List Part} {z0 : State} {id code : Nat} {security : Bool} {s : State}
    (hz : Changes pl z0 s) (hpl : ∀ p ∈ ([.quarantine, .sessions, .checks, .sealed, .err, .acc, .levels, .jic, .ctr, .samples,
      .frc, .xdma, .ports, .hostQueue, .esh, .replies, .hpe, .pounce, .dbg, .hlk, .sas, .out] : List Part), p ∈ pl) : Changes pl
      z0 (freezeId id code security s) := by
  unfold freezeId
  repeat' (first
      | with_reducible assumption | with_reducible exact Changes.sub hpl (by decide)
      | with_reducible apply enterQuarantine_frame | with_reducible apply errorAt_frame | with_reducible apply eventRecord_frame
      | with_reducible apply maskTargets_frame | with_reducible apply freezeChannels_frame
      | with_reducible apply freezeRings_frame | with_reducible apply putAcc_frame | dsimp only | split)

theorem violate_frame {pl : List Part} {z0 : State} {id code : Nat} {s : State}
    (hz : Changes pl z0 s) (hpl : ∀ p ∈ ([.quarantine, .sessions, .checks, .sealed, .err, .acc, .levels, .jic, .ctr, .samples,
      .frc, .xdma, .ports, .hostQueue, .esh, .replies, .hpe, .pounce, .dbg, .hlk, .sas, .out] : List Part), p ∈ pl) : Changes pl
      z0 (violate id code s) := by
  unfold violate
  repeat' (first
      | with_reducible assumption | with_reducible exact Changes.sub hpl (by decide) | with_reducible apply freezeId_frame
      | with_reducible apply putAcc_frame | dsimp only | split)

theorem denied_frame {pl : List Part} {z0 : State} {id code : Nat} {status : Bool} {s : State}
    (hz : Changes pl z0 s) (hpl : ∀ p ∈ ([.quarantine, .sessions, .checks, .sealed, .err, .acc, .levels, .jic, .ctr, .samples,
      .frc, .xdma, .ports, .hostQueue, .esh, .replies, .hpe, .pounce, .dbg, .hlk, .sas, .out] : List Part), p ∈ pl) : Changes pl
      z0 (denied id code status s) := by
  unfold denied
  repeat' (first
      | with_reducible assumption | with_reducible exact Changes.sub hpl (by decide) | with_reducible apply sypError_frame
      | with_reducible apply violate_frame | dsimp only | split)

theorem emptyTargets_frame {pl : List Part} {z0 : State} {id : Nat} {s : State}
    (hz : Changes pl z0 s) (hpl : ∀ p ∈ ([.jic] : List Part), p ∈ pl) : Changes pl z0 (emptyTargets id s) := by
  unfold emptyTargets
  repeat' (first
      | with_reducible assumption | with_reducible exact Changes.sub hpl (by decide) | with_reducible apply putTarget_frame
      | (with_reducible apply Changes.foldl_frame; rotate_left; intro _ _ _) | dsimp only | split)

theorem unfreezeChannels_frame {pl : List Part} {z0 : State} {id : Nat} {s : State}
    (hz : Changes pl z0 s) (hpl : ∀ p ∈ ([.levels, .jic, .xdma] : List Part), p ∈ pl) : Changes pl z0 (unfreezeChannels id s) := by
  unfold unfreezeChannels
  repeat' (first
      | with_reducible assumption | with_reducible exact Changes.sub hpl (by decide) | with_reducible apply raiseEvent_frame
      | with_reducible apply putX_frame | (with_reducible apply Changes.foldl_frame; rotate_left; intro _ _ _) | dsimp only
      | split)

theorem unfreezeId_frame {pl : List Part} {z0 : State} {id keyId : Nat} {s : State}
    (hz : Changes pl z0 s) (hpl : ∀ p ∈ ([.quarantine, .sessions, .sealed, .err, .acc, .levels, .jic, .ctr, .samples, .frc,
      .xdma, .hostQueue, .replies, .hpe, .pounce, .dbg, .hlk, .out] : List Part), p ∈ pl) : Changes pl z0 (unfreezeId id keyId
      s) := by
  unfold unfreezeId
  repeat' (first
      | with_reducible assumption | with_reducible exact Changes.sub hpl (by decide) | with_reducible apply eventRecord_frame
      | with_reducible apply emptyTargets_frame | with_reducible apply unfreezeChannels_frame
      | with_reducible apply unfreezeRings_frame | with_reducible apply putAcc_frame)

theorem postProducer_frame {pl : List Part} {z0 : State} {key p : Nat} {s : State}
    (hz : Changes pl z0 s) (hpl : ∀ p ∈ ([.quarantine, .sessions, .sealed, .err, .levels, .jic, .ctr, .samples, .frc,
      .hostQueue, .replies, .hpe, .pounce, .dbg, .hlk, .out] : List Part), p ∈ pl) : Changes pl z0 (postProducer key p s) := by
  unfold postProducer
  repeat' (first
      | with_reducible assumption | with_reducible exact Changes.sub hpl (by decide) | with_reducible apply ringError_frame
      | with_reducible apply putRing_frame | dsimp only | split)

theorem postAck_frame {pl : List Part} {z0 : State} {key a : Nat} {s : State}
    (hz : Changes pl z0 s) (hpl : ∀ p ∈ ([.quarantine, .sessions, .sealed, .err, .levels, .jic, .ctr, .samples, .frc,
      .hostQueue, .replies, .hpe, .pounce, .dbg, .hlk, .out] : List Part), p ∈ pl) : Changes pl z0 (postAck key a s) := by
  unfold postAck
  repeat' (first
      | with_reducible assumption | with_reducible exact Changes.sub hpl (by decide) | with_reducible apply putRing_frame
      | with_reducible apply ringError_frame | dsimp only | split)

theorem doorbell_frame {pl : List Part} {z0 : State} {id t n : Nat} {producer ack : Option Nat} {s : State}
    (hz : Changes pl z0 s) (hpl : ∀ p ∈ ([.quarantine, .sessions, .checks, .sealed, .err, .acc, .levels, .jic, .ctr, .samples,
      .frc, .xdma, .ports, .hostQueue, .esh, .replies, .hpe, .pounce, .dbg, .hlk, .sas, .out] : List Part), p ∈ pl) : Changes pl
      z0 (doorbell id t n producer ack s) := by
  unfold doorbell
  repeat' (first
      | with_reducible assumption | with_reducible exact Changes.sub hpl (by decide) | with_reducible apply denied_frame
      | with_reducible apply tally_frame | with_reducible apply sypError_frame | with_reducible apply postProducer_frame
      | with_reducible apply sypOk_frame | with_reducible apply postAck_frame | dsimp only | split)

/-! ## Transmit -/

theorem closeLine_frame {pl : List Part} {z0 : State} {p start len idle : Nat} {s : State}
    (hz : Changes pl z0 s) (hpl : ∀ p ∈ ([.ports] : List Part), p ∈ pl) : Changes pl z0 (closeLine p start len idle s).2 := by
  unfold closeLine
  repeat' (first
      | with_reducible assumption | with_reducible exact Changes.sub hpl (by decide) | with_reducible apply putPort_frame)

theorem closeLine_of {pl : List Part} {z0 : State} {p start len idle : Nat} {s : State} {y : Nat} {t : State} (he : closeLine p start len idle s = (y, t))
    (hz : Changes pl z0 s) (hpl : ∀ p ∈ ([.ports] : List Part), p ∈ pl) : Changes pl z0 t := by
  have := closeLine_frame (z0 := z0) (p := p) (start := start) (len := len) (idle := idle) (s := s) hz hpl; rw [he] at this; exact this

theorem classSlots_frame {pl : List Part} {z0 : State} {p retired wasted : Nat} {s : State}
    (hz : Changes pl z0 s) (hpl : ∀ p ∈ ([.ctr] : List Part), p ∈ pl) : Changes pl z0 (classSlots p retired wasted s) := by
  unfold classSlots
  repeat' (first
      | with_reducible assumption | with_reducible exact Changes.sub hpl (by decide) | with_reducible apply count_frame)

theorem sendShort_frame {pl : List Part} {z0 : State} {p at_ : Nat} {s : State}
    (hz : Changes pl z0 s) (hpl : ∀ p ∈ ([.ctr, .ports] : List Part), p ∈ pl) : Changes pl z0 (sendShort p at_ s) := by
  unfold sendShort
  repeat' (first
      | with_reducible assumption | with_reducible exact Changes.sub hpl (by decide)
      | with_reducible refine closeLine_of (by assumption) ?_ ?_ | with_reducible apply closeLine_frame
      | with_reducible apply classSlots_frame)

theorem txSample_frame {pl : List Part} {z0 : State} {p code : Nat} {f : TxFrame} {s : State}
    (hz : Changes pl z0 s) (hpl : ∀ p ∈ ([.levels, .jic, .ctr, .samples] : List Part), p ∈ pl) : Changes pl z0 (txSample p
      code f s) := by
  unfold txSample
  repeat' (first
      | with_reducible assumption | with_reducible exact Changes.sub hpl (by decide) | with_reducible apply pushSample_frame
      | dsimp only | split)

theorem completeTx_frame {pl : List Part} {z0 : State} {p status : Nat} {f : TxFrame} {s : State}
    (hz : Changes pl z0 s) (hpl : ∀ p ∈ ([.quarantine, .sessions, .sealed, .err, .levels, .jic, .ctr, .samples, .frc,
      .hostQueue, .replies, .hpe, .pounce, .dbg, .hlk, .out] : List Part), p ∈ pl) : Changes pl z0 (completeTx p status f s) :=
      by
  unfold completeTx
  repeat' (first
      | with_reducible assumption | with_reducible exact Changes.sub hpl (by decide) | with_reducible apply completeFrame_frame
      | dsimp only | split)

theorem releaseTx_frame {pl : List Part} {z0 : State} {p : Nat} {f : TxFrame} {s : State}
    (hz : Changes pl z0 s) (hpl : ∀ p ∈ ([.frc, .esh, .sas] : List Part), p ∈ pl) : Changes pl z0 (releaseTx p f s) := by
  unfold releaseTx
  repeat' (first
      | with_reducible assumption | with_reducible exact Changes.sub hpl (by decide) | with_reducible apply unbindSa_frame
      | with_reducible apply useBytes_frame | dsimp only | split)

theorem dropTx_frame {pl : List Part} {z0 : State} {p cause : Nat} {sc : Option Nat} {f : TxFrame} {s : State}
    (hz : Changes pl z0 s) (hpl : ∀ p ∈ ([.quarantine, .sessions, .sealed, .err, .levels, .jic, .ctr, .samples, .frc, .ports,
      .hostQueue, .esh, .replies, .hpe, .pounce, .dbg, .hlk, .sas, .out] : List Part), p ∈ pl) : Changes pl z0 (dropTx p cause
      sc f s) := by
  unfold dropTx
  repeat' (first
      | with_reducible assumption | with_reducible exact Changes.sub hpl (by decide) | with_reducible apply txSample_frame
      | with_reducible apply completeTx_frame | with_reducible apply markDropped_frame | with_reducible apply releaseTx_frame
      | with_reducible apply countCause_frame)

theorem discardRest_frame {pl : List Part} {z0 : State} {p : Nat} {f : TxFrame} {done : Bool} {s : State}
    (hz : Changes pl z0 s) (hpl : ∀ p ∈ ([.ports] : List Part), p ∈ pl) : Changes pl z0 (discardRest p f done s) := by
  unfold discardRest
  repeat' (first
      | with_reducible assumption | with_reducible exact Changes.sub hpl (by decide) | with_reducible apply putPort_frame)

theorem loopBack_frame {pl : List Part} {z0 : State} {p : Nat} {m : MPacket} {bytes : List Byte} {s : State}
    (hz : Changes pl z0 s) (hpl : ∀ p ∈ ([.ports] : List Part), p ∈ pl) : Changes pl z0 (loopBack p m bytes s) := by
  unfold loopBack
  repeat' (first
      | with_reducible assumption | with_reducible exact Changes.sub hpl (by decide) | with_reducible apply putPort_frame
      | dsimp only | split)

theorem driveLine_frame {pl : List Part} {z0 : State} {p n : Nat} {ending : LineEnd} {f : TxFrame} {s : State}
    (hz : Changes pl z0 s) (hpl : ∀ p ∈ ([.ports, .out] : List Part), p ∈ pl) : Changes pl z0 (driveLine p n ending f s) := by
  unfold driveLine
  repeat' (first
      | with_reducible assumption | with_reducible exact Changes.sub hpl (by decide) | with_reducible apply emit_frame
      | with_reducible apply loopBack_frame | dsimp only | split)

theorem abortLine_frame {pl : List Part} {z0 : State} {p cause n : Nat} {s : State}
    (hz : Changes pl z0 s) (hpl : ∀ p ∈ ([.quarantine, .sessions, .sealed, .err, .levels, .jic, .ctr, .samples, .frc, .ports,
      .hostQueue, .esh, .replies, .hpe, .pounce, .dbg, .hlk, .sas, .out] : List Part), p ∈ pl) : Changes pl z0 (abortLine p
      cause n s) := by
  unfold abortLine
  repeat' (first
      | with_reducible assumption | with_reducible exact Changes.sub hpl (by decide)
      | with_reducible refine closeLine_of (by assumption) ?_ ?_ | with_reducible apply closeLine_frame
      | with_reducible apply putPort_frame | with_reducible apply txSample_frame | with_reducible apply completeTx_frame
      | with_reducible apply releaseTx_frame | with_reducible apply discardRest_frame | with_reducible apply driveLine_frame
      | with_reducible apply tally_frame | with_reducible apply countCause_frame | with_reducible apply classSlots_frame
      | dsimp only | split)

theorem abortBroken_frame {pl : List Part} {z0 : State} {p cause : Nat} {f : TxFrame} {s : State}
    (hz : Changes pl z0 s) (hpl : ∀ p ∈ ([.quarantine, .sessions, .sealed, .err, .levels, .jic, .ctr, .samples, .frc, .ports,
      .hostQueue, .esh, .replies, .hpe, .pounce, .dbg, .hlk, .sas, .out] : List Part), p ∈ pl) : Changes pl z0 (abortBroken p
      cause f s) := by
  unfold abortBroken
  repeat' (first
      | with_reducible assumption | with_reducible exact Changes.sub hpl (by decide) | with_reducible apply txSample_frame
      | with_reducible apply completeTx_frame | with_reducible apply releaseTx_frame | with_reducible apply discardRest_frame
      | with_reducible apply tally_frame | with_reducible apply countCause_frame | with_reducible apply classSlots_frame
      | with_reducible apply putPort_frame | dsimp only | split)

theorem cutLineAt_frame {pl : List Part} {z0 : State} {t p : Nat} {s : State}
    (hz : Changes pl z0 s) (hpl : ∀ p ∈ ([.quarantine, .sessions, .sealed, .err, .levels, .jic, .ctr, .samples, .frc, .ports,
      .hostQueue, .esh, .replies, .hpe, .pounce, .dbg, .hlk, .sas, .out] : List Part), p ∈ pl) : Changes pl z0 (cutLineAt t p s)
      := by
  unfold cutLineAt
  repeat' (first
      | with_reducible assumption | with_reducible exact Changes.sub hpl (by decide) | with_reducible apply abortLine_frame
      | with_reducible apply abortBroken_frame | dsimp only | split)

theorem cutLine_frame {pl : List Part} {z0 : State} {p : Nat} {s : State}
    (hz : Changes pl z0 s) (hpl : ∀ p ∈ ([.quarantine, .sessions, .sealed, .err, .levels, .jic, .ctr, .samples, .frc, .ports,
      .hostQueue, .esh, .replies, .hpe, .pounce, .dbg, .hlk, .sas, .out] : List Part), p ∈ pl) : Changes pl z0 (cutLine p s) :=
      by
  unfold cutLine
  repeat' (first
      | with_reducible assumption | with_reducible exact Changes.sub hpl (by decide) | with_reducible apply cutLineAt_frame)

theorem cutQueue_frame {pl : List Part} {z0 : State} {p : Nat} {s : State}
    (hz : Changes pl z0 s) (hpl : ∀ p ∈ ([.quarantine, .sessions, .sealed, .err, .levels, .jic, .ctr, .samples, .frc, .ports,
      .hostQueue, .esh, .replies, .hpe, .pounce, .dbg, .hlk, .sas, .out] : List Part), p ∈ pl) : Changes pl z0 (cutQueue p s) :=
      by
  unfold cutQueue
  repeat' (first
      | with_reducible assumption | with_reducible exact Changes.sub hpl (by decide) | with_reducible apply dropTx_frame
      | with_reducible apply putPort_frame | (with_reducible apply Changes.foldl_frame; rotate_left; intro _ _ _))

theorem takeTx_frame {pl : List Part} {z0 : State} {cfg : Cfg} {p : Nat} {f : TxFrame} {sc cause : Option Nat} {s : State}
    (hz : Changes pl z0 s) (hpl : ∀ p ∈ ([.quarantine, .sessions, .sealed, .err, .levels, .jic, .ctr, .samples, .frc, .ports,
      .hostQueue, .esh, .replies, .hpe, .pounce, .dbg, .hlk, .sas, .out] : List Part), p ∈ pl) : Changes pl z0 (takeTx cfg p f
      sc cause s) := by
  unfold takeTx
  repeat' (first
      | with_reducible assumption | with_reducible exact Changes.sub hpl (by decide) | with_reducible apply dropTx_frame
      | with_reducible apply putPort_frame | with_reducible apply movePn_frame | with_reducible apply putSa_frame | dsimp only
      | split)

theorem noteArrival_frame {pl : List Part} {z0 : State} {pg : Nat} {g : Grant} {f : TxFrame} {s : State}
    (hz : Changes pl z0 s) (hpl : ∀ p ∈ ([.esh] : List Part), p ∈ pl) : Changes pl z0 (noteArrival pg g f s) := by
  unfold noteArrival
  repeat' (first
      | with_reducible assumption | with_reducible exact Changes.sub hpl (by decide) | with_reducible apply mapGrant_frame)

theorem serve_frame {pl : List Part} {z0 : State} {pg p k n f : Nat} {s : State}
    (hz : Changes pl z0 s) (hpl : ∀ p ∈ ([.esh] : List Part), p ∈ pl) : Changes pl z0 (serve pg p k n f s) := by
  unfold serve
  repeat' (first
      | with_reducible assumption | with_reducible exact Changes.sub hpl (by decide) | with_reducible apply putNode_frame
      | with_reducible apply putClass_frame | with_reducible apply putEngine_frame | with_reducible apply putPortObj_frame
      | dsimp only | split)

theorem hostStampError_frame {pl : List Part} {z0 : State} {p : Nat} {f : TxFrame} {s : State}
    (hz : Changes pl z0 s) (hpl : ∀ p ∈ ([.quarantine, .sessions, .sealed, .err, .frc, .pounce, .dbg, .draws] : List Part),
      p ∈ pl) : Changes pl z0 (hostStampError p f s) := by
  unfold hostStampError
  repeat' (first
      | with_reducible assumption | with_reducible exact Changes.sub hpl (by decide) | with_reducible apply cpiError_frame
      | dsimp only | split | with_reducible apply upd_draws)

theorem pullHost_frame {pl : List Part} {z0 : State} {fuel : Nat} {g : Grant} {left : Nat} {s : State}
    (hz : Changes pl z0 s) (hpl : ∀ p ∈ ([.quarantine, .sessions, .sealed, .err, .levels, .jic, .ctr, .samples, .frc, .ports,
      .hostQueue, .esh, .replies, .hpe, .pounce, .dbg, .hlk, .sas, .out, .draws] : List Part), p ∈ pl) : Changes pl z0 (pullHost
      fuel g left s) := by
  induction fuel generalizing g left s with
  | zero =>
    unfold pullHost
    repeat' (first
      | with_reducible assumption)
  | succ _ ih =>
    unfold pullHost
    repeat' (first
        | with_reducible assumption | with_reducible exact Changes.sub hpl (by decide) | with_reducible apply ih
        | with_reducible apply takeTx_frame | with_reducible apply noteArrival_frame | with_reducible apply hostStampError_frame
        | dsimp only | split | with_reducible apply upd_esh)

theorem pullGrants_frame {pl : List Part} {z0 : State} {pg : Nat} {s : State}
    (hz : Changes pl z0 s) (hpl : ∀ p ∈ ([.quarantine, .sessions, .sealed, .err, .levels, .jic, .ctr, .samples, .frc, .ports,
      .hostQueue, .esh, .replies, .hpe, .pounce, .dbg, .hlk, .sas, .out, .draws] : List Part), p ∈ pl) : Changes pl z0
      (pullGrants pg s) := by
  unfold pullGrants
  repeat' (first
      | with_reducible assumption | with_reducible exact Changes.sub hpl (by decide) | with_reducible apply mapGrant_frame
      | with_reducible apply pullHost_frame | (with_reducible apply Changes.foldl_frame; rotate_left; intro _ _ _) | dsimp only
      | split)

theorem issueGrant_frame {pl : List Part} {z0 : State} {pg p k n f : Nat} {s : State}
    (hz : Changes pl z0 s) (hpl : ∀ p ∈ ([.quarantine, .sessions, .sealed, .err, .levels, .jic, .ctr, .samples, .frc, .ports,
      .hostQueue, .esh, .replies, .hpe, .pounce, .dbg, .hlk, .sas, .out, .draws] : List Part), p ∈ pl) : Changes pl z0
      (issueGrant pg p k n f s) := by
  unfold issueGrant
  repeat' (first
      | with_reducible assumption | with_reducible exact Changes.sub hpl (by decide) | with_reducible apply pullGrants_frame
      | with_reducible apply tally_frame | with_reducible apply useBytes_frame | with_reducible apply putEngine_frame
      | with_reducible apply chargePath_frame | with_reducible apply moveTags_frame | with_reducible apply serve_frame
      | with_reducible apply emit_frame | dsimp only | split)

theorem schedDecision_frame {pl : List Part} {z0 : State} {pg : Nat} {s : State}
    (hz : Changes pl z0 s) (hpl : ∀ p ∈ ([.quarantine, .sessions, .sealed, .err, .levels, .jic, .ctr, .samples, .frc, .ports,
      .hostQueue, .esh, .replies, .hpe, .pounce, .dbg, .hlk, .sas, .out, .draws] : List Part), p ∈ pl) : Changes pl z0
      (schedDecision pg s) := by
  unfold schedDecision
  repeat' (first
      | with_reducible assumption | with_reducible exact Changes.sub hpl (by decide) | with_reducible apply issueGrant_frame
      | with_reducible apply putEngine_frame | with_reducible refine pounceFires_of (by assumption) ?_ ?_
      | with_reducible apply pounceFires_frame | dsimp only | split)

theorem txInputError_frame {pl : List Part} {z0 : State} {pg word : Nat} {s : State}
    (hz : Changes pl z0 s) (hpl : ∀ p ∈ ([.quarantine, .sessions, .sealed, .err, .frc, .pounce, .dbg] : List Part), p ∈ pl) :
      Changes pl z0 (txInputError pg word s) := by
  unfold txInputError
  repeat' (first
      | with_reducible assumption | with_reducible exact Changes.sub hpl (by decide) | with_reducible apply cpiError_frame)

theorem endOpen_frame {pl : List Part} {z0 : State} {p cause : Nat} {s : State}
    (hz : Changes pl z0 s) (hpl : ∀ p ∈ ([.quarantine, .sessions, .sealed, .err, .levels, .jic, .ctr, .samples, .frc, .ports,
      .hostQueue, .esh, .replies, .hpe, .pounce, .dbg, .hlk, .sas, .out] : List Part), p ∈ pl) : Changes pl z0 (endOpen p cause
      s) := by
  unfold endOpen
  repeat' (first
      | with_reducible assumption | with_reducible exact Changes.sub hpl (by decide) | with_reducible apply abortLine_frame
      | with_reducible apply abortBroken_frame | with_reducible apply dropTx_frame | with_reducible apply putPort_frame
      | dsimp only | split)

theorem coreStart_frame {pl : List Part} {z0 : State} {pg p : Nat} {m : TxMeta} {t : TxSlices} {g : Grant} {s : State}
    (hz : Changes pl z0 s) (hpl : ∀ p ∈ ([.quarantine, .sessions, .sealed, .err, .levels, .jic, .ctr, .samples, .frc, .ports,
      .hostQueue, .esh, .replies, .hpe, .pounce, .dbg, .hlk, .sas, .out] : List Part), p ∈ pl) : Changes pl z0 (coreStart pg p m
      t g s) := by
  unfold coreStart
  repeat' (first
      | with_reducible assumption | with_reducible exact Changes.sub hpl (by decide) | with_reducible apply discardRest_frame
      | with_reducible apply takeTx_frame | with_reducible apply txInputError_frame | with_reducible apply noteArrival_frame
      | dsimp only | split)

theorem sofSlices_frame {pl : List Part} {z0 : State} {pg p : Nat} {m : TxMeta} {t : TxSlices} {s : State}
    (hz : Changes pl z0 s) (hpl : ∀ p ∈ ([.quarantine, .sessions, .sealed, .err, .levels, .jic, .ctr, .samples, .frc, .ports,
      .hostQueue, .esh, .replies, .hpe, .pounce, .dbg, .hlk, .sas, .out] : List Part), p ∈ pl) : Changes pl z0 (sofSlices pg p m
      t s) := by
  unfold sofSlices
  repeat' (first
      | with_reducible assumption | with_reducible exact Changes.sub hpl (by decide) | with_reducible apply putPort_frame
      | with_reducible apply txInputError_frame | with_reducible apply endOpen_frame | with_reducible apply coreStart_frame
      | with_reducible apply discardRest_frame | with_reducible apply count_frame | dsimp only | split)

theorem nextSlices_frame {pl : List Part} {z0 : State} {pg p : Nat} {t : TxSlices} {s : State}
    (hz : Changes pl z0 s) (hpl : ∀ p ∈ ([.quarantine, .sessions, .sealed, .err, .levels, .jic, .ctr, .samples, .frc, .ports,
      .hostQueue, .esh, .replies, .hpe, .pounce, .dbg, .hlk, .sas, .out] : List Part), p ∈ pl) : Changes pl z0 (nextSlices pg p
      t s) := by
  unfold nextSlices
  repeat' (first
      | with_reducible assumption | with_reducible exact Changes.sub hpl (by decide) | with_reducible apply putPort_frame
      | with_reducible apply count_frame | with_reducible apply discardRest_frame | with_reducible apply endOpen_frame
      | with_reducible apply txInputError_frame | dsimp only | split)

theorem cpiTxFrame_taken_frame {pl : List Part} {z0 : State} {pg : Nat} {t : TxSlices} {s : State}
    (hz : Changes pl z0 s) (hpl : ∀ p ∈ ([.quarantine, .sessions, .sealed, .err, .levels, .jic, .ctr, .samples, .frc, .ports,
      .hostQueue, .esh, .replies, .hpe, .pounce, .dbg, .hlk, .sas, .out] : List Part), p ∈ pl) : Changes pl z0 (cpiTxFrame.taken
      pg t s) := by
  unfold cpiTxFrame.taken
  repeat' (first
      | with_reducible assumption | with_reducible exact Changes.sub hpl (by decide) | with_reducible apply txInputError_frame
      | with_reducible apply count_frame | with_reducible apply sofSlices_frame | with_reducible apply nextSlices_frame
      | dsimp only | split)

theorem cpiTxFrame_frame {pl : List Part} {z0 : State} {pg : Nat} {t : TxSlices} {s : State}
    (hz : Changes pl z0 s) (hpl : ∀ p ∈ ([.quarantine, .sessions, .sealed, .err, .levels, .jic, .ctr, .samples, .frc, .ports,
      .hostQueue, .esh, .replies, .hpe, .pounce, .dbg, .hlk, .sas, .out, .draws] : List Part), p ∈ pl) : Changes pl z0
      (cpiTxFrame pg t s) := by
  unfold cpiTxFrame
  repeat' (first
      | with_reducible assumption | with_reducible exact Changes.sub hpl (by decide) | with_reducible apply pullGrants_frame
      | with_reducible apply cpiTxFrame_taken_frame | dsimp only | split)

theorem sendControl_frame {pl : List Part} {z0 : State} {p at_ : Nat} {fr : List Byte} {generated : Bool} {s : State}
    (hz : Changes pl z0 s) (hpl : ∀ p ∈ ([.ctr, .ports, .out] : List Part), p ∈ pl) : Changes pl z0 (sendControl p at_ fr
      generated s) := by
  unfold sendControl
  repeat' (first
      | with_reducible assumption | with_reducible exact Changes.sub hpl (by decide) | with_reducible apply sendShort_frame
      | with_reducible apply tally_frame | with_reducible apply loopBack_frame | with_reducible apply emit_frame
      | with_reducible apply putPort_frame)

theorem sendMpacket_frame {pl : List Part} {z0 : State} {p at_ : Nat} {s : State}
    (hz : Changes pl z0 s) (hpl : ∀ p ∈ ([.ctr, .ports, .out] : List Part), p ∈ pl) : Changes pl z0 (sendMpacket p at_ s) := by
  unfold sendMpacket
  repeat' (first
      | with_reducible assumption | with_reducible exact Changes.sub hpl (by decide) | with_reducible apply sendShort_frame
      | with_reducible apply loopBack_frame | with_reducible apply emit_frame | with_reducible apply putPort_frame)

theorem keepCapture_frame {pl : List Part} {z0 : State} {p tsId t : Nat} {s : State}
    (hz : Changes pl z0 s) (hpl : ∀ p ∈ ([.tsu, .levels, .jic, .ctr] : List Part), p ∈ pl) : Changes pl z0 (keepCapture p tsId
      t s) := by
  unfold keepCapture
  repeat' (first
      | with_reducible assumption | with_reducible exact Changes.sub hpl (by decide) | with_reducible apply raiseEvent_frame
      | with_reducible apply tally_frame | dsimp only | split | with_reducible apply upd_tsu)

theorem hlkCapture_frame {pl : List Part} {z0 : State} {p : Nat} {f : TxFrame} {s0 : State}
    (hz : Changes pl z0 s0) (hpl : ∀ p ∈ ([.tsu, .levels, .jic, .ctr, .hlk] : List Part), p ∈ pl) : Changes pl z0 (hlkCapture
      p f s0) := by
  unfold hlkCapture
  repeat' (first
      | with_reducible assumption | with_reducible exact Changes.sub hpl (by decide) | with_reducible apply keepCapture_frame
      | dsimp only | split | with_reducible apply upd_hlk)

theorem stampTx_frame {pl : List Part} {z0 : State} {p : Nat} {f : TxFrame} {s : State}
    (hz : Changes pl z0 s) (hpl : ∀ p ∈ ([.tsu, .levels, .jic, .ctr] : List Part), p ∈ pl) : Changes pl z0 (stampTx p f s).2 := by
  unfold stampTx
  repeat' (first
      | with_reducible assumption | with_reducible exact Changes.sub hpl (by decide) | with_reducible apply keepCapture_frame
      | with_reducible apply tally_frame | dsimp only | split)

theorem stampTx_of {pl : List Part} {z0 : State} {p : Nat} {f : TxFrame} {s : State} {y : TxFrame} {t : State} (he : stampTx p f s = (y, t))
    (hz : Changes pl z0 s) (hpl : ∀ p ∈ ([.tsu, .levels, .jic, .ctr] : List Part), p ∈ pl) : Changes pl z0 t := by
  have := stampTx_frame (z0 := z0) (p := p) (f := f) (s := s) hz hpl; rw [he] at this; exact this

theorem beginTx_frame {pl : List Part} {z0 : State} {p : Nat} {f : TxFrame} {at_ phase k : Nat} {s : State}
    (hz : Changes pl z0 s) (hpl : ∀ p ∈ ([.tsu, .levels, .jic, .ctr, .ports, .hlk] : List Part), p ∈ pl) : Changes pl z0
      (beginTx p f at_ phase k s) := by
  unfold beginTx
  repeat' (first
      | with_reducible assumption | with_reducible exact Changes.sub hpl (by decide)
      | with_reducible refine stampTx_of (by assumption) ?_ ?_ | with_reducible apply stampTx_frame
      | with_reducible apply hlkCapture_frame | with_reducible apply putPort_frame | with_reducible apply tally_frame
      | dsimp only | split)

theorem countHolds_frame {pl : List Part} {z0 : State} {p : Nat} {s : State}
    (hz : Changes pl z0 s) (hpl : ∀ p ∈ ([.ctr, .ports] : List Part), p ∈ pl) : Changes pl z0 (countHolds p s) := by
  unfold countHolds
  repeat' (first
      | with_reducible assumption | with_reducible exact Changes.sub hpl (by decide) | with_reducible apply tally_frame
      | with_reducible apply putPort_frame | dsimp only | split)

theorem breakTx_frame {pl : List Part} {z0 : State} {p n : Nat} {f : TxFrame} {s : State}
    (hz : Changes pl z0 s) (hpl : ∀ p ∈ ([.ports, .out] : List Part), p ∈ pl) : Changes pl z0 (breakTx p n f s) := by
  unfold breakTx
  repeat' (first
      | with_reducible assumption | with_reducible exact Changes.sub hpl (by decide)
      | with_reducible refine closeLine_of (by assumption) ?_ ?_ | with_reducible apply closeLine_frame
      | with_reducible apply driveLine_frame | with_reducible apply putPort_frame)

theorem startService_frame {pl : List Part} {z0 : State} {p phase k : Nat} {s : State}
    (hz : Changes pl z0 s) (hpl : ∀ p ∈ ([.quarantine, .tsu, .sessions, .sealed, .err, .levels, .jic, .ctr, .samples, .frc,
      .ports, .hostQueue, .esh, .replies, .hpe, .pounce, .dbg, .hlk, .sas, .out] : List Part), p ∈ pl) : Changes pl z0
      (startService p phase k s) := by
  unfold startService
  repeat' (first
      | with_reducible assumption | with_reducible exact Changes.sub hpl (by decide) | with_reducible apply putPort_frame
      | with_reducible apply dropTx_frame | with_reducible apply beginTx_frame | dsimp only | split
      | with_reducible refine upd_esh'hostQueue (by with_reducible rfl) ?_ ?_)

theorem startNext_startRest_frame {pl : List Part} {z0 : State} {p : Nat} {x : Port} {at_ phase k : Nat} {s : State}
    (hz : Changes pl z0 s) (hpl : ∀ p ∈ ([.tsu, .levels, .jic, .ctr, .ports, .hlk] : List Part), p ∈ pl) : Changes pl z0
      (startNext.startRest p x at_ phase k s) := by
  unfold startNext.startRest
  repeat' (first
      | with_reducible assumption | with_reducible exact Changes.sub hpl (by decide) | with_reducible apply tally_frame
      | with_reducible apply putPort_frame | with_reducible apply beginTx_frame | dsimp only | split)

theorem startNext_frame {pl : List Part} {z0 : State} {p at_ phase k : Nat} {s : State}
    (hz : Changes pl z0 s) (hpl : ∀ p ∈ ([.quarantine, .tsu, .sessions, .sealed, .err, .levels, .jic, .ctr, .samples, .frc,
      .ports, .hostQueue, .esh, .replies, .hpe, .pounce, .dbg, .hlk, .sas, .out] : List Part), p ∈ pl) : Changes pl z0
      (startNext p at_ phase k s) := by
  unfold startNext
  repeat' (first
      | with_reducible assumption | with_reducible exact Changes.sub hpl (by decide) | with_reducible apply sendControl_frame
      | with_reducible apply sendMpacket_frame | with_reducible apply startService_frame | with_reducible apply beginTx_frame
      | with_reducible apply putPort_frame | with_reducible apply startNext_startRest_frame | dsimp only | split)

theorem txFrameStart_frame {pl : List Part} {z0 : State} {p phase k : Nat} {s : State}
    (hz : Changes pl z0 s) (hpl : ∀ p ∈ ([.quarantine, .tsu, .sessions, .sealed, .err, .levels, .jic, .ctr, .samples, .frc,
      .ports, .hostQueue, .esh, .replies, .hpe, .pounce, .dbg, .hlk, .sas, .out] : List Part), p ∈ pl) : Changes pl z0
      (txFrameStart p phase k s) := by
  unfold txFrameStart
  repeat' (first
      | with_reducible assumption | with_reducible exact Changes.sub hpl (by decide) | with_reducible apply startNext_frame
      | with_reducible apply countHolds_frame | with_reducible apply breakTx_frame | dsimp only | split)

theorem countSent_frame {pl : List Part} {z0 : State} {p : Nat} {f : TxFrame} {s : State}
    (hz : Changes pl z0 s) (hpl : ∀ p ∈ ([.ctr] : List Part), p ∈ pl) : Changes pl z0 (countSent p f s) := by
  unfold countSent
  repeat' (first
      | with_reducible assumption | with_reducible exact Changes.sub hpl (by decide) | with_reducible apply count_frame
      | with_reducible apply tally_frame | dsimp only | split)

theorem finishTx_frame {pl : List Part} {z0 : State} {p : Nat} {f : TxFrame} {s : State}
    (hz : Changes pl z0 s) (hpl : ∀ p ∈ ([.quarantine, .sessions, .sealed, .err, .levels, .jic, .ctr, .samples, .frc, .ports,
      .hostQueue, .esh, .replies, .hpe, .pounce, .dbg, .hlk, .sas, .out] : List Part), p ∈ pl) : Changes pl z0 (finishTx p f s)
      := by
  unfold finishTx
  repeat' (first
      | with_reducible assumption | with_reducible exact Changes.sub hpl (by decide)
      | with_reducible refine closeLine_of (by assumption) ?_ ?_ | with_reducible apply closeLine_frame
      | with_reducible apply putPort_frame | with_reducible apply replyWritten_frame | with_reducible apply txSample_frame
      | with_reducible apply completeTx_frame | with_reducible apply releaseTx_frame | with_reducible apply driveLine_frame
      | with_reducible apply count_frame | with_reducible apply countSent_frame | with_reducible apply classSlots_frame
      | dsimp only | split)

theorem txFrameEnd_frame {pl : List Part} {z0 : State} {p : Nat} {s : State}
    (hz : Changes pl z0 s) (hpl : ∀ p ∈ ([.quarantine, .sessions, .sealed, .err, .levels, .jic, .ctr, .samples, .frc, .ports,
      .hostQueue, .esh, .replies, .hpe, .pounce, .dbg, .hlk, .sas, .out] : List Part), p ∈ pl) : Changes pl z0 (txFrameEnd p s)
      := by
  unfold txFrameEnd
  repeat' (first
      | with_reducible assumption | with_reducible exact Changes.sub hpl (by decide) | with_reducible apply abortLine_frame
      | with_reducible apply finishTx_frame | dsimp only | split)

theorem txUnderrun_frame {pl : List Part} {z0 : State} {p : Nat} {s : State}
    (hz : Changes pl z0 s) (hpl : ∀ p ∈ ([.quarantine, .sessions, .sealed, .err, .levels, .jic, .ctr, .samples, .frc, .ports,
      .hostQueue, .esh, .replies, .hpe, .pounce, .dbg, .hlk, .sas, .out] : List Part), p ∈ pl) : Changes pl z0 (txUnderrun p s)
      := by
  unfold txUnderrun
  repeat' (first
      | with_reducible assumption | with_reducible exact Changes.sub hpl (by decide) | with_reducible apply abortLine_frame
      | dsimp only | split)

/-! ## Links -/

theorem startVerify_frame {pl : List Part} {z0 : State} {p : Nat} {s : State}
    (hz : Changes pl z0 s) (hpl : ∀ p ∈ ([.ports] : List Part), p ∈ pl) : Changes pl z0 (startVerify p s) := by
  unfold startVerify
  repeat' (first
      | with_reducible assumption | with_reducible exact Changes.sub hpl (by decide) | with_reducible apply putPort_frame
      | dsimp only | split)

theorem enterUp_frame {pl : List Part} {z0 : State} {p : Nat} {s : State}
    (hz : Changes pl z0 s) (hpl : ∀ p ∈ ([.ports] : List Part), p ∈ pl) : Changes pl z0 (enterUp p s) := by
  unfold enterUp
  repeat' (first
      | with_reducible assumption | with_reducible exact Changes.sub hpl (by decide) | with_reducible apply startVerify_frame
      | with_reducible apply putPort_frame | dsimp only | split)

theorem leaveUp_frame {pl : List Part} {z0 : State} {p : Nat} {s : State}
    (hz : Changes pl z0 s) (hpl : ∀ p ∈ ([.ctr, .ports, .hostQueue] : List Part), p ∈ pl) : Changes pl z0 (leaveUp p s) := by
  unfold leaveUp
  repeat' (first
      | with_reducible assumption | with_reducible exact Changes.sub hpl (by decide) | with_reducible apply dropReplies_frame
      | with_reducible apply putPort_frame)

theorem bringupFail_frame {pl : List Part} {z0 : State} {p : Nat} {s : State}
    (hz : Changes pl z0 s) (hpl : ∀ p ∈ ([.ctr, .ports] : List Part), p ∈ pl) : Changes pl z0 (bringupFail p s) := by
  unfold bringupFail
  repeat' (first
      | with_reducible assumption | with_reducible exact Changes.sub hpl (by decide) | with_reducible apply tally_frame
      | with_reducible apply putPort_frame)

theorem noteUp_frame {pl : List Part} {z0 : State} {p : Nat} {was : Bool} {s : State}
    (hz : Changes pl z0 s) (hpl : ∀ p ∈ ([.levels, .jic, .ctr, .frc, .groups] : List Part), p ∈ pl) : Changes pl z0 (noteUp p
      was s) := by
  unfold noteUp
  repeat' (first
      | with_reducible assumption | with_reducible exact Changes.sub hpl (by decide) | with_reducible apply tally_frame
      | with_reducible apply eventRecord_frame | with_reducible apply raiseEvent_frame | dsimp only | split
      | with_reducible apply upd_groups)

theorem setLink_frame {pl : List Part} {z0 : State} {p : Nat} {new : LinkSt} {hidden : Bool} {s : State}
    (hz : Changes pl z0 s) (hpl : ∀ p ∈ ([.quarantine, .sessions, .sealed, .err, .levels, .jic, .ctr, .samples, .frc, .groups,
      .ports, .hostQueue, .esh, .replies, .hpe, .pounce, .dbg, .hlk, .sas, .out] : List Part), p ∈ pl) : Changes pl z0 (setLink
      p new hidden s) := by
  unfold setLink
  repeat' (first
      | with_reducible assumption | with_reducible exact Changes.sub hpl (by decide) | with_reducible apply noteUp_frame
      | with_reducible apply bringupFail_frame | with_reducible apply enterUp_frame | with_reducible apply leaveUp_frame
      | with_reducible apply putPort_frame | with_reducible apply cutQueue_frame | with_reducible apply cutLine_frame
      | dsimp only | split | with_reducible apply upd_ports)

theorem gateLink_frame {pl : List Part} {z0 : State} {p : Nat} {s : State}
    (hz : Changes pl z0 s) (hpl : ∀ p ∈ ([.quarantine, .sessions, .sealed, .err, .levels, .jic, .ctr, .samples, .frc, .groups,
      .ports, .hostQueue, .esh, .replies, .hpe, .pounce, .dbg, .hlk, .sas, .out] : List Part), p ∈ pl) : Changes pl z0 (gateLink
      p s) := by
  unfold gateLink
  repeat' (first
      | with_reducible assumption | with_reducible exact Changes.sub hpl (by decide) | with_reducible apply noteUp_frame
      | with_reducible apply bringupFail_frame | with_reducible apply cutQueue_frame | with_reducible apply cutLine_frame
      | with_reducible apply leaveUp_frame | with_reducible apply putPort_frame | dsimp only | split)

theorem beginFault_frame {pl : List Part} {z0 : State} {p : Nat} {s : State}
    (hz : Changes pl z0 s) (hpl : ∀ p ∈ ([.quarantine, .sessions, .sealed, .err, .levels, .jic, .ctr, .samples, .frc, .groups,
      .ports, .hostQueue, .esh, .replies, .hpe, .pounce, .dbg, .hlk, .sas, .out] : List Part), p ∈ pl) : Changes pl z0
      (beginFault p s) := by
  unfold beginFault
  repeat' (first
      | with_reducible assumption | with_reducible exact Changes.sub hpl (by decide) | with_reducible apply setLink_frame
      | dsimp only | split)

theorem laneCheck_frame {pl : List Part} {z0 : State} {p : Nat} {s : State}
    (hz : Changes pl z0 s) (hpl : ∀ p ∈ ([.quarantine, .sessions, .sealed, .err, .levels, .jic, .ctr, .samples, .frc, .groups,
      .ports, .hostQueue, .esh, .replies, .hpe, .pounce, .dbg, .hlk, .sas, .out] : List Part), p ∈ pl) : Changes pl z0
      (laneCheck p s) := by
  unfold laneCheck
  repeat' (first
      | with_reducible assumption | with_reducible exact Changes.sub hpl (by decide) | with_reducible apply setLink_frame
      | with_reducible apply beginFault_frame | dsimp only | split)

theorem lanePortCheck_frame {pl : List Part} {z0 : State} {lane : Nat} {s : State}
    (hz : Changes pl z0 s) (hpl : ∀ p ∈ ([.quarantine, .sessions, .sealed, .err, .levels, .jic, .ctr, .samples, .frc, .groups,
      .ports, .hostQueue, .esh, .replies, .hpe, .pounce, .dbg, .hlk, .sas, .out] : List Part), p ∈ pl) : Changes pl z0
      (lanePortCheck lane s) := by
  unfold lanePortCheck
  repeat' (first
      | with_reducible assumption | with_reducible exact Changes.sub hpl (by decide) | with_reducible apply laneCheck_frame
      | dsimp only | split)

theorem onPort_frame {pl : List Part} {z0 : State} {p : Nat} {f : State → State} {s : State}
    (hz : Changes pl z0 s) (hpl : ∀ p ∈ ([] : List Part), p ∈ pl) (hf : ∀ a, Changes pl z0 a → Changes pl z0 (f a)) :
    Changes pl z0 (onPort p f s) := by
  unfold onPort; split
  · exact hz
  · exact hf s hz

theorem laneClockFault_frame {pl : List Part} {z0 : State} {lane : Nat} {s : State}
    (hz : Changes pl z0 s) (hpl : ∀ p ∈ ([.quarantine, .sessions, .sealed, .err, .levels, .jic, .ctr, .samples, .frc, .groups,
      .lanes, .ports, .hostQueue, .esh, .replies, .hpe, .pounce, .dbg, .hlk, .sas, .out] : List Part), p ∈ pl) : Changes pl z0
      (laneClockFault lane s) := by
  unfold laneClockFault
  repeat' (first
      | with_reducible assumption | with_reducible exact Changes.sub hpl (by decide) | with_reducible apply lanePortCheck_frame
      | with_reducible apply errorAt_frame | with_reducible apply tallyAt_frame | with_reducible apply putLane_frame
      | dsimp only | split)

theorem laneClockRecover_frame {pl : List Part} {z0 : State} {lane : Nat} {s : State}
    (hz : Changes pl z0 s) (hpl : ∀ p ∈ ([.lanes] : List Part), p ∈ pl) : Changes pl z0 (laneClockRecover lane s) := by
  unfold laneClockRecover
  repeat' (first
      | with_reducible assumption | with_reducible exact Changes.sub hpl (by decide) | with_reducible apply putLane_frame
      | dsimp only | split)

theorem laneDropExpiry_frame {pl : List Part} {z0 : State} {lane : Nat} {s : State}
    (hz : Changes pl z0 s) (hpl : ∀ p ∈ ([.lanes] : List Part), p ∈ pl) : Changes pl z0 (laneDropExpiry lane s) := by
  unfold laneDropExpiry
  repeat' (first
      | with_reducible assumption | with_reducible exact Changes.sub hpl (by decide) | with_reducible apply putLane_frame
      | dsimp only | split)

theorem anComplete_frame {pl : List Part} {z0 : State} {p : Nat} {partner : AnPage} {s : State}
    (hz : Changes pl z0 s) (hpl : ∀ p ∈ ([.quarantine, .sessions, .sealed, .err, .levels, .jic, .ctr, .samples, .frc, .groups,
      .ports, .hostQueue, .esh, .replies, .hpe, .pounce, .dbg, .hlk, .sas, .out] : List Part), p ∈ pl) : Changes pl z0
      (anComplete p partner s) := by
  unfold anComplete
  repeat' (first
      | with_reducible assumption | with_reducible exact Changes.sub hpl (by decide) | with_reducible apply setLink_frame
      | with_reducible apply putPort_frame | dsimp only | split)

theorem anRetry_frame {pl : List Part} {z0 : State} {p : Nat} {s : State}
    (hz : Changes pl z0 s) (hpl : ∀ p ∈ ([.quarantine, .sessions, .sealed, .err, .levels, .jic, .ctr, .samples, .frc, .groups,
      .ports, .hostQueue, .esh, .replies, .hpe, .pounce, .dbg, .hlk, .sas, .out] : List Part), p ∈ pl) : Changes pl z0 (anRetry
      p s) := by
  unfold anRetry
  repeat' (first
      | with_reducible assumption | with_reducible exact Changes.sub hpl (by decide) | with_reducible apply setLink_frame
      | with_reducible apply putPort_frame | dsimp only | split)

theorem trainingTimeout_frame {pl : List Part} {z0 : State} {p : Nat} {s : State}
    (hz : Changes pl z0 s) (hpl : ∀ p ∈ ([.quarantine, .sessions, .sealed, .err, .levels, .jic, .ctr, .samples, .frc, .groups,
      .ports, .hostQueue, .esh, .replies, .hpe, .pounce, .dbg, .hlk, .sas, .out] : List Part), p ∈ pl) : Changes pl z0
      (trainingTimeout p s) := by
  unfold trainingTimeout
  repeat' (first
      | with_reducible assumption | with_reducible exact Changes.sub hpl (by decide) | with_reducible apply setLink_frame
      | dsimp only | split)

theorem trainingComplete_frame {pl : List Part} {z0 : State} {p : Nat} {s : State}
    (hz : Changes pl z0 s) (hpl : ∀ p ∈ ([.quarantine, .sessions, .sealed, .err, .levels, .jic, .ctr, .samples, .frc, .groups,
      .ports, .hostQueue, .esh, .replies, .hpe, .pounce, .dbg, .hlk, .sas, .out] : List Part), p ∈ pl) : Changes pl z0
      (trainingComplete p s) := by
  unfold trainingComplete
  repeat' (first
      | with_reducible assumption | with_reducible exact Changes.sub hpl (by decide) | with_reducible apply setLink_frame
      | dsimp only | split)

theorem storeSkews_frame {pl : List Part} {z0 : State} {p : Nat} {skews : List Nat} {s : State}
    (hz : Changes pl z0 s) (hpl : ∀ p ∈ ([.lanes] : List Part), p ∈ pl) : Changes pl z0 (storeSkews p skews s) := by
  unfold storeSkews
  repeat' (first
      | with_reducible assumption | with_reducible exact Changes.sub hpl (by decide) | with_reducible apply putLane_frame
      | (with_reducible apply Changes.foldl_frame; rotate_left; intro _ _ _))

theorem alignComplete_frame {pl : List Part} {z0 : State} {p : Nat} {remote : Bool} {order skews : List Nat} {s : State}
    (hz : Changes pl z0 s) (hpl : ∀ p ∈ ([.quarantine, .sessions, .sealed, .err, .levels, .jic, .ctr, .samples, .frc, .groups,
      .lanes, .ports, .hostQueue, .esh, .replies, .hpe, .pounce, .dbg, .hlk, .sas, .out] : List Part), p ∈ pl) : Changes pl z0
      (alignComplete p remote order skews s) := by
  unfold alignComplete
  repeat' (first
      | with_reducible assumption | with_reducible exact Changes.sub hpl (by decide) | with_reducible apply setLink_frame
      | with_reducible apply storeSkews_frame | with_reducible apply putPort_frame | dsimp only | split)

theorem alignTimeout_frame {pl : List Part} {z0 : State} {p : Nat} {bad : List Nat} {s : State}
    (hz : Changes pl z0 s) (hpl : ∀ p ∈ ([.quarantine, .sessions, .sealed, .err, .levels, .jic, .ctr, .samples, .frc, .groups,
      .ports, .hostQueue, .esh, .replies, .hpe, .pounce, .dbg, .hlk, .sas, .out] : List Part), p ∈ pl) : Changes pl z0
      (alignTimeout p bad s) := by
  unfold alignTimeout
  repeat' (first
      | with_reducible assumption | with_reducible exact Changes.sub hpl (by decide) | with_reducible apply setLink_frame
      | with_reducible apply tally_frame | with_reducible apply errorAt_frame
      | (with_reducible apply Changes.foldl_frame; rotate_left; intro _ _ _) | dsimp only | split)

theorem holdExpiry_frame {pl : List Part} {z0 : State} {p : Nat} {s : State}
    (hz : Changes pl z0 s) (hpl : ∀ p ∈ ([.quarantine, .sessions, .sealed, .err, .levels, .jic, .ctr, .samples, .frc, .groups,
      .ports, .hostQueue, .esh, .replies, .hpe, .pounce, .dbg, .hlk, .sas, .out] : List Part), p ∈ pl) : Changes pl z0
      (holdExpiry p s) := by
  unfold holdExpiry
  repeat' (first
      | with_reducible assumption | with_reducible exact Changes.sub hpl (by decide) | with_reducible apply setLink_frame
      | dsimp only | split)

theorem faultClear_frame {pl : List Part} {z0 : State} {p : Nat} {s : State}
    (hz : Changes pl z0 s) (hpl : ∀ p ∈ ([.quarantine, .sessions, .sealed, .err, .levels, .jic, .ctr, .samples, .frc, .groups,
      .ports, .hostQueue, .esh, .replies, .hpe, .pounce, .dbg, .hlk, .sas, .out] : List Part), p ∈ pl) : Changes pl z0
      (faultClear p s) := by
  unfold faultClear
  repeat' (first
      | with_reducible assumption | with_reducible exact Changes.sub hpl (by decide) | with_reducible apply setLink_frame
      | with_reducible apply tally_frame | dsimp only | split)

theorem remoteChange_frame {pl : List Part} {z0 : State} {p : Nat} {begins : Bool} {s : State}
    (hz : Changes pl z0 s) (hpl : ∀ p ∈ ([.quarantine, .sessions, .sealed, .err, .levels, .jic, .ctr, .samples, .frc, .groups,
      .ports, .hostQueue, .esh, .replies, .hpe, .pounce, .dbg, .hlk, .sas, .out] : List Part), p ∈ pl) : Changes pl z0
      (remoteChange p begins s) := by
  unfold remoteChange
  repeat' (first
      | with_reducible assumption | with_reducible exact Changes.sub hpl (by decide) | with_reducible apply setLink_frame
      | with_reducible apply putPort_frame | dsimp only | split)

theorem verifyOutcome_frame {pl : List Part} {z0 : State} {p : Nat} {v : Verify} {s : State}
    (hz : Changes pl z0 s) (hpl : ∀ p ∈ ([.levels, .jic, .ports] : List Part), p ∈ pl) : Changes pl z0 (verifyOutcome p v s) := by
  unfold verifyOutcome
  repeat' (first
      | with_reducible assumption | with_reducible exact Changes.sub hpl (by decide) | with_reducible apply raiseEvent_frame
      | with_reducible apply putPort_frame)

theorem verifyTimeout_frame {pl : List Part} {z0 : State} {p : Nat} {s : State}
    (hz : Changes pl z0 s) (hpl : ∀ p ∈ ([.levels, .jic, .ctr, .ports] : List Part), p ∈ pl) : Changes pl z0 (verifyTimeout p s) := by
  unfold verifyTimeout
  repeat' (first
      | with_reducible assumption | with_reducible exact Changes.sub hpl (by decide) | with_reducible apply putPort_frame
      | with_reducible apply verifyOutcome_frame | with_reducible apply tally_frame | dsimp only | split)

theorem retrain_frame {pl : List Part} {z0 : State} {p : Nat} {s : State}
    (hz : Changes pl z0 s) (hpl : ∀ p ∈ ([.quarantine, .sessions, .sealed, .err, .levels, .jic, .ctr, .samples, .frc, .groups,
      .ports, .hostQueue, .esh, .replies, .hpe, .pounce, .dbg, .hlk, .sas, .out] : List Part), p ∈ pl) : Changes pl z0 (retrain
      p s) := by
  unfold retrain
  repeat' (first
      | with_reducible assumption | with_reducible exact Changes.sub hpl (by decide) | with_reducible apply putPort_frame
      | with_reducible apply setLink_frame | dsimp only | split | with_reducible apply upd_groups)

/-! ## RxRings -/

theorem stageRing_frame {pl : List Part} {z0 : State} {n : Nat} {i : RxInfo} {at_ : Nat} {s : State}
    (hz : Changes pl z0 s) (hpl : ∀ p ∈ ([.levels, .jic, .ctr, .samples, .replies, .hpe] : List Part), p ∈ pl) : Changes pl z0
      (stageRing n i at_ s) := by
  unfold stageRing
  repeat' (first
      | with_reducible assumption | with_reducible exact Changes.sub hpl (by decide) | with_reducible apply ringDrop_frame
      | dsimp only | split | with_reducible apply upd_hpe)

theorem unstage_frame {pl : List Part} {z0 : State} {f : RingFrame} {s : State}
    (hz : Changes pl z0 s) (hpl : ∀ p ∈ ([.hpe] : List Part), p ∈ pl) : Changes pl z0 (unstage f s) := by
  unfold unstage
  repeat' (first
      | with_reducible assumption | with_reducible exact Changes.sub hpl (by decide) | dsimp only | split
      | with_reducible refine upd_hpe'hpe (by with_reducible rfl) ?_ ?_)

theorem writeEntries_frame {pl : List Part} {z0 : State} {n frame : Nat} {c : Cpl} {wake first : Bool} {bytes : List Byte} {ds : List Descriptor} {s : State}
    (hz : Changes pl z0 s) (hpl : ∀ p ∈ ([.hpe, .out] : List Part), p ∈ pl) : Changes pl z0 (writeEntries n frame c wake first
      bytes ds s) := by
  induction ds generalizing n frame c wake first bytes s with
  | nil =>
    unfold writeEntries
    repeat' (first
      | with_reducible assumption)
  | cons _ _ ih =>
    unfold writeEntries
    repeat' (first
        | with_reducible assumption | with_reducible exact Changes.sub hpl (by decide) | with_reducible apply ih
        | with_reducible apply emit_frame | with_reducible apply takeEntry_frame)

theorem giveFrame_frame {pl : List Part} {z0 : State} {n : Nat} {f : RingFrame} {ds : List Descriptor} {s : State}
    (hz : Changes pl z0 s) (hpl : ∀ p ∈ ([.levels, .jic, .ctr, .samples, .hpe, .out] : List Part), p ∈ pl) : Changes pl z0
      (giveFrame n f ds s) := by
  unfold giveFrame
  repeat' (first
      | with_reducible assumption | with_reducible exact Changes.sub hpl (by decide) | with_reducible apply endSample_frame
      | with_reducible apply count_frame | with_reducible apply tally_frame | with_reducible apply writeEntries_frame
      | with_reducible apply unstage_frame | dsimp only | split)

theorem rxRingAllot_frame {pl : List Part} {z0 : State} {n : Nat} {descs : List Descriptor} {s : State}
    (hz : Changes pl z0 s) (hpl : ∀ p ∈ ([.quarantine, .sessions, .sealed, .err, .levels, .jic, .ctr, .samples, .frc,
      .hostQueue, .replies, .hpe, .pounce, .dbg, .hlk, .out, .draws] : List Part), p ∈ pl) : Changes pl z0 (rxRingAllot n descs
      s) := by
  unfold rxRingAllot
  repeat' (first
      | with_reducible assumption | with_reducible exact Changes.sub hpl (by decide)
      | with_reducible refine stallCheck_of (by assumption) ?_ ?_ | with_reducible apply stallCheck_frame
      | with_reducible apply giveFrame_frame | with_reducible apply takeMalformed_frame | with_reducible apply ringDrop_frame
      | with_reducible apply unstage_frame | dsimp only | split)

theorem rxHoldExpiry_frame {pl : List Part} {z0 : State} {n id : Nat} {s : State}
    (hz : Changes pl z0 s) (hpl : ∀ p ∈ ([.levels, .jic, .ctr, .samples, .hpe] : List Part), p ∈ pl) : Changes pl z0
      (rxHoldExpiry n id s) := by
  unfold rxHoldExpiry
  repeat' (first
      | with_reducible assumption | with_reducible exact Changes.sub hpl (by decide) | with_reducible apply ringDrop_frame
      | with_reducible apply unstage_frame | dsimp only | split)

theorem dataWritten_frame {pl : List Part} {z0 : State} {key : Nat} {ok : Bool} {s : State}
    (hz : Changes pl z0 s) (hpl : ∀ p ∈ ([.quarantine, .sessions, .sealed, .err, .levels, .jic, .ctr, .samples, .frc,
      .hostQueue, .replies, .hpe, .pounce, .dbg, .hlk, .out] : List Part), p ∈ pl) : Changes pl z0 (dataWritten key ok s) := by
  unfold dataWritten
  repeat' (first
      | with_reducible assumption | with_reducible exact Changes.sub hpl (by decide) | with_reducible apply flushRing_frame
      | with_reducible apply putRing_frame | dsimp only | split)

/-! ## Receive -/

theorem countErrs_frame {pl : List Part} {z0 : State} {port flags : Nat} {runt : Bool} {s : State}
    (hz : Changes pl z0 s) (hpl : ∀ p ∈ ([.ctr] : List Part), p ∈ pl) : Changes pl z0 (countErrs port flags runt s) := by
  unfold countErrs
  repeat' (first
      | with_reducible assumption | with_reducible exact Changes.sub hpl (by decide) | with_reducible apply tally_frame
      | dsimp only | split)

theorem dropErrored_frame {pl : List Part} {z0 : State} {port flags : Nat} {runt : Bool} {sample : Option Fields} {s : State}
    (hz : Changes pl z0 s) (hpl : ∀ p ∈ ([.levels, .jic, .ctr, .samples] : List Part), p ∈ pl) : Changes pl z0 (dropErrored
      port flags runt sample s) := by
  unfold dropErrored
  repeat' (first
      | with_reducible assumption | with_reducible exact Changes.sub hpl (by decide) | with_reducible apply endSample_frame
      | with_reducible apply tally_frame | with_reducible apply countErrs_frame)

theorem queueNet_frame {pl : List Part} {z0 : State} {i : RxInfo} {o : Origin} {s : State}
    (hz : Changes pl z0 s) (hpl : ∀ p ∈ ([.checks, .levels, .jic, .ctr, .samples, .frc] : List Part), p ∈ pl) : Changes pl z0
      (queueNet i o s) := by
  unfold queueNet
  repeat' (first
      | with_reducible assumption | with_reducible exact Changes.sub hpl (by decide) | with_reducible apply endSample_frame
      | with_reducible apply tally_frame | with_reducible apply record_frame | dsimp only | split
      | with_reducible refine upd_cpx'checks (by with_reducible rfl) (by with_reducible rfl) (by with_reducible rfl) ?_ ?_)

theorem deliverCore_frame {pl : List Part} {z0 : State} {i : RxInfo} {id : Option Nat} {s : State}
    (hz : Changes pl z0 s) (hpl : ∀ p ∈ ([.rx] : List Part), p ∈ pl) : Changes pl z0 (deliverCore i id s) := by
  unfold deliverCore
  repeat' (first
      | with_reducible assumption | with_reducible exact Changes.sub hpl (by decide) | with_reducible apply joinBus_frame
      | with_reducible apply putRx_frame | dsimp only | split)

theorem deliver_frame {pl : List Part} {z0 : State} {i : RxInfo} {id : Option Nat} {s : State}
    (hz : Changes pl z0 s) (hpl : ∀ p ∈ ([.checks, .levels, .jic, .ctr, .samples, .frc, .replies, .hpe, .hlk, .rx, .pols] :
      List Part), p ∈ pl) : Changes pl z0 (deliver i id s) := by
  unfold deliver
  repeat' (first
      | with_reducible assumption | with_reducible exact Changes.sub hpl (by decide) | with_reducible apply deliverCore_frame
      | with_reducible apply stageRing_frame | with_reducible apply record_frame | with_reducible apply queueNet_frame
      | with_reducible apply endSample_frame | with_reducible apply count_frame | with_reducible apply tally_frame
      | with_reducible apply polTakes_frame | dsimp only | split | with_reducible apply upd_hlk)

theorem policeInfo_frame {pl : List Part} {z0 : State} {i : RxInfo} {s : State}
    (hz : Changes pl z0 s) (hpl : ∀ p ∈ ([.ctr, .pols] : List Part), p ∈ pl) : Changes pl z0 (policeInfo i s).2 := by
  unfold policeInfo
  repeat' (first
      | with_reducible assumption | with_reducible exact Changes.sub hpl (by decide) | with_reducible apply polDrops_frame
      | with_reducible refine police_of (by assumption) ?_ ?_ | with_reducible apply police_frame | dsimp only | split)

theorem policeInfo_of {pl : List Part} {z0 : State} {i : RxInfo} {s : State} {y : Bool} {t : State} (he : policeInfo i s = (y, t))
    (hz : Changes pl z0 s) (hpl : ∀ p ∈ ([.ctr, .pols] : List Part), p ∈ pl) : Changes pl z0 t := by
  have := policeInfo_frame (z0 := z0) (i := i) (s := s) hz hpl; rw [he] at this; exact this

theorem passOn_frame {pl : List Part} {z0 : State} {i : RxInfo} {id : Nat} {s : State}
    (hz : Changes pl z0 s) (hpl : ∀ p ∈ ([.checks, .levels, .jic, .ctr, .samples, .frc, .replies, .hpe, .hlk, .rx, .pols] :
      List Part), p ∈ pl) : Changes pl z0 (passOn i id s) := by
  unfold passOn
  repeat' (first
      | with_reducible assumption | with_reducible exact Changes.sub hpl (by decide)
      | with_reducible refine policeInfo_of (by assumption) ?_ ?_ | with_reducible apply policeInfo_frame
      | with_reducible apply deliver_frame | with_reducible apply endSample_frame | dsimp only | split)

theorem keepBuffers_frame {pl : List Part} {z0 : State} {pg id : Nat} {l : List (Nat × Nat)} {s : State}
    (hz : Changes pl z0 s) (hpl : ∀ p ∈ ([.rx] : List Part), p ∈ pl) : Changes pl z0 (keepBuffers pg id l s) := by
  unfold keepBuffers
  repeat' (first
      | with_reducible assumption | with_reducible exact Changes.sub hpl (by decide) | with_reducible apply putRx_frame
      | with_reducible apply freeBuffers_frame | dsimp only | split)

theorem finishHeld_frame {pl : List Part} {z0 : State} {pg id : Nat} {h : HeldFrame} {s : State}
    (hz : Changes pl z0 s) (hpl : ∀ p ∈ ([.checks, .levels, .jic, .ctr, .samples, .frc, .replies, .hpe, .hlk, .rx, .sas,
      .pols, .out] : List Part), p ∈ pl) : Changes pl z0 (finishHeld pg id h s) := by
  unfold finishHeld
  repeat' (first
      | with_reducible assumption | with_reducible exact Changes.sub hpl (by decide) | with_reducible apply passOn_frame
      | with_reducible apply removeHeld_frame | with_reducible apply keepBuffers_frame | with_reducible apply emits_frame
      | with_reducible apply unbindHeld_frame | dsimp only | split)

theorem releaseFollowers_frame {pl : List Part} {z0 : State} {fuel pg port : Nat} {s : State}
    (hz : Changes pl z0 s) (hpl : ∀ p ∈ ([.checks, .levels, .jic, .ctr, .samples, .frc, .replies, .hpe, .hlk, .rx, .sas,
      .pols, .out] : List Part), p ∈ pl) : Changes pl z0 (releaseFollowers fuel pg port s) := by
  induction fuel generalizing pg port s with
  | zero =>
    unfold releaseFollowers
    repeat' (first
      | with_reducible assumption)
  | succ _ ih =>
    unfold releaseFollowers
    repeat' (first
        | with_reducible assumption | with_reducible exact Changes.sub hpl (by decide) | with_reducible apply ih
        | with_reducible apply finishHeld_frame | dsimp only | split)

theorem heldRelease_frame {pl : List Part} {z0 : State} {port : Nat} {s : State}
    (hz : Changes pl z0 s) (hpl : ∀ p ∈ ([.checks, .levels, .jic, .ctr, .samples, .frc, .replies, .hpe, .hlk, .rx, .sas,
      .pols, .out] : List Part), p ∈ pl) : Changes pl z0 (heldRelease port s) := by
  unfold heldRelease
  repeat' (first
      | with_reducible assumption | with_reducible exact Changes.sub hpl (by decide)
      | with_reducible apply releaseFollowers_frame | with_reducible apply finishHeld_frame | dsimp only | split)

theorem cutHeld_frame {pl : List Part} {z0 : State} {pg t : Nat} {e : Nat × HeldFrame} {s : State}
    (hz : Changes pl z0 s) (hpl : ∀ p ∈ ([.checks, .levels, .jic, .ctr, .samples, .frc, .replies, .hpe, .hlk, .rx, .sas,
      .pols, .out] : List Part), p ∈ pl) : Changes pl z0 (cutHeld pg t e s) := by
  unfold cutHeld
  repeat' (first
      | with_reducible assumption | with_reducible exact Changes.sub hpl (by decide) | with_reducible apply finishHeld_frame
      | with_reducible apply tally_frame | with_reducible apply dropHeld_frame | dsimp only | split)

theorem cutHolds_frame {pl : List Part} {z0 : State} {pg t : Nat} {s : State}
    (hz : Changes pl z0 s) (hpl : ∀ p ∈ ([.checks, .levels, .jic, .ctr, .samples, .frc, .replies, .hpe, .hlk, .rx, .sas,
      .pols, .out] : List Part), p ∈ pl) : Changes pl z0 (cutHolds pg t s) := by
  unfold cutHolds
  repeat' (first
      | with_reducible assumption | with_reducible exact Changes.sub hpl (by decide) | with_reducible apply cutHeld_frame
      | (with_reducible apply Changes.foldl_frame; rotate_left; intro _ _ _))

theorem cutReception_frame {pl : List Part} {z0 : State} {pg : Nat} {s : State}
    (hz : Changes pl z0 s) (hpl : ∀ p ∈ ([.checks, .levels, .jic, .ctr, .samples, .frc, .replies, .hpe, .hlk, .rx, .sas,
      .pols, .out] : List Part), p ∈ pl) : Changes pl z0 (cutReception pg s) := by
  unfold cutReception
  repeat' (first
      | with_reducible assumption | with_reducible exact Changes.sub hpl (by decide) | with_reducible apply cutHolds_frame
      | with_reducible apply cutBuses_frame)

theorem holdFrame_frame {pl : List Part} {z0 : State} {i : RxInfo} {icvOk crypted : Bool} {sa : Option Nat} {pn secure : Nat} {s : State}
    (hz : Changes pl z0 s) (hpl : ∀ p ∈ ([.levels, .jic, .ctr, .samples, .frc, .rx, .sas] : List Part), p ∈ pl) : Changes pl
      z0 (holdFrame i icvOk crypted sa pn secure s) := by
  unfold holdFrame
  repeat' (first
      | with_reducible assumption | with_reducible exact Changes.sub hpl (by decide) | with_reducible apply endSample_frame
      | with_reducible apply tally_frame | with_reducible apply putSa_frame | with_reducible apply putRx_frame | dsimp only
      | split)

theorem passOrFollow_frame {pl : List Part} {z0 : State} {i : RxInfo} {s : State}
    (hz : Changes pl z0 s) (hpl : ∀ p ∈ ([.checks, .levels, .jic, .ctr, .samples, .frc, .replies, .hpe, .hlk, .rx, .pols] :
      List Part), p ∈ pl) : Changes pl z0 (passOrFollow i s) := by
  unfold passOrFollow
  repeat' (first
      | with_reducible assumption | with_reducible exact Changes.sub hpl (by decide) | with_reducible apply putRx_frame
      | with_reducible apply deliver_frame | dsimp only | split)

theorem bpiError_frame {pl : List Part} {z0 : State} {pg code cls d : Nat} {s : State}
    (hz : Changes pl z0 s) (hpl : ∀ p ∈ ([.quarantine, .sessions, .sealed, .err, .frc, .pounce, .dbg] : List Part), p ∈ pl) :
      Changes pl z0 (bpiError pg code cls d s) := by
  unfold bpiError
  repeat' (first
      | with_reducible assumption | with_reducible exact Changes.sub hpl (by decide) | with_reducible apply errorAt_frame)

theorem bpiFallback_frame {pl : List Part} {z0 : State} {pg : Nat} {q : BpiReq} {s : State}
    (hz : Changes pl z0 s) (hpl : ∀ p ∈ ([.levels, .jic, .ctr, .samples, .frc, .rx, .sas, .out] : List Part), p ∈ pl) :
      Changes pl z0 (bpiFallback pg q s) := by
  unfold bpiFallback
  repeat' (first
      | with_reducible assumption | with_reducible exact Changes.sub hpl (by decide) | with_reducible apply pumpBpi_frame
      | with_reducible apply tally_frame | with_reducible apply mapHeld_frame | with_reducible apply exhaustHeld_frame
      | dsimp only | split)

theorem bpiTake_frame {pl : List Part} {z0 : State} {pg : Nat} {q : BpiReq} {handle : Nat} {s : State}
    (hz : Changes pl z0 s) (hpl : ∀ p ∈ ([.rx, .out] : List Part), p ∈ pl) : Changes pl z0 (bpiTake pg q handle s) := by
  unfold bpiTake
  repeat' (first
      | with_reducible assumption | with_reducible exact Changes.sub hpl (by decide) | with_reducible apply pumpBpi_frame
      | with_reducible apply emit_frame | with_reducible apply mapHeld_frame | dsimp only | split)

theorem bpiBad_frame {pl : List Part} {z0 : State} {pg : Nat} {q : BpiReq} {handle : Nat} {s : State}
    (hz : Changes pl z0 s) (hpl : ∀ p ∈ ([.quarantine, .sessions, .sealed, .err, .ctr, .frc, .pounce, .dbg] : List Part),
      p ∈ pl) : Changes pl z0 (bpiBad pg q handle s) := by
  unfold bpiBad
  repeat' (first
      | with_reducible assumption | with_reducible exact Changes.sub hpl (by decide) | with_reducible apply bpiError_frame
      | with_reducible apply tally_frame)

theorem bpiResponse_frame {pl : List Part} {z0 : State} {pg : Nat} {isEmpty : Bool} {handle : Nat} {s : State}
    (hz : Changes pl z0 s) (hpl : ∀ p ∈ ([.quarantine, .sessions, .sealed, .err, .levels, .jic, .ctr, .samples, .frc, .pounce,
      .dbg, .rx, .sas, .out, .draws] : List Part), p ∈ pl) : Changes pl z0 (bpiResponse pg isEmpty handle s) := by
  unfold bpiResponse
  repeat' (first
      | with_reducible assumption | with_reducible exact Changes.sub hpl (by decide) | with_reducible apply putRx_frame
      | with_reducible apply emit_frame | with_reducible apply bpiBad_frame
      | with_reducible refine pounceFires_of (by assumption) ?_ ?_ | with_reducible apply pounceFires_frame
      | with_reducible apply bpiFallback_frame | with_reducible apply bpiTake_frame | with_reducible apply bpiError_frame
      | dsimp only | split)

theorem bpiTimeout_frame {pl : List Part} {z0 : State} {pg : Nat} {s : State}
    (hz : Changes pl z0 s) (hpl : ∀ p ∈ ([.quarantine, .sessions, .sealed, .err, .levels, .jic, .ctr, .samples, .frc, .pounce,
      .dbg, .rx, .sas, .out] : List Part), p ∈ pl) : Changes pl z0 (bpiTimeout pg s) := by
  unfold bpiTimeout
  repeat' (first
      | with_reducible assumption | with_reducible exact Changes.sub hpl (by decide) | with_reducible apply bpiFallback_frame
      | with_reducible apply bpiError_frame | with_reducible apply tally_frame | with_reducible apply putRx_frame | dsimp only
      | split)

theorem bpiReadTimeout_frame {pl : List Part} {z0 : State} {port : Nat} {s : State}
    (hz : Changes pl z0 s) (hpl : ∀ p ∈ ([.quarantine, .sessions, .sealed, .err, .levels, .jic, .ctr, .samples, .frc, .pounce,
      .dbg, .rx, .sas] : List Part), p ∈ pl) : Changes pl z0 (bpiReadTimeout port s) := by
  unfold bpiReadTimeout
  repeat' (first
      | with_reducible assumption | with_reducible exact Changes.sub hpl (by decide) | with_reducible apply exhaustHeld_frame
      | with_reducible apply bpiError_frame | dsimp only | split)

theorem pauseEvent_frame {pl : List Part} {z0 : State} {p m : Nat} {obey : BitVec 8} {quanta : Nat → Nat} {s : State}
    (hz : Changes pl z0 s) (hpl : ∀ p ∈ ([.ports] : List Part), p ∈ pl) : Changes pl z0 (pauseEvent p m obey quanta s) := by
  unfold pauseEvent
  repeat' (first
      | with_reducible assumption | with_reducible exact Changes.sub hpl (by decide) | with_reducible apply putPort_frame
      | (with_reducible apply Changes.foldl_frame; rotate_left; intro _ _ _) | dsimp only | split)

theorem macControl_frame {pl : List Part} {z0 : State} {p : Nat} {f : List Byte} {s : State}
    (hz : Changes pl z0 s) (hpl : ∀ p ∈ ([.ctr, .ports] : List Part), p ∈ pl) : Changes pl z0 (macControl p f s) := by
  unfold macControl
  repeat' (first
      | with_reducible assumption | with_reducible exact Changes.sub hpl (by decide) | with_reducible apply pauseEvent_frame
      | with_reducible apply tally_frame | dsimp only | split)

theorem stepLfsr_frame {pl : List Part} {z0 : State} {port : Nat} {s : State}
    (hz : Changes pl z0 s) (hpl : ∀ p ∈ ([.tel] : List Part), p ∈ pl) : Changes pl z0 (stepLfsr port s).2 := by
  unfold stepLfsr
  repeat' (first
      | with_reducible assumption | with_reducible exact Changes.sub hpl (by decide) | dsimp only | split
      | with_reducible refine upd_tel'tel (by with_reducible rfl) (by with_reducible rfl) (by with_reducible rfl) ?_ ?_)

theorem stepLfsr_of {pl : List Part} {z0 : State} {port : Nat} {s : State} {y : Bool} {t : State} (he : stepLfsr port s = (y, t))
    (hz : Changes pl z0 s) (hpl : ∀ p ∈ ([.tel] : List Part), p ∈ pl) : Changes pl z0 t := by
  have := stepLfsr_frame (z0 := z0) (port := port) (s := s) hz hpl; rw [he] at this; exact this

theorem rxDecide_frame {pl : List Part} {z0 : State} {f : RxFrame} {rx : List Byte} {p : Parse} {dest : Dest} {cls : Option (Nat × ClassEntry)} {flags errAt stamp : Nat} {cut no : Bool} {sample : Option Fields} {s : State}
    (hz : Changes pl z0 s) (hpl : ∀ p ∈ ([.checks, .err, .levels, .jic, .ctr, .samples, .frc, .replies, .hpe, .pounce, .dbg,
      .hlk, .rx, .sas, .pols] : List Part), p ∈ pl) : Changes pl z0 (rxDecide f rx p dest cls flags errAt stamp cut no sample s)
      := by
  unfold rxDecide
  repeat' (first
      | with_reducible assumption | with_reducible exact Changes.sub hpl (by decide) | with_reducible apply refuseFrame_frame
      | with_reducible apply tally_frame | with_reducible apply countErrs_frame | with_reducible apply dropErrored_frame
      | with_reducible apply holdFrame_frame | with_reducible refine policeInfo_of (by assumption) ?_ ?_
      | with_reducible apply policeInfo_frame | with_reducible apply endSample_frame | with_reducible apply passOrFollow_frame
      | dsimp only | split)

theorem rxAccept_frame {pl : List Part} {z0 : State} {f : RxFrame} {s0 : State}
    (hz : Changes pl z0 s0) (hpl : ∀ p ∈ ([.checks, .err, .levels, .jic, .ctr, .samples, .tel, .frc, .ports, .replies, .hpe,
      .pounce, .dbg, .hlk, .rx, .sas, .pols] : List Part), p ∈ pl) : Changes pl z0 (rxAccept f s0) := by
  unfold rxAccept
  repeat' (first
      | with_reducible assumption | with_reducible exact Changes.sub hpl (by decide)
      | with_reducible refine stepLfsr_of (by assumption) ?_ ?_ | with_reducible apply stepLfsr_frame
      | with_reducible apply tally_frame | with_reducible apply endSample_frame | with_reducible apply dropErrored_frame
      | with_reducible apply macControl_frame | with_reducible apply rxDecide_frame | dsimp only | split)

theorem rxPreamble_frame {pl : List Part} {z0 : State} {port : Nat} {s : State}
    (hz : Changes pl z0 s) (hpl : ∀ p ∈ ([.ctr] : List Part), p ∈ pl) : Changes pl z0 (rxPreamble port s) := by
  unfold rxPreamble
  repeat' (first
      | with_reducible assumption | with_reducible exact Changes.sub hpl (by decide) | with_reducible apply tally_frame
      | dsimp only | split)

theorem countCodeword_frame {pl : List Part} {z0 : State} {p : Nat} {s : State} {c : Option Nat}
    (hz : Changes pl z0 s) (hpl : ∀ p ∈ ([.ctr] : List Part), p ∈ pl) : Changes pl z0 (countCodeword p s c) := by
  unfold countCodeword
  repeat' (first
      | with_reducible assumption | with_reducible exact Changes.sub hpl (by decide) | with_reducible apply tally_frame
      | with_reducible apply count_frame | dsimp only | split)

theorem decoded_frame {pl : List Part} {z0 : State} {p : Nat} {cw : List (Option Nat)} {s : State}
    (hz : Changes pl z0 s) (hpl : ∀ p ∈ ([.quarantine, .sessions, .sealed, .err, .levels, .jic, .ctr, .samples, .frc, .groups,
      .ports, .hostQueue, .esh, .replies, .hpe, .pounce, .dbg, .hlk, .sas, .out] : List Part), p ∈ pl) : Changes pl z0 (decoded
      p cw s) := by
  unfold decoded
  repeat' (first
      | with_reducible assumption | with_reducible exact Changes.sub hpl (by decide) | with_reducible apply countCodeword_frame
      | with_reducible apply beginFault_frame | with_reducible apply putPort_frame
      | (with_reducible apply Changes.foldl_frame; rotate_left; intro _ _ _) | dsimp only | split)

theorem hitCodewords_frame {pl : List Part} {z0 : State} {p t : Nat} {l : List (Option Nat)} {s : State}
    (hz : Changes pl z0 s) (hpl : ∀ p ∈ ([.draws] : List Part), p ∈ pl) : Changes pl z0 (hitCodewords p t l s).2 := by
  induction l generalizing p t s with
  | nil =>
    unfold hitCodewords
    repeat' (first
      | with_reducible assumption)
  | cons _ _ ih =>
    unfold hitCodewords
    repeat' (first
        | with_reducible assumption | with_reducible exact Changes.sub hpl (by decide) | with_reducible apply ih
        | with_reducible refine pounceFires_of (by assumption) ?_ ?_ | with_reducible apply pounceFires_frame)

theorem hitCodewords_of {pl : List Part} {z0 : State} {p t : Nat} {l : List (Option Nat)} {s : State} {y : List (Option Nat)} {u : State} (he : hitCodewords p t l s = (y, u))
    (hz : Changes pl z0 s) (hpl : ∀ p ∈ ([.draws] : List Part), p ∈ pl) : Changes pl z0 u := by
  have := hitCodewords_frame (z0 := z0) (p := p) (t := t) (l := l) (s := s) hz hpl; rw [he] at this; exact this

theorem received_frame {pl : List Part} {z0 : State} {f : RxFrame} {s : State}
    (hz : Changes pl z0 s) (hpl : ∀ p ∈ ([.draws] : List Part), p ∈ pl) : Changes pl z0 (received f s).2 := by
  unfold received
  repeat' (first
      | with_reducible assumption | with_reducible exact Changes.sub hpl (by decide)
      | with_reducible refine hitCodewords_of (by assumption) ?_ ?_ | with_reducible apply hitCodewords_frame | dsimp only
      | split)

theorem received_of {pl : List Part} {z0 : State} {f : RxFrame} {s : State} {y : RxFrame} {t : State} (he : received f s = (y, t))
    (hz : Changes pl z0 s) (hpl : ∀ p ∈ ([.draws] : List Part), p ∈ pl) : Changes pl z0 t := by
  have := received_frame (z0 := z0) (f := f) (s := s) hz hpl; rw [he] at this; exact this

theorem pcsCounts_frame {pl : List Part} {z0 : State} {f : RxFrame} {s : State}
    (hz : Changes pl z0 s) (hpl : ∀ p ∈ ([.quarantine, .sessions, .sealed, .err, .levels, .jic, .ctr, .samples, .frc, .groups,
      .lanes, .ports, .hostQueue, .esh, .replies, .hpe, .pounce, .dbg, .hlk, .sas, .out] : List Part), p ∈ pl) : Changes pl z0
      (pcsCounts f s) := by
  unfold pcsCounts
  repeat' (first
      | with_reducible assumption | with_reducible exact Changes.sub hpl (by decide) | with_reducible apply count_frame
      | with_reducible apply decoded_frame | with_reducible apply storeSkews_frame
      | (with_reducible apply Changes.foldl_frame; rotate_left; intro _ _ _) | dsimp only | split)

theorem frameCodewords_frame {pl : List Part} {z0 : State} {f : RxFrame} {s : State}
    (hz : Changes pl z0 s) (hpl : ∀ p ∈ ([.quarantine, .sessions, .sealed, .err, .levels, .jic, .ctr, .samples, .frc, .groups,
      .ports, .hostQueue, .esh, .replies, .hpe, .pounce, .dbg, .hlk, .sas, .out] : List Part), p ∈ pl) : Changes pl z0
      (frameCodewords f s) := by
  unfold frameCodewords
  repeat' (first
      | with_reducible assumption | with_reducible exact Changes.sub hpl (by decide) | with_reducible apply decoded_frame
      | dsimp only | split)

theorem fromLoop_some {pl : List Part} {z0 : State} {f : RxFrame} {s : State} {t : State} (he : fromLoop f s = some t)
    (hz : Changes pl z0 s) (hpl : ∀ p ∈ ([.ports] : List Part), p ∈ pl) : Changes pl z0 t := by
  unfold fromLoop at he
  dsimp only at he
  repeat' split at he
  all_goals first
    | contradiction
    | (injection he with he; subst he; repeat' (first
     | with_reducible assumption | with_reducible exact Changes.sub hpl (by decide) | with_reducible apply putPort_frame))

theorem rxStart_frame {pl : List Part} {z0 : State} {f : RxFrame} {s : State}
    (hz : Changes pl z0 s) (hpl : ∀ p ∈ ([.checks, .err, .levels, .jic, .ctr, .samples, .tel, .frc, .ports, .replies, .hpe,
      .pounce, .dbg, .hlk, .rx, .sas, .pols] : List Part), p ∈ pl) : Changes pl z0 (rxStart f s) := by
  unfold rxStart
  repeat' (first
      | with_reducible assumption | with_reducible exact Changes.sub hpl (by decide) | with_reducible apply rxPreamble_frame
      | with_reducible apply putPort_frame | with_reducible apply verifyOutcome_frame | with_reducible apply rxAccept_frame
      | dsimp only | split)

theorem rxFrame_frame {pl : List Part} {z0 : State} {f0 : RxFrame} {s0 : State}
    (hz : Changes pl z0 s0) (hpl : ∀ p ∈ ([.quarantine, .sessions, .checks, .sealed, .err, .levels, .jic, .ctr, .samples,
      .tel, .frc, .groups, .lanes, .ports, .hostQueue, .esh, .replies, .hpe, .pounce, .dbg, .hlk, .rx, .sas, .pols, .out,
      .draws] : List Part), p ∈ pl) : Changes pl z0 (rxFrame f0 s0) := by
  unfold rxFrame
  repeat' (first
      | with_reducible assumption | with_reducible exact Changes.sub hpl (by decide)
      | with_reducible refine received_of (by assumption) ?_ ?_ | with_reducible apply received_frame
      | with_reducible apply pcsCounts_frame | with_reducible refine fromLoop_some (by assumption) ?_ ?_
      | with_reducible apply frameCodewords_frame | with_reducible apply rxStart_frame | dsimp only | split)

theorem cliDone_frame {pl : List Part} {z0 : State} {w : CliWait} {version : Nat} {s : State}
    (hz : Changes pl z0 s) (hpl : ∀ p ∈ ([.levels, .jic, .ctr, .samples, .frc, .rx] : List Part), p ∈ pl) : Changes pl z0
      (cliDone w version s) := by
  unfold cliDone
  repeat' (first
      | with_reducible assumption | with_reducible exact Changes.sub hpl (by decide) | with_reducible apply record_frame
      | with_reducible apply endSample_frame | dsimp only | split | with_reducible apply upd_rx)

theorem cliRv_frame {pl : List Part} {z0 : State} {channel pg tag version : Nat} {s : State}
    (hz : Changes pl z0 s) (hpl : ∀ p ∈ ([.levels, .jic, .ctr, .samples, .frc, .rx] : List Part), p ∈ pl) : Changes pl z0
      (cliRv channel pg tag version s) := by
  unfold cliRv
  repeat' (first
      | with_reducible assumption | with_reducible exact Changes.sub hpl (by decide) | with_reducible apply tallyIn_frame
      | with_reducible apply cliDone_frame | dsimp only | split)

theorem cliTimeout_frame {pl : List Part} {z0 : State} {pg tag : Nat} {s : State}
    (hz : Changes pl z0 s) (hpl : ∀ p ∈ ([.levels, .jic, .ctr, .samples, .frc, .rx] : List Part), p ∈ pl) : Changes pl z0
      (cliTimeout pg tag s) := by
  unfold cliTimeout
  repeat' (first
      | with_reducible assumption | with_reducible exact Changes.sub hpl (by decide) | with_reducible apply tallyIn_frame
      | with_reducible apply cliDone_frame | dsimp only | split)

/-! ## Gates -/

theorem putGate_frame {pl : List Part} {z0 : State} {p : Nat} {g : GateSt} {s : State}
    (hz : Changes pl z0 s) (hpl : ∀ p ∈ ([.gates] : List Part), p ∈ pl) : Changes pl z0 (putGate p g s) := by
  unfold putGate
  repeat' (first
      | with_reducible assumption | with_reducible exact Changes.sub hpl (by decide) | dsimp only | split
      | with_reducible apply upd_gates)

theorem countCut_frame {pl : List Part} {z0 : State} {p : Nat} {l : Option GateList} {s : State}
    (hz : Changes pl z0 s) (hpl : ∀ p ∈ ([.ctr] : List Part), p ∈ pl) : Changes pl z0 (countCut p l s) := by
  unfold countCut
  repeat' (first
      | with_reducible assumption | with_reducible exact Changes.sub hpl (by decide) | with_reducible apply tallyAt_frame
      | dsimp only | split)

theorem gateCycleStart_frame {pl : List Part} {z0 : State} {p : Nat} {s : State}
    (hz : Changes pl z0 s) (hpl : ∀ p ∈ ([.ctr, .gates] : List Part), p ∈ pl) : Changes pl z0 (gateCycleStart p s) := by
  unfold gateCycleStart
  repeat' (first
      | with_reducible assumption | with_reducible exact Changes.sub hpl (by decide) | with_reducible apply tallyAt_frame
      | with_reducible apply countCut_frame | with_reducible apply putGate_frame | dsimp only | split)

theorem stepGate_frame {pl : List Part} {z0 : State} {p : Nat} {g : GateSt} {s : State}
    (hz : Changes pl z0 s) (hpl : ∀ p ∈ ([.ctr, .gates] : List Part), p ∈ pl) : Changes pl z0 (stepGate p g s) := by
  unfold stepGate
  repeat' (first
      | with_reducible assumption | with_reducible exact Changes.sub hpl (by decide) | with_reducible apply tallyAt_frame
      | with_reducible apply putGate_frame | dsimp only | split)

theorem stepGates_frame {pl : List Part} {z0 : State} {s : State}
    (hz : Changes pl z0 s) (hpl : ∀ p ∈ ([.ctr, .gates] : List Part), p ∈ pl) : Changes pl z0 (stepGates s) := by
  unfold stepGates
  repeat' (first
      | with_reducible assumption | with_reducible exact Changes.sub hpl (by decide) | with_reducible apply stepGate_frame
      | (with_reducible apply Changes.foldl_frame; rotate_left; intro _ _ _))

theorem gateEntryChange_frame {pl : List Part} {z0 : State} {p : Nat} {s : State}
    (hz : Changes pl z0 s) (hpl : ∀ p ∈ ([.ctr, .ports] : List Part), p ∈ pl) : Changes pl z0 (gateEntryChange p s) := by
  unfold gateEntryChange
  repeat' (first
      | with_reducible assumption | with_reducible exact Changes.sub hpl (by decide) | with_reducible apply countHolds_frame
      | dsimp only | split)

theorem installGate_frame {pl : List Part} {z0 : State} {p : Nat} {l : GateList} {s : State}
    (hz : Changes pl z0 s) (hpl : ∀ p ∈ ([.gates] : List Part), p ∈ pl) : Changes pl z0 (installGate p l s) := by
  unfold installGate
  repeat' (first
      | with_reducible assumption | with_reducible exact Changes.sub hpl (by decide) | with_reducible apply putGate_frame
      | dsimp only | split)

theorem retell_frame {pl : List Part} {z0 : State} {p : Nat} {was : BitVec 8} {s : State}
    (hz : Changes pl z0 s) (hpl : ∀ p ∈ ([.ports] : List Part), p ∈ pl) : Changes pl z0 (retell p was s) := by
  unfold retell
  repeat' (first
      | with_reducible assumption | with_reducible exact Changes.sub hpl (by decide) | with_reducible apply putPort_frame
      | dsimp only | split)

theorem pauseRequest_frame {pl : List Part} {z0 : State} {pg : Nat} {w : PauseReq} {s : State}
    (hz : Changes pl z0 s) (hpl : ∀ p ∈ ([.quarantine, .sessions, .sealed, .err, .ctr, .frc, .ports, .pounce, .dbg] : List
      Part), p ∈ pl) : Changes pl z0 (pauseRequest pg w s) := by
  unfold pauseRequest
  repeat' (first
      | with_reducible assumption | with_reducible exact Changes.sub hpl (by decide) | with_reducible apply cpiError_frame
      | with_reducible apply tally_frame | with_reducible apply retell_frame | with_reducible apply putPort_frame | dsimp only
      | split)

theorem pauseRefresh_frame {pl : List Part} {z0 : State} {p : Nat} {s : State}
    (hz : Changes pl z0 s) (hpl : ∀ p ∈ ([.ports] : List Part), p ∈ pl) : Changes pl z0 (pauseRefresh p s) := by
  unfold pauseRefresh
  repeat' (first
      | with_reducible assumption | with_reducible exact Changes.sub hpl (by decide) | with_reducible apply putPort_frame
      | dsimp only | split)

theorem pauseExpiry_frame {pl : List Part} {z0 : State} {p prio : Nat} {s : State}
    (hz : Changes pl z0 s) (hpl : ∀ p ∈ ([.ports] : List Part), p ∈ pl) : Changes pl z0 (pauseExpiry p prio s) := by
  unfold pauseExpiry
  repeat' (first
      | with_reducible assumption | with_reducible exact Changes.sub hpl (by decide) | with_reducible apply putPort_frame)

theorem pauseSend_frame {pl : List Part} {z0 : State} {b : PauseSendBody} {s : State}
    (hz : Changes pl z0 s) (hpl : ∀ p ∈ ([.ports] : List Part), p ∈ pl) : Changes pl z0 (pauseSend b s) := by
  unfold pauseSend
  repeat' (first
      | with_reducible assumption | with_reducible exact Changes.sub hpl (by decide) | with_reducible apply putPort_frame)

end Sys2Proof.Safety
end

