-- ==== Sys2Proof/Laws/FrameServices.lean ====
section
/-! SUPPORT. What each operation of time, interrupts, telemetry, side memory and the recorder changes at most. -/
namespace Sys2Proof.Safety
open Sys2Proof.Machine

/-! ## Time -/

theorem setSync_frame {pl : List Part} {z0 : State} {x : Sync} {s : State}
    (hz : Changes pl z0 s) (hpl : ∀ p ∈ ([.tsu, .levels, .jic] : List Part), p ∈ pl) : Changes pl z0 (setSync x s) := by
  unfold setSync
  repeat' (first
      | with_reducible assumption | with_reducible exact Changes.sub hpl (by decide) | with_reducible apply raiseEvent_frame
      | dsimp only | split | with_reducible apply upd_tsu)

theorem enterHoldover_frame {pl : List Part} {z0 : State} {s : State}
    (hz : Changes pl z0 s) (hpl : ∀ p ∈ ([.tsu, .levels, .jic] : List Part), p ∈ pl) : Changes pl z0 (enterHoldover s) := by
  unfold enterHoldover
  repeat' (first
      | with_reducible assumption | with_reducible exact Changes.sub hpl (by decide) | with_reducible apply setSync_frame
      | dsimp only | split)

theorem steered_frame {pl : List Part} {z0 : State} {s : State}
    (hz : Changes pl z0 s) (hpl : ∀ p ∈ ([.tsu, .levels, .jic] : List Part), p ∈ pl) : Changes pl z0 (steered s) := by
  unfold steered
  repeat' (first
      | with_reducible assumption | with_reducible exact Changes.sub hpl (by decide) | with_reducible apply setSync_frame
      | dsimp only | split)

theorem firstSet_frame {pl : List Part} {z0 : State} {s : State}
    (hz : Changes pl z0 s) (hpl : ∀ p ∈ ([.tsu, .levels, .jic] : List Part), p ∈ pl) : Changes pl z0 (firstSet s) := by
  unfold firstSet
  repeat' (first
      | with_reducible assumption | with_reducible exact Changes.sub hpl (by decide) | with_reducible apply setSync_frame
      | dsimp only | split)

theorem endSlew_frame {pl : List Part} {z0 : State} {cut : Bool} {s : State}
    (hz : Changes pl z0 s) (hpl : ∀ p ∈ ([.tsu, .levels, .jic, .ctr] : List Part), p ∈ pl) : Changes pl z0 (endSlew cut s) := by
  unfold endSlew
  repeat' (first
      | with_reducible assumption | with_reducible exact Changes.sub hpl (by decide) | with_reducible apply tally_frame
      | with_reducible apply raiseEvent_frame | dsimp only | split | with_reducible apply upd_tsu)

theorem stepTo_frame {pl : List Part} {z0 : State} {t : Nat} {keepSync : Bool} {s : State}
    (hz : Changes pl z0 s) (hpl : ∀ p ∈ ([.tsu, .levels, .jic, .ctr, .frc, .gates] : List Part), p ∈ pl) : Changes pl z0
      (stepTo t keepSync s) := by
  unfold stepTo
  repeat' (first
      | with_reducible assumption | with_reducible exact Changes.sub hpl (by decide) | with_reducible apply eventRecord_frame
      | with_reducible apply stepGates_frame | with_reducible apply tally_frame | with_reducible apply endSlew_frame
      | with_reducible apply firstSet_frame | dsimp only | split | with_reducible apply upd_tsu)

theorem stepEffect_frame {pl : List Part} {z0 : State} {s : State}
    (hz : Changes pl z0 s) (hpl : ∀ p ∈ ([.tsu, .levels, .jic, .ctr, .frc, .gates, .hostQueue, .replies, .hlk, .out] : List
      Part), p ∈ pl) : Changes pl z0 (stepEffect s) := by
  unfold stepEffect
  repeat' (first
      | with_reducible assumption | with_reducible exact Changes.sub hpl (by decide) | with_reducible apply answer_frame
      | with_reducible apply stepTo_frame | dsimp only | split | with_reducible apply upd_tsu)

theorem slewComplete_frame {pl : List Part} {z0 : State} {s : State}
    (hz : Changes pl z0 s) (hpl : ∀ p ∈ ([.tsu, .levels, .jic, .ctr] : List Part), p ∈ pl) : Changes pl z0 (slewComplete s) := by
  unfold slewComplete
  repeat' (first
      | with_reducible assumption | with_reducible exact Changes.sub hpl (by decide) | with_reducible apply endSlew_frame
      | dsimp only | split)

theorem todMessage_frame {pl : List Part} {z0 : State} {m : List Byte} {s : State}
    (hz : Changes pl z0 s) (hpl : ∀ p ∈ ([.tsu, .ctr] : List Part), p ∈ pl) : Changes pl z0 (todMessage m s) := by
  unfold todMessage
  repeat' (first
      | with_reducible assumption | with_reducible exact Changes.sub hpl (by decide) | with_reducible apply tally_frame
      | dsimp only | split | with_reducible apply upd_tsu)

theorem takeTod_frame {pl : List Part} {z0 : State} {s : State}
    (hz : Changes pl z0 s) (hpl : ∀ p ∈ ([.tsu, .ctr] : List Part), p ∈ pl) : Changes pl z0 (takeTod s).2 := by
  unfold takeTod
  repeat' (first
      | with_reducible assumption | with_reducible exact Changes.sub hpl (by decide) | with_reducible apply count_frame
      | dsimp only | split | with_reducible apply upd_tsu)

theorem takeTod_of {pl : List Part} {z0 : State} {s : State} {y : Option Nat} {t : State} (he : takeTod s = (y, t))
    (hz : Changes pl z0 s) (hpl : ∀ p ∈ ([.tsu, .ctr] : List Part), p ∈ pl) : Changes pl z0 t := by
  have := takeTod_frame (z0 := z0) (s := s) hz hpl; rw [he] at this; exact this

theorem ppsGood_frame {pl : List Part} {z0 : State} {part : Nat} {s : State}
    (hz : Changes pl z0 s) (hpl : ∀ p ∈ ([.tsu, .levels, .jic, .ctr, .frc, .gates] : List Part), p ∈ pl) : Changes pl z0
      (ppsGood part s) := by
  unfold ppsGood
  repeat' (first
      | with_reducible assumption | with_reducible exact Changes.sub hpl (by decide)
      | with_reducible refine takeTod_of (by assumption) ?_ ?_ | with_reducible apply takeTod_frame
      | with_reducible apply raiseEvent_frame | with_reducible apply tally_frame | with_reducible apply stepTo_frame
      | dsimp only | split | with_reducible apply upd_tsu)

theorem ppsInEdge_frame {pl : List Part} {z0 : State} {rising : Bool} {phase heldNs : Nat} {s : State}
    (hz : Changes pl z0 s) (hpl : ∀ p ∈ ([.tsu, .levels, .jic, .ctr, .frc, .gates] : List Part), p ∈ pl) : Changes pl z0
      (ppsInEdge rising phase heldNs s) := by
  unfold ppsInEdge
  repeat' (first
      | with_reducible assumption | with_reducible exact Changes.sub hpl (by decide) | with_reducible apply ppsGood_frame
      | with_reducible apply tally_frame | dsimp only | split | with_reducible apply upd_tsu)

theorem ppsInLoss_frame {pl : List Part} {z0 : State} {s : State}
    (hz : Changes pl z0 s) (hpl : ∀ p ∈ ([.tsu, .levels, .jic] : List Part), p ∈ pl) : Changes pl z0 (ppsInLoss s) := by
  unfold ppsInLoss
  repeat' (first
      | with_reducible assumption | with_reducible exact Changes.sub hpl (by decide) | with_reducible apply enterHoldover_frame
      | dsimp only | split | with_reducible apply upd_tsu)

theorem ppsOutPulse_frame {pl : List Part} {z0 : State} {s : State}
    (hz : Changes pl z0 s) (hpl : ∀ p ∈ ([.tsu, .out] : List Part), p ∈ pl) : Changes pl z0 (ppsOutPulse s) := by
  unfold ppsOutPulse
  repeat' (first
      | with_reducible assumption | with_reducible exact Changes.sub hpl (by decide) | with_reducible apply emit_frame
      | dsimp only | split | with_reducible apply upd_tsu)

theorem ppsOutEnd_frame {pl : List Part} {z0 : State} {s : State}
    (hz : Changes pl z0 s) (hpl : ∀ p ∈ ([.tsu, .out] : List Part), p ∈ pl) : Changes pl z0 (ppsOutEnd s) := by
  unfold ppsOutEnd
  repeat' (first
      | with_reducible assumption | with_reducible exact Changes.sub hpl (by decide) | with_reducible apply emit_frame
      | dsimp only | split | with_reducible apply upd_tsu)

theorem refFault_frame {pl : List Part} {z0 : State} {s : State}
    (hz : Changes pl z0 s) (hpl : ∀ p ∈ ([.quarantine, .tsu, .sessions, .sealed, .err, .levels, .jic, .ctr, .frc, .pounce,
      .dbg] : List Part), p ∈ pl) : Changes pl z0 (refFault s) := by
  unfold refFault
  repeat' (first
      | with_reducible assumption | with_reducible exact Changes.sub hpl (by decide) | with_reducible apply enterHoldover_frame
      | with_reducible apply errorAt_frame | with_reducible apply tally_frame | dsimp only | split
      | with_reducible apply upd_tsu)

theorem refClear_frame {pl : List Part} {z0 : State} {s : State}
    (hz : Changes pl z0 s) (hpl : ∀ p ∈ ([.tsu] : List Part), p ∈ pl) : Changes pl z0 (refClear s) := by
  unfold refClear
  repeat' (first
      | with_reducible assumption | with_reducible exact Changes.sub hpl (by decide) | dsimp only | split
      | with_reducible apply upd_tsu)

/-! ## Interrupts -/

theorem atTarget_frame {pl : List Part} {z0 : State} {id t : Nat} {f : State → State} {s : State}
    (hz : Changes pl z0 s) (hpl : ∀ p ∈ ([.quarantine, .sessions, .checks, .sealed, .err, .acc, .levels, .jic, .ctr, .samples, .frc, .xdma, .ports, .hostQueue, .esh, .replies, .hpe, .pounce, .dbg, .hlk, .sas, .out] : List Part), p ∈ pl) (hf : ∀ a, Changes pl z0 a → Changes pl z0 (f a)) :
    Changes pl z0 (atTarget id t f s) := by
  unfold atTarget
  repeat' split
  all_goals first
    | exact hz
    | exact hf _ hz
    | exact denied_frame hz (Changes.sub hpl (by decide))
    | exact sypError_frame hz (Changes.sub hpl (by decide))

theorem countVanish_frame {pl : List Part} {z0 : State} {t : Nat} {s : State}
    (hz : Changes pl z0 s) (hpl : ∀ p ∈ ([.jic, .ctr] : List Part), p ∈ pl) : Changes pl z0 (countVanish t s) := by
  unfold countVanish
  repeat' (first
      | with_reducible assumption | with_reducible exact Changes.sub hpl (by decide) | with_reducible apply tally_frame
      | with_reducible apply putTarget_frame | dsimp only | split)

theorem takeSource_frame {pl : List Part} {z0 : State} {t n : Nat} {s : State}
    (hz : Changes pl z0 s) (hpl : ∀ p ∈ ([.levels, .jic] : List Part), p ∈ pl) : Changes pl z0 (takeSource t n s) := by
  unfold takeSource
  repeat' (first
      | with_reducible assumption | with_reducible exact Changes.sub hpl (by decide) | with_reducible apply clearEvent_frame
      | with_reducible apply putTarget_frame | dsimp only | split
      | with_reducible refine upd_jic'jic (by with_reducible rfl) ?_ ?_)

theorem claimRead_frame {pl : List Part} {z0 : State} {t : Nat} {s : State}
    (hz : Changes pl z0 s) (hpl : ∀ p ∈ ([.levels, .jic, .ctr, .out] : List Part), p ∈ pl) : Changes pl z0 (claimRead t s) := by
  unfold claimRead
  repeat' (first
      | with_reducible assumption | with_reducible exact Changes.sub hpl (by decide) | with_reducible apply countVanish_frame
      | with_reducible apply sypOk_frame | with_reducible apply takeSource_frame | with_reducible apply tally_frame | dsimp only
      | split)

theorem completeWrite_frame {pl : List Part} {z0 : State} {t n : Nat} {s : State}
    (hz : Changes pl z0 s) (hpl : ∀ p ∈ ([.quarantine, .sessions, .sealed, .err, .levels, .jic, .ctr, .frc, .pounce, .dbg,
      .out] : List Part), p ∈ pl) : Changes pl z0 (completeWrite t n s) := by
  unfold completeWrite
  repeat' (first
      | with_reducible assumption | with_reducible exact Changes.sub hpl (by decide) | with_reducible apply putTarget_frame
      | with_reducible apply sypOk_frame | with_reducible apply errorAt_frame | with_reducible apply raiseEvent_frame
      | with_reducible apply tally_frame | dsimp only | split | with_reducible refine upd_jic'jic (by with_reducible rfl) ?_ ?_)

theorem ignoredWrite_frame {pl : List Part} {z0 : State} {t n : Nat} {s : State}
    (hz : Changes pl z0 s) (hpl : ∀ p ∈ ([.quarantine, .sessions, .sealed, .err, .ctr, .frc, .pounce, .dbg, .out] : List
      Part), p ∈ pl) : Changes pl z0 (ignoredWrite t n s) := by
  unfold ignoredWrite
  repeat' (first
      | with_reducible assumption | with_reducible exact Changes.sub hpl (by decide) | with_reducible apply errorAt_frame
      | with_reducible apply tally_frame | with_reducible apply sypOk_frame)

theorem enableClear_frame {pl : List Part} {z0 : State} {n : Nat} {s : State}
    (hz : Changes pl z0 s) (hpl : ∀ p ∈ ([.jic] : List Part), p ∈ pl) : Changes pl z0 (enableClear n s) := by
  unfold enableClear
  repeat' (first
      | with_reducible assumption | with_reducible exact Changes.sub hpl (by decide) | dsimp only | split
      | with_reducible refine upd_jic'jic (by with_reducible rfl) ?_ ?_)

theorem sourceWrite_frame {pl : List Part} {z0 : State} {t n : Nat} {soft : Bool} {f : State → State} {s : State}
    (hz : Changes pl z0 s) (hpl : ∀ p ∈ ([.quarantine, .sessions, .sealed, .err, .ctr, .frc, .pounce, .dbg, .out] : List Part), p ∈ pl) (hf : ∀ a, Changes pl z0 a → Changes pl z0 (f a)) :
    Changes pl z0 (sourceWrite t n soft f s) := by
  unfold sourceWrite; split
  · exact hf _ (sypOk_frame hz (Changes.sub hpl (by decide)))
  · exact ignoredWrite_frame hz (Changes.sub hpl (by decide))

theorem enableSet_frame {pl : List Part} {z0 : State} {n : Nat} {s : State}
    (hz : Changes pl z0 s) (hpl : ∀ p ∈ ([.jic] : List Part), p ∈ pl) : Changes pl z0 (enableSet n s) := by
  unfold enableSet
  repeat' (first
      | with_reducible assumption | with_reducible exact Changes.sub hpl (by decide) | dsimp only | split
      | with_reducible refine upd_jic'jic (by with_reducible rfl) ?_ ?_)

theorem softWrite_frame {pl : List Part} {z0 : State} {n : Nat} {b : Bool} {s : State}
    (hz : Changes pl z0 s) (hpl : ∀ p ∈ ([.jic] : List Part), p ∈ pl) : Changes pl z0 (softWrite n b s) := by
  unfold softWrite
  repeat' (first
      | with_reducible assumption | with_reducible exact Changes.sub hpl (by decide) | dsimp only | split
      | with_reducible refine upd_jic'jic (by with_reducible rfl) ?_ ?_)

theorem moderationExpiry_frame {pl : List Part} {z0 : State} {n : Nat} {s : State}
    (hz : Changes pl z0 s) (hpl : ∀ p ∈ ([.jic] : List Part), p ∈ pl) : Changes pl z0 (moderationExpiry n s) := by
  unfold moderationExpiry
  repeat' (first
      | with_reducible assumption | with_reducible exact Changes.sub hpl (by decide) | dsimp only | split
      | with_reducible refine upd_jic'jic (by with_reducible rfl) ?_ ?_)

theorem tgtState_frame {pl : List Part} {z0 : State} {t : Nat} {v : BitVec 2} {s : State}
    (hz : Changes pl z0 s) (hpl : ∀ p ∈ ([.quarantine, .sessions, .sealed, .err, .jic, .frc, .pounce, .dbg] : List Part),
      p ∈ pl) : Changes pl z0 (tgtState t v s) := by
  unfold tgtState
  repeat' (first
      | with_reducible assumption | with_reducible exact Changes.sub hpl (by decide) | with_reducible apply errorAt_frame
      | with_reducible apply putTarget_frame | dsimp only | split)

/-! ## Telemetry -/

theorem takeWord_frame {pl : List Part} {z0 : State} {w k code : Nat} {s : State}
    (hz : Changes pl z0 s) (hpl : ∀ p ∈ ([.tel] : List Part), p ∈ pl) : Changes pl z0 (takeWord w k code s).2 := by
  unfold takeWord
  repeat' (first
      | with_reducible assumption | with_reducible exact Changes.sub hpl (by decide) | dsimp only | split
      | with_reducible refine upd_tel'tel (by with_reducible rfl) (by with_reducible rfl) (by with_reducible rfl) ?_ ?_)

theorem takeWord_of {pl : List Part} {z0 : State} {w k code : Nat} {s : State} {y : Nat} {t : State} (he : takeWord w k code s = (y, t))
    (hz : Changes pl z0 s) (hpl : ∀ p ∈ ([.tel] : List Part), p ∈ pl) : Changes pl z0 t := by
  have := takeWord_frame (z0 := z0) (w := w) (k := k) (code := code) (s := s) hz hpl; rw [he] at this; exact this

theorem latchSlots_frame {pl : List Part} {z0 : State} {w p : Nat} {s : State}
    (hz : Changes pl z0 s) (hpl : ∀ p ∈ ([.tel] : List Part), p ∈ pl) : Changes pl z0 (latchSlots w p s) := by
  unfold latchSlots
  extract_lets step
  have h : Changes pl z0 ([1, 2, 3, 4].foldl step ([], s)).2 :=
    Changes.foldl_snd (a := ([], s)) hz fun a i ha => takeWord_frame (code := 2) ha hpl
  generalize [1, 2, 3, 4].foldl step ([], s) = r at h ⊢
  exact upd_tel'tel rfl rfl rfl h hpl

theorem windowWord_frame {pl : List Part} {z0 : State} {w off : Nat} {c : BitVec 16} {s : State}
    (hz : Changes pl z0 s) (hpl : ∀ p ∈ ([.tel] : List Part), p ∈ pl) : Changes pl z0 (windowWord w off c s).2 := by
  unfold windowWord
  repeat' (first
      | with_reducible assumption | with_reducible exact Changes.sub hpl (by decide)
      | with_reducible refine takeWord_of (by assumption) ?_ ?_ | with_reducible apply takeWord_frame
      | with_reducible apply latchSlots_frame | dsimp only | split)

theorem windowWord_of {pl : List Part} {z0 : State} {w off : Nat} {c : BitVec 16} {s : State} {y : Nat} {t : State} (he : windowWord w off c s = (y, t))
    (hz : Changes pl z0 s) (hpl : ∀ p ∈ ([.tel] : List Part), p ∈ pl) : Changes pl z0 t := by
  have := windowWord_frame (z0 := z0) (w := w) (off := off) (c := c) (s := s) hz hpl; rw [he] at this; exact this

theorem windowRead_frame {pl : List Part} {z0 : State} {id w off width : Nat} {s : State}
    (hz : Changes pl z0 s) (hpl : ∀ p ∈ ([.quarantine, .sessions, .checks, .sealed, .err, .acc, .levels, .jic, .ctr, .samples,
      .tel, .frc, .xdma, .ports, .hostQueue, .esh, .replies, .hpe, .pounce, .dbg, .hlk, .sas, .out] : List Part), p ∈ pl) :
      Changes pl z0 (windowRead id w off width s) := by
  unfold windowRead
  repeat' (first
      | with_reducible assumption | with_reducible exact Changes.sub hpl (by decide) | with_reducible apply denied_frame
      | with_reducible apply sypError_frame | with_reducible apply tally_frame
      | with_reducible refine windowWord_of (by assumption) ?_ ?_ | with_reducible apply windowWord_frame
      | with_reducible apply sypOk_frame | dsimp only | split)

theorem battTrigger_frame {pl : List Part} {z0 : State} {s : State}
    (hz : Changes pl z0 s) (hpl : ∀ p ∈ ([.samples, .tel, .out] : List Part), p ∈ pl) : Changes pl z0 (battTrigger s) := by
  unfold battTrigger
  repeat' (first
      | with_reducible assumption | with_reducible exact Changes.sub hpl (by decide) | with_reducible apply battSnapshot_frame
      | dsimp only | split
      | with_reducible refine upd_tel'tel (by with_reducible rfl) (by with_reducible rfl) (by with_reducible rfl) ?_ ?_)

theorem battAtCommit_frame {pl : List Part} {z0 : State} {s : State}
    (hz : Changes pl z0 s) (hpl : ∀ p ∈ ([.samples, .tel, .out] : List Part), p ∈ pl) : Changes pl z0 (battAtCommit s) := by
  unfold battAtCommit
  repeat' (first
      | with_reducible assumption | with_reducible exact Changes.sub hpl (by decide) | with_reducible apply battSnapshot_frame
      | dsimp only | split
      | with_reducible refine upd_tel'tel (by with_reducible rfl) (by with_reducible rfl) (by with_reducible rfl) ?_ ?_)

theorem battDone_frame {pl : List Part} {z0 : State} {s : State}
    (hz : Changes pl z0 s) (hpl : ∀ p ∈ ([.levels, .jic, .tel, .out] : List Part), p ∈ pl) : Changes pl z0 (battDone s) := by
  unfold battDone
  repeat' (first
      | with_reducible assumption | with_reducible exact Changes.sub hpl (by decide) | with_reducible apply raiseEvent_frame
      | with_reducible apply emit_frame | dsimp only | split
      | with_reducible refine upd_tel'tel (by with_reducible rfl) (by with_reducible rfl) (by with_reducible rfl) ?_ ?_)

theorem battFail_frame {pl : List Part} {z0 : State} {timeout : Bool} {s : State}
    (hz : Changes pl z0 s) (hpl : ∀ p ∈ ([.quarantine, .sessions, .sealed, .err, .tel, .frc, .pounce, .dbg] : List Part),
      p ∈ pl) : Changes pl z0 (battFail timeout s) := by
  unfold battFail
  repeat' (first
      | with_reducible assumption | with_reducible exact Changes.sub hpl (by decide) | with_reducible apply errorAt_frame
      | dsimp only | split
      | with_reducible refine upd_tel'tel (by with_reducible rfl) (by with_reducible rfl) (by with_reducible rfl) ?_ ?_)

theorem queueSweep_frame {pl : List Part} {z0 : State} {s : State}
    (hz : Changes pl z0 s) (hpl : ∀ p ∈ ([.sweep, .tel, .frc] : List Part), p ∈ pl) : Changes pl z0 (queueSweep s) := by
  unfold queueSweep
  repeat' (first
      | with_reducible assumption | with_reducible exact Changes.sub hpl (by decide) | with_reducible apply sweepRead_frame
      | dsimp only | split | with_reducible refine upd_tel'sweep'tel (by with_reducible rfl) (by with_reducible rfl) ?_ ?_)

/-! ## SideMemory -/

theorem startMemory_frame {pl : List Part} {z0 : State} {rate : Nat} {s : State}
    (hz : Changes pl z0 s) (hpl : ∀ p ∈ ([.mem, .smc] : List Part), p ∈ pl) : Changes pl z0 (startMemory rate s) := by
  unfold startMemory
  repeat' (first
      | with_reducible assumption | with_reducible exact Changes.sub hpl (by decide) | dsimp only | split
      | with_reducible apply upd_smc)

theorem finishStop_frame {pl : List Part} {z0 : State} {c : Nat} {s : State}
    (hz : Changes pl z0 s) (hpl : ∀ p ∈ ([.levels, .jic, .ctr, .xdma, .hostQueue, .replies, .hlk, .out] : List Part), p ∈ pl)
      : Changes pl z0 (finishStop c s) := by
  unfold finishStop
  repeat' (first
      | with_reducible assumption | with_reducible exact Changes.sub hpl (by decide) | with_reducible apply answer_frame
      | with_reducible apply raiseEvent_frame | with_reducible apply putX_frame | dsimp only | split)

theorem stopRunning_frame {pl : List Part} {z0 : State} {s : State}
    (hz : Changes pl z0 s) (hpl : ∀ p ∈ ([.levels, .jic, .ctr, .xdma, .hostQueue, .replies, .hlk, .out] : List Part), p ∈ pl)
      : Changes pl z0 (stopRunning s) := by
  unfold stopRunning
  repeat' (first
      | with_reducible assumption | with_reducible exact Changes.sub hpl (by decide) | with_reducible apply finishStop_frame
      | with_reducible apply putX_frame | (with_reducible apply Changes.foldl_frame; rotate_left; intro _ _ _) | dsimp only
      | split)

theorem smcChange_frame {pl : List Part} {z0 : State} {f : State → State} {s : State}
    (hz : Changes pl z0 s) (hpl : ∀ p ∈ ([.levels, .jic, .ctr, .xdma, .hostQueue, .replies, .hlk, .out] : List Part), p ∈ pl) (hf : ∀ a, Changes pl z0 a → Changes pl z0 (f a)) :
    Changes pl z0 (smcChange f s) := by
  unfold smcChange; dsimp only; split
  · exact stopRunning_frame (hf s hz) (Changes.sub hpl (by decide))
  · exact hf s hz

theorem zeroFillDone_frame {pl : List Part} {z0 : State} {s : State}
    (hz : Changes pl z0 s) (hpl : ∀ p ∈ ([.smc] : List Part), p ∈ pl) : Changes pl z0 (zeroFillDone s) := by
  unfold zeroFillDone
  repeat' (first
      | with_reducible assumption | with_reducible exact Changes.sub hpl (by decide) | dsimp only | split
      | with_reducible refine upd_smc'smc (by with_reducible rfl) ?_ ?_)

theorem dfiTimeout_frame {pl : List Part} {z0 : State} {c : Nat} {s : State}
    (hz : Changes pl z0 s) (hpl : ∀ p ∈ ([.smc] : List Part), p ∈ pl) : Changes pl z0 (dfiTimeout c s) := by
  unfold dfiTimeout
  repeat' (first
      | with_reducible assumption | with_reducible exact Changes.sub hpl (by decide) | dsimp only | split
      | with_reducible refine upd_smc'smc (by with_reducible rfl) ?_ ?_)

theorem throttleExpiry_frame {pl : List Part} {z0 : State} {c rank bank q : Nat} {s : State}
    (hz : Changes pl z0 s) (hpl : ∀ p ∈ ([.smc] : List Part), p ∈ pl) : Changes pl z0 (throttleExpiry c rank bank q s) := by
  unfold throttleExpiry
  repeat' (first
      | with_reducible assumption | with_reducible exact Changes.sub hpl (by decide) | dsimp only | split
      | with_reducible refine upd_smc'smc (by with_reducible rfl) ?_ ?_)

theorem refreshDue_frame {pl : List Part} {z0 : State} {c rank : Nat} {s : State}
    (hz : Changes pl z0 s) (hpl : ∀ p ∈ ([.smc, .out] : List Part), p ∈ pl) : Changes pl z0 (refreshDue c rank s) := by
  unfold refreshDue
  repeat' (first
      | with_reducible assumption | with_reducible exact Changes.sub hpl (by decide) | with_reducible apply emit_frame
      | with_reducible apply putRank_frame | with_reducible apply putChan_frame | dsimp only | split)

theorem mr4Poll_frame {pl : List Part} {z0 : State} {c code : Nat} {s : State}
    (hz : Changes pl z0 s) (hpl : ∀ p ∈ ([.smc] : List Part), p ∈ pl) : Changes pl z0 (mr4Poll c code s) := by
  unfold mr4Poll
  repeat' (first
      | with_reducible assumption | with_reducible exact Changes.sub hpl (by decide) | with_reducible apply putChan_frame
      | dsimp only | split)

theorem selfRefreshEntry_frame {pl : List Part} {z0 : State} {c rank : Nat} {s : State}
    (hz : Changes pl z0 s) (hpl : ∀ p ∈ ([.smc, .out] : List Part), p ∈ pl) : Changes pl z0 (selfRefreshEntry c rank s) := by
  unfold selfRefreshEntry
  repeat' (first
      | with_reducible assumption | with_reducible exact Changes.sub hpl (by decide) | with_reducible apply emit_frame
      | with_reducible apply putRank_frame | dsimp only | split)

theorem retrainWindow_frame {pl : List Part} {z0 : State} {c : Nat} {s : State}
    (hz : Changes pl z0 s) (hpl : ∀ p ∈ ([.smc] : List Part), p ∈ pl) : Changes pl z0 (retrainWindow c s) := by
  unfold retrainWindow
  repeat' (first
      | with_reducible assumption | with_reducible exact Changes.sub hpl (by decide) | with_reducible apply putChan_frame
      | dsimp only | split)

theorem phyUpdate_frame {pl : List Part} {z0 : State} {c lenNs waitedNs : Nat} {s : State}
    (hz : Changes pl z0 s) (hpl : ∀ p ∈ ([.quarantine, .sessions, .sealed, .err, .smc, .frc, .pounce, .dbg] : List Part),
      p ∈ pl) : Changes pl z0 (phyUpdate c lenNs waitedNs s) := by
  unfold phyUpdate
  repeat' (first
      | with_reducible assumption | with_reducible exact Changes.sub hpl (by decide) | with_reducible apply putChan_frame
      | with_reducible apply smcError_frame | dsimp only | split)

theorem fullRetrain_frame {pl : List Part} {z0 : State} {c : Nat} {s : State}
    (hz : Changes pl z0 s) (hpl : ∀ p ∈ ([.levels, .jic, .ctr, .smc, .xdma, .hostQueue, .replies, .hlk, .out] : List Part),
      p ∈ pl) : Changes pl z0 (fullRetrain c s) := by
  unfold fullRetrain
  repeat' (first
      | with_reducible assumption | with_reducible exact Changes.sub hpl (by decide)
      | (with_reducible apply smcChange_frame; rotate_left; rotate_left; intro _ _) | with_reducible apply putChan_frame
      | dsimp only | split)

theorem nextRetrain_frame {pl : List Part} {z0 : State} {l : List Nat} {s : State}
    (hz : Changes pl z0 s) (hpl : ∀ p ∈ ([.levels, .jic, .ctr, .smc, .xdma, .hostQueue, .replies, .hlk, .out] : List Part),
      p ∈ pl) : Changes pl z0 (nextRetrain l s) := by
  induction l generalizing s with
  | nil =>
    unfold nextRetrain
    repeat' (first
      | with_reducible assumption
      | with_reducible exact Changes.sub hpl (by decide)
      | with_reducible apply ih
      | with_reducible apply fullRetrain_frame
      | dsimp only
      | split
      | with_reducible refine upd_smc'smc (by with_reducible rfl) ?_ ?_)
  | cons _ _ ih =>
    unfold nextRetrain
    repeat' (first
        | with_reducible assumption | with_reducible exact Changes.sub hpl (by decide) | with_reducible apply ih
        | with_reducible apply fullRetrain_frame | dsimp only | split
        | with_reducible refine upd_smc'smc (by with_reducible rfl) ?_ ?_)

theorem retrainDone_frame {pl : List Part} {z0 : State} {c : Nat} {ok : Bool} {s : State}
    (hz : Changes pl z0 s) (hpl : ∀ p ∈ ([.levels, .jic, .ctr, .smc, .xdma, .hostQueue, .replies, .hlk, .out] : List Part),
      p ∈ pl) : Changes pl z0 (retrainDone c ok s) := by
  unfold retrainDone
  repeat' (first
      | with_reducible assumption | with_reducible exact Changes.sub hpl (by decide) | with_reducible apply nextRetrain_frame
      | with_reducible apply putChan_frame | dsimp only | split)

theorem markChan_frame {pl : List Part} {z0 : State} {c : Nat} {x : ChanSt} {s : State}
    (hz : Changes pl z0 s) (hpl : ∀ p ∈ ([.smc] : List Part), p ∈ pl) : Changes pl z0 (markChan c x s) := by
  unfold markChan
  repeat' (first
      | with_reducible assumption | with_reducible exact Changes.sub hpl (by decide) | with_reducible apply putChan_frame
      | dsimp only | split)

theorem startMigration_frame {pl : List Part} {z0 : State} {r sp : Nat} {s : State}
    (hz : Changes pl z0 s) (hpl : ∀ p ∈ ([.smc] : List Part), p ∈ pl) : Changes pl z0 (startMigration r sp s) := by
  unfold startMigration
  repeat' (first
      | with_reducible assumption | with_reducible exact Changes.sub hpl (by decide) | with_reducible apply markChan_frame
      | with_reducible apply putRank_frame | dsimp only | split
      | with_reducible refine upd_smc'smc (by with_reducible rfl) ?_ ?_)

theorem loseMemory_frame {pl : List Part} {z0 : State} {s : State}
    (hz : Changes pl z0 s) (hpl : ∀ p ∈ ([.levels, .jic, .ctr, .smc, .xdma, .hostQueue, .replies, .hlk, .out] : List Part),
      p ∈ pl) : Changes pl z0 (loseMemory s) := by
  unfold loseMemory
  repeat' (first
      | with_reducible assumption | with_reducible exact Changes.sub hpl (by decide)
      | (with_reducible apply smcChange_frame; rotate_left; rotate_left; intro _ _) | dsimp only | split
      | with_reducible refine upd_smc'smc (by with_reducible rfl) ?_ ?_)

theorem failRank_frame {pl : List Part} {z0 : State} {gen r : Nat} {s : State}
    (hz : Changes pl z0 s) (hpl : ∀ p ∈ ([.quarantine, .sessions, .sealed, .err, .levels, .jic, .ctr, .smc, .frc, .xdma,
      .hostQueue, .replies, .pounce, .dbg, .hlk, .out] : List Part), p ∈ pl) : Changes pl z0 (failRank gen r s) := by
  unfold failRank
  repeat' (first
      | with_reducible assumption | with_reducible exact Changes.sub hpl (by decide) | with_reducible apply putRank_frame
      | with_reducible apply loseMemory_frame | with_reducible apply smcError_frame | with_reducible apply markChan_frame
      | with_reducible apply startMigration_frame | dsimp only | split
      | with_reducible refine upd_smc'smc (by with_reducible rfl) ?_ ?_)

theorem uncorrectable_frame {pl : List Part} {z0 : State} {injected : Bool} {a : Nat} {s : State}
    (hz : Changes pl z0 s) (hpl : ∀ p ∈ ([.quarantine, .sessions, .sealed, .err, .levels, .jic, .ctr, .smc, .frc, .xdma,
      .hostQueue, .replies, .pounce, .dbg, .hlk, .out] : List Part), p ∈ pl) : Changes pl z0 (uncorrectable injected a s) := by
  unfold uncorrectable
  repeat' (first
      | with_reducible assumption | with_reducible exact Changes.sub hpl (by decide) | with_reducible apply failRank_frame
      | with_reducible apply errorWith_frame | with_reducible apply putRank_frame | dsimp only | split)

theorem corrected_frame {pl : List Part} {z0 : State} {a : Nat} {s : State}
    (hz : Changes pl z0 s) (hpl : ∀ p ∈ ([.quarantine, .sessions, .sealed, .err, .levels, .jic, .ctr, .smc, .frc, .xdma,
      .hostQueue, .replies, .pounce, .dbg, .hlk, .out] : List Part), p ∈ pl) : Changes pl z0 (corrected a s) := by
  unfold corrected
  repeat' (first
      | with_reducible assumption | with_reducible exact Changes.sub hpl (by decide) | with_reducible apply failRank_frame
      | with_reducible apply putRank_frame | dsimp only | split)

theorem scrubRead_frame {pl : List Part} {z0 : State} {a : Nat} {e : EccResult} {s : State}
    (hz : Changes pl z0 s) (hpl : ∀ p ∈ ([.quarantine, .sessions, .sealed, .err, .levels, .jic, .ctr, .smc, .frc, .xdma,
      .hostQueue, .replies, .pounce, .dbg, .hlk, .out, .draws] : List Part), p ∈ pl) : Changes pl z0 (scrubRead a e s) := by
  unfold scrubRead
  repeat' (first
      | with_reducible assumption | with_reducible exact Changes.sub hpl (by decide)
      | with_reducible refine pounceFires_of (by assumption) ?_ ?_ | with_reducible apply pounceFires_frame
      | with_reducible apply touch_frame | with_reducible apply uncorrectable_frame | with_reducible apply corrected_frame
      | dsimp only | split)

theorem poisonCopy_frame {pl : List Part} {z0 : State} {m : Migration} {o : Nat} {s : State}
    (hz : Changes pl z0 s) (hpl : ∀ p ∈ ([.quarantine, .sessions, .sealed, .err, .smc, .frc, .pounce, .dbg] : List Part),
      p ∈ pl) : Changes pl z0 (poisonCopy m o s) := by
  unfold poisonCopy
  repeat' (first
      | with_reducible assumption | with_reducible exact Changes.sub hpl (by decide) | with_reducible apply errorAt_frame
      | with_reducible apply putRank_frame | dsimp only | split
      | with_reducible refine upd_smc'smc (by with_reducible rfl) ?_ ?_)

theorem migrationComplete_frame {pl : List Part} {z0 : State} {bad : List Nat} {s : State}
    (hz : Changes pl z0 s) (hpl : ∀ p ∈ ([.quarantine, .sessions, .sealed, .err, .levels, .jic, .smc, .frc, .pounce, .dbg] :
      List Part), p ∈ pl) : Changes pl z0 (migrationComplete bad s) := by
  unfold migrationComplete
  repeat' (first
      | with_reducible assumption | with_reducible exact Changes.sub hpl (by decide) | with_reducible apply raiseEvent_frame
      | with_reducible apply markChan_frame | with_reducible apply putChan_frame | with_reducible apply putRank_frame
      | with_reducible apply poisonCopy_frame | (with_reducible apply Changes.foldl_frame; rotate_left; intro _ _ _)
      | dsimp only | split | with_reducible refine upd_smc'smc (by with_reducible rfl) ?_ ?_)

/-! ## Recorder -/

theorem granuleFlush_frame {pl : List Part} {z0 : State} {n : Nat} {s : State}
    (hz : Changes pl z0 s) (hpl : ∀ p ∈ ([.frc] : List Part), p ∈ pl) : Changes pl z0 (granuleFlush n s) := by
  unfold granuleFlush
  repeat' (first
      | with_reducible assumption | with_reducible exact Changes.sub hpl (by decide) | with_reducible apply putRegion_frame
      | dsimp only | split)

theorem granuleDone_frame {pl : List Part} {z0 : State} {n : Nat} {ok : Bool} {s : State}
    (hz : Changes pl z0 s) (hpl : ∀ p ∈ ([.quarantine, .sessions, .sealed, .err, .levels, .jic, .mem, .smc, .frc, .pounce,
      .dbg, .out] : List Part), p ∈ pl) : Changes pl z0 (granuleDone n ok s) := by
  unfold granuleDone
  repeat' (first
      | with_reducible assumption | with_reducible exact Changes.sub hpl (by decide) | with_reducible apply putRegion_frame
      | with_reducible apply touch_frame | with_reducible apply raiseEvent_frame | with_reducible apply errorAt_frame
      | dsimp only | split | with_reducible apply upd_smc)

theorem regionStopDone_frame {pl : List Part} {z0 : State} {n : Nat} {s : State}
    (hz : Changes pl z0 s) (hpl : ∀ p ∈ ([.ctr, .frc, .hostQueue, .replies, .hlk, .out] : List Part), p ∈ pl) : Changes pl z0
      (regionStopDone n s) := by
  unfold regionStopDone
  repeat' (first
      | with_reducible assumption | with_reducible exact Changes.sub hpl (by decide) | with_reducible apply answer_frame
      | with_reducible apply eventRecord_frame | with_reducible apply putRegion_frame | dsimp only | split)

theorem xdmaError_frame {pl : List Part} {z0 : State} {c code cls d0 : Nat} {s : State}
    (hz : Changes pl z0 s) (hpl : ∀ p ∈ ([.quarantine, .sessions, .sealed, .err, .frc, .pounce, .dbg] : List Part), p ∈ pl) :
      Changes pl z0 (xdmaError c code cls d0 s) := by
  unfold xdmaError
  repeat' (first
      | with_reducible assumption | with_reducible exact Changes.sub hpl (by decide) | with_reducible apply errorAt_frame)

theorem endChain_frame {pl : List Part} {z0 : State} {c : Nat} {s : State}
    (hz : Changes pl z0 s) (hpl : ∀ p ∈ ([.levels, .jic, .ctr, .xdma, .hostQueue, .replies, .hlk, .out] : List Part), p ∈ pl)
      : Changes pl z0 (endChain c s) := by
  unfold endChain
  repeat' (first
      | with_reducible assumption | with_reducible exact Changes.sub hpl (by decide) | with_reducible apply raiseEvent_frame
      | with_reducible apply putX_frame | with_reducible apply finishStop_frame | dsimp only | split)

theorem writeBack_frame {pl : List Part} {z0 : State} {c : Nat} {x : XRun} {st off : Nat} {s : State}
    (hz : Changes pl z0 s) (hpl : ∀ p ∈ ([.out] : List Part), p ∈ pl) : Changes pl z0 (writeBack c x st off s) := by
  unfold writeBack
  repeat' (first | with_reducible assumption | with_reducible exact Changes.sub hpl (by decide) | with_reducible apply emit_frame)

theorem flushRuns_frame {pl : List Part} {z0 : State} {c : Nat} {l : List XRun} {s : State}
    (hz : Changes pl z0 s) (hpl : ∀ p ∈ ([.levels, .jic, .xdma, .out] : List Part), p ∈ pl) : Changes pl z0 (flushRuns c l s) := by
  induction l generalizing c s with
  | nil =>
    unfold flushRuns
    repeat' (first
      | with_reducible assumption)
  | cons _ _ ih =>
    unfold flushRuns
    repeat' (first
        | with_reducible assumption | with_reducible exact Changes.sub hpl (by decide) | with_reducible apply ih
        | with_reducible apply raiseEvent_frame | with_reducible apply putX_frame | with_reducible apply writeBack_frame
        | dsimp only | split)

theorem flushChannel_frame {pl : List Part} {z0 : State} {c : Nat} {s : State}
    (hz : Changes pl z0 s) (hpl : ∀ p ∈ ([.levels, .jic, .ctr, .xdma, .hostQueue, .replies, .hlk, .out] : List Part), p ∈ pl)
      : Changes pl z0 (flushChannel c s) := by
  unfold flushChannel
  repeat' (first
      | with_reducible assumption | with_reducible exact Changes.sub hpl (by decide) | with_reducible apply endChain_frame
      | with_reducible apply flushRuns_frame)

theorem channelError_frame {pl : List Part} {z0 : State} {c cause : Nat} {s : State}
    (hz : Changes pl z0 s) (hpl : ∀ p ∈ ([.levels, .jic, .xdma] : List Part), p ∈ pl) : Changes pl z0 (channelError c cause s) := by
  unfold channelError
  repeat' (first
      | with_reducible assumption | with_reducible exact Changes.sub hpl (by decide) | with_reducible apply raiseEvent_frame
      | with_reducible apply putX_frame)

theorem xdmaFetch_frame {pl : List Part} {z0 : State} {c : Nat} {d : XDesc} {ok : Bool} {s : State}
    (hz : Changes pl z0 s) (hpl : ∀ p ∈ ([.quarantine, .sessions, .sealed, .err, .levels, .jic, .ctr, .frc, .xdma, .hostQueue,
      .replies, .pounce, .dbg, .hlk, .out] : List Part), p ∈ pl) : Changes pl z0 (xdmaFetch c d ok s) := by
  unfold xdmaFetch
  repeat' (first
      | with_reducible assumption | with_reducible exact Changes.sub hpl (by decide) | with_reducible apply xdmaError_frame
      | with_reducible apply channelError_frame | with_reducible apply emit_frame | with_reducible apply flushChannel_frame
      | with_reducible apply putX_frame | dsimp only | split)

theorem xdmaComplete_frame {pl : List Part} {z0 : State} {c : Nat} {r : XResult} {s : State}
    (hz : Changes pl z0 s) (hpl : ∀ p ∈ ([.quarantine, .sessions, .sealed, .err, .levels, .jic, .ctr, .smc, .frc, .xdma,
      .hostQueue, .replies, .pounce, .dbg, .hlk, .out] : List Part), p ∈ pl) : Changes pl z0 (xdmaComplete c r s) := by
  unfold xdmaComplete
  repeat' (first
      | with_reducible assumption | with_reducible exact Changes.sub hpl (by decide) | with_reducible apply flushChannel_frame
      | with_reducible apply putX_frame | with_reducible apply xdmaError_frame | with_reducible apply uncorrectable_frame
      | with_reducible apply corrected_frame | (with_reducible apply Changes.foldl_frame; rotate_left; intro _ _ _) | dsimp only
      | split)

theorem xdmaAnswered_frame {pl : List Part} {z0 : State} {c : Nat} {bad timeout : Bool} {s : State}
    (hz : Changes pl z0 s) (hpl : ∀ p ∈ ([.quarantine, .sessions, .sealed, .err, .frc, .xdma, .pounce, .dbg] : List Part),
      p ∈ pl) : Changes pl z0 (xdmaAnswered c bad timeout s) := by
  unfold xdmaAnswered
  repeat' (first
      | with_reducible assumption | with_reducible exact Changes.sub hpl (by decide) | with_reducible apply putX_frame
      | with_reducible apply xdmaError_frame | dsimp only | split)

end Sys2Proof.Safety
end

