-- ==== Sys2Proof/Laws/FrameTrust.lean ====
section
/-! SUPPORT. What each operation of power, errors, trust, debug and the hierarchy changes at most. -/
namespace Sys2Proof.Safety
open Sys2Proof.Machine

/-! ## Power -/

theorem putGroup_frame {pl : List Part} {z0 : State} {g : Nat} {x : Group} {s : State}
    (hz : Changes pl z0 s) (hpl : ∀ p ∈ ([.groups] : List Part), p ∈ pl) : Changes pl z0 (putGroup g x s) := by
  unfold putGroup
  repeat' (first
      | with_reducible assumption | with_reducible exact Changes.sub hpl (by decide) | dsimp only | split
      | with_reducible apply upd_groups)

theorem stopGroup_frame {pl : List Part} {z0 : State} {g : Nat} {s : State}
    (hz : Changes pl z0 s) (hpl : ∀ p ∈ ([.quarantine, .sessions, .checks, .sealed, .err, .levels, .jic, .ctr, .samples, .frc,
      .groups, .ports, .hostQueue, .esh, .replies, .hpe, .pounce, .dbg, .hlk, .rx, .sas, .pols, .out] : List Part), p ∈ pl) :
      Changes pl z0 (stopGroup g s) := by
  unfold stopGroup
  repeat' (first
      | with_reducible assumption | with_reducible exact Changes.sub hpl (by decide) | with_reducible apply gateLink_frame
      | with_reducible apply cutReception_frame | (with_reducible apply Changes.foldl_frame; rotate_left; intro _ _ _))

theorem settleAll_frame {pl : List Part} {z0 : State} {g : Nat} {s : State}
    (hz : Changes pl z0 s) (hpl : ∀ p ∈ ([.quarantine, .sessions, .sealed, .err, .ctr, .frc, .esh, .pounce, .dbg] : List
      Part), p ∈ pl) : Changes pl z0 (settleAll g s) := by
  unfold settleAll
  repeat' (first
      | with_reducible assumption | with_reducible exact Changes.sub hpl (by decide) | with_reducible apply settleGrant_frame
      | with_reducible apply grantMismatch_frame | (with_reducible apply Changes.foldl_frame; rotate_left; intro _ _ _))

theorem gateStart_frame {pl : List Part} {z0 : State} {g : Nat} {s : State}
    (hz : Changes pl z0 s) (hpl : ∀ p ∈ ([.quarantine, .sessions, .checks, .sealed, .err, .levels, .jic, .ctr, .samples, .frc,
      .groups, .ports, .hostQueue, .esh, .replies, .hpe, .pounce, .dbg, .hlk, .rx, .sas, .pols, .out] : List Part), p ∈ pl) :
      Changes pl z0 (gateStart g s) := by
  unfold gateStart
  repeat' (first
      | with_reducible assumption | with_reducible exact Changes.sub hpl (by decide) | with_reducible apply putGroup_frame
      | with_reducible apply stopGroup_frame | dsimp only | split)

theorem gateDone_frame {pl : List Part} {z0 : State} {g : Nat} {s : State}
    (hz : Changes pl z0 s) (hpl : ∀ p ∈ ([.quarantine, .sessions, .sealed, .err, .ctr, .frc, .groups, .esh, .pounce, .dbg] :
      List Part), p ∈ pl) : Changes pl z0 (gateDone g s) := by
  unfold gateDone
  repeat' (first
      | with_reducible assumption | with_reducible exact Changes.sub hpl (by decide) | with_reducible apply eventRecord_frame
      | with_reducible apply putGroup_frame | with_reducible apply settleAll_frame | dsimp only | split)

theorem fenceGroup_frame {pl : List Part} {z0 : State} {g : Nat} {s : State}
    (hz : Changes pl z0 s) (hpl : ∀ p ∈ ([.quarantine, .sessions, .checks, .sealed, .err, .levels, .jic, .ctr, .samples, .frc,
      .groups, .ports, .hostQueue, .esh, .replies, .hpe, .pounce, .dbg, .hlk, .rx, .sas, .pols, .out] : List Part), p ∈ pl) :
      Changes pl z0 (fenceGroup g s) := by
  unfold fenceGroup
  repeat' (first
      | with_reducible assumption | with_reducible exact Changes.sub hpl (by decide) | with_reducible apply settleAll_frame
      | with_reducible apply stopGroup_frame | with_reducible apply putGroup_frame)

theorem powerOne_frame {pl : List Part} {z0 : State} {was : Bool} {g : Nat} {s : State}
    (hz : Changes pl z0 s) (hpl : ∀ p ∈ ([.quarantine, .sessions, .checks, .sealed, .err, .levels, .jic, .ctr, .samples, .frc,
      .groups, .ports, .hostQueue, .esh, .replies, .hpe, .pounce, .dbg, .hlk, .rx, .sas, .pols, .out] : List Part), p ∈ pl) :
      Changes pl z0 (powerOne was g s) := by
  unfold powerOne
  repeat' (first
      | with_reducible assumption | with_reducible exact Changes.sub hpl (by decide) | with_reducible apply gateStart_frame
      | with_reducible apply putGroup_frame | dsimp only | split)

theorem powerUpdate_frame {pl : List Part} {z0 : State} {old s : State}
    (hz : Changes pl z0 s) (hpl : ∀ p ∈ ([.quarantine, .sessions, .checks, .sealed, .err, .levels, .jic, .ctr, .samples, .frc,
      .groups, .ports, .hostQueue, .esh, .replies, .hpe, .pounce, .dbg, .hlk, .rx, .sas, .pols, .out] : List Part), p ∈ pl) :
      Changes pl z0 (powerUpdate old s) := by
  unfold powerUpdate
  repeat' (first
      | with_reducible assumption | with_reducible exact Changes.sub hpl (by decide) | with_reducible apply powerOne_frame
      | (with_reducible apply Changes.foldl_frame; rotate_left; intro _ _ _))

theorem wakeStart_frame {pl : List Part} {z0 : State} {g : Nat} {s : State}
    (hz : Changes pl z0 s) (hpl : ∀ p ∈ ([.groups] : List Part), p ∈ pl) : Changes pl z0 (wakeStart g s) := by
  unfold wakeStart
  repeat' (first
      | with_reducible assumption | with_reducible exact Changes.sub hpl (by decide) | with_reducible apply putGroup_frame
      | dsimp only | split)

theorem wakePort_frame {pl : List Part} {z0 : State} {p : Nat} {s : State}
    (hz : Changes pl z0 s) (hpl : ∀ p ∈ ([.ports] : List Part), p ∈ pl) : Changes pl z0 (wakePort p s) := by
  unfold wakePort
  repeat' (first
      | with_reducible assumption | with_reducible exact Changes.sub hpl (by decide) | with_reducible apply putPort_frame)

theorem wakeDone_frame {pl : List Part} {z0 : State} {g : Nat} {s : State}
    (hz : Changes pl z0 s) (hpl : ∀ p ∈ ([.quarantine, .sessions, .checks, .sealed, .err, .levels, .jic, .ctr, .samples, .frc,
      .groups, .ports, .hostQueue, .esh, .replies, .hpe, .pounce, .dbg, .hlk, .rx, .sas, .pols, .out] : List Part), p ∈ pl) :
      Changes pl z0 (wakeDone g s) := by
  unfold wakeDone
  repeat' (first
      | with_reducible assumption | with_reducible exact Changes.sub hpl (by decide) | with_reducible apply gateStart_frame
      | with_reducible apply eventRecord_frame | with_reducible apply raiseEvent_frame | with_reducible apply wakePort_frame
      | with_reducible apply putGroup_frame | (with_reducible apply Changes.foldl_frame; rotate_left; intro _ _ _) | dsimp only
      | split)

theorem powerNotGood_frame {pl : List Part} {z0 : State} {g : Nat} {s : State}
    (hz : Changes pl z0 s) (hpl : ∀ p ∈ ([.quarantine, .sessions, .checks, .sealed, .err, .levels, .jic, .ctr, .samples, .frc,
      .groups, .ports, .hostQueue, .esh, .replies, .hpe, .pounce, .dbg, .hlk, .rx, .sas, .pols, .out] : List Part), p ∈ pl) :
      Changes pl z0 (powerNotGood g s) := by
  unfold powerNotGood
  repeat' (first
      | with_reducible assumption | with_reducible exact Changes.sub hpl (by decide) | with_reducible apply errorAt_frame
      | with_reducible apply fenceGroup_frame | dsimp only | split)

theorem idleExpiry_frame {pl : List Part} {z0 : State} {g : Nat} {s : State}
    (hz : Changes pl z0 s) (hpl : ∀ p ∈ ([.quarantine, .sessions, .checks, .sealed, .err, .levels, .jic, .ctr, .samples, .frc,
      .groups, .ports, .hostQueue, .esh, .replies, .hpe, .pounce, .dbg, .hlk, .rx, .sas, .pols, .out] : List Part), p ∈ pl) :
      Changes pl z0 (idleExpiry g s) := by
  unfold idleExpiry
  repeat' (first
      | with_reducible assumption | with_reducible exact Changes.sub hpl (by decide) | with_reducible apply gateStart_frame
      | dsimp only | split)

theorem probeWake_frame {pl : List Part} {z0 : State} {g : Nat} {s : State}
    (hz : Changes pl z0 s) (hpl : ∀ p ∈ ([.groups] : List Part), p ∈ pl) : Changes pl z0 (probeWake g s) := by
  unfold probeWake
  repeat' (first
      | with_reducible assumption | with_reducible exact Changes.sub hpl (by decide) | with_reducible apply putGroup_frame
      | dsimp only | split)

theorem probeHoldExpiry_frame {pl : List Part} {z0 : State} {g : Nat} {s : State}
    (hz : Changes pl z0 s) (hpl : ∀ p ∈ ([.groups] : List Part), p ∈ pl) : Changes pl z0 (probeHoldExpiry g s) := by
  unfold probeHoldExpiry
  repeat' (first
      | with_reducible assumption | with_reducible exact Changes.sub hpl (by decide) | with_reducible apply putGroup_frame
      | dsimp only | split)

theorem setLatch_frame {pl : List Part} {z0 : State} {lane : Nat} {s : State}
    (hz : Changes pl z0 s) (hpl : ∀ p ∈ ([.groups] : List Part), p ∈ pl) : Changes pl z0 (setLatch lane s) := by
  unfold setLatch
  repeat' (first
      | with_reducible assumption | with_reducible exact Changes.sub hpl (by decide) | with_reducible apply putGroup_frame
      | dsimp only | split)

theorem sdGlitch_frame {pl : List Part} {z0 : State} {lane : Nat} {s : State}
    (hz : Changes pl z0 s) (hpl : ∀ p ∈ ([.ctr] : List Part), p ∈ pl) : Changes pl z0 (sdGlitch lane s) := by
  unfold sdGlitch
  repeat' (first
      | with_reducible assumption | with_reducible exact Changes.sub hpl (by decide) | with_reducible apply tallyAt_frame
      | dsimp only | split)

theorem laneChanged_frame {pl : List Part} {z0 : State} {lane : Nat} {l : Lane} {s : State}
    (hz : Changes pl z0 s) (hpl : ∀ p ∈ ([.quarantine, .sessions, .sealed, .err, .levels, .jic, .ctr, .samples, .frc, .groups,
      .lanes, .ports, .hostQueue, .esh, .replies, .hpe, .pounce, .dbg, .hlk, .sas, .out] : List Part), p ∈ pl) : Changes pl z0
      (laneChanged lane l s) := by
  unfold laneChanged
  repeat' (first
      | with_reducible assumption | with_reducible exact Changes.sub hpl (by decide) | with_reducible apply lanePortCheck_frame
      | with_reducible apply putLane_frame | with_reducible apply setLatch_frame | dsimp only | split)

theorem signalDetect_frame {pl : List Part} {z0 : State} {lane : Nat} {level : Bool} {heldNs : Nat} {s : State}
    (hz : Changes pl z0 s) (hpl : ∀ p ∈ ([.quarantine, .sessions, .sealed, .err, .levels, .jic, .ctr, .samples, .frc, .groups,
      .lanes, .ports, .hostQueue, .esh, .replies, .hpe, .pounce, .dbg, .hlk, .sas, .out] : List Part), p ∈ pl) : Changes pl z0
      (signalDetect lane level heldNs s) := by
  unfold signalDetect
  repeat' (first
      | with_reducible assumption | with_reducible exact Changes.sub hpl (by decide) | with_reducible apply sdGlitch_frame
      | with_reducible apply laneChanged_frame | dsimp only | split)

theorem laneLockChange_frame {pl : List Part} {z0 : State} {lane : Nat} {rxLock txReady : Bool} {heldNs : Nat} {s : State}
    (hz : Changes pl z0 s) (hpl : ∀ p ∈ ([.quarantine, .sessions, .sealed, .err, .levels, .jic, .ctr, .samples, .frc, .groups,
      .lanes, .ports, .hostQueue, .esh, .replies, .hpe, .pounce, .dbg, .hlk, .sas, .out] : List Part), p ∈ pl) : Changes pl z0
      (laneLockChange lane rxLock txReady heldNs s) := by
  unfold laneLockChange
  repeat' (first
      | with_reducible assumption | with_reducible exact Changes.sub hpl (by decide) | with_reducible apply laneChanged_frame
      | with_reducible apply sdGlitch_frame | dsimp only | split)

theorem bootPair_frame {pl : List Part} {z0 : State} {s : State}
    (hz : Changes pl z0 s) (hpl : ∀ p ∈ ([.cfg, .hpe] : List Part), p ∈ pl) : Changes pl z0 (bootPair s) := by
  unfold bootPair
  repeat' (first
      | with_reducible assumption | with_reducible exact Changes.sub hpl (by decide) | with_reducible apply putRing_frame
      | dsimp only | split | with_reducible apply upd_cfg)

theorem enterLocked_frame {pl : List Part} {z0 : State} {s : State}
    (hz : Changes pl z0 s) (hpl : ∀ p ∈ ([.sessions, .cfg, .ctr, .ports, .hpe] : List Part), p ∈ pl) : Changes pl z0
      (enterLocked s) := by
  unfold enterLocked
  repeat' (first
      | with_reducible assumption | with_reducible exact Changes.sub hpl (by decide) | with_reducible apply bootPair_frame
      | with_reducible apply bringupFail_frame | with_reducible apply endSessions_frame
      | (with_reducible apply Changes.foldl_frame; rotate_left; intro _ _ _) | dsimp only | split)

theorem setBase_frame {pl : List Part} {z0 : State} {b : Base} {s : State}
    (hz : Changes pl z0 s) (hpl : ∀ p ∈ ([.mode, .quarantine, .sessions, .checks, .sealed, .cfg, .err, .levels, .jic, .ctr,
      .samples, .frc, .groups, .ports, .hostQueue, .esh, .replies, .hpe, .pounce, .dbg, .hlk, .rx, .sas, .pols, .out] : List
      Part), p ∈ pl) : Changes pl z0 (setBase b s) := by
  unfold setBase
  repeat' (first
      | with_reducible assumption | with_reducible exact Changes.sub hpl (by decide) | with_reducible apply powerUpdate_frame
      | with_reducible apply enterLocked_frame | dsimp only | split
      | with_reducible refine upd_mode'mode'quarantine (by with_reducible rfl) ?_ ?_)

theorem modeRequest_frame {pl : List Part} {z0 : State} {b : ModeRequestBody} {s : State}
    (hz : Changes pl z0 s) (hpl : ∀ p ∈ ([.mode, .quarantine, .sessions, .checks, .sealed, .cfg, .err, .levels, .jic, .ctr,
      .samples, .frc, .groups, .ports, .hostQueue, .esh, .replies, .hpe, .pounce, .dbg, .hlk, .rx, .sas, .pols, .out] : List
      Part), p ∈ pl) : Changes pl z0 (modeRequest b s) := by
  unfold modeRequest
  repeat' (first
      | with_reducible assumption | with_reducible exact Changes.sub hpl (by decide) | with_reducible apply raiseEvent_frame
      | with_reducible apply setBase_frame | dsimp only | split
      | with_reducible refine upd_mode'mode (by with_reducible rfl) (by with_reducible rfl) ?_ ?_)

theorem endDrain_frame {pl : List Part} {z0 : State} {d : Drain} {s : State}
    (hz : Changes pl z0 s) (hpl : ∀ p ∈ ([.mode, .quarantine, .sessions, .checks, .sealed, .cfg, .err, .levels, .jic, .ctr,
      .samples, .frc, .groups, .ports, .hostQueue, .esh, .replies, .hpe, .pounce, .dbg, .hlk, .rx, .sas, .pols, .out] : List
      Part), p ∈ pl) : Changes pl z0 (endDrain d s) := by
  unfold endDrain
  repeat' (first
      | with_reducible assumption | with_reducible exact Changes.sub hpl (by decide) | with_reducible apply raiseEvent_frame
      | with_reducible apply powerUpdate_frame | with_reducible apply enterLocked_frame | dsimp only | split
      | with_reducible refine upd_mode'mode (by with_reducible rfl) (by with_reducible rfl) ?_ ?_)

theorem drainComplete_frame {pl : List Part} {z0 : State} {s : State}
    (hz : Changes pl z0 s) (hpl : ∀ p ∈ ([.mode, .quarantine, .sessions, .checks, .sealed, .cfg, .err, .levels, .jic, .ctr,
      .samples, .frc, .groups, .ports, .hostQueue, .esh, .replies, .hpe, .pounce, .dbg, .hlk, .rx, .sas, .pols, .out] : List
      Part), p ∈ pl) : Changes pl z0 (drainComplete s) := by
  unfold drainComplete
  repeat' (first
      | with_reducible assumption | with_reducible exact Changes.sub hpl (by decide) | with_reducible apply endDrain_frame
      | dsimp only | split)

theorem drainTimeout_frame {pl : List Part} {z0 : State} {s : State}
    (hz : Changes pl z0 s) (hpl : ∀ p ∈ ([.mode, .quarantine, .sessions, .checks, .sealed, .cfg, .err, .levels, .jic, .ctr,
      .samples, .frc, .groups, .ports, .hostQueue, .esh, .replies, .hpe, .pounce, .dbg, .hlk, .rx, .sas, .pols, .out] : List
      Part), p ∈ pl) : Changes pl z0 (drainTimeout s) := by
  unfold drainTimeout
  repeat' (first
      | with_reducible assumption | with_reducible exact Changes.sub hpl (by decide) | with_reducible apply endDrain_frame
      | with_reducible apply errorAt_frame | dsimp only | split)

/-! ## Errors -/

theorem ackUnit_frame {pl : List Part} {z0 : State} {u : Nat} {s : State}
    (hz : Changes pl z0 s) (hpl : ∀ p ∈ ([.err] : List Part), p ∈ pl) : Changes pl z0 (ackUnit u s) := by
  unfold ackUnit
  repeat' (first
      | with_reducible assumption | with_reducible exact Changes.sub hpl (by decide) | dsimp only | split
      | with_reducible apply upd_err)

theorem escalate_frame {pl : List Part} {z0 : State} {u : Nat} {s : State}
    (hz : Changes pl z0 s) (hpl : ∀ p ∈ ([.err] : List Part), p ∈ pl) : Changes pl z0 (escalate u s) := by
  unfold escalate
  repeat' (first
      | with_reducible assumption | with_reducible exact Changes.sub hpl (by decide) | with_reducible apply putUnit_frame
      | dsimp only | split)

theorem eraseStore_frame {pl : List Part} {z0 : State} {s : State}
    (hz : Changes pl z0 s) (hpl : ∀ p ∈ ([.out] : List Part), p ∈ pl) : Changes pl z0 (eraseStore s) := by
  unfold eraseStore
  repeat' (first
      | with_reducible assumption | with_reducible exact Changes.sub hpl (by decide) | with_reducible apply emits_frame)

theorem eraseKeys_frame {pl : List Part} {z0 : State} {s : State}
    (hz : Changes pl z0 s) (hpl : ∀ p ∈ ([.sessions, .hood, .frc, .sas] : List Part), p ∈ pl) : Changes pl z0 (eraseKeys s) := by
  unfold eraseKeys
  repeat' (first
      | with_reducible assumption | with_reducible exact Changes.sub hpl (by decide) | with_reducible apply putSa_frame
      | with_reducible apply endSessions_frame | (with_reducible apply Changes.foldl_frame; rotate_left; intro _ _ _)
      | dsimp only | split | with_reducible apply upd_hood)

theorem erasePages_frame {pl : List Part} {z0 : State} {s : State}
    (hz : Changes pl z0 s) (hpl : ∀ p ∈ ([.hood, .hlk] : List Part), p ∈ pl) : Changes pl z0 (erasePages s) := by
  unfold erasePages
  repeat' (first
      | with_reducible assumption | with_reducible exact Changes.sub hpl (by decide) | dsimp only | split
      | with_reducible apply upd_hood_hlk)

theorem burnZeroize_frame {pl : List Part} {z0 : State} {s : State}
    (hz : Changes pl z0 s) (hpl : ∀ p ∈ ([.fuses, .out] : List Part), p ∈ pl) : Changes pl z0 (burnZeroize s) := by
  unfold burnZeroize
  repeat' (first
      | with_reducible assumption | with_reducible exact Changes.sub hpl (by decide) | with_reducible apply emit_frame
      | dsimp only | split | with_reducible apply upd_fuses)

theorem restRanks_frame {pl : List Part} {z0 : State} {on : Bool} {s0 : State}
    (hz : Changes pl z0 s0) (hpl : ∀ p ∈ ([.smc, .out] : List Part), p ∈ pl) : Changes pl z0 (restRanks on s0) := by
  unfold restRanks
  repeat' (first
      | with_reducible assumption | with_reducible exact Changes.sub hpl (by decide) | with_reducible apply emits_frame
      | dsimp only | split | with_reducible refine upd_smc'smc (by with_reducible rfl) ?_ ?_)

theorem enterZeroized_frame {pl : List Part} {z0 : State} {s : State}
    (hz : Changes pl z0 s) (hpl : ∀ p ∈ ([.mode, .quarantine, .sessions, .checks, .sealed, .cpx, .err, .levels, .jic, .ctr,
      .samples, .smc, .frc, .groups, .ports, .hostQueue, .esh, .replies, .hpe, .pounce, .dbg, .hlk, .rx, .sas, .pols, .out] :
      List Part), p ∈ pl) : Changes pl z0 (enterZeroized s) := by
  unfold enterZeroized
  repeat' (first
      | with_reducible assumption | with_reducible exact Changes.sub hpl (by decide) | with_reducible apply restRanks_frame
      | with_reducible apply gateLink_frame | with_reducible apply putGroup_frame | with_reducible apply settleAll_frame
      | with_reducible apply cutReception_frame | with_reducible apply closeLevel_frame
      | with_reducible apply discardPending_frame | (with_reducible apply Changes.foldl_frame; rotate_left; intro _ _ _)
      | dsimp only | split | with_reducible refine upd_cpx'checks'cpx (by with_reducible rfl) (by with_reducible rfl) ?_ ?_
      | with_reducible refine upd_mode'mode_dbg'dbg (by with_reducible rfl) (by with_reducible rfl) (by with_reducible rfl) ?_ ?_)

theorem zeroize_frame {pl : List Part} {z0 : State} {s : State}
    (hz : Changes pl z0 s) (hpl : ∀ p ∈ ([.mode, .quarantine, .fuses, .sessions, .checks, .sealed, .cpx, .hood, .err, .levels,
      .jic, .ctr, .samples, .smc, .frc, .groups, .ports, .hostQueue, .esh, .replies, .hpe, .pounce, .dbg, .hlk, .rx, .sas,
      .pols, .out] : List Part), p ∈ pl) : Changes pl z0 (zeroize s) := by
  unfold zeroize
  repeat' (first
      | with_reducible assumption | with_reducible exact Changes.sub hpl (by decide) | with_reducible apply enterZeroized_frame
      | with_reducible apply eraseStore_frame | with_reducible apply burnZeroize_frame | with_reducible apply erasePages_frame
      | with_reducible apply eraseKeys_frame | dsimp only | split)

theorem fatalCheck_frame {pl : List Part} {z0 : State} {w : FatalCheck} {s : State}
    (hz : Changes pl z0 s) (hpl : ∀ p ∈ ([.mode, .quarantine, .fuses, .sessions, .checks, .sealed, .cpx, .hood, .err, .levels,
      .jic, .ctr, .samples, .smc, .frc, .groups, .ports, .hostQueue, .esh, .replies, .hpe, .pounce, .dbg, .hlk, .rx, .sas,
      .pols, .out] : List Part), p ∈ pl) : Changes pl z0 (fatalCheck w s) := by
  unfold fatalCheck
  repeat' (first
      | with_reducible assumption | with_reducible exact Changes.sub hpl (by decide) | with_reducible apply zeroize_frame
      | with_reducible apply errorAt_frame | dsimp only | split)

theorem logFailure_frame {pl : List Part} {z0 : State} {cls : Nat} {s : State}
    (hz : Changes pl z0 s) (hpl : ∀ p ∈ ([.quarantine, .sessions, .sealed, .err, .frc, .pounce, .dbg] : List Part), p ∈ pl) :
      Changes pl z0 (logFailure cls s) := by
  unfold logFailure
  repeat' (first
      | with_reducible assumption | with_reducible exact Changes.sub hpl (by decide) | with_reducible apply errorAt_frame
      | dsimp only | split | with_reducible apply upd_err)

theorem logTimeout_frame {pl : List Part} {z0 : State} {s : State}
    (hz : Changes pl z0 s) (hpl : ∀ p ∈ ([.quarantine, .sessions, .sealed, .err, .frc, .pounce, .dbg] : List Part), p ∈ pl) :
      Changes pl z0 (logTimeout s) := by
  unfold logTimeout
  repeat' (first
      | with_reducible assumption | with_reducible exact Changes.sub hpl (by decide) | with_reducible apply logFailure_frame
      | dsimp only | split)

theorem logWriteError_frame {pl : List Part} {z0 : State} {s : State}
    (hz : Changes pl z0 s) (hpl : ∀ p ∈ ([.quarantine, .sessions, .sealed, .err, .frc, .pounce, .dbg] : List Part), p ∈ pl) :
      Changes pl z0 (logWriteError s) := by
  unfold logWriteError
  repeat' (first
      | with_reducible assumption | with_reducible exact Changes.sub hpl (by decide) | with_reducible apply logFailure_frame
      | dsimp only | split)

theorem fenceSecurity_frame {pl : List Part} {z0 : State} {g : Nat} {s : State}
    (hz : Changes pl z0 s) (hpl : ∀ p ∈ ([.quarantine, .sessions, .checks, .sealed, .err, .levels, .jic, .ctr, .samples, .frc,
      .groups, .ports, .hostQueue, .esh, .replies, .hpe, .pounce, .dbg, .hlk, .rx, .sas, .pols, .out] : List Part), p ∈ pl) :
      Changes pl z0 (fenceSecurity g s) := by
  unfold fenceSecurity
  repeat' (first
      | with_reducible assumption | with_reducible exact Changes.sub hpl (by decide) | with_reducible apply fenceGroup_frame
      | with_reducible apply putSa_frame | (with_reducible apply Changes.foldl_frame; rotate_left; intro _ _ _))

theorem killObj_frame {pl : List Part} {z0 : State} {o : ShaperObj} {s : State}
    (hz : Changes pl z0 s) (hpl : ∀ p ∈ ([.esh] : List Part), p ∈ pl) : Changes pl z0 (killObj o s) := by
  unfold killObj
  repeat' (first
      | with_reducible assumption | with_reducible exact Changes.sub hpl (by decide) | with_reducible apply putObj_frame)

theorem killContext_frame {pl : List Part} {z0 : State} {c : Nat} {s : State}
    (hz : Changes pl z0 s) (hpl : ∀ p ∈ ([.pols] : List Part), p ∈ pl) : Changes pl z0 (killContext c s) := by
  unfold killContext
  repeat' (first
      | with_reducible assumption | with_reducible exact Changes.sub hpl (by decide) | dsimp only | split
      | with_reducible apply upd_pols)

theorem zeroCounter_frame {pl : List Part} {z0 : State} {k : Nat} {s : State}
    (hz : Changes pl z0 s) (hpl : ∀ p ∈ ([.ctr, .tel] : List Part), p ∈ pl) : Changes pl z0 (zeroCounter k s) := by
  unfold zeroCounter
  repeat' (first
      | with_reducible assumption | with_reducible exact Changes.sub hpl (by decide) | dsimp only | split
      | with_reducible refine upd_tel'ctr'tel (by with_reducible rfl) (by with_reducible rfl) ?_ ?_)

theorem sramError_frame {pl : List Part} {z0 : State} {bank : Nat} {h : SramHit} {s : State}
    (hz : Changes pl z0 s) (hpl : ∀ p ∈ ([.quarantine, .sessions, .checks, .sealed, .err, .levels, .jic, .ctr, .samples, .tel,
      .frc, .groups, .ports, .hostQueue, .esh, .replies, .hpe, .pounce, .dbg, .hlk, .rx, .sas, .pols, .out] : List Part),
      p ∈ pl) : Changes pl z0 (sramError bank h s) := by
  unfold sramError
  repeat' (first
      | with_reducible assumption | with_reducible exact Changes.sub hpl (by decide) | with_reducible apply errorAt_frame
      | with_reducible apply fenceSecurity_frame | with_reducible apply killContext_frame | with_reducible apply killObj_frame
      | with_reducible apply zeroCounter_frame | dsimp only | split)

theorem muteAll_frame {pl : List Part} {z0 : State} {s : State}
    (hz : Changes pl z0 s) (hpl : ∀ p ∈ ([.tsu, .checks, .hood, .frc, .xdma, .replies, .hpe] : List Part), p ∈ pl) : Changes
      pl z0 (muteAll s) := by
  unfold muteAll
  repeat' (first
      | with_reducible assumption | with_reducible exact Changes.sub hpl (by decide) | dsimp only | split
      | with_reducible refine upd_tsu_cpx'checks_hood_frc_xdma_hpe (by with_reducible rfl) (by with_reducible rfl) (by with_reducible rfl) ?_ ?_)

theorem restartCpx_frame {pl : List Part} {z0 : State} {s : State}
    (hz : Changes pl z0 s) (hpl : ∀ p ∈ ([.tsu, .sessions, .checks, .cpx, .hood, .frc, .xdma, .replies, .hpe] : List Part),
      p ∈ pl) : Changes pl z0 (restartCpx s) := by
  unfold restartCpx
  repeat' (first
      | with_reducible assumption | with_reducible exact Changes.sub hpl (by decide) | with_reducible apply endSessions_frame
      | with_reducible apply muteAll_frame | dsimp only | split
      | with_reducible refine upd_cpx'cpx (by with_reducible rfl) (by with_reducible rfl) (by with_reducible rfl) ?_ ?_)

theorem lockstepError_frame {pl : List Part} {z0 : State} {s : State}
    (hz : Changes pl z0 s) (hpl : ∀ p ∈ ([.quarantine, .tsu, .sessions, .checks, .sealed, .cpx, .hood, .err, .frc, .xdma,
      .replies, .hpe, .pounce, .dbg] : List Part), p ∈ pl) : Changes pl z0 (lockstepError s) := by
  unfold lockstepError
  repeat' (first
      | with_reducible assumption | with_reducible exact Changes.sub hpl (by decide) | with_reducible apply restartCpx_frame
      | with_reducible apply errorAt_frame | dsimp only | split
      | with_reducible refine upd_cpx'cpx (by with_reducible rfl) (by with_reducible rfl) (by with_reducible rfl) ?_ ?_)

theorem restartDone_frame {pl : List Part} {z0 : State} {s : State}
    (hz : Changes pl z0 s) (hpl : ∀ p ∈ ([.cpx] : List Part), p ∈ pl) : Changes pl z0 (restartDone s) := by
  unfold restartDone
  repeat' (first
      | with_reducible assumption | with_reducible exact Changes.sub hpl (by decide) | dsimp only | split
      | with_reducible refine upd_cpx'cpx (by with_reducible rfl) (by with_reducible rfl) (by with_reducible rfl) ?_ ?_)

theorem contain_frame {pl : List Part} {z0 : State} {unit code inst d : Nat} {s : State}
    (hz : Changes pl z0 s) (hpl : ∀ p ∈ ([.quarantine, .tsu, .sessions, .checks, .sealed, .cpx, .hood, .err, .levels, .jic,
      .ctr, .samples, .frc, .xdma, .groups, .ports, .hostQueue, .esh, .replies, .hpe, .pounce, .dbg, .hlk, .rx, .sas, .pols,
      .out] : List Part), p ∈ pl) : Changes pl z0 (contain unit code inst d s) := by
  unfold contain
  repeat' (first
      | with_reducible assumption | with_reducible exact Changes.sub hpl (by decide) | with_reducible apply killObj_frame
      | with_reducible apply fenceSecurity_frame | with_reducible apply killContext_frame | with_reducible apply putRegion_frame
      | with_reducible apply fenceGroup_frame | with_reducible apply restartCpx_frame | dsimp only | split)

theorem injectError_frame {pl : List Part} {z0 : State} {unit sev : Nat} {s : State}
    (hz : Changes pl z0 s) (hpl : ∀ p ∈ ([.quarantine, .tsu, .sessions, .checks, .sealed, .cpx, .hood, .err, .levels, .jic,
      .ctr, .samples, .frc, .xdma, .groups, .ports, .hostQueue, .esh, .replies, .hpe, .pounce, .dbg, .hlk, .rx, .sas, .pols,
      .out, .draws] : List Part), p ∈ pl) : Changes pl z0 (injectError unit sev s) := by
  unfold injectError
  repeat' (first
      | with_reducible assumption | with_reducible exact Changes.sub hpl (by decide) | with_reducible apply contain_frame
      | with_reducible apply errorWith_frame | dsimp only | split | with_reducible apply upd_draws)

theorem writeStore_frame {pl : List Part} {z0 : State} {c : StoreChange} {ctx : Option ReplyCtx} {s : State}
    (hz : Changes pl z0 s) (hpl : ∀ p ∈ ([.hood, .out] : List Part), p ∈ pl) : Changes pl z0 (writeStore c ctx s) := by
  unfold writeStore
  repeat' (first
      | with_reducible assumption | with_reducible exact Changes.sub hpl (by decide) | with_reducible apply emit_frame
      | dsimp only | split | with_reducible apply upd_hood)

theorem endKeySessions_frame {pl : List Part} {z0 : State} {k : Nat} {s : State}
    (hz : Changes pl z0 s) (hpl : ∀ p ∈ ([.sessions] : List Part), p ∈ pl) : Changes pl z0 (endKeySessions k s) := by
  unfold endKeySessions
  repeat' (first
      | with_reducible assumption | with_reducible exact Changes.sub hpl (by decide) | dsimp only | split
      | with_reducible refine upd_cpx'sessions (by with_reducible rfl) (by with_reducible rfl) (by with_reducible rfl) ?_ ?_)

theorem keyEvent_frame {pl : List Part} {z0 : State} {k act : Nat} {s : State}
    (hz : Changes pl z0 s) (hpl : ∀ p ∈ ([.frc] : List Part), p ∈ pl) : Changes pl z0 (keyEvent k act s) := by
  unfold keyEvent
  repeat' (first
      | with_reducible assumption | with_reducible exact Changes.sub hpl (by decide) | with_reducible apply eventRecord_frame)

theorem dropIssued_frame {pl : List Part} {z0 : State} {k : Nat} {s : State}
    (hz : Changes pl z0 s) (hpl : ∀ p ∈ ([.hood] : List Part), p ∈ pl) : Changes pl z0 (dropIssued k s) := by
  unfold dropIssued
  repeat' (first
      | with_reducible assumption | with_reducible exact Changes.sub hpl (by decide) | dsimp only | split
      | with_reducible apply upd_hood)

theorem storeApplied_frame {pl : List Part} {z0 : State} {q : StoreOp} {s : State}
    (hz : Changes pl z0 s) (hpl : ∀ p ∈ ([.sessions, .hood, .ctr, .frc, .hostQueue, .replies, .pounce, .dbg, .hlk, .out] :
      List Part), p ∈ pl) : Changes pl z0 (storeApplied q s) := by
  unfold storeApplied
  repeat' (first
      | with_reducible assumption | with_reducible exact Changes.sub hpl (by decide) | with_reducible apply endKeySessions_frame
      | with_reducible apply answer_frame | with_reducible apply keyEvent_frame | with_reducible apply closeLevel_frame
      | with_reducible apply dropIssued_frame | dsimp only | split | with_reducible apply upd_hood)

theorem storeAnswered_frame {pl : List Part} {z0 : State} {bad timeout : Bool} {s : State}
    (hz : Changes pl z0 s) (hpl : ∀ p ∈ ([.quarantine, .sessions, .sealed, .hood, .err, .ctr, .frc, .hostQueue, .replies,
      .pounce, .dbg, .hlk, .out] : List Part), p ∈ pl) : Changes pl z0 (storeAnswered bad timeout s) := by
  unfold storeAnswered
  repeat' (first
      | with_reducible assumption | with_reducible exact Changes.sub hpl (by decide) | with_reducible apply storeApplied_frame
      | with_reducible apply answer_frame | with_reducible apply errorAt_frame | dsimp only | split
      | with_reducible apply upd_hood)

theorem hpeBusError_frame {pl : List Part} {z0 : State} {key : Nat} {timeout : Bool} {s : State}
    (hz : Changes pl z0 s) (hpl : ∀ p ∈ ([.quarantine, .sessions, .sealed, .err, .frc, .pounce, .dbg] : List Part), p ∈ pl) :
      Changes pl z0 (hpeBusError key timeout s) := by
  unfold hpeBusError
  repeat' (first
      | with_reducible assumption | with_reducible exact Changes.sub hpl (by decide) | with_reducible apply errorAt_frame)

theorem cplAnswered_frame {pl : List Part} {z0 : State} {key : Nat} {bad timeout : Bool} {s : State}
    (hz : Changes pl z0 s) (hpl : ∀ p ∈ ([.quarantine, .sessions, .sealed, .err, .levels, .jic, .ctr, .samples, .frc,
      .hostQueue, .replies, .hpe, .pounce, .dbg, .hlk, .out] : List Part), p ∈ pl) : Changes pl z0 (cplAnswered key bad timeout
      s) := by
  unfold cplAnswered
  repeat' (first
      | with_reducible assumption | with_reducible exact Changes.sub hpl (by decide) | with_reducible apply ringError_frame
      | with_reducible apply putRing_frame | dsimp only | split)

theorem hostAnswered_frame {pl : List Part} {z0 : State} {a : HostAccess} {bad timeout : Bool} {s : State}
    (hz : Changes pl z0 s) (hpl : ∀ p ∈ ([.quarantine, .sessions, .sealed, .hood, .err, .levels, .jic, .ctr, .samples, .tel,
      .frc, .xdma, .hostQueue, .replies, .hpe, .pounce, .dbg, .hlk, .out] : List Part), p ∈ pl) : Changes pl z0 (hostAnswered a
      bad timeout s) := by
  unfold hostAnswered
  repeat' (first
      | with_reducible assumption | with_reducible exact Changes.sub hpl (by decide) | with_reducible apply ringError_frame
      | with_reducible apply hpeBusError_frame | with_reducible apply dataWritten_frame | with_reducible apply cplAnswered_frame
      | with_reducible apply battFail_frame | with_reducible apply xdmaAnswered_frame | with_reducible apply storeAnswered_frame
      | with_reducible apply errorAt_frame | dsimp only | split)

theorem masterResponse_frame {pl : List Part} {z0 : State} {a : HostAccess} {bad : Bool} {s : State}
    (hz : Changes pl z0 s) (hpl : ∀ p ∈ ([.quarantine, .sessions, .sealed, .hood, .err, .levels, .jic, .ctr, .samples, .tel,
      .frc, .xdma, .hostQueue, .replies, .hpe, .pounce, .dbg, .hlk, .out, .draws] : List Part), p ∈ pl) : Changes pl z0
      (masterResponse a bad s) := by
  unfold masterResponse
  repeat' (first
      | with_reducible assumption | with_reducible exact Changes.sub hpl (by decide)
      | with_reducible refine pounceFires_of (by assumption) ?_ ?_ | with_reducible apply pounceFires_frame
      | with_reducible apply hostAnswered_frame | dsimp only | split)

theorem responseTimeout_frame {pl : List Part} {z0 : State} {a : HostAccess} {s : State}
    (hz : Changes pl z0 s) (hpl : ∀ p ∈ ([.quarantine, .sessions, .sealed, .hood, .err, .levels, .jic, .ctr, .samples, .tel,
      .frc, .xdma, .hostQueue, .replies, .hpe, .pounce, .dbg, .hlk, .out] : List Part), p ∈ pl) : Changes pl z0 (responseTimeout
      a s) := by
  unfold responseTimeout
  repeat' (first
      | with_reducible assumption | with_reducible exact Changes.sub hpl (by decide) | with_reducible apply hostAnswered_frame
      | dsimp only | split)

/-! ## Trust -/

theorem revokeDelegated_frame {pl : List Part} {z0 : State} {k : Nat} {s : State}
    (hz : Changes pl z0 s) (hpl : ∀ p ∈ ([.hood, .frc] : List Part), p ∈ pl) : Changes pl z0 (revokeDelegated k s) := by
  unfold revokeDelegated
  repeat' (first
      | with_reducible assumption | with_reducible exact Changes.sub hpl (by decide) | with_reducible apply keyEvent_frame
      | dsimp only | split | with_reducible apply upd_hood)

theorem advanceTo_frame {pl : List Part} {z0 : State} {dst : Nat} {s : State}
    (hz : Changes pl z0 s) (hpl : ∀ p ∈ ([.fuses, .sessions, .frc, .pounce, .dbg, .out] : List Part), p ∈ pl) : Changes pl z0
      (advanceTo dst s) := by
  unfold advanceTo
  repeat' (first
      | with_reducible assumption | with_reducible exact Changes.sub hpl (by decide) | with_reducible apply endSessions_frame
      | with_reducible apply emit_frame | with_reducible apply eventRecord_frame | with_reducible apply closeLevel_frame
      | dsimp only | split | with_reducible apply upd_fuses)

theorem lockBase_frame {pl : List Part} {z0 : State} {s : State}
    (hz : Changes pl z0 s) (hpl : ∀ p ∈ ([.mode, .quarantine, .sessions, .checks, .sealed, .cfg, .err, .levels, .jic, .ctr,
      .samples, .frc, .groups, .ports, .hostQueue, .esh, .replies, .hpe, .pounce, .dbg, .hlk, .rx, .sas, .pols, .out] : List
      Part), p ∈ pl) : Changes pl z0 (lockBase s) := by
  unfold lockBase
  repeat' (first
      | with_reducible assumption | with_reducible exact Changes.sub hpl (by decide) | with_reducible apply setBase_frame
      | dsimp only | split | with_reducible refine upd_mode'quarantine (by with_reducible rfl) (by with_reducible rfl) ?_ ?_)

theorem enterReturned_frame {pl : List Part} {z0 : State} {ctx : ReplyCtx} {s : State}
    (hz : Changes pl z0 s) (hpl : ∀ p ∈ ([.mode, .quarantine, .sessions, .checks, .sealed, .hood, .cfg, .err, .levels, .jic,
      .ctr, .samples, .frc, .groups, .ports, .hostQueue, .esh, .replies, .hpe, .pounce, .dbg, .hlk, .rx, .sas, .pols, .out] :
      List Part), p ∈ pl) : Changes pl z0 (enterReturned ctx s) := by
  unfold enterReturned
  repeat' (first
      | with_reducible assumption | with_reducible exact Changes.sub hpl (by decide) | with_reducible apply writeStore_frame
      | with_reducible apply lockBase_frame | with_reducible apply eraseKeys_frame)

theorem activateDone_frame {pl : List Part} {z0 : State} {ok : Bool} {s : State}
    (hz : Changes pl z0 s) (hpl : ∀ p ∈ ([.quarantine, .sessions, .sealed, .cpx, .err, .levels, .jic, .frc, .pounce, .dbg,
      .draws] : List Part), p ∈ pl) : Changes pl z0 (activateDone ok s) := by
  unfold activateDone
  split
  · exact hz
  · split
    · exact hz
    · have h1 : Changes pl z0 { s with cpx := { s.cpx with activation := none, restart := none } } :=
        upd_cpx'cpx rfl rfl rfl hz (Changes.sub hpl (by decide))
      cases ok
      · exact errorAt_frame (upd_draws h1 (Changes.sub hpl (by decide))) (Changes.sub hpl (by decide))
      · exact raiseEvent_frame (upd_cpx'cpx rfl rfl rfl h1 (Changes.sub hpl (by decide))) (Changes.sub hpl (by decide))

/-! ## DebugUnit -/

theorem freezeAfterReply_frame {pl : List Part} {z0 : State} {ctx : ReplyCtx} {s : State}
    (hz : Changes pl z0 s) (hpl : ∀ p ∈ ([.ctr, .hostQueue, .replies, .pounce, .dbg, .hlk, .out] : List Part), p ∈ pl) :
      Changes pl z0 (freezeAfterReply ctx s) := by
  unfold freezeAfterReply
  repeat' (first
      | with_reducible assumption | with_reducible exact Changes.sub hpl (by decide) | with_reducible apply answer_frame
      | with_reducible apply triggerFreeze_frame | dsimp only | split
      | with_reducible refine upd_dbg'dbg (by with_reducible rfl) ?_ ?_)

theorem inputActs_frame {pl : List Part} {z0 : State} {s : State}
    (hz : Changes pl z0 s) (hpl : ∀ p ∈ ([.err, .pounce, .dbg] : List Part), p ∈ pl) : Changes pl z0 (inputActs s) := by
  unfold inputActs
  repeat' (first
      | with_reducible assumption | with_reducible exact Changes.sub hpl (by decide) | with_reducible apply triggerFreeze_frame
      | with_reducible apply dbgNote_frame | dsimp only | split)

theorem freezeInput_frame {pl : List Part} {z0 : State} {s : State}
    (hz : Changes pl z0 s) (hpl : ∀ p ∈ ([.err, .pounce, .dbg] : List Part), p ∈ pl) : Changes pl z0 (freezeInput s) := by
  unfold freezeInput
  repeat' (first
      | with_reducible assumption | with_reducible exact Changes.sub hpl (by decide) | with_reducible apply inputActs_frame
      | dsimp only | split | with_reducible refine upd_dbg'dbg (by with_reducible rfl) ?_ ?_)

theorem restartPort_frame {pl : List Part} {z0 : State} {p : Nat} {s : State}
    (hz : Changes pl z0 s) (hpl : ∀ p ∈ ([.quarantine, .sessions, .sealed, .err, .levels, .jic, .ctr, .samples, .frc, .groups,
      .ports, .hostQueue, .esh, .replies, .hpe, .pounce, .dbg, .hlk, .sas, .out] : List Part), p ∈ pl) : Changes pl z0
      (restartPort p s) := by
  unfold restartPort
  repeat' (first
      | with_reducible assumption | with_reducible exact Changes.sub hpl (by decide) | with_reducible apply putPort_frame
      | with_reducible apply gateLink_frame)

theorem endFreeze_frame {pl : List Part} {z0 : State} {s : State}
    (hz : Changes pl z0 s) (hpl : ∀ p ∈ ([.quarantine, .tsu, .sessions, .sealed, .err, .levels, .jic, .ctr, .samples, .smc,
      .frc, .groups, .ports, .hostQueue, .esh, .replies, .hpe, .pounce, .dbg, .hlk, .sas, .out] : List Part), p ∈ pl) : Changes
      pl z0 (endFreeze s) := by
  unfold endFreeze
  repeat' (first
      | with_reducible assumption | with_reducible exact Changes.sub hpl (by decide) | with_reducible apply restartPort_frame
      | with_reducible apply restRanks_frame | (with_reducible apply Changes.foldl_frame; rotate_left; intro _ _ _) | dsimp only
      | split | with_reducible refine upd_dbg'dbg (by with_reducible rfl) ?_ ?_ | with_reducible apply upd_tsu)

theorem freezeFall_frame {pl : List Part} {z0 : State} {s : State}
    (hz : Changes pl z0 s) (hpl : ∀ p ∈ ([.quarantine, .tsu, .sessions, .sealed, .err, .levels, .jic, .ctr, .samples, .smc,
      .frc, .groups, .ports, .hostQueue, .esh, .replies, .hpe, .pounce, .dbg, .hlk, .sas, .out] : List Part), p ∈ pl) : Changes
      pl z0 (freezeFall s) := by
  unfold freezeFall
  repeat' (first
      | with_reducible assumption | with_reducible exact Changes.sub hpl (by decide) | with_reducible apply endFreeze_frame
      | dsimp only | split | with_reducible refine upd_dbg'dbg (by with_reducible rfl) ?_ ?_)

theorem clockStop_frame {pl : List Part} {z0 : State} {q discarded : Nat} {s : State}
    (hz : Changes pl z0 s) (hpl : ∀ p ∈ ([.quarantine, .tsu, .sessions, .checks, .sealed, .err, .levels, .jic, .ctr, .samples,
      .smc, .frc, .groups, .ports, .hostQueue, .esh, .replies, .hpe, .pounce, .dbg, .hlk, .rx, .sas, .pols, .out] : List Part),
      p ∈ pl) : Changes pl z0 (clockStop q discarded s) := by
  unfold clockStop
  repeat' (first
      | with_reducible assumption | with_reducible exact Changes.sub hpl (by decide) | with_reducible apply endFreeze_frame
      | with_reducible apply restRanks_frame | with_reducible apply cutLineAt_frame | with_reducible apply cutHolds_frame
      | (with_reducible apply Changes.foldl_frame; rotate_left; intro _ _ _) | dsimp only | split | with_reducible apply upd_dbg)

theorem tokenExpiry_frame {pl : List Part} {z0 : State} {s : State}
    (hz : Changes pl z0 s) (hpl : ∀ p ∈ ([.quarantine, .tsu, .sessions, .sealed, .err, .levels, .jic, .ctr, .samples, .smc,
      .frc, .groups, .ports, .hostQueue, .esh, .replies, .hpe, .pounce, .dbg, .hlk, .sas, .out] : List Part), p ∈ pl) : Changes
      pl z0 (tokenExpiry s) := by
  unfold tokenExpiry
  repeat' (first
      | with_reducible assumption | with_reducible exact Changes.sub hpl (by decide) | with_reducible apply closeLevel_frame
      | with_reducible apply endFreeze_frame | dsimp only | split)

theorem tapShift_frame {pl : List Part} {z0 : State} {bits : List Bool} {s : State}
    (hz : Changes pl z0 s) (hpl : ∀ p ∈ ([.out] : List Part), p ∈ pl) : Changes pl z0 (tapShift bits s) := by
  unfold tapShift
  repeat' (first
      | with_reducible assumption | with_reducible exact Changes.sub hpl (by decide) | with_reducible apply emit_frame
      | dsimp only | split)

theorem chainRead_frame {pl : List Part} {z0 : State} {n : Nat} {s : State}
    (hz : Changes pl z0 s) (hpl : ∀ p ∈ ([.dbg, .out] : List Part), p ∈ pl) : Changes pl z0 (chainRead n s) := by
  unfold chainRead
  repeat' (first
      | with_reducible assumption | with_reducible exact Changes.sub hpl (by decide) | with_reducible apply emit_frame
      | dsimp only | split | with_reducible refine upd_dbg'dbg (by with_reducible rfl) ?_ ?_)

theorem chainSelect_frame {pl : List Part} {z0 : State} {v : BitVec 16} {s : State}
    (hz : Changes pl z0 s) (hpl : ∀ p ∈ ([.dbg, .out] : List Part), p ∈ pl) : Changes pl z0 (chainSelect v s) := by
  unfold chainSelect
  repeat' (first
      | with_reducible assumption | with_reducible exact Changes.sub hpl (by decide) | with_reducible apply emit_frame
      | dsimp only | split | with_reducible refine upd_dbg'dbg (by with_reducible rfl) ?_ ?_)

theorem resume_frame {pl : List Part} {z0 : State} {v : BitVec 32} {s : State}
    (hz : Changes pl z0 s) (hpl : ∀ p ∈ ([.quarantine, .tsu, .sessions, .sealed, .err, .levels, .jic, .ctr, .samples, .smc,
      .frc, .groups, .ports, .hostQueue, .esh, .replies, .hpe, .pounce, .dbg, .hlk, .sas, .out] : List Part), p ∈ pl) : Changes
      pl z0 (resume v s) := by
  unfold resume
  repeat' (first
      | with_reducible assumption | with_reducible exact Changes.sub hpl (by decide) | with_reducible apply endFreeze_frame
      | with_reducible apply emit_frame | dsimp only | split)

theorem bypassShift_frame {pl : List Part} {z0 : State} {tdi : Bool} {s : State}
    (hz : Changes pl z0 s) (hpl : ∀ p ∈ ([.dbg, .out] : List Part), p ∈ pl) : Changes pl z0 (bypassShift tdi s) := by
  unfold bypassShift
  repeat' (first
      | with_reducible assumption | with_reducible exact Changes.sub hpl (by decide) | with_reducible apply emit_frame
      | dsimp only | split | with_reducible refine upd_dbg'dbg (by with_reducible rfl) ?_ ?_)

theorem spurious_frame {pl : List Part} {z0 : State} {n : Nat} {s : State}
    (hz : Changes pl z0 s) (hpl : ∀ p ∈ ([.levels, .jic] : List Part), p ∈ pl) : Changes pl z0 (spurious n s) := by
  unfold spurious
  repeat' (first
      | with_reducible assumption | with_reducible exact Changes.sub hpl (by decide) | with_reducible apply raiseEvent_frame
      | dsimp only | split | with_reducible refine upd_jic'levels (by with_reducible rfl) ?_ ?_)

theorem pounceNow_frame {pl : List Part} {z0 : State} {cls t arg : Nat} {s : State}
    (hz : Changes pl z0 s) (hpl : ∀ p ∈ ([.quarantine, .tsu, .sessions, .checks, .sealed, .cpx, .hood, .err, .levels, .jic,
      .ctr, .samples, .frc, .xdma, .groups, .lanes, .ports, .hostQueue, .esh, .replies, .hpe, .pounce, .dbg, .hlk, .rx, .sas,
      .pols, .out, .draws] : List Part), p ∈ pl) : Changes pl z0 (pounceNow cls t arg s) := by
  unfold pounceNow
  repeat' (first
      | with_reducible assumption | with_reducible exact Changes.sub hpl (by decide) | with_reducible apply lanePortCheck_frame
      | with_reducible apply putLane_frame | with_reducible apply vanish_frame | with_reducible apply spurious_frame
      | with_reducible apply injectError_frame | dsimp only | split)

theorem pounceStart_frame {pl : List Part} {z0 : State} {b : PouncerBody} {s : State}
    (hz : Changes pl z0 s) (hpl : ∀ p ∈ ([.quarantine, .tsu, .sessions, .checks, .sealed, .cpx, .hood, .err, .levels, .jic,
      .ctr, .samples, .frc, .xdma, .groups, .lanes, .ports, .hostQueue, .esh, .replies, .hpe, .pounce, .dbg, .hlk, .rx, .sas,
      .pols, .out, .draws] : List Part), p ∈ pl) : Changes pl z0 (pounceStart b s) := by
  unfold pounceStart
  repeat' (first
      | with_reducible assumption | with_reducible exact Changes.sub hpl (by decide)
      | with_reducible refine pounceFires_of (by assumption) ?_ ?_ | with_reducible apply pounceFires_frame
      | with_reducible apply pounceNow_frame | dsimp only | split
      | with_reducible refine upd_dbg'pounce (by with_reducible rfl) ?_ ?_)

theorem pounceExpiry_frame {pl : List Part} {z0 : State} {cls t : Nat} {s : State}
    (hz : Changes pl z0 s) (hpl : ∀ p ∈ ([.pounce] : List Part), p ∈ pl) : Changes pl z0 (pounceExpiry cls t s) := by
  unfold pounceExpiry
  repeat' (first
      | with_reducible assumption | with_reducible exact Changes.sub hpl (by decide) | dsimp only | split
      | with_reducible refine upd_dbg'pounce (by with_reducible rfl) ?_ ?_)

/-! ## Hierarchy -/

theorem hlkDiscard_frame {pl : List Part} {z0 : State} {h : HlkHead} {s : State}
    (hz : Changes pl z0 s) (hpl : ∀ p ∈ ([.quarantine, .sessions, .sealed, .err, .frc, .pounce, .dbg] : List Part), p ∈ pl) :
      Changes pl z0 (hlkDiscard h s) := by
  unfold hlkDiscard
  repeat' (first
      | with_reducible assumption | with_reducible exact Changes.sub hpl (by decide) | with_reducible apply errorAt_frame)

theorem fromWorker_some {pl : List Part} {z0 : State} {h : HlkHead} {s : State} {t : State} (he : fromWorker h s = some t)
    (hz : Changes pl z0 s) (hpl : ∀ p ∈ ([.hlk] : List Part), p ∈ pl) : Changes pl z0 t := by
  unfold fromWorker at he
  dsimp only at he
  repeat' split at he
  all_goals first
    | contradiction
    | (injection he with he; subst he; repeat' (first
     | with_reducible assumption | with_reducible exact Changes.sub hpl (by decide) | dsimp only | split
     | with_reducible apply upd_hlk))

theorem fromMgr_some {pl : List Part} {z0 : State} {h : HlkHead} {s : State} {t : State} (he : fromMgr h s = some t)
    (hz : Changes pl z0 s) (hpl : ∀ p ∈ ([.hlk] : List Part), p ∈ pl) : Changes pl z0 t := by
  unfold fromMgr at he
  dsimp only at he
  repeat' split at he
  all_goals first
    | contradiction
    | (injection he with he; subst he; repeat' (first
     | with_reducible assumption | with_reducible exact Changes.sub hpl (by decide) | dsimp only | split
     | with_reducible apply upd_hlk))

theorem hlkTake_frame {pl : List Part} {z0 : State} {checked : Option State} {h : HlkHead} {f : State → State} {s : State}
    (hz : Changes pl z0 s) (hpl : ∀ p ∈ ([.quarantine, .sessions, .sealed, .err, .frc, .pounce, .dbg] : List Part), p ∈ pl) (hf : ∀ a, Changes pl z0 a → Changes pl z0 (f a))
    (hc : ∀ t, checked = some t → Changes pl z0 t) :
    Changes pl z0 (hlkTake checked h f s) := by
  unfold hlkTake; split
  · exact hz
  · split
    · exact hf _ (hc _ rfl)
    · exact hlkDiscard_frame hz (Changes.sub hpl (by decide))

theorem drawNonce_frame {pl : List Part} {z0 : State} {s : State}
    (hz : Changes pl z0 s) (hpl : ∀ p ∈ ([.draws] : List Part), p ∈ pl) : Changes pl z0 (drawNonce s).2 := by
  unfold drawNonce
  repeat' (first
      | with_reducible assumption | with_reducible exact Changes.sub hpl (by decide)
      | with_reducible refine draw_of (by assumption) ?_ ?_ | with_reducible apply draw_frame)

theorem drawNonce_of {pl : List Part} {z0 : State} {s : State} {y : BitVec 256} {t : State} (he : drawNonce s = (y, t))
    (hz : Changes pl z0 s) (hpl : ∀ p ∈ ([.draws] : List Part), p ∈ pl) : Changes pl z0 t := by
  have := drawNonce_frame (z0 := z0) (s := s) hz hpl; rw [he] at this; exact this

theorem helloTimer_frame {pl : List Part} {z0 : State} {s : State}
    (hz : Changes pl z0 s) (hpl : ∀ p ∈ ([.hostQueue, .replies, .hlk, .out, .draws] : List Part), p ∈ pl) : Changes pl z0
      (helloTimer s) := by
  unfold helloTimer
  repeat' (first
      | with_reducible assumption | with_reducible exact Changes.sub hpl (by decide)
      | with_reducible refine drawNonce_of (by assumption) ?_ ?_ | with_reducible apply drawNonce_frame
      | with_reducible apply sendHlk_frame | (with_reducible apply Changes.foldl_frame; rotate_left; intro _ _ _) | dsimp only
      | split | with_reducible apply upd_hlk)

theorem putWorker_frame {pl : List Part} {z0 : State} {i : Nat} {w : Partner} {s : State}
    (hz : Changes pl z0 s) (hpl : ∀ p ∈ ([.levels, .jic, .hlk] : List Part), p ∈ pl) : Changes pl z0 (putWorker i w s) := by
  unfold putWorker
  repeat' (first
      | with_reducible assumption | with_reducible exact Changes.sub hpl (by decide) | with_reducible apply raiseEvent_frame
      | dsimp only | split | with_reducible apply upd_hlk)

theorem hello_frame {pl : List Part} {z0 : State} {h : HlkHead} {nonce : BitVec 256} {digest : Digest} {s : State}
    (hz : Changes pl z0 s) (hpl : ∀ p ∈ ([.quarantine, .sessions, .sealed, .err, .levels, .jic, .frc, .hostQueue, .replies,
      .pounce, .dbg, .hlk, .out, .draws] : List Part), p ∈ pl) : Changes pl z0 (hello h nonce digest s) := by
  unfold hello
  repeat' (first
      | with_reducible assumption | with_reducible exact Changes.sub hpl (by decide) | with_reducible apply hlkDiscard_frame
      | with_reducible refine drawNonce_of (by assumption) ?_ ?_ | with_reducible apply drawNonce_frame
      | with_reducible apply sendHlk_frame | with_reducible apply putWorker_frame | dsimp only | split)

theorem rejoined_frame {pl : List Part} {z0 : State} {s : State}
    (hz : Changes pl z0 s) (hpl : ∀ p ∈ ([.tsu, .levels, .jic] : List Part), p ∈ pl) : Changes pl z0 (rejoined s) := by
  unfold rejoined
  repeat' (first
      | with_reducible assumption | with_reducible exact Changes.sub hpl (by decide) | with_reducible apply setSync_frame
      | dsimp only | split | with_reducible apply upd_tsu)

theorem offer_frame {pl : List Part} {z0 : State} {h : HlkHead} {mgrNonce wkrNonce : BitVec 256} {s : State}
    (hz : Changes pl z0 s) (hpl : ∀ p ∈ ([.quarantine, .tsu, .sessions, .sealed, .err, .levels, .jic, .frc, .hostQueue,
      .replies, .pounce, .dbg, .hlk, .out] : List Part), p ∈ pl) : Changes pl z0 (offer h mgrNonce wkrNonce s) := by
  unfold offer
  repeat' (first
      | with_reducible assumption | with_reducible exact Changes.sub hpl (by decide) | with_reducible apply hlkDiscard_frame
      | with_reducible apply sendManager_frame | with_reducible apply raiseEvent_frame | with_reducible apply rejoined_frame
      | dsimp only | split | with_reducible apply upd_hlk)

theorem installCert_frame {pl : List Part} {z0 : State} {c : Certificate} {s : State}
    (hz : Changes pl z0 s) (hpl : ∀ p ∈ ([.hood, .frc] : List Part), p ∈ pl) : Changes pl z0 (installCert c s) := by
  unfold installCert
  repeat' (first
      | with_reducible assumption | with_reducible exact Changes.sub hpl (by decide) | with_reducible apply keyEvent_frame
      | dsimp only | split | with_reducible apply upd_hood)

theorem sendCert_frame {pl : List Part} {z0 : State} {c : Certificate} {i : Nat} {s : State}
    (hz : Changes pl z0 s) (hpl : ∀ p ∈ ([.hostQueue, .replies, .hlk, .out] : List Part), p ∈ pl) : Changes pl z0 (sendCert c
      i s) := by
  unfold sendCert
  repeat' (first
      | with_reducible assumption | with_reducible exact Changes.sub hpl (by decide) | with_reducible apply sendWorker_frame)

theorem delegate_frame {pl : List Part} {z0 : State} {c : Certificate} {s : State}
    (hz : Changes pl z0 s) (hpl : ∀ p ∈ ([.hood, .frc, .hostQueue, .replies, .hlk, .out] : List Part), p ∈ pl) : Changes pl z0
      (delegate c s) := by
  unfold delegate
  repeat' (first
      | with_reducible assumption | with_reducible exact Changes.sub hpl (by decide) | with_reducible apply sendCert_frame
      | with_reducible apply installCert_frame | (with_reducible apply Changes.foldl_frame; rotate_left; intro _ _ _)
      | dsimp only | split | with_reducible apply upd_hood)

theorem takeCert_frame {pl : List Part} {z0 : State} {c : Certificate} {inst : Nat} {s : State}
    (hz : Changes pl z0 s) (hpl : ∀ p ∈ ([.quarantine, .sessions, .sealed, .hood, .err, .frc, .pounce, .dbg] : List Part),
      p ∈ pl) : Changes pl z0 (takeCert c inst s) := by
  unfold takeCert
  repeat' (first
      | with_reducible assumption | with_reducible exact Changes.sub hpl (by decide) | with_reducible apply installCert_frame
      | with_reducible apply errorAt_frame | dsimp only | split)

theorem delegationExpiry_frame {pl : List Part} {z0 : State} {k : Nat} {s : State}
    (hz : Changes pl z0 s) (hpl : ∀ p ∈ ([.hood] : List Part), p ∈ pl) : Changes pl z0 (delegationExpiry k s) := by
  unfold delegationExpiry
  repeat' (first
      | with_reducible assumption | with_reducible exact Changes.sub hpl (by decide) | dsimp only | split
      | with_reducible apply upd_hood)

theorem beatWorker_frame {pl : List Part} {z0 : State} {i : Nat} {s : State}
    (hz : Changes pl z0 s) (hpl : ∀ p ∈ ([.hostQueue, .replies, .hlk, .out] : List Part), p ∈ pl) : Changes pl z0 (beatWorker
      i s) := by
  unfold beatWorker
  repeat' (first
      | with_reducible assumption | with_reducible exact Changes.sub hpl (by decide) | with_reducible apply sendWorker_frame)

theorem confirm_frame {pl : List Part} {z0 : State} {h : HlkHead} {epoch mode : Nat} {s : State}
    (hz : Changes pl z0 s) (hpl : ∀ p ∈ ([.quarantine, .sessions, .sealed, .err, .levels, .jic, .frc, .hostQueue, .replies,
      .pounce, .dbg, .hlk, .out] : List Part), p ∈ pl) : Changes pl z0 (confirm h epoch mode s) := by
  unfold confirm
  repeat' (first
      | with_reducible assumption | with_reducible exact Changes.sub hpl (by decide) | with_reducible apply hlkDiscard_frame
      | with_reducible apply sendCert_frame | with_reducible apply beatWorker_frame | with_reducible apply putWorker_frame
      | (with_reducible apply Changes.foldl_frame; rotate_left; intro _ _ _) | dsimp only | split)

theorem heartbeat_frame {pl : List Part} {z0 : State} {h : HlkHead} {ti sp : Nat} {s : State}
    (hz : Changes pl z0 s) (hpl : ∀ p ∈ ([.quarantine, .sessions, .sealed, .err, .frc, .pounce, .dbg, .hlk] : List Part),
      p ∈ pl) : Changes pl z0 (heartbeat h ti sp s) := by
  unfold heartbeat
  repeat' (first
      | with_reducible assumption | with_reducible exact Changes.sub hpl (by decide)
      | (with_reducible apply hlkTake_frame; rotate_left; rotate_left; intro _ _)
      | with_reducible refine fromWorker_some (by assumption) ?_ ?_
      | (intro _ he; with_reducible refine fromWorker_some he ?_ ?_) | (intro _ he; contradiction)
      | with_reducible refine fromMgr_some (by assumption) ?_ ?_ | (intro _ he; with_reducible refine fromMgr_some he ?_ ?_)
      | dsimp only | split | with_reducible apply upd_hlk)

theorem beatTimer_frame {pl : List Part} {z0 : State} {s : State}
    (hz : Changes pl z0 s) (hpl : ∀ p ∈ ([.hostQueue, .replies, .hlk, .out] : List Part), p ∈ pl) : Changes pl z0 (beatTimer s) := by
  unfold beatTimer
  repeat' (first
      | with_reducible assumption | with_reducible exact Changes.sub hpl (by decide) | with_reducible apply beatWorker_frame
      | with_reducible apply sendManager_frame | (with_reducible apply Changes.foldl_frame; rotate_left; intro _ _ _)
      | dsimp only | split | with_reducible apply upd_hlk)

theorem hlkCommand_frame {pl : List Part} {z0 : State} {h : HlkHead} {cmd : List Byte} {s : State}
    (hz : Changes pl z0 s) (hpl : ∀ p ∈ ([.quarantine, .sessions, .checks, .sealed, .err, .ctr, .frc, .hostQueue, .replies,
      .pounce, .dbg, .hlk, .out] : List Part), p ∈ pl) : Changes pl z0 (hlkCommand h cmd s) := by
  unfold hlkCommand
  repeat' (first
      | with_reducible assumption | with_reducible exact Changes.sub hpl (by decide)
      | (with_reducible apply hlkTake_frame; rotate_left; rotate_left; intro _ _)
      | with_reducible refine fromMgr_some (by assumption) ?_ ?_ | (intro _ he; with_reducible refine fromMgr_some he ?_ ?_)
      | with_reducible apply deliverReply_frame | dsimp only | split
      | with_reducible refine upd_cpx'checks (by with_reducible rfl) (by with_reducible rfl) (by with_reducible rfl) ?_ ?_)

theorem passReply_frame {pl : List Part} {z0 : State} {ctx : ReplyCtx} {r : Reply} {s : State}
    (hz : Changes pl z0 s) (hpl : ∀ p ∈ ([.ctr, .hostQueue, .replies, .hlk, .out] : List Part), p ∈ pl) : Changes pl z0
      (passReply ctx r s) := by
  unfold passReply
  repeat' (first
      | with_reducible assumption | with_reducible exact Changes.sub hpl (by decide) | with_reducible apply countRefused_frame
      | with_reducible apply deliverReply_frame | dsimp only | split)

theorem hlkReplied_frame {pl : List Part} {z0 : State} {h : HlkHead} {r : WorkerReply} {s : State}
    (hz : Changes pl z0 s) (hpl : ∀ p ∈ ([.quarantine, .sessions, .checks, .sealed, .err, .ctr, .frc, .hostQueue, .replies,
      .pounce, .dbg, .hlk, .out] : List Part), p ∈ pl) : Changes pl z0 (hlkReplied h r s) := by
  unfold hlkReplied
  repeat' (first
      | with_reducible assumption | with_reducible exact Changes.sub hpl (by decide)
      | (with_reducible apply hlkTake_frame; rotate_left; rotate_left; intro _ _)
      | with_reducible refine fromWorker_some (by assumption) ?_ ?_
      | (intro _ he; with_reducible refine fromWorker_some he ?_ ?_) | with_reducible apply passReply_frame | dsimp only | split
      | with_reducible refine upd_cpx'checks (by with_reducible rfl) (by with_reducible rfl) (by with_reducible rfl) ?_ ?_)

theorem timeOut_frame {pl : List Part} {z0 : State} {f : Forwarded} {s : State}
    (hz : Changes pl z0 s) (hpl : ∀ p ∈ ([.quarantine, .sessions, .sealed, .err, .ctr, .frc, .hostQueue, .replies, .pounce,
      .dbg, .hlk, .out] : List Part), p ∈ pl) : Changes pl z0 (timeOut f s) := by
  unfold timeOut
  repeat' (first
      | with_reducible assumption | with_reducible exact Changes.sub hpl (by decide) | with_reducible apply answer_frame
      | with_reducible apply errorAt_frame)

theorem targetTimeout_frame {pl : List Part} {z0 : State} {corr : BitVec 32} {s : State}
    (hz : Changes pl z0 s) (hpl : ∀ p ∈ ([.quarantine, .sessions, .checks, .sealed, .err, .ctr, .frc, .hostQueue, .replies,
      .pounce, .dbg, .hlk, .out] : List Part), p ∈ pl) : Changes pl z0 (targetTimeout corr s) := by
  unfold targetTimeout
  repeat' (first
      | with_reducible assumption | with_reducible exact Changes.sub hpl (by decide) | with_reducible apply timeOut_frame
      | dsimp only | split
      | with_reducible refine upd_cpx'checks (by with_reducible rfl) (by with_reducible rfl) (by with_reducible rfl) ?_ ?_)

theorem timeTimer_frame {pl : List Part} {z0 : State} {s : State}
    (hz : Changes pl z0 s) (hpl : ∀ p ∈ ([.hostQueue, .replies, .hlk, .out] : List Part), p ∈ pl) : Changes pl z0 (timeTimer s) := by
  unfold timeTimer
  repeat' (first
      | with_reducible assumption | with_reducible exact Changes.sub hpl (by decide) | with_reducible apply sendManager_frame
      | dsimp only | split | with_reducible apply upd_hlk)

theorem timeReq_frame {pl : List Part} {z0 : State} {h : HlkHead} {n : Nat} {s : State}
    (hz : Changes pl z0 s) (hpl : ∀ p ∈ ([.quarantine, .sessions, .sealed, .err, .frc, .hostQueue, .replies, .pounce, .dbg,
      .hlk, .out] : List Part), p ∈ pl) : Changes pl z0 (timeReq h n s) := by
  unfold timeReq
  repeat' (first
      | with_reducible assumption | with_reducible exact Changes.sub hpl (by decide)
      | (with_reducible apply hlkTake_frame; rotate_left; rotate_left; intro _ _)
      | with_reducible refine fromWorker_some (by assumption) ?_ ?_
      | (intro _ he; with_reducible refine fromWorker_some he ?_ ?_) | with_reducible apply sendWorker_frame | dsimp only
      | split | with_reducible apply upd_hlk)

theorem steer_frame {pl : List Part} {z0 : State} {theta : Int} {s : State}
    (hz : Changes pl z0 s) (hpl : ∀ p ∈ ([.tsu, .levels, .jic, .hlk] : List Part), p ∈ pl) : Changes pl z0 (steer theta s) := by
  unfold steer
  repeat' (first
      | with_reducible assumption | with_reducible exact Changes.sub hpl (by decide) | with_reducible apply steered_frame
      | dsimp only | split | with_reducible apply upd_hlk | with_reducible apply upd_tsu)

theorem timeResp_frame {pl : List Part} {z0 : State} {h : HlkHead} {n : Nat} {t2 t3 : Time96} {s : State}
    (hz : Changes pl z0 s) (hpl : ∀ p ∈ ([.quarantine, .tsu, .sessions, .sealed, .err, .levels, .jic, .frc, .pounce, .dbg,
      .hlk] : List Part), p ∈ pl) : Changes pl z0 (timeResp h n t2 t3 s) := by
  unfold timeResp
  repeat' (first
      | with_reducible assumption | with_reducible exact Changes.sub hpl (by decide)
      | (with_reducible apply hlkTake_frame; rotate_left; rotate_left; intro _ _)
      | with_reducible refine fromMgr_some (by assumption) ?_ ?_ | (intro _ he; with_reducible refine fromMgr_some he ?_ ?_)
      | (intro _ he; contradiction) | with_reducible apply steer_frame | dsimp only | split | with_reducible apply upd_hlk)

theorem summaryTimer_frame {pl : List Part} {z0 : State} {s : State}
    (hz : Changes pl z0 s) (hpl : ∀ p ∈ ([.hostQueue, .replies, .hlk, .out] : List Part), p ∈ pl) : Changes pl z0
      (summaryTimer s) := by
  unfold summaryTimer
  repeat' (first
      | with_reducible assumption | with_reducible exact Changes.sub hpl (by decide) | with_reducible apply sendManager_frame
      | dsimp only | split | with_reducible apply upd_hlk)

theorem takeSummary_frame {pl : List Part} {z0 : State} {h : HlkHead} {m : Summary} {s : State}
    (hz : Changes pl z0 s) (hpl : ∀ p ∈ ([.quarantine, .sessions, .sealed, .err, .frc, .pounce, .dbg, .hlk] : List Part),
      p ∈ pl) : Changes pl z0 (takeSummary h m s) := by
  unfold takeSummary
  repeat' (first
      | with_reducible assumption | with_reducible exact Changes.sub hpl (by decide)
      | (with_reducible apply hlkTake_frame; rotate_left; rotate_left; intro _ _)
      | with_reducible refine fromWorker_some (by assumption) ?_ ?_
      | (intro _ he; with_reducible refine fromWorker_some he ?_ ?_) | dsimp only | split | with_reducible apply upd_hlk)

theorem dropWorker_frame {pl : List Part} {z0 : State} {i state : Nat} {s : State}
    (hz : Changes pl z0 s) (hpl : ∀ p ∈ ([.quarantine, .sessions, .checks, .sealed, .err, .levels, .jic, .ctr, .frc,
      .hostQueue, .replies, .pounce, .dbg, .hlk, .out] : List Part), p ∈ pl) : Changes pl z0 (dropWorker i state s) := by
  unfold dropWorker
  repeat' (first
      | with_reducible assumption | with_reducible exact Changes.sub hpl (by decide) | with_reducible apply timeOut_frame
      | with_reducible apply putWorker_frame | (with_reducible apply Changes.foldl_frame; rotate_left; intro _ _ _) | dsimp only
      | split
      | with_reducible refine upd_cpx'checks (by with_reducible rfl) (by with_reducible rfl) (by with_reducible rfl) ?_ ?_)

theorem loseManager_frame {pl : List Part} {z0 : State} {s : State}
    (hz : Changes pl z0 s) (hpl : ∀ p ∈ ([.tsu, .levels, .jic, .hlk] : List Part), p ∈ pl) : Changes pl z0 (loseManager s) := by
  unfold loseManager
  repeat' (first
      | with_reducible assumption | with_reducible exact Changes.sub hpl (by decide) | with_reducible apply raiseEvent_frame
      | with_reducible apply enterHoldover_frame | dsimp only | split | with_reducible apply upd_tsu_hlk)

theorem leave_frame {pl : List Part} {z0 : State} {h : HlkHead} {reason : Nat} {s : State}
    (hz : Changes pl z0 s) (hpl : ∀ p ∈ ([.quarantine, .tsu, .sessions, .checks, .sealed, .err, .levels, .jic, .ctr, .frc,
      .hostQueue, .replies, .pounce, .dbg, .hlk, .out] : List Part), p ∈ pl) : Changes pl z0 (leave h reason s) := by
  unfold leave
  repeat' (first
      | with_reducible assumption | with_reducible exact Changes.sub hpl (by decide)
      | (with_reducible apply hlkTake_frame; rotate_left; rotate_left; intro _ _)
      | with_reducible refine fromWorker_some (by assumption) ?_ ?_
      | (intro _ he; with_reducible refine fromWorker_some he ?_ ?_) | (intro _ he; contradiction)
      | with_reducible apply dropWorker_frame | with_reducible refine fromMgr_some (by assumption) ?_ ?_
      | (intro _ he; with_reducible refine fromMgr_some he ?_ ?_) | with_reducible apply loseManager_frame | dsimp only | split)

theorem partnerLoss_frame {pl : List Part} {z0 : State} {i : Nat} {s : State}
    (hz : Changes pl z0 s) (hpl : ∀ p ∈ ([.quarantine, .tsu, .sessions, .checks, .sealed, .err, .levels, .jic, .ctr, .frc,
      .hostQueue, .replies, .pounce, .dbg, .hlk, .out] : List Part), p ∈ pl) : Changes pl z0 (partnerLoss i s) := by
  unfold partnerLoss
  repeat' (first
      | with_reducible assumption | with_reducible exact Changes.sub hpl (by decide) | with_reducible apply dropWorker_frame
      | with_reducible apply loseManager_frame | dsimp only | split)

theorem sendLeaves_frame {pl : List Part} {z0 : State} {reason : Nat} {s : State}
    (hz : Changes pl z0 s) (hpl : ∀ p ∈ ([.hostQueue, .replies, .hlk, .out] : List Part), p ∈ pl) : Changes pl z0 (sendLeaves
      reason s) := by
  unfold sendLeaves
  repeat' (first
      | with_reducible assumption | with_reducible exact Changes.sub hpl (by decide) | with_reducible apply sendManager_frame
      | with_reducible apply sendWorker_frame | (with_reducible apply Changes.foldl_frame; rotate_left; intro _ _ _)
      | dsimp only | split | with_reducible apply upd_hlk)

/-! ## Commit -/

theorem commitPort_frame {pl : List Part} {z0 : State} {o : Cfg} {p : Nat} {s : State}
    (hz : Changes pl z0 s) (hpl : ∀ p ∈ ([.quarantine, .sessions, .sealed, .err, .levels, .jic, .ctr, .samples, .frc, .groups,
      .ports, .hostQueue, .esh, .replies, .hpe, .pounce, .dbg, .hlk, .sas, .out] : List Part), p ∈ pl) : Changes pl z0
      (commitPort o p s) := by
  unfold commitPort
  repeat' (first
      | with_reducible assumption | with_reducible exact Changes.sub hpl (by decide) | with_reducible apply putPort_frame
      | with_reducible apply setLink_frame | dsimp only | split)

theorem commitPreempt_frame {pl : List Part} {z0 : State} {p : Nat} {s : State}
    (hz : Changes pl z0 s) (hpl : ∀ p ∈ ([.ports] : List Part), p ∈ pl) : Changes pl z0 (commitPreempt p s) := by
  unfold commitPreempt
  repeat' (first
      | with_reducible assumption | with_reducible exact Changes.sub hpl (by decide) | with_reducible apply startVerify_frame
      | dsimp only | split)

theorem commitPause_frame {pl : List Part} {z0 : State} {o : Cfg} {p : Nat} {s : State}
    (hz : Changes pl z0 s) (hpl : ∀ p ∈ ([.ports] : List Part), p ∈ pl) : Changes pl z0 (commitPause o p s) := by
  unfold commitPause
  repeat' (first
      | with_reducible assumption | with_reducible exact Changes.sub hpl (by decide) | with_reducible apply putPort_frame
      | with_reducible apply retell_frame | dsimp only | split)

theorem commitSas_frame {pl : List Part} {z0 : State} {o : Cfg} {s : State}
    (hz : Changes pl z0 s) (hpl : ∀ p ∈ ([.frc, .sas] : List Part), p ∈ pl) : Changes pl z0 (commitSas o s) := by
  unfold commitSas
  repeat' (first
      | with_reducible assumption | with_reducible exact Changes.sub hpl (by decide) | with_reducible apply retireSa_frame
      | (with_reducible apply Changes.foldl_frame; rotate_left; intro _ _ _))

theorem commitPolicer_frame {pl : List Part} {z0 : State} {k : Nat} {s : State}
    (hz : Changes pl z0 s) (hpl : ∀ p ∈ ([.pols] : List Part), p ∈ pl) : Changes pl z0 (commitPolicer k s) := by
  unfold commitPolicer
  repeat' (first
      | with_reducible assumption | with_reducible exact Changes.sub hpl (by decide) | dsimp only | split
      | with_reducible apply upd_pols)

theorem commitObj_frame {pl : List Part} {z0 : State} {o : Cfg} {x : ShaperObj} {moved : Bool} {v : Nat} {s : State}
    (hz : Changes pl z0 s) (hpl : ∀ p ∈ ([.esh] : List Part), p ∈ pl) : Changes pl z0 (commitObj o x moved v s) := by
  unfold commitObj
  repeat' (first
      | with_reducible assumption | with_reducible exact Changes.sub hpl (by decide) | with_reducible apply putObj_frame)

theorem commitLeaf_frame {pl : List Part} {z0 : State} {o : Cfg} {k : Nat} {s : State}
    (hz : Changes pl z0 s) (hpl : ∀ p ∈ ([.esh] : List Part), p ∈ pl) : Changes pl z0 (commitLeaf o k s) := by
  unfold commitLeaf
  repeat' (first
      | with_reducible assumption | with_reducible exact Changes.sub hpl (by decide) | with_reducible apply commitObj_frame
      | with_reducible apply putLeaf_frame | dsimp only | split
      | with_reducible refine upd_esh'esh (by with_reducible rfl) ?_ ?_)

theorem commitNode_frame {pl : List Part} {z0 : State} {o : Cfg} {k : Nat} {s : State}
    (hz : Changes pl z0 s) (hpl : ∀ p ∈ ([.esh] : List Part), p ∈ pl) : Changes pl z0 (commitNode o k s) := by
  unfold commitNode
  repeat' (first
      | with_reducible assumption | with_reducible exact Changes.sub hpl (by decide) | with_reducible apply commitObj_frame
      | with_reducible apply putNode_frame | dsimp only | split
      | with_reducible refine upd_esh'esh (by with_reducible rfl) ?_ ?_)

theorem commitBinding_frame {pl : List Part} {z0 : State} {o : Cfg} {s : State}
    (hz : Changes pl z0 s) (hpl : ∀ p ∈ ([.hostQueue] : List Part), p ∈ pl) : Changes pl z0 (commitBinding o s) := by
  unfold commitBinding
  repeat' (first
      | with_reducible assumption | with_reducible exact Changes.sub hpl (by decide)
      | (with_reducible apply Changes.foldl_frame; rotate_left; intro _ _ _) | dsimp only | split
      | with_reducible refine upd_esh'hostQueue (by with_reducible rfl) ?_ ?_)

theorem commitGate_frame {pl : List Part} {z0 : State} {p : Nat} {s : State}
    (hz : Changes pl z0 s) (hpl : ∀ p ∈ ([.gates] : List Part), p ∈ pl) : Changes pl z0 (commitGate p s) := by
  unfold commitGate
  repeat' (first
      | with_reducible assumption | with_reducible exact Changes.sub hpl (by decide) | with_reducible apply installGate_frame
      | dsimp only | split | with_reducible apply upd_gates)

theorem commitRing_frame {pl : List Part} {z0 : State} {o : Cfg} {k : Nat} {s : State}
    (hz : Changes pl z0 s) (hpl : ∀ p ∈ ([.levels, .hpe] : List Part), p ∈ pl) : Changes pl z0 (commitRing o k s) := by
  unfold commitRing
  repeat' (first
      | with_reducible assumption | with_reducible exact Changes.sub hpl (by decide) | with_reducible apply setLevel_frame
      | with_reducible apply putRing_frame | dsimp only | split)

theorem commitSource_frame {pl : List Part} {z0 : State} {o : Cfg} {n : Nat} {s : State}
    (hz : Changes pl z0 s) (hpl : ∀ p ∈ ([.jic] : List Part), p ∈ pl) : Changes pl z0 (commitSource o n s) := by
  unfold commitSource
  repeat' (first
      | with_reducible assumption | with_reducible exact Changes.sub hpl (by decide) | with_reducible apply softWrite_frame
      | with_reducible apply enableSet_frame | dsimp only | split
      | with_reducible refine upd_jic'jic (by with_reducible rfl) ?_ ?_)

theorem commitWindow_frame {pl : List Part} {z0 : State} {w : Nat} {s : State}
    (hz : Changes pl z0 s) (hpl : ∀ p ∈ ([.tel] : List Part), p ∈ pl) : Changes pl z0 (commitWindow w s) := by
  unfold commitWindow
  repeat' (first
      | with_reducible assumption | with_reducible exact Changes.sub hpl (by decide) | dsimp only | split
      | with_reducible refine upd_tel'tel (by with_reducible rfl) (by with_reducible rfl) (by with_reducible rfl) ?_ ?_)

theorem commitEvent_frame {pl : List Part} {z0 : State} {e : Nat} {s : State}
    (hz : Changes pl z0 s) (hpl : ∀ p ∈ ([.ctr, .tel] : List Part), p ∈ pl) : Changes pl z0 (commitEvent e s) := by
  unfold commitEvent
  repeat' (first
      | with_reducible assumption | with_reducible exact Changes.sub hpl (by decide) | dsimp only | split
      | with_reducible refine upd_tel'ctr'tel (by with_reducible rfl) (by with_reducible rfl) ?_ ?_)

theorem commitTel_frame {pl : List Part} {z0 : State} {o : Cfg} {s : State}
    (hz : Changes pl z0 s) (hpl : ∀ p ∈ ([.ctr, .sweep, .samples, .tel] : List Part), p ∈ pl) : Changes pl z0 (commitTel o s) := by
  unfold commitTel
  repeat' (first
      | with_reducible assumption | with_reducible exact Changes.sub hpl (by decide) | dsimp only | split
      | with_reducible apply upd_tel)

theorem commitSmc_frame {pl : List Part} {z0 : State} {o : Cfg} {s : State}
    (hz : Changes pl z0 s) (hpl : ∀ p ∈ ([.levels, .jic, .ctr, .mem, .smc, .frc, .xdma, .hostQueue, .replies, .hlk, .out] :
      List Part), p ∈ pl) : Changes pl z0 (commitSmc o s) := by
  unfold commitSmc
  repeat' (first
      | with_reducible assumption | with_reducible exact Changes.sub hpl (by decide) | with_reducible apply startMemory_frame
      | with_reducible apply nextRetrain_frame | dsimp only | split | with_reducible apply upd_frc
      | with_reducible refine upd_smc'smc (by with_reducible rfl) ?_ ?_)

theorem commitRegion_frame {pl : List Part} {z0 : State} {n : Nat} {s : State}
    (hz : Changes pl z0 s) (hpl : ∀ p ∈ ([.frc] : List Part), p ∈ pl) : Changes pl z0 (commitRegion n s) := by
  unfold commitRegion
  repeat' (first
      | with_reducible assumption | with_reducible exact Changes.sub hpl (by decide) | with_reducible apply putRegion_frame
      | dsimp only | split)

theorem commitBudget_frame {pl : List Part} {z0 : State} {s : State}
    (hz : Changes pl z0 s) (hpl : ∀ p ∈ ([.frc] : List Part), p ∈ pl) : Changes pl z0 (commitBudget s) := by
  unfold commitBudget
  repeat' (first
      | with_reducible assumption | with_reducible exact Changes.sub hpl (by decide) | with_reducible apply putBudget_frame
      | (with_reducible apply Changes.foldl_frame; rotate_left; intro _ _ _))

theorem commitChannel_frame {pl : List Part} {z0 : State} {c : Nat} {s : State}
    (hz : Changes pl z0 s) (hpl : ∀ p ∈ ([.xdma] : List Part), p ∈ pl) : Changes pl z0 (commitChannel c s) := by
  unfold commitChannel
  repeat' (first | with_reducible assumption | with_reducible exact Changes.sub hpl (by decide) | with_reducible apply putX_frame)

theorem commitPps_frame {pl : List Part} {z0 : State} {o : Cfg} {s : State}
    (hz : Changes pl z0 s) (hpl : ∀ p ∈ ([.tsu, .out] : List Part), p ∈ pl) : Changes pl z0 (commitPps o s) := by
  unfold commitPps
  repeat' (first
      | with_reducible assumption | with_reducible exact Changes.sub hpl (by decide) | with_reducible apply emit_frame
      | dsimp only | split | with_reducible apply upd_tsu)

theorem commitRole_frame {pl : List Part} {z0 : State} {o : Cfg} {s : State}
    (hz : Changes pl z0 s) (hpl : ∀ p ∈ ([.quarantine, .tsu, .sessions, .checks, .sealed, .err, .levels, .jic, .ctr, .frc,
      .hostQueue, .replies, .pounce, .dbg, .hlk, .out] : List Part), p ∈ pl) : Changes pl z0 (commitRole o s) := by
  unfold commitRole
  repeat' (first
      | with_reducible assumption | with_reducible exact Changes.sub hpl (by decide) | with_reducible apply dropWorker_frame
      | with_reducible apply loseManager_frame | (with_reducible apply Changes.foldl_frame; rotate_left; intro _ _ _)
      | dsimp only | split | with_reducible apply upd_tsu_hlk)

theorem reviveObj_frame {pl : List Part} {z0 : State} {x : ShaperObj} {s : State}
    (hz : Changes pl z0 s) (hpl : ∀ p ∈ ([.esh] : List Part), p ∈ pl) : Changes pl z0 (reviveObj x s) := by
  unfold reviveObj
  repeat' (first
      | with_reducible assumption | with_reducible exact Changes.sub hpl (by decide) | with_reducible apply putObj_frame
      | dsimp only | split)

theorem revive_frame {pl : List Part} {z0 : State} {e : Edit} {s : State}
    (hz : Changes pl z0 s) (hpl : ∀ p ∈ ([.esh, .pols] : List Part), p ∈ pl) : Changes pl z0 (revive e s) := by
  unfold revive
  repeat' (first
      | with_reducible assumption | with_reducible exact Changes.sub hpl (by decide) | with_reducible apply commitPolicer_frame
      | with_reducible apply reviveObj_frame | dsimp only | split)

theorem commitWake_frame {pl : List Part} {z0 : State} {g : Nat} {s : State}
    (hz : Changes pl z0 s) (hpl : ∀ p ∈ ([.groups] : List Part), p ∈ pl) : Changes pl z0 (commitWake g s) := by
  unfold commitWake
  repeat' (first
      | with_reducible assumption | with_reducible exact Changes.sub hpl (by decide) | with_reducible apply putGroup_frame
      | dsimp only | split)

theorem onChanged_frame {pl : List Part} {z0 : State} {α : Type} [DecidableEq α] {o n : Tab α} {f : Nat → State → State} {s : State}
    (hz : Changes pl z0 s) (hf : ∀ k a, Changes pl z0 a → Changes pl z0 (f k a)) : Changes pl z0 (onChanged o n f s) :=
  Changes.foldl_frame hz fun a k ha => hf k a ha

theorem commitIngress_frame {pl : List Part} {z0 : State} {o : Cfg} {s : State}
    (hz : Changes pl z0 s) (hpl : ∀ p ∈ ([.quarantine, .sessions, .sealed, .err, .levels, .jic, .ctr, .samples, .frc, .groups,
      .ports, .hostQueue, .esh, .replies, .hpe, .pounce, .dbg, .hlk, .sas, .pols, .out] : List Part), p ∈ pl) : Changes pl z0
      (commitIngress o s) := by
  unfold commitIngress
  repeat' (first
      | with_reducible assumption | with_reducible exact Changes.sub hpl (by decide)
      | (with_reducible apply onChanged_frame; rotate_left; intro _ _ _) | with_reducible apply commitPause_frame
      | with_reducible apply commitPreempt_frame | with_reducible apply commitPolicer_frame
      | with_reducible apply commitSas_frame | with_reducible apply commitPort_frame
      | (with_reducible apply Changes.foldl_frame; rotate_left; intro _ _ _))

theorem commitEgress_frame {pl : List Part} {z0 : State} {o : Cfg} {s : State}
    (hz : Changes pl z0 s) (hpl : ∀ p ∈ ([.gates, .hostQueue, .esh] : List Part), p ∈ pl) : Changes pl z0 (commitEgress o s) := by
  unfold commitEgress
  repeat' (first
      | with_reducible assumption | with_reducible exact Changes.sub hpl (by decide)
      | (with_reducible apply onChanged_frame; rotate_left; intro _ _ _) | with_reducible apply commitGate_frame
      | with_reducible apply commitBinding_frame | with_reducible apply commitObj_frame | with_reducible apply commitLeaf_frame
      | with_reducible apply commitNode_frame)

theorem commitShared_frame {pl : List Part} {z0 : State} {o : Cfg} {s : State}
    (hz : Changes pl z0 s) (hpl : ∀ p ∈ ([.quarantine, .tsu, .sessions, .checks, .sealed, .cfg, .err, .levels, .jic, .ctr,
      .sweep, .samples, .tel, .mem, .smc, .frc, .xdma, .groups, .hostQueue, .replies, .hpe, .pounce, .dbg, .hlk, .out] : List
      Part), p ∈ pl) : Changes pl z0 (commitShared o s) := by
  unfold commitShared
  repeat' (first
      | with_reducible assumption | with_reducible exact Changes.sub hpl (by decide) | with_reducible apply commitRole_frame
      | (with_reducible apply onChanged_frame; rotate_left; intro _ _ _) | with_reducible apply commitWake_frame
      | with_reducible apply commitChannel_frame | with_reducible apply commitRegion_frame
      | with_reducible apply commitSmc_frame | with_reducible apply commitTel_frame | with_reducible apply commitEvent_frame
      | with_reducible apply commitWindow_frame | with_reducible apply commitSource_frame
      | with_reducible apply commitRing_frame | with_reducible apply commitBudget_frame | with_reducible apply commitPps_frame
      | (with_reducible apply Changes.foldl_frame; rotate_left; intro _ _ _) | dsimp only | split)

theorem commitEffect_frame {pl : List Part} {z0 : State} {at_ : Time96} {s : State}
    (hz : Changes pl z0 s) (hpl : ∀ p ∈ ([.mode, .quarantine, .tsu, .sessions, .checks, .staged, .sealed, .cpx, .cfg, .err,
      .levels, .jic, .ctr, .sweep, .samples, .tel, .mem, .smc, .frc, .xdma, .groups, .ports, .gates, .hostQueue, .esh, .replies,
      .hpe, .pounce, .dbg, .hlk, .rx, .sas, .pols, .out] : List Part), p ∈ pl) : Changes pl z0 (commitEffect at_ s) := by
  unfold commitEffect
  repeat' (first
      | with_reducible assumption | with_reducible exact Changes.sub hpl (by decide) | with_reducible apply battAtCommit_frame
      | with_reducible apply raiseEvent_frame | with_reducible apply eventRecord_frame | with_reducible apply powerUpdate_frame
      | with_reducible apply revive_frame | with_reducible apply commitShared_frame | with_reducible apply commitEgress_frame
      | with_reducible apply commitIngress_frame | with_reducible apply sendLeaves_frame
      | (with_reducible apply Changes.foldl_frame; rotate_left; intro _ _ _) | dsimp only | split | with_reducible apply upd_cfg
      | with_reducible refine upd_mode'mode_cpx'staged'sealed'cpx_cfg (by with_reducible rfl) (by with_reducible rfl) (by with_reducible rfl) (by with_reducible rfl) ?_ ?_)

theorem commitDue_frame {pl : List Part} {z0 : State} {s : State}
    (hz : Changes pl z0 s) (hpl : ∀ p ∈ ([.mode, .quarantine, .tsu, .sessions, .checks, .staged, .sealed, .cpx, .cfg, .err,
      .levels, .jic, .ctr, .sweep, .samples, .tel, .mem, .smc, .frc, .xdma, .groups, .ports, .gates, .hostQueue, .esh, .replies,
      .hpe, .pounce, .dbg, .hlk, .rx, .sas, .pols, .out] : List Part), p ∈ pl) : Changes pl z0 (commitDue s) := by
  unfold commitDue
  repeat' (first
      | with_reducible assumption | with_reducible exact Changes.sub hpl (by decide) | with_reducible apply commitEffect_frame
      | dsimp only | split)

/-! ## Session -/

theorem sessionExpiry_frame {pl : List Part} {z0 : State} {id : Nat} {s : State}
    (hz : Changes pl z0 s) (hpl : ∀ p ∈ ([.sessions] : List Part), p ∈ pl) : Changes pl z0 (sessionExpiry id s) := by
  unfold sessionExpiry
  repeat' (first
      | with_reducible assumption | with_reducible exact Changes.sub hpl (by decide) | dsimp only | split
      | with_reducible refine upd_cpx'sessions (by with_reducible rfl) (by with_reducible rfl) (by with_reducible rfl) ?_ ?_)

/-! ## Boot -/

theorem bare_frame {pl : List Part} {z0 : State} {s : State}
    (hz : Changes pl z0 s) (hpl : ∀ p ∈ ([.mode, .quarantine, .shown, .tsu, .sessions, .checks, .staged, .sealed, .cpx, .hood,
      .cfg, .err, .acc, .levels, .jic, .ctr, .sweep, .samples, .tel, .mem, .smc, .frc, .xdma, .groups, .lanes, .lif, .ports,
      .gates, .hostQueue, .esh, .replies, .hpe, .pounce, .dbg, .hlk, .rx, .sas, .pols] : List Part), p ∈ pl) : Changes pl z0
      (bare s) :=
  hz.trans (Changes.mono (l := [.mode, .quarantine, .shown, .tsu, .sessions, .checks, .staged, .sealed, .cpx, .hood, .cfg, .err, .acc, .levels, .jic, .ctr, .sweep, .samples, .tel, .mem, .smc, .frc, .xdma, .groups, .lanes, .lif, .ports, .gates, .hostQueue, .esh, .replies, .hpe, .pounce, .dbg, .hlk, .rx, .sas, .pols]) (by
    intro p hp; cases p <;> first | rfl | exact fun _ => rfl | exact fun _ h => h | simp at hp) hpl)

theorem brimOnly_frame {pl : List Part} {z0 : State} {s : State}
    (hz : Changes pl z0 s) (hpl : ∀ p ∈ ([.mode, .quarantine, .shown, .tsu, .sessions, .checks, .staged, .sealed, .cpx, .hood,
      .cfg, .err, .acc, .levels, .jic, .ctr, .sweep, .samples, .tel, .mem, .smc, .frc, .xdma, .groups, .lanes, .lif, .ports,
      .gates, .hostQueue, .esh, .replies, .hpe, .pounce, .dbg, .hlk, .rx, .sas, .pols] : List Part), p ∈ pl) : Changes pl z0
      (brimOnly s) :=
  hz.trans (Changes.mono (l := [.mode, .quarantine, .shown, .tsu, .sessions, .checks, .staged, .sealed, .cpx, .hood, .cfg, .err, .acc, .levels, .jic, .ctr, .sweep, .samples, .tel, .mem, .smc, .frc, .xdma, .groups, .lanes, .lif, .ports, .gates, .hostQueue, .esh, .replies, .hpe, .pounce, .dbg, .hlk, .rx, .sas, .pols]) (by
    intro p hp; cases p <;> first | rfl | exact fun _ => rfl | exact fun _ h => h | simp at hp) hpl)

theorem brimRelease_frame {pl : List Part} {z0 : State} {s : State}
    (hz : Changes pl z0 s) (hpl : ∀ p ∈ ([.mode] : List Part), p ∈ pl) : Changes pl z0 (brimRelease s) := by
  unfold brimRelease
  repeat' (first
      | with_reducible assumption | with_reducible exact Changes.sub hpl (by decide) | dsimp only | split
      | with_reducible refine upd_mode'mode (by with_reducible rfl) (by with_reducible rfl) ?_ ?_)

theorem coreRelease_frame {pl : List Part} {z0 : State} {refOk : Bool} {s : State}
    (hz : Changes pl z0 s) (hpl : ∀ p ∈ ([.mode] : List Part), p ∈ pl) : Changes pl z0 (coreRelease refOk s) := by
  unfold coreRelease
  repeat' (first
      | with_reducible assumption | with_reducible exact Changes.sub hpl (by decide) | dsimp only | split
      | with_reducible refine upd_mode'mode (by with_reducible rfl) (by with_reducible rfl) ?_ ?_)

theorem railGood_frame {pl : List Part} {z0 : State} {s : State}
    (hz : Changes pl z0 s) (hpl : ∀ p ∈ ([.mode] : List Part), p ∈ pl) : Changes pl z0 (railGood s) := by
  unfold railGood
  repeat' (first
      | with_reducible assumption | with_reducible exact Changes.sub hpl (by decide) | dsimp only | split
      | with_reducible refine upd_mode'mode (by with_reducible rfl) (by with_reducible rfl) ?_ ?_)

theorem seedLfsr_frame {pl : List Part} {z0 : State} {s : State}
    (hz : Changes pl z0 s) (hpl : ∀ p ∈ ([.tel, .draws] : List Part), p ∈ pl) : Changes pl z0 (seedLfsr s) := by
  unfold seedLfsr
  repeat' (first
      | with_reducible assumption | with_reducible exact Changes.sub hpl (by decide)
      | with_reducible refine draw_of (by assumption) ?_ ?_ | with_reducible apply draw_frame
      | (with_reducible apply Changes.foldl_frame; rotate_left; intro _ _ _) | dsimp only | split
      | with_reducible refine upd_tel'tel (by with_reducible rfl) (by with_reducible rfl) (by with_reducible rfl) ?_ ?_)

theorem pllLock_frame {pl : List Part} {z0 : State} {s : State}
    (hz : Changes pl z0 s) (hpl : ∀ p ∈ ([.mode, .quarantine, .shown, .tsu, .sessions, .checks, .staged, .sealed, .cpx, .hood,
      .cfg, .err, .acc, .levels, .jic, .ctr, .sweep, .samples, .tel, .mem, .smc, .frc, .xdma, .groups, .lanes, .lif, .ports,
      .gates, .hostQueue, .esh, .replies, .hpe, .pounce, .dbg, .hlk, .rx, .sas, .pols, .out, .draws] : List Part), p ∈ pl) :
      Changes pl z0 (pllLock s) := by
  unfold pllLock
  extract_lets m b s1 s2 s3 s4
  split
  · exact hz
  · skip
    have h1 : Changes pl z0 s1 := upd_mode (brimOnly_frame hz (Changes.sub hpl (by decide))) (Changes.sub hpl (by decide))
    have h2 : Changes pl z0 s2 := seedLfsr_frame h1 (Changes.sub hpl (by decide))
    have h3 : Changes pl z0 s3 := by
      unfold s3; split
      · exact h2
      · exact startMemory_frame h2 (Changes.sub hpl (by decide))
    have h4 : Changes pl z0 s4 := by
      unfold s4; split
      · exact errorAt_frame h3 (Changes.sub hpl (by decide))
      · exact h3
    exact emit_frame h4 (Changes.sub hpl (by decide))

theorem loadCopy_frame {pl : List Part} {z0 : State} {second : Bool} {q : Nat} {l : List (Nat × KeyInstallBody)} {s : State}
    (hz : Changes pl z0 s) (hpl : ∀ p ∈ ([.hood] : List Part), p ∈ pl) : Changes pl z0 (loadCopy second q l s) := by
  unfold loadCopy
  repeat' (first
      | with_reducible assumption | with_reducible exact Changes.sub hpl (by decide) | dsimp only | split
      | with_reducible apply upd_hood)

theorem loadStore_frame {pl : List Part} {z0 : State} {f : BootFacts} {s : State}
    (hz : Changes pl z0 s) (hpl : ∀ p ∈ ([.hood] : List Part), p ∈ pl) : Changes pl z0 (loadStore f s) := by
  unfold loadStore
  repeat' (first
      | with_reducible assumption | with_reducible exact Changes.sub hpl (by decide) | with_reducible apply loadCopy_frame
      | dsimp only | split | with_reducible apply upd_hood)

theorem fenceFailed_frame {pl : List Part} {z0 : State} {f : BootFacts} {s : State}
    (hz : Changes pl z0 s) (hpl : ∀ p ∈ ([.groups] : List Part), p ∈ pl) : Changes pl z0 (fenceFailed f s) := by
  unfold fenceFailed
  repeat' (first
      | with_reducible assumption | with_reducible exact Changes.sub hpl (by decide) | with_reducible apply putGroup_frame
      | (with_reducible apply Changes.foldl_frame; rotate_left; intro _ _ _) | dsimp only | split)

theorem poolErrors_frame {pl : List Part} {z0 : State} {l : List (Nat × Nat × Nat)} {s : State}
    (hz : Changes pl z0 s) (hpl : ∀ p ∈ ([.quarantine, .sessions, .sealed, .err, .frc, .pounce, .dbg] : List Part), p ∈ pl) :
      Changes pl z0 (poolErrors l s) := by
  unfold poolErrors
  repeat' (first
      | with_reducible assumption | with_reducible exact Changes.sub hpl (by decide) | with_reducible apply errorAt_frame
      | (with_reducible apply Changes.foldl_frame; rotate_left; intro _ _ _))

theorem finishBoot_frame {pl : List Part} {z0 : State} {f : BootFacts} {s : State}
    (hz : Changes pl z0 s) (hpl : ∀ p ∈ ([.mode, .quarantine, .sessions, .checks, .sealed, .cpx, .hood, .cfg, .err, .levels,
      .jic, .ctr, .samples, .smc, .frc, .groups, .ports, .hostQueue, .esh, .replies, .hpe, .pounce, .dbg, .hlk, .rx, .sas,
      .pols, .out, .draws] : List Part), p ∈ pl) : Changes pl z0 (finishBoot f s) := by
  unfold finishBoot
  repeat' (first
      | with_reducible assumption | with_reducible exact Changes.sub hpl (by decide)
      | with_reducible refine draw_of (by assumption) ?_ ?_ | with_reducible apply draw_frame
      | with_reducible apply fenceFailed_frame | with_reducible apply loadStore_frame | with_reducible apply enterLocked_frame
      | with_reducible apply poolErrors_frame | with_reducible apply errorAt_frame | with_reducible apply enterZeroized_frame
      | with_reducible apply inputActs_frame | dsimp only | split
      | with_reducible refine upd_mode'mode'quarantine_cpx'cpx_hood_rx (by with_reducible rfl) (by with_reducible rfl) (by with_reducible rfl) (by with_reducible rfl) ?_ ?_)

theorem bootComplete_frame {pl : List Part} {z0 : State} {f : BootFacts} {s : State}
    (hz : Changes pl z0 s) (hpl : ∀ p ∈ ([.mode, .quarantine, .sessions, .checks, .sealed, .cpx, .hood, .cfg, .err, .levels,
      .jic, .ctr, .samples, .smc, .frc, .groups, .ports, .hostQueue, .esh, .replies, .hpe, .pounce, .dbg, .hlk, .rx, .sas,
      .pols, .out, .draws] : List Part), p ∈ pl) : Changes pl z0 (bootComplete f s) := by
  unfold bootComplete
  repeat' (first
      | with_reducible assumption | with_reducible exact Changes.sub hpl (by decide) | with_reducible apply finishBoot_frame
      | with_reducible apply emits_frame | with_reducible apply errorAt_frame | dsimp only | split
      | with_reducible refine upd_mode'mode (by with_reducible rfl) (by with_reducible rfl) ?_ ?_)

theorem railLoss_frame {pl : List Part} {z0 : State} {coreReset : Bool} {s : State}
    (hz : Changes pl z0 s) (hpl : ∀ p ∈ ([.mode, .quarantine, .shown, .tsu, .sessions, .checks, .staged, .sealed, .cpx, .hood,
      .cfg, .err, .acc, .levels, .jic, .ctr, .sweep, .samples, .tel, .mem, .smc, .frc, .xdma, .groups, .lanes, .lif, .ports,
      .gates, .hostQueue, .esh, .replies, .hpe, .pounce, .dbg, .hlk, .rx, .sas, .pols] : List Part), p ∈ pl) : Changes pl z0
      (railLoss coreReset s) := by
  unfold railLoss
  repeat' (first
      | with_reducible assumption | with_reducible exact Changes.sub hpl (by decide) | with_reducible apply brimOnly_frame
      | dsimp only | split | with_reducible refine upd_mode'mode (by with_reducible rfl) (by with_reducible rfl) ?_ ?_)

theorem brimLoss_frame {pl : List Part} {z0 : State} {s : State}
    (hz : Changes pl z0 s) (hpl : ∀ p ∈ ([.mode, .quarantine, .shown, .tsu, .sessions, .checks, .staged, .sealed, .cpx, .hood,
      .cfg, .err, .acc, .levels, .jic, .ctr, .sweep, .samples, .tel, .mem, .smc, .frc, .xdma, .groups, .lanes, .lif, .ports,
      .gates, .hostQueue, .esh, .replies, .hpe, .pounce, .dbg, .hlk, .rx, .sas, .pols] : List Part), p ∈ pl) : Changes pl z0
      (brimLoss s) := by
  unfold brimLoss
  repeat' (first | with_reducible assumption | with_reducible exact Changes.sub hpl (by decide) | with_reducible apply bare_frame)

/-! ## Pages -/

theorem statusAnswer_frame {pl : List Part} {z0 : State} {id v : Nat} {s : State}
    (hz : Changes pl z0 s) (hpl : ∀ p ∈ ([.out] : List Part), p ∈ pl) : Changes pl z0 (statusAnswer id v s) := by
  unfold statusAnswer
  repeat' (first
      | with_reducible assumption | with_reducible exact Changes.sub hpl (by decide) | with_reducible apply sypError_frame
      | with_reducible apply sypOk_frame | dsimp only | split)

theorem writeOnlyRead_frame {pl : List Part} {z0 : State} {id : Nat} {s : State}
    (hz : Changes pl z0 s) (hpl : ∀ p ∈ ([.out] : List Part), p ∈ pl) : Changes pl z0 (writeOnlyRead id s) := by
  unfold writeOnlyRead
  repeat' (first
      | with_reducible assumption | with_reducible exact Changes.sub hpl (by decide) | with_reducible apply sypError_frame
      | with_reducible apply statusAnswer_frame | dsimp only | split)

theorem sypRead_frame {pl : List Part} {z0 : State} {id off width : Nat} {s : State}
    (hz : Changes pl z0 s) (hpl : ∀ p ∈ ([.quarantine, .sessions, .checks, .sealed, .err, .acc, .levels, .jic, .ctr, .samples,
      .tel, .frc, .xdma, .ports, .hostQueue, .esh, .replies, .hpe, .pounce, .dbg, .hlk, .sas, .out] : List Part), p ∈ pl) :
      Changes pl z0 (sypRead id off width s) := by
  unfold sypRead
  repeat' (first
      | with_reducible assumption | with_reducible exact Changes.sub hpl (by decide) | with_reducible apply denied_frame
      | with_reducible apply windowRead_frame | with_reducible apply statusAnswer_frame
      | (with_reducible apply atTarget_frame; rotate_left; rotate_left; intro _ _) | with_reducible apply claimRead_frame
      | with_reducible apply writeOnlyRead_frame | dsimp only | split)

theorem sypWrite_frame {pl : List Part} {z0 : State} {id off width : Nat} {s : State}
    (hz : Changes pl z0 s) (hpl : ∀ p ∈ ([.quarantine, .sessions, .checks, .sealed, .err, .acc, .levels, .jic, .ctr, .samples,
      .frc, .xdma, .ports, .hostQueue, .esh, .replies, .hpe, .pounce, .dbg, .hlk, .sas, .out] : List Part), p ∈ pl) : Changes pl
      z0 (sypWrite id off width s) := by
  unfold sypWrite
  repeat' (first
      | with_reducible assumption | with_reducible exact Changes.sub hpl (by decide) | with_reducible apply denied_frame
      | dsimp only | split)

end Sys2Proof.Safety
end

