-- ==== Sys2Proof/Laws/Frames.lean ====
section
/-! SUPPORT. The check of a command: what a command that passes leaves, what an admitted one does, and how it is concluded. -/
namespace Sys2Proof.Safety
open Sys2Proof.Machine

/-! ## The check -/

theorem takeWaiting_some {o : Origin} {w : Waiting} {s t : State} (h : takeWaiting o s = some (w, t)) :
    Changes [.checks] s t ∧ w.origin = o ∧ w ∈ s.cpx.queue := by
  unfold takeWaiting at h
  split at h
  · rename_i hw _
    injection h with h
    injection h with h1 h2
    subst h1 h2
    have hm := List.find?_some hw
    exact ⟨upd_cpx'checks rfl rfl rfl (Changes.refl _ _) (by decide), of_decide_eq_true hm, List.mem_of_find?_eq_some hw⟩
  · cases h

theorem authCheck_passed {op : Op} {z : Zelgen} {s t : State} {k : Option Digest} {n : Nat}
    (h : authCheck op z s = .passed k n t) : Changes [.sessions, .checks] s t := by
  revert h
  fun_cases authCheck op z s
  all_goals
    intro h
    first
      | cases h; done
      | (injection h with _ _ e; subst e; exact consume_frame (Changes.refl _ _) (by decide))

theorem checkZ_passed {op : Op} {c : ReplyCtx} {z : Zelgen} {s t : State} {k : Option Digest} {n : Nat}
    (h : checkZ op c z s = .passed k n t) : Changes [.sessions, .checks] s t := by
  revert h
  fun_cases checkZ op c z s
  all_goals
    intro h
    first
      | cases h; done
      | exact authCheck_passed h
      | (injection h with _ _ e; subst e
         first
           | exact Changes.refl _ _
           | exact unauthLimit_some (by assumption) (Changes.refl _ _) (by decide))

/-- The end of a frame that CPX takes. -/
theorem settled_changes (w : Waiting) (s : State) : Changes checkParts s (settleFrame w true s) := by
  unfold settleFrame
  repeat' (first
    | with_reducible exact Changes.refl _ _ | with_reducible apply record_frame | with_reducible apply endSample_frame
    | with_reducible apply count_frame | with_reducible apply tally_frame | with_reducible apply polTakes_frame | decide
    | dsimp only | (rw [if_pos rfl]) | split)

/-! ## Admission -/

theorem takenUp_some {op : Op} {z : Zelgen} {s u : State} {w : Waiting} {c : ReplyCtx} (h : takenUp op z s = some (w, c, u)) :
    processing (start z.dt s) = true ∧ (start z.dt s).cpx.restart = none ∧ takeWaiting z.origin (start z.dt s) = some (w, u) ∧
      c = ctxOf (seenAs op z) z w u := by
  unfold takenUp at h
  dsimp only at h
  split at h
  · cases h
  · rename_i hp
    rcases ht : takeWaiting z.origin (start z.dt s) with _ | ⟨w', u'⟩
    · rw [ht] at h; cases h
    · rw [ht] at h
      injection h with h; injection h with h1 h2; injection h2 with h2 h3
      subst h1 h2 h3
      refine ⟨?_, ?_, rfl, rfl⟩
      · simpa using (not_or.mp hp).1
      · simpa using (not_or.mp hp).2

theorem authenticated_some {op : Op} {z : Zelgen} {s u : State} {c : ReplyCtx} (h : authenticated op z s = some (c, u)) :
    ∃ w c1 s1 k n s2, takenUp op z s = some (w, c1, s1) ∧ checkZ (seenAs op z) c1 z s1 = .passed k n s2 ∧
      c = { c1 with key := k, signer := n } ∧ u = settleFrame w true s2 := by
  unfold authenticated at h
  split at h
  · rename_i w c1 s1 ht
    split at h
    · rename_i k n s2 hc
      injection h with h
      exact ⟨w, c1, s1, k, n, s2, ht, hc, (congrArg Prod.fst h).symm, (congrArg Prod.snd h).symm⟩
    · cases h
  · cases h

theorem passGate_some {op : Op} {z : Zelgen} {c d : ReplyCtx} {u v : State} (h : passGate op z c u = some (d, v)) :
    d = c ∧ v = u ∧ (authKind z ≠ 0 → modeCheck op u = none) ∧ paramCheck op c u = none := by
  unfold passGate at h
  split at h
  · rename_i hm
    injection h with h
    exact ⟨(congrArg Prod.fst h).symm, (congrArg Prod.snd h).symm, fun hz => hm.1.resolve_left hz, hm.2⟩
  · cases h

theorem admitted_some {op : Op} {z : Zelgen} {s u : State} {c : ReplyCtx} (h : admitted op z s = some (c, u)) :
    authenticated op z s = some (c, u) ∧ (authKind z ≠ 0 → modeCheck op u = none) ∧ paramCheck op c u = none := by
  unfold admitted at h
  split at h
  · rename_i c1 u1 ha
    obtain ⟨e1, e2, hm, hp⟩ := passGate_some h
    subst e1 e2
    exact ⟨ha, hm, hp⟩
  · cases h

/-- The state in which an authenticated command's mode and parameters are checked. -/
theorem authenticated_changes {op : Op} {z : Zelgen} {s u : State} {c : ReplyCtx} (h : authenticated op z s = some (c, u)) :
    Changes checkParts (start z.dt s) u := by
  obtain ⟨w, c1, s1, k, n, s2, ht, hc, -, rfl⟩ := authenticated_some h
  exact (((takeWaiting_some (takenUp_some ht).2.2.1).1.mono (by decide)).trans ((checkZ_passed hc).mono (by decide))).trans
    (settled_changes w s2)

/-- The state in which an admitted command is carried out. -/
theorem admitted_changes {op : Op} {z : Zelgen} {s u : State} {c : ReplyCtx} (h : admitted op z s = some (c, u)) :
    Changes checkParts (start z.dt s) u :=
  authenticated_changes (admitted_some h).1

/-- A command whose opcode no table lists is refused by the check. -/
theorem checkZ_unknown {op : Op} {c : ReplyCtx} {z : Zelgen} {s t : State} {k : Option Digest} {n : Nat} (ho : op.unknown = true)
    (h : checkZ op c z s = .passed k n t) : False := by
  revert h
  fun_cases checkZ op c z s
  all_goals
    intro h
    first
      | cases h; done
      | simp_all

/-- An authenticated command carries the opcode of its row. -/
theorem authenticated_known {op : Op} {z : Zelgen} {s u : State} {c : ReplyCtx} (h : authenticated op z s = some (c, u)) :
    seenAs op z = op := by
  obtain ⟨w, c1, s1, k, n, s2, -, hc, -, -⟩ := authenticated_some h
  unfold seenAs at hc ⊢
  split at hc
  · exact (checkZ_unknown rfl hc).elim
  · rfl

/-- What the context of an admitted command holds. -/
theorem admitted_ctx {op : Op} {z : Zelgen} {s u : State} {c : ReplyCtx} (h : admitted op z s = some (c, u)) :
    c.origin = z.origin ∧ c.opcode = op.opcode ∧ c.sequence = z.sequence ∧ c.correlation = z.correlation ∧
      c.onError = replyOnError z ∧ (authKind z ≠ 0 → modeCheck op u = none) ∧ paramCheck op c u = none := by
  obtain ⟨ha, hm, hp⟩ := admitted_some h
  obtain ⟨w, c1, s1, k, n, s2, ht, -, rfl, -⟩ := authenticated_some ha
  obtain ⟨-, -, -, rfl⟩ := takenUp_some ht
  have hk := authenticated_known ha
  rw [hk] at hp ⊢
  exact ⟨rfl, rfl, rfl, rfl, rfl, hm, hp⟩

theorem admitted_key {op : Op} {z : Zelgen} {s u : State} {c : ReplyCtx} (h : admitted op z s = some (c, u)) : c.keyId = z.keyId := by
  obtain ⟨ha, -, -⟩ := admitted_some h
  obtain ⟨w, c1, s1, k, n, s2, ht, -, rfl, -⟩ := authenticated_some ha
  obtain ⟨-, -, -, rfl⟩ := takenUp_some ht
  rfl

/-- The context that the reply uses: SESSION_OPEN answers under its new session (R39). -/
def replyCtx (c : ReplyCtx) (r : Done) : ReplyCtx :=
  match r.sk with
  | some (id, k) => { c with keyId := id, key := some k }
  | none => c

/-- The reply and the record after an effect. -/
def concluded (c : ReplyCtx) (r : Done) : State :=
  if r.later then commandRecord c r.status r.state
  else commandRecord (replyCtx c r) r.status (answer (replyCtx c r) r.status r.detail r.body r.state)

/-- The effect of a command past its checks. -/
def effectOf (op : Op) (c : ReplyCtx) (z : Zelgen) (u : State) : Done :=
  match op.edit with
  | some e => stage op z e u
  | none => op.run c u

theorem checked_passed {op : Op} {z : Zelgen} {w : Waiting} {s s2 : State} {k : Option Digest} {n : Nat}
    (hv : checkZ op (ctxOf op z w s) z s = .passed k n s2) :
    zelgen.checked op z w s = concluded { ctxOf op z w s with key := k, signer := n }
      (carryOut op { ctxOf op z w s with key := k, signer := n } z (settleFrame w true s2)) := by
  unfold zelgen.checked concluded
  simp only [hv]
  rfl

/-- Past its checks a command's effect is carried out. -/
theorem carryOut_admitted {op : Op} {c : ReplyCtx} {z : Zelgen} {u : State} (hm : authKind z ≠ 0 → modeCheck op u = none)
    (hp : paramCheck op c u = none) : carryOut op c z u = effectOf op c z u := by
  have h0 : (if authKind z = 0 then none else modeCheck op u) = none := by
    split
    · rfl
    · exact hm (by assumption)
  simp only [carryOut, effectOf, h0, hp] <;> (cases op.edit <;> rfl)

/-- An admitted command is carried out, answered and recorded; then a firmware activation that waited for the queue may
restart CPX. -/
theorem zelgen_admitted {op : Op} {z : Zelgen} {s u : State} {c : ReplyCtx} (h : admitted op z s = some (c, u)) :
    zelgen op z (start z.dt s) = activationRestart (concluded c (effectOf op c z u)) := by
  obtain ⟨ha, hm, hp⟩ := admitted_some h
  have hk := authenticated_known ha
  obtain ⟨w, c1, s1, k, n, s2, ht, hc, rfl, rfl⟩ := authenticated_some ha
  obtain ⟨h1, h2, h3, rfl⟩ := takenUp_some ht
  rw [hk] at hc hp ⊢
  rw [← carryOut_admitted hm hp, ← checked_passed hc]
  unfold zelgen
  rw [if_neg (by simp [h1, h2]), h3]
  dsimp only
  rw [hk]

end Sys2Proof.Safety
end

