-- ==== Sys2Proof/Laws/Rows.lean ====
section
/-! SUPPORT. The passing of time before a row, and the form of every row: its effect, then burnt fuses and the waiting queue kept. -/
namespace Sys2Proof.Safety
open Sys2Proof.Machine

/-! ## The passing of time -/

/-- Time that passes changes no more than `timeParts`. -/
theorem start_changes (d : Nat) (s : State) : Changes timeParts s (start d s) := by
  unfold start
  exact settled_frame (advance_frame ((changes_out s []).mono (by decide)) (by decide)) (by decide)

/-! ## Fuses and the queue -/

@[simp] theorem burnFuses_self (f : Fuses) : burnFuses f f = f := by
  cases f; simp [burnFuses]

/-- Where neither the fuses nor the queue changed, nothing is left to keep. -/
theorem within_of_same {s t : State} (h : t.fuses = s.fuses) (hq : t.pending = s.pending) : within s t = t := by
  unfold within
  rw [← h, ← hq, burnFuses_self]

/-- An effect that touches neither the fuses nor the queue leaves the state as it is. -/
theorem within_of_changes {l : List Part} {d : Nat} {s t : State} (h : Changes l (start d s) t) (hf : Part.fuses ∉ l)
    (hq : Part.pending ∉ l) : within s t = t := by
  have h1 : t.fuses = (start d s).fuses := h .fuses hf
  have h2 : t.pending = (start d s).pending := h .pending hq
  have h3 : (start d s).fuses = s.fuses := start_changes d s .fuses (by decide)
  have h4 : (start d s).pending = s.pending := start_changes d s .pending (by decide)
  exact within_of_same (h1.trans h3) (h2.trans h4)

/-- A happening whose effect touches neither the fuses nor the queue answers the state it leaves. -/
theorem happen_next {l : List Part} {d : Nat} {f : State → State} {s : State} (h : Changes l (start d s) (f (start d s)))
    (hf : Part.fuses ∉ l) (hq : Part.pending ∉ l) : happen d f s = .next (f (start d s)) := by
  unfold happen; rw [within_of_changes h hf hq]

/-! ## Replies of admitted commands -/

theorem activationRestart_out {o : Output} {s : State} (h : o ∈ s.out) : o ∈ (activationRestart s).out := by
  unfold activationRestart
  split
  · split
    · exact h
    · dsimp only; split
      · exact List.mem_append_left _ h
      · exact h
  · exact h

theorem activationRestart_none {s : State} (h : s.cpx.activation = none) : activationRestart s = s := by
  unfold activationRestart; rw [h]

theorem sendManager_out {o : Output} {k l : Nat} {f : Fields} {s : State} (h : o ∈ s.out) : o ∈ (sendManager k l f s).out := by
  unfold sendManager; split
  · exact h
  · exact List.mem_append_left _ h

theorem putReplies_out (n : Nat) (l : List (Nat × Option Reply)) (s : State) : (putReplies n l s).out = s.out := rfl

theorem dropSlot_out (n : Nat) (i : Option Nat) (s : State) : (dropSlot n i s).out = s.out := by
  unfold dropSlot; split <;> rfl

theorem tally_out (k : Nat) (s : State) : (tally k s).out = s.out :=
  (tally_frame (Changes.refl [.ctr] s) (by decide)).out (by decide)

theorem sendNet_out {o : Output} {p : Nat} {n : NetPath} {l : List Byte} {s : State} (h : o ∈ s.out) : o ∈ (sendNet p n l s).out := by
  unfold sendNet; split
  · exact h
  · rw [tally_out]; exact h

theorem deliverReply_out (c : ReplyCtx) (r : Reply) (s : State) : Output.reply c.origin r ∈ (deliverReply c r s).out := by
  have he : Output.reply c.origin r ∈ (emit (.reply c.origin r) s).out := List.mem_append_right _ (List.mem_singleton.mpr rfl)
  unfold deliverReply
  split
  · split
    · rw [dropSlot_out, tally_out]; exact he
    · dsimp only; split
      · exact he
      · exact he
  · exact sendNet_out he
  · exact sendNet_out he
  · exact sendManager_out he

/-- A reply is driven for a status that the transport answers. -/
theorem answer_out {c : ReplyCtx} {st d : Nat} {b : Fields} {s : State} (h1 : c.onError = false ∨ 2 < st)
    (h2 : st < 0x0201 ∨ 0x0206 < st) : Output.reply c.origin (mkReply c st d b s) ∈ (answer c st d b s).out := by
  unfold answer
  rw [if_neg, if_neg]
  · exact deliverReply_out _ _ _
  · simp only [unanswered, Bool.and_eq_true, decide_eq_true_eq, not_and]
    omega
  · simp only [Bool.and_eq_true, decide_eq_true_eq, not_and]
    intro h
    exact fun hs => h1.elim (fun h0 => by simp [h0] at h) (fun h0 => by omega)

theorem mkReply_fields (c : ReplyCtx) (st d : Nat) (b : Fields) (s : State) :
    (mkReply c st d b s).opcode = c.opcode ∧ (mkReply c st d b s).status = st ∧ (mkReply c st d b s).body = b ∧
      (mkReply c st d b s).sequence = c.sequence ∧ (mkReply c st d b s).correlation = c.correlation := by
  unfold mkReply; dsimp only
  split <;> exact ⟨rfl, rfl, rfl, rfl, rfl⟩

end Sys2Proof.Safety
end

