-- ==== Sys2Proof/Laws/Records.lean ====
section
/-! SUPPORT. A record that a region takes or loses leaves its state and a stop that waits on it as they are. -/
namespace Sys2Proof.Safety
open Sys2Proof.Machine

/-- A region's state, the stop waiting on it and its write pointer are the same. -/
def keptRegion (a b : Region) : Prop :=
  b.state = a.state ∧ b.stopping = a.stopping ∧ b.writePtr = a.writePtr ∧ b.wraps = a.wraps

theorem keptRegion_refl (a : Region) : keptRegion a a := ⟨rfl, rfl, rfl, rfl⟩

theorem keptRegion_trans {a b c : Region} (h : keptRegion a b) (h' : keptRegion b c) : keptRegion a c :=
  ⟨h'.1.trans h.1, h'.2.1.trans h.2.1, h'.2.2.1.trans h.2.2.1, h'.2.2.2.trans h.2.2.2⟩

/-- Every region of the flight recorder has the same state, the same stop waiting and the same write pointer. -/
def SameRegions (s t : State) : Prop := ∀ n, keptRegion (regionOf s n) (regionOf t n)

theorem SameRegions.refl (s : State) : SameRegions s s := fun _ => keptRegion_refl _

theorem SameRegions.trans {s t u : State} (h : SameRegions s t) (h' : SameRegions t u) : SameRegions s u :=
  fun n => keptRegion_trans (h n) (h' n)

theorem SameRegions.of_regions {s t : State} (h : t.frc.regions = s.frc.regions) : SameRegions s t := by
  intro n; unfold regionOf; rw [h]; exact keptRegion_refl _

theorem SameRegions.of_changes {s t : State} {l : List Part} (h : Changes l s t) (hp : Part.frc ∉ l) : SameRegions s t :=
  .of_regions (congrArg Frc.regions (h .frc hp :))

theorem SameRegions.putRegion {s t : State} {n : Nat} {r : Region} (h : SameRegions s t) (h1 : keptRegion (regionOf t n) r) :
    SameRegions s (putRegion n r t) := by
  refine h.trans fun k => ?_
  by_cases hk : k = n
  · subst hk
    have e : regionOf (Machine.putRegion k r t) k = r := tgetD_tput_self _ _ _ _
    rw [e]; exact h1
  · have e : regionOf (Machine.putRegion n r t) k = regionOf t k := tgetD_tput_ne _ _ _ _ _ hk
    rw [e]; exact keptRegion_refl _

theorem SameRegions.of_tput {s t : State} {n : Nat} {r : Region} (h : t.frc.regions = tput s.frc.regions n r)
    (h1 : keptRegion (regionOf s n) r) : SameRegions s t :=
  (SameRegions.putRegion (.refl s) h1).trans (.of_regions h)

/-- A record becomes ready; its region takes it as the ccyc ends (R341). -/
theorem record_regions (r : Rec) (s : State) : SameRegions s (record r s) := by
  unfold record
  split
  · exact .refl s
  · exact .of_regions rfl

theorem eventRecord_regions (c : Nat) (d : List Byte) (s : State) : SameRegions s (eventRecord c d s) := record_regions _ s

theorem commandRecord_regions (c : ReplyCtx) (st : Nat) (s : State) : SameRegions s (commandRecord c st s) := by
  unfold commandRecord; exact record_regions _ s

theorem concluded_regions (c : ReplyCtx) (r : Done) : SameRegions r.state (concluded c r) := by
  unfold concluded; split
  · exact commandRecord_regions _ _ _
  · exact (SameRegions.of_changes (answer_frame (Changes.refl [.ctr, .hostQueue, .replies, .hlk, .out] _) (by decide)) (by decide)).trans (commandRecord_regions _ _ _)

end Sys2Proof.Safety
end

