-- ==== Sys2Proof/Laws/Commands.lean ====
section
/-! SUPPORT. What an admitted command does: one law for the staged commands, one for those that act at once. -/
namespace Sys2Proof.Safety
open Sys2Proof.Machine

theorem firstOf_none {l : List Refused} (h : firstOf l = none) : ∀ r ∈ l, r = none := by
  induction l with
  | nil => simp
  | cons r l ih =>
    unfold firstOf at h
    simp only [List.foldr_cons] at h
    intro x hx
    cases r with
    | some y => simp at h
    | none =>
      rcases List.mem_cons.mp hx with rfl | hx
      · rfl
      · exact ih h x hx

theorem need_none {ok : Bool} {st d : Nat} (h : need ok st d = none) : ok = true := by
  unfold need at h
  split at h
  · assumption
  · cases h

/-- In a mode that permits a command no firmware activation runs (R392). -/
theorem modeCheck_activation {op : Op} {s : State} (h : modeCheck op s = none) : s.cpx.activation = none := by
  have h1 := firstOf_none h (need (s.cpx.activation.isNone) stBusy) (by simp)
  exact Option.isNone_iff_eq_none.mp (need_none h1)

/-- Only STATUS_GET and ATTEST_GET are carried out without authentication (R46). -/
theorem checkZ_open {op : Op} {c : ReplyCtx} {z : Zelgen} {s t : State} {k : Option Digest} {n : Nat}
    (h : checkZ op c z s = .passed k n t) (hz : authKind z = 0) : isOpen op = true := by
  revert h
  fun_cases checkZ op c z s
  all_goals
    intro h
    first
      | cases h; done
      | simp_all

/-- No activation runs when an authenticated command is carried out. -/
theorem admitted_activation {op : Op} {z : Zelgen} {s u : State} {c : ReplyCtx} (h : admitted op z s = some (c, u))
    (ho : isOpen op = false) : u.cpx.activation = none := by
  obtain ⟨ha, hm, -⟩ := admitted_some h
  refine modeCheck_activation (hm fun hz => ?_)
  have hk := authenticated_known ha
  obtain ⟨w, c1, s1, k, n, s2, -, hc, -, -⟩ := authenticated_some ha
  rw [hk] at hc
  rw [checkZ_open hc hz] at ho
  cases ho

theorem commandRecord_changes (c : ReplyCtx) (st : Nat) (s : State) : Changes [.frc] s (commandRecord c st s) :=
  commandRecord_frame (Changes.refl _ _) (by decide)

theorem answer_changes (c : ReplyCtx) (st d : Nat) (b : Fields) (s : State) :
    Changes [.ctr, .hostQueue, .replies, .hlk, .out] s (answer c st d b s) := answer_frame (Changes.refl _ _) (by decide)

/-- What the concluding reply and record change. -/
theorem concluded_changes (c : ReplyCtx) (r : Done) : Changes replyParts r.state (concluded c r) := by
  unfold concluded; split
  · exact (commandRecord_changes _ _ _).mono (by decide)
  · exact ((answer_changes _ _ _ _ _).mono (by decide)).trans ((commandRecord_changes _ _ _).mono (by decide))

/-- The reply that an effect concludes with. -/
theorem concluded_out {c : ReplyCtx} {r : Done} (hl : r.later = false) (h1 : c.onError = false ∨ 2 < r.status)
    (h2 : r.status < 0x0201 ∨ 0x0206 < r.status) :
    ∃ y : Reply, Output.reply c.origin y ∈ (concluded c r).out ∧ y.opcode = c.opcode ∧ y.status = r.status ∧ y.body = r.body ∧
      y.sequence = c.sequence ∧ y.correlation = c.correlation := by
  unfold concluded
  rw [if_neg (by simp [hl])]
  generalize hd : replyCtx c r = d
  have hf : d.origin = c.origin ∧ d.opcode = c.opcode ∧ d.sequence = c.sequence ∧ d.correlation = c.correlation ∧
      d.onError = c.onError := by
    subst hd; unfold replyCtx; split <;> exact ⟨rfl, rfl, rfl, rfl, rfl⟩
  obtain ⟨e1, e2, e3, e4, e5⟩ := hf
  obtain ⟨f1, f2, f3, f4, f5⟩ := mkReply_fields d r.status r.detail r.body r.state
  refine ⟨mkReply d r.status r.detail r.body r.state, ?_, f1.trans e2, f2, f3, f4.trans e3, f5.trans e4⟩
  rw [(commandRecord_changes d r.status _) .out (by decide), ← e1]
  exact answer_out (by rw [e5]; exact h1) h2

/-- An admitted command of an opcode that acts at once: its effect stands, and it is answered. -/
theorem command_runs_regions {op : Op} {z : Zelgen} {s u : State} {c : ReplyCtx} {l : List Part} (h : admitted op z s = some (c, u))
    {r : Done} (hr : r = effectOf op c z u)
    (hc : Changes l u r.state) (hf : Part.fuses ∉ l) (hq : Part.pending ∉ l)
    (ha : r.state.cpx.activation = none) (hl : r.later = false) (h2 : r.status < 0x0201 ∨ 0x0206 < r.status) :
    ∃ t, command op z s = .next t ∧ Changes replyParts r.state t ∧ Changes (l ++ (checkParts ++ replyParts)) (start z.dt s) t ∧
      (replyOnError z = false ∨ 2 < r.status → Replied z op.opcode r.status r.body t) ∧ SameRegions r.state t := by
  have hz : zelgen op z (start z.dt s) = concluded c r := by
    rw [zelgen_admitted h, ← hr]
    refine activationRestart_none ?_
    have h3 := (concluded_changes c r) .cpx (by decide)
    have h4 := congrArg Cpx.activation h3
    exact h4.trans ha
  have h1 : Changes (l ++ (checkParts ++ replyParts)) (start z.dt s) (concluded c r) :=
    (((admitted_changes h).mono (by simp +contextual)).trans (hc.mono (by simp +contextual))).trans
      ((concluded_changes c r).mono (by simp +contextual))
  refine ⟨concluded c r, ?_, concluded_changes c r, h1, ?_, concluded_regions c r⟩
  · unfold command
    rw [hz, within_of_changes h1]
    · simp only [List.mem_append, not_or]; exact ⟨hf, by decide, by decide⟩
    · simp only [List.mem_append, not_or]; exact ⟨hq, by decide, by decide⟩
  · intro ho
    obtain ⟨e1, e2, e3, e4, e5, -, -⟩ := admitted_ctx h
    obtain ⟨y, y1, y2, y3, y4, y5, y6⟩ := concluded_out (c := c) hl (by rw [e5]; exact ho) h2
    exact ⟨y, by rw [← e1]; exact y1, y2.trans e2, y3, y4, y5.trans e3, y6.trans e4⟩

theorem command_runs {op : Op} {z : Zelgen} {s u : State} {c : ReplyCtx} {l : List Part} (h : admitted op z s = some (c, u))
    {r : Done} (hr : r = effectOf op c z u)
    (hc : Changes l u r.state) (hf : Part.fuses ∉ l) (hq : Part.pending ∉ l)
    (ha : r.state.cpx.activation = none) (hl : r.later = false) (h2 : r.status < 0x0201 ∨ 0x0206 < r.status) :
    ∃ t, command op z s = .next t ∧ Changes replyParts r.state t ∧ Changes (l ++ (checkParts ++ replyParts)) (start z.dt s) t ∧
      (replyOnError z = false ∨ 2 < r.status → Replied z op.opcode r.status r.body t) := by
  obtain ⟨t, t1, t2, t3, t4, -⟩ := command_runs_regions h hr hc hf hq ha hl h2
  exact ⟨t, t1, t2, t3, t4⟩

/-- What is staged when a command is admitted is what was staged before time passed, unless it was sealed. -/
theorem admitted_staged {op : Op} {z : Zelgen} {s u : State} {c : ReplyCtx} (h : admitted op z s = some (c, u))
    (hs : s.cpx.staged.sealed = none) : u.cpx.staged = s.cpx.staged :=
  ((admitted_changes h).cpx_staged (by decide) (by decide)).trans ((start_changes z.dt s).cpx_open (by decide) hs)

/-- Every staging command. -/
theorem stages_of {i : Instr} {op : Op} {z : Zelgen} {e : Edit} (hi : ∀ s, exec i s = command op z s) (he : op.edit = some e)
    (ho : isOpen op = false) : Stages i op op.opcode z e := by
  intro s c u h h1 h2 h3
  have hs := admitted_staged h h1
  have hr : stage op z e u = { state := { u with cpx := { u.cpx with staged :=
        { u.cpx.staged with edits := u.cpx.staged.edits ++ [e], count := u.cpx.staged.count + 1, bytes := u.cpx.staged.bytes + z.bodyLen
                            digest := Config.sha384 (msbBytes 48 u.cpx.staged.digest.toNat ++ messageOf op z) } } }
                               status := stStaged } := by
    unfold stage; dsimp only
    rw [if_neg (by rw [hs, h1]; simp), if_neg (by rw [hs]; omega)]
  have hc : Changes [.staged] u (stage op z e u).state := by
    rw [hr]; intro p hp; cases p
    case sealed => intro h0; rw [hs, h1] at h0; exact absurd rfl h0
    all_goals first | rfl | exact fun _ h => h | simp at hp
  obtain ⟨t, t1, t2, t3, t4⟩ := command_runs h (r := stage op z e u) (by simp only [effectOf, he]) hc (by decide) (by decide)
    (by rw [hr]; show u.cpx.activation = none; exact admitted_activation h ho) (by rw [hr])
    (by rw [hr]; exact Or.inl (by show (0x0001 : Nat) < 0x0201; decide))
  refine ⟨t, (hi s).trans t1, ?_, ?_, t3⟩
  · rw [staged_of_parts _ _ (t2 .staged (by decide)) (t2 .sealed (by decide)), hr]
    dsimp only
    rw [hs, h1]
  · intro hn
    have := t4 (Or.inl hn)
    rw [hr] at this
    exact this

/-- Every query that changes nothing. -/
theorem answers_of {i : Instr} {op : Op} {z : Zelgen} {body : State → Fields} (hi : ∀ s, exec i s = command op z s)
    (he : op.edit = none) (hr : ∀ c u, op.run c u = { state := u, body := body u }) (ho : isOpen op = false) :
    Answers i op op.opcode z body := by
  intro s c u h
  obtain ⟨t, t1, t2, t3, t4⟩ := command_runs h (r := op.run c u) (l := []) (by simp only [effectOf, he]) (by rw [hr]; exact Changes.refl _ _)
    (by decide) (by decide) (by rw [hr]; exact admitted_activation h ho) (by rw [hr]) (by rw [hr]; exact Or.inl (by show (0x0000 : Nat) < 0x0201; decide))
  refine ⟨t, (hi s).trans t1, fun hn => ?_, t3⟩
  have := t4 (Or.inl hn)
  rw [hr] at this
  exact this

/-! ## From an effect to its statement -/

/-- A happening whose effect is `f`. -/
theorem happens_of {i : Instr} {dt : Nat} {pre : State → Prop} {l : List Part} {post : State → State → Prop} {f : State → State}
    (hi : ∀ s, exec i s = happen dt f s) (hf : Part.fuses ∉ l) (hq : Part.pending ∉ l)
    (h : ∀ s, pre s → post s (f s) ∧ Changes l s (f s)) : Happens i dt pre l post := by
  intro s hs
  obtain ⟨h1, h2⟩ := h _ hs
  exact ⟨_, (hi s).trans (happen_next h2 hf hq), h1, h2⟩

/-- A command that acts at once. What it leaves must not be touched by its reply and its record. -/
theorem performs_keeping {i : Instr} {op : Op} {z : Zelgen} {pre : State → Prop} {st : Nat} {body : State → Fields} {l : List Part}
    {post : State → State → Prop} (hi : ∀ s, exec i s = command op z s) (he : op.edit = none) (ho : isOpen op = false)
    (hs : st < 0x0201 ∨ 0x0206 < st) (hf : Part.fuses ∉ l) (hq : Part.pending ∉ l)
    (hp : ∀ u v t, post u v → Changes replyParts v t → SameRegions v t → post u t)
    (h : ∀ c u, pre u → modeCheck op u = none ∨ authKind z = 0 → paramCheck op c u = none →
      (op.run c u).later = false ∧ (op.run c u).status = st ∧ (op.run c u).body = body u ∧
      (op.run c u).state.cpx.activation = u.cpx.activation ∧ post u (op.run c u).state ∧
      Changes (l ++ (checkParts ++ replyParts)) u (op.run c u).state) :
    Performs i op op.opcode z pre st body l post := by
  intro s c u ha hu
  have hm : modeCheck op u = none ∨ authKind z = 0 := by
    by_cases hz : authKind z = 0
    · exact Or.inr hz
    · exact Or.inl ((admitted_ctx ha).2.2.2.2.2.1 hz)
  obtain ⟨h1, h2, h3, h4, h5, h6⟩ := h c u hu hm (admitted_ctx ha).2.2.2.2.2.2
  obtain ⟨t, t1, t2, t3, t4, t5⟩ := command_runs_regions ha (r := op.run c u) (by simp only [effectOf, he]) h6
    (by simp only [List.mem_append, not_or]; exact ⟨hf, by decide, by decide⟩)
    (by simp only [List.mem_append, not_or]; exact ⟨hq, by decide, by decide⟩)
    (h4.trans (admitted_activation ha ho)) h1 (by rw [h2]; exact hs)
  rw [h2, h3] at t4
  refine ⟨t, (hi s).trans t1, hp _ _ _ h5 t2 t5, t4, t3.mono fun p hp => ?_⟩
  simp only [List.mem_append] at hp ⊢
  tauto

theorem performs_of {i : Instr} {op : Op} {z : Zelgen} {pre : State → Prop} {st : Nat} {body : State → Fields} {l : List Part}
    {post : State → State → Prop} (hi : ∀ s, exec i s = command op z s) (he : op.edit = none) (ho : isOpen op = false)
    (hs : st < 0x0201 ∨ 0x0206 < st) (hf : Part.fuses ∉ l) (hq : Part.pending ∉ l)
    (hp : ∀ u v t, post u v → Changes replyParts v t → post u t)
    (h : ∀ c u, pre u → modeCheck op u = none ∨ authKind z = 0 → paramCheck op c u = none →
      (op.run c u).later = false ∧ (op.run c u).status = st ∧ (op.run c u).body = body u ∧
      (op.run c u).state.cpx.activation = u.cpx.activation ∧ post u (op.run c u).state ∧
      Changes (l ++ (checkParts ++ replyParts)) u (op.run c u).state) :
    Performs i op op.opcode z pre st body l post :=
  performs_keeping hi he ho hs hf hq (fun u v t h hc _ => hp u v t h hc) h

/-- A command that is answered later. -/
theorem defers_keeping {i : Instr} {op : Op} {z : Zelgen} {pre : State → Prop} {l : List Part}
    {post : ReplyCtx → State → State → Prop} (hi : ∀ s, exec i s = command op z s) (he : op.edit = none) (ho : isOpen op = false)
    (hf : Part.fuses ∉ l) (hq : Part.pending ∉ l)
    (hp : ∀ c u v t, post c u v → Changes [.ctr, .frc] v t → SameRegions v t → post c u t)
    (h : ∀ c u, pre u → modeCheck op u = none ∨ authKind z = 0 → paramCheck op c u = none →
      (op.run c u).later = true ∧ (∀ o y, Output.reply o y ∈ (op.run c u).state.out → Output.reply o y ∈ u.out) ∧
      (op.run c u).state.cpx.activation = u.cpx.activation ∧ post c u (op.run c u).state ∧
      Changes (l ++ checkParts) u (op.run c u).state) :
    Defers i op z pre l post := by
  intro s c u ha hu
  have hm : modeCheck op u = none ∨ authKind z = 0 := by
    by_cases hz : authKind z = 0
    · exact Or.inr hz
    · exact Or.inl ((admitted_ctx ha).2.2.2.2.2.1 hz)
  obtain ⟨h1, h2, h4, h5, h6⟩ := h c u hu hm (admitted_ctx ha).2.2.2.2.2.2
  have hr : effectOf op c z u = op.run c u := by simp only [effectOf, he]
  have hk : concluded c (op.run c u) = commandRecord c (op.run c u).status (op.run c u).state := by
    unfold concluded; rw [if_pos h1]
  have hc := commandRecord_changes c (op.run c u).status (op.run c u).state
  have hz : zelgen op z (start z.dt s) = commandRecord c (op.run c u).status (op.run c u).state := by
    rw [zelgen_admitted ha, hr, hk]
    refine activationRestart_none ?_
    exact ((congrArg Cpx.activation (hc .cpx (by decide))).trans h4).trans (admitted_activation ha ho)
  have h7 : Changes (l ++ checkParts) (start z.dt s) (commandRecord c (op.run c u).status (op.run c u).state) :=
    (((admitted_changes ha).mono (by simp +contextual)).trans (h6.mono (by simp +contextual))).trans
      (hc.mono (by intro p hp; have : p ∈ checkParts := by revert p; decide
                   simp [this]))
  refine ⟨_, (hi s).trans ?_, hp _ _ _ _ h5 (hc.mono (by decide)) (commandRecord_regions _ _ _), fun o y hy => h2 o y ((hc .out (by decide)) ▸ hy), h7⟩
  unfold command
  rw [hz, within_of_changes h7]
  · simp only [List.mem_append, not_or]; exact ⟨hf, by decide⟩
  · simp only [List.mem_append, not_or]; exact ⟨hq, by decide⟩

theorem defers_of {i : Instr} {op : Op} {z : Zelgen} {pre : State → Prop} {l : List Part}
    {post : ReplyCtx → State → State → Prop} (hi : ∀ s, exec i s = command op z s) (he : op.edit = none) (ho : isOpen op = false)
    (hf : Part.fuses ∉ l) (hq : Part.pending ∉ l)
    (hp : ∀ c u v t, post c u v → Changes [.ctr, .frc] v t → post c u t)
    (h : ∀ c u, pre u → modeCheck op u = none ∨ authKind z = 0 → paramCheck op c u = none →
      (op.run c u).later = true ∧ (op.run c u).state.out = u.out ∧
      (op.run c u).state.cpx.activation = u.cpx.activation ∧ post c u (op.run c u).state ∧
      Changes (l ++ checkParts) u (op.run c u).state) :
    Defers i op z pre l post :=
  defers_keeping hi he ho hf hq (fun c u v t h hc _ => hp c u v t h hc) fun c u h1 h2 h3 =>
    have k := h c u h1 h2 h3
    ⟨k.1, fun _ _ hy => k.2.1 ▸ hy, k.2.2⟩

/-- A command whose effect answers it before the command is concluded. -/
theorem performs_answered {i : Instr} {op : Op} {z : Zelgen} {pre : State → Prop} {st : Nat} {body : State → Fields} {l : List Part}
    {post : State → State → Prop} (hi : ∀ s, exec i s = command op z s) (he : op.edit = none) (ho : isOpen op = false)
    (hf : Part.fuses ∉ l) (hq : Part.pending ∉ l)
    (hp : ∀ u v t, post u v → Changes [.ctr, .frc] v t → post u t)
    (h : ∀ c u, pre u → c.onError = replyOnError z → paramCheck op c u = none →
      (op.run c u).later = true ∧
      (replyOnError z = false ∨ 2 < st → ∃ y : Reply, Output.reply c.origin y ∈ (op.run c u).state.out ∧ y.opcode = c.opcode ∧
        y.status = st ∧ y.body = body u ∧ y.sequence = c.sequence ∧ y.correlation = c.correlation) ∧
      (op.run c u).state.cpx.activation = u.cpx.activation ∧ post u (op.run c u).state ∧
      Changes (l ++ (checkParts ++ replyParts)) u (op.run c u).state) :
    Performs i op op.opcode z pre st body l post := by
  intro s c u ha hu
  obtain ⟨e1, e2, e3, e4, e5, -, e6⟩ := admitted_ctx ha
  obtain ⟨h1, h2, h4, h5, h6⟩ := h c u hu e5 e6
  have hr : effectOf op c z u = op.run c u := by simp only [effectOf, he]
  have hk : concluded c (op.run c u) = commandRecord c (op.run c u).status (op.run c u).state := by
    unfold concluded; rw [if_pos h1]
  have hc := commandRecord_changes c (op.run c u).status (op.run c u).state
  have hz : zelgen op z (start z.dt s) = commandRecord c (op.run c u).status (op.run c u).state := by
    rw [zelgen_admitted ha, hr, hk]
    refine activationRestart_none ?_
    exact ((congrArg Cpx.activation (hc .cpx (by decide))).trans h4).trans (admitted_activation ha ho)
  have h7 : Changes (l ++ (checkParts ++ replyParts)) (start z.dt s) (commandRecord c (op.run c u).status (op.run c u).state) :=
    (((admitted_changes ha).mono (by simp +contextual)).trans (h6.mono (by simp +contextual))).trans
      (hc.mono (by intro p hp; have : p ∈ checkParts := by revert p; decide
                   simp [this]))
  refine ⟨_, (hi s).trans ?_, hp _ _ _ h5 (hc.mono (by decide)), fun hn => ?_, h7⟩
  · unfold command
    rw [hz, within_of_changes h7]
    · simp only [List.mem_append, not_or]; exact ⟨hf, by decide, by decide⟩
    · simp only [List.mem_append, not_or]; exact ⟨hq, by decide, by decide⟩
  · obtain ⟨y, y1, y2, y3, y4, y5, y6⟩ := h2 hn
    exact ⟨y, by rw [hc .out (by decide), ← e1]; exact y1, y2.trans e2, y3, y4, y5.trans e3, y6.trans e4⟩

/-- A command whose effect burns fuses: only what the hood burns is burnt, and what was burnt stays. -/
theorem burns_of {i : Instr} {op : Op} {z : Zelgen} {pre : State → Prop} {l : List Part} {post : ReplyCtx → State → State → Prop}
    (hi : ∀ s, exec i s = command op z s) (he : op.edit = none) (ho : isOpen op = false) (hq : Part.pending ∉ l)
    (h : ∀ c u, pre u → u.cpx.activation = none → c.onError = replyOnError z → modeCheck op u = none ∨ authKind z = 0 → paramCheck op c u = none →
      (op.run c u).state.cpx.activation = u.cpx.activation ∧
      Changes (.fuses :: (l ++ (checkParts ++ replyParts))) u (op.run c u).state ∧
      ∀ x, x = concluded c (op.run c u) → post c u { x with fuses := burnFuses u.fuses x.fuses, pending := u.pending }) :
    Burns i op z pre l post := by
  intro s c u ha hu
  obtain ⟨e1, e2, e3, e4, e5, e6, e7⟩ := admitted_ctx ha
  have hm : modeCheck op u = none ∨ authKind z = 0 := by
    by_cases hz : authKind z = 0
    · exact Or.inr hz
    · exact Or.inl (e6 hz)
  obtain ⟨h1, h2, h3⟩ := h c u hu (admitted_activation ha ho) e5 hm e7
  have hr : effectOf op c z u = op.run c u := by simp only [effectOf, he]
  have hk := concluded_changes c (op.run c u)
  have hz : zelgen op z (start z.dt s) = concluded c (op.run c u) := by
    rw [zelgen_admitted ha, hr]
    refine activationRestart_none ?_
    exact ((congrArg Cpx.activation (hk .cpx (by decide))).trans h1).trans (admitted_activation ha ho)
  have f1 : u.fuses = s.fuses := (admitted_changes ha .fuses (by decide)).trans (start_changes z.dt s .fuses (by decide))
  have f2 : u.pending = s.pending := (admitted_changes ha .pending (by decide)).trans (start_changes z.dt s .pending (by decide))
  have h7 : Changes (.fuses :: (l ++ (checkParts ++ replyParts))) (start z.dt s) (concluded c (op.run c u)) :=
    (((admitted_changes ha).mono (by simp +contextual)).trans h2).trans (hk.mono (by simp +contextual))
  refine ⟨within s (concluded c (op.run c u)), ?_, ?_, ?_⟩
  · rw [hi]; unfold command; rw [hz]
  · have := h3 _ rfl
    rw [f1, f2] at this
    exact this
  · intro p hp
    have hx := h7 p hp
    cases p
    case fuses => simp at hp
    case pending => exact (start_changes z.dt s .pending (by decide)).symm
    all_goals exact hx

end Sys2Proof.Safety
end

