-- ==== Sys2Proof/Laws/Links.lean ====
section
/-! SUPPORT. The link state of a port after it is set: what a fault cuts and what a change of UP reports leave it alone. -/
namespace Sys2Proof.Safety
open Sys2Proof.Machine

/-- Every port has the same link state, since the same time. -/
def SameLinks (s t : State) : Prop := ∀ q, (portOf t q).link = (portOf s q).link ∧ (portOf t q).since = (portOf s q).since

theorem SameLinks.refl (s : State) : SameLinks s s := fun _ => ⟨rfl, rfl⟩

theorem SameLinks.trans {s t u : State} (h : SameLinks s t) (h' : SameLinks t u) : SameLinks s u :=
  fun q => ⟨(h' q).1.trans (h q).1, (h' q).2.trans (h q).2⟩

theorem SameLinks.of_ports {s t : State} (h : t.ports = s.ports) : SameLinks s t := by
  intro q; unfold portOf; rw [h]; exact ⟨rfl, rfl⟩

/-- A step after which the ports are the same. -/
theorem SameLinks.step {s t u : State} {l : List Part} (h : SameLinks s t) (hc : Changes l t u) (hp : Part.ports ∉ l) : SameLinks s u :=
  h.trans (.of_ports (hc .ports hp))

theorem portOf_putPort_self (p : Nat) (x : Port) (s : State) : portOf (putPort p x s) p = x := tgetD_tput_self _ _ _ _

theorem portOf_putPort_ne (p q : Nat) (x : Port) (s : State) (h : q ≠ p) : portOf (putPort p x s) q = portOf s q :=
  tgetD_tput_ne _ _ _ _ _ h

theorem SameLinks.putPort {s t : State} {p : Nat} {x : Port} (h : SameLinks s t) (h1 : x.link = (portOf t p).link)
    (h2 : x.since = (portOf t p).since) : SameLinks s (putPort p x t) := by
  refine h.trans fun q => ?_
  by_cases hq : q = p
  · subst hq; rw [portOf_putPort_self]; exact ⟨h1, h2⟩
  · rw [portOf_putPort_ne _ _ _ _ hq]; exact ⟨rfl, rfl⟩

theorem leaveUp_links (p : Nat) (s : State) : SameLinks s (leaveUp p s) := by
  unfold leaveUp
  refine SameLinks.step (l := [.ctr, .hostQueue]) ?_ (dropReplies_frame (Changes.refl _ _) (by decide)) (by decide)
  exact (SameLinks.refl s).putPort rfl rfl

theorem discardRest_links (p : Nat) (f : TxFrame) (d : Bool) (s : State) : SameLinks s (discardRest p f d s) := by
  unfold discardRest; exact (SameLinks.refl s).putPort rfl rfl

theorem closeLine_links (p a len i : Nat) (s : State) : SameLinks s (closeLine p a len i s).2 := by
  unfold closeLine; exact (SameLinks.refl s).putPort rfl rfl

theorem bringupFail_links (p : Nat) (s : State) : SameLinks s (bringupFail p s) := by
  unfold bringupFail
  have h : SameLinks s (putPort p { portOf s p with retrain := false } s) := (SameLinks.refl s).putPort rfl rfl
  exact h.step (l := [.ctr]) (tally_frame (Changes.refl _ _) (by decide)) (by decide)

theorem startVerify_links (p : Nat) (s : State) : SameLinks s (startVerify p s) := by
  unfold startVerify; split <;> exact (SameLinks.refl s).putPort rfl rfl

theorem enterUp_links (p : Nat) (s : State) : SameLinks s (enterUp p s) := by
  unfold enterUp
  have h := (SameLinks.refl s).putPort (p := p)
    (x := { portOf s p with deficit := 0, told := 0, genDue := if xoffState s p = 0 then 0 else 2, faultAt := none }) rfl rfl
  dsimp only; split
  · exact h.trans (startVerify_links _ _)
  · exact h

theorem noteUp_links (p : Nat) (b : Bool) (s : State) : SameLinks s (noteUp p b s) :=
  (SameLinks.refl s).step (noteUp_frame (Changes.refl _ s) fun _ h => h) (by decide)

theorem countCause_links (p c : Nat) (o : Option Nat) (s : State) : SameLinks s (countCause p c o s) := by
  have h : ∀ k a, SameLinks a (tally k a) := fun k a => .of_ports ((tally_frame (Changes.refl [.ctr] a) (by decide)).ports (by decide))
  unfold countCause
  repeat' split
  all_goals first
    | exact SameLinks.refl s
    | exact h _ _
    | exact ((SameLinks.refl s).putPort rfl rfl).trans (h _ _)
    | exact (h _ _).putPort rfl rfl
    | exact (SameLinks.refl s).putPort rfl rfl

theorem dropTx_links (p c : Nat) (o : Option Nat) (f : TxFrame) (s : State) : SameLinks s (dropTx p c o f s) := by
  unfold dropTx
  refine (countCause_links p c o s).step (l := [.quarantine, .sessions, .sealed, .err, .levels, .jic, .ctr, .samples, .frc, .hostQueue,
    .replies, .hpe, .pounce, .dbg, .hlk, .out, .esh, .sas])
    (txSample_frame (completeTx_frame (markDropped_frame (releaseTx_frame (Changes.refl _ _) ?_) ?_) ?_) ?_) ?_ <;> decide

theorem cutQueue_links (p : Nat) (s : State) : SameLinks s (cutQueue p s) := by
  unfold cutQueue; dsimp only
  have h : SameLinks s (putPort p { portOf s p with express := [], preempts := [] } s) := (SameLinks.refl s).putPort rfl rfl
  revert h
  generalize (putPort p { portOf s p with express := [], preempts := [] } s) = t
  generalize (portOf s p).express ++ (portOf s p).preempts = fs
  induction fs generalizing t with
  | nil => exact id
  | cons f fs ih => intro h; exact ih _ (h.trans (dropTx_links _ _ _ _ _))

/-- What follows the end of a frame that a fault cut. -/
theorem ended_links {p c : Nat} {f : TxFrame} {s t : State} (h : SameLinks s t) : SameLinks s
    (txSample p 9 f (completeTx p 6 f (releaseTx p f (if f.opened then discardRest p { f with dropAs := some c } false t else t)))) := by
  have h1 : SameLinks s (if f.opened then discardRest p { f with dropAs := some c } false t else t) := by
    split
    · exact h.trans (discardRest_links _ _ _ _)
    · exact h
  refine h1.step (l := [.quarantine, .sessions, .sealed, .err, .levels, .jic, .ctr, .samples, .frc, .hostQueue, .replies, .hpe,
    .pounce, .dbg, .hlk, .out, .esh, .sas]) (txSample_frame (completeTx_frame (releaseTx_frame (Changes.refl _ _) ?_) ?_) ?_) ?_ <;> decide

/-- The counters of an abort. -/
theorem counted_links {p c k : Nat} {s t : State} (h : SameLinks s t) : SameLinks s (tally k (countCause p c none t)) :=
  (h.trans (countCause_links _ _ _ _)).step (l := [.ctr]) (tally_frame (Changes.refl _ _) (by decide)) (by decide)

theorem loopBack_links (p : Nat) (m : MPacket) (l : List Byte) (s : State) : SameLinks s (loopBack p m l s) := by
  unfold loopBack; split
  · exact (SameLinks.refl s).putPort rfl rfl
  · exact SameLinks.refl s

theorem driveLine_links (p n : Nat) (e : LineEnd) (f : TxFrame) (s : State) : SameLinks s (driveLine p n e f s) := by
  have h : SameLinks s (emit (.lineFrame p (smdOf f) (((lineBytesOf f).drop f.sent).take n) e) s) := .of_ports rfl
  unfold driveLine
  cases e
  case mcrc => exact h
  all_goals exact h.trans (loopBack_links _ _ _ _)

theorem abortLine_links (p c n : Nat) (s : State) : SameLinks s (abortLine p c n s) := by
  unfold abortLine
  split
  · exact SameLinks.refl s
  · dsimp only
    refine ended_links ((counted_links ?_).trans (driveLine_links _ _ _ _ _))
    refine SameLinks.step (l := [.ctr]) ?_ (classSlots_frame (Changes.refl _ _) (by decide)) (by decide)
    exact ((SameLinks.refl s).putPort (p := p) (x := { portOf s p with line := none }) rfl rfl).trans (closeLine_links _ _ _ _ _)

theorem abortBroken_links (p c : Nat) (f : TxFrame) (s : State) : SameLinks s (abortBroken p c f s) := by
  unfold abortBroken
  refine ended_links (counted_links ?_)
  refine SameLinks.step (l := [.ctr]) ?_ (classSlots_frame (Changes.refl _ _) (by decide)) (by decide)
  exact (SameLinks.refl s).putPort rfl rfl

theorem cutLine_links (p : Nat) (s : State) : SameLinks s (cutLine p s) := by
  unfold cutLine cutLineAt
  have h : SameLinks s (match (portOf s p).line with | some f => abortLine p 7 (fragmentBytes s p s.tsu.now f) s | none => s) := by
    split
    · exact abortLine_links _ _ _ _
    · exact SameLinks.refl s
  extract_lets s1
  replace h : SameLinks s s1 := h
  clear_value s1
  split
  · exact h.trans (abortBroken_links _ _ _ _)
  · exact h

/-- A port that is set to a link state is in it, from now on; no other port's link state changes. -/
theorem setLink_link (p : Nat) (x : LinkSt) (b : Bool) (s : State) :
    (portOf (setLink p x b s) p).link = x ∧ (portOf (setLink p x b s) p).since = s.tsu.now ∧
      ∀ q, q ≠ p → (portOf (setLink p x b s) q).link = (portOf s q).link ∧ (portOf (setLink p x b s) q).since = (portOf s q).since := by
  unfold setLink; dsimp only
  generalize h0 : putPort p { portOf s p with link := x, since := s.tsu.now, faultAt := if b = true then some s.tsu.now else none } s = s1
  have e0 : (portOf s1 p).link = x ∧ (portOf s1 p).since = s.tsu.now := by
    subst h0; rw [portOf_putPort_self]; exact ⟨rfl, rfl⟩
  have e1 : ∀ q, q ≠ p → portOf s1 q = portOf s q := by
    intro q hq; subst h0; exact portOf_putPort_ne _ _ _ _ hq
  suffices h : ∀ v, SameLinks s1 v → (portOf v p).link = x ∧ (portOf v p).since = s.tsu.now ∧
      ∀ q, q ≠ p → (portOf v q).link = (portOf s q).link ∧ (portOf v q).since = (portOf s q).since by
    refine h _ (SameLinks.trans ?_ (noteUp_links _ _ _))
    have k2 : SameLinks s1 (if (portOf s p).link = .up ∧ x ≠ .up then leaveUp p s1 else s1) := by
      split
      · exact leaveUp_links _ _
      · exact SameLinks.refl _
    revert k2
    generalize (if (portOf s p).link = .up ∧ x ≠ .up then leaveUp p s1 else s1) = s2
    intro k2
    have k3 : SameLinks s1 (if x ≠ .up ∧ mayTransmit s2 p = false then cutQueue p (cutLine p s2) else s2) := by
      split
      · exact k2.trans ((cutLine_links _ _).trans (cutQueue_links _ _))
      · exact k2
    revert k3
    generalize (if x ≠ .up ∧ mayTransmit s2 p = false then cutQueue p (cutLine p s2) else s2) = s3
    intro k3
    have k4 : SameLinks s1 (if x = .up ∧ (portOf s p).link ≠ .up then
        enterUp p { s3 with ports := tput s3.ports p { portOf s3 p with retrain := false } } else s3) := by
      split
      · have k : SameLinks s1 (putPort p { portOf s3 p with retrain := false } s3) := k3.putPort rfl rfl
        exact k.trans (enterUp_links _ _)
      · exact k3
    revert k4
    generalize (if x = .up ∧ (portOf s p).link ≠ .up then
        enterUp p { s3 with ports := tput s3.ports p { portOf s3 p with retrain := false } } else s3) = s4
    intro k4
    split
    · exact k4.trans (bringupFail_links _ _)
    · exact k4
  intro v hv
  refine ⟨(hv p).1.trans e0.1, (hv p).2.trans e0.2, fun q hq => ?_⟩
  obtain ⟨h1, h2⟩ := hv q
  rw [h1, h2, e1 q hq]
  exact ⟨rfl, rfl⟩

end Sys2Proof.Safety
end

