-- ==== Sys2Proof/WellFormed.lean ====
section
/-! DEFINITION. Well-formed commands: every operand fits the field, bus or index that carries it. A value that fits and is
still out of the command's range is no matter of form: the block refuses it (R46). -/
namespace Sys2Proof

/-! ## Widths -/

/-- Every value fits its number of bits. -/
def fitBits (l : List (Nat × Nat)) : Bool := l.all (fun e => e.2 < 2 ^ e.1)

/-- Every value fits its number of bytes. -/
def fitBytes (l : List (Nat × Nat)) : Bool := l.all (fun e => e.2 < 2 ^ (8 * e.1))

/-- A two's complement value fits `n` bytes. -/
def fitSigned (n : Nat) (v : Int) : Bool := -(2 ^ (8 * n - 1) : Int) ≤ v && v < (2 ^ (8 * n - 1) : Int)

def Time96.fits (t : Time96) : Bool := fitBytes [(6, t.sec), (4, t.ns), (2, t.frac)]

/-! ## Places of the block (01) -/

def isPort (p : Nat) : Bool := p ≤ 515
def isGroup (g : Nat) : Bool := g ≤ 31
def isRing (t n : Nat) : Bool := t ≤ 3 && n ≤ 255
def isId (a : Nat) : Bool := a ≤ 4095

def ShaperObj.fits : ShaperObj → Bool
  | .leaf n => n < 262144
  | .node n => n < 16384
  | .port n => n < 512

def HostAccess.fits : HostAccess → Bool
  | .descRead t n => isRing t n
  | .dataRead t n => isRing t n
  | .dataWrite t n => isRing t n
  | .cplWrite t n => isRing t n
  | .xdma c => c ≤ 15
  | .battWrite | .storeWrite | .imageRead => true

def Origin.fits : Origin → Bool
  | .ring n => n ≤ 63
  | .eth p => isPort p
  | .udp p => isPort p
  | .hlk u => u ≤ 63

/-! ## Zelgen commands (Tables 2-1 to 2-24) -/

/-- The highest opcode of each group whose opcodes run from 1 on without a gap (Tables 2-10 to 2-24). -/
def lastOpcode : List Nat := [0, 0x08, 0x07, 0x05, 0x05, 0x08, 0x05, 0x07, 0x06, 0x03, 0x06, 0x08, 0x04, 0x05, 0x0A, 0x06]

/-- An opcode that Tables 2-9 to 2-24 list (R60). -/
def listedOpcode (n : Nat) : Bool :=
  n ∈ [0x00, 0x01, 0x02, 0x10, 0x11, 0x12, 0x20, 0x21, 0x22, 0x23, 0x40, 0x41] ||
    (1 ≤ n / 256 && n / 256 ≤ 15 && 1 ≤ n % 256 && n % 256 ≤ lastOpcode.getD (n / 256) 0)

/-- A command of a row that its opcode names. -/
def Zelgen.listed (z : Zelgen) : Bool := z.undefined.isNone

/-- A command whose opcode no table lists. -/
def Zelgen.unlisted (z : Zelgen) : Bool := z.undefined.all (fun e => e.1 < 65536 && !listedOpcode e.1 && e.2.length ≤ 8160)

def Zelgen.fits (z : Zelgen) : Bool :=
  z.origin.fits && fitBytes [(1, z.version), (2, z.bodyLen), (8, z.sequence), (2, z.keyId), (6, z.notAfter), (1, z.trailer.typ),
    (1, z.trailer.rsv), (2, z.trailer.len)]

def Token.fits (t : Token) : Bool :=
  fitBytes [(1, t.trailerRsv), (1, t.tokenType), (1, t.level), (2, t.signerKeyId), (6, t.notBefore), (6, t.expiry)]

def Certificate.fits (c : Certificate) : Bool :=
  fitBytes [(1, c.trailerRsv), (1, c.certType), (2, c.keyId), (2, c.issuer), (6, c.notBefore), (6, c.expiry)]

def KeyInstallBody.fits (b : KeyInstallBody) : Bool := fitBytes [(2, b.keyId), (1, b.keyClass)]

def ClassEntry.fits (e : ClassEntry) : Bool :=
  fitBytes [(1, e.headerKind), (2, e.secy), (2, e.ethertype), (1, e.ipProto), (1, e.ipSrcBits)]

def SaName.fits (b : SaName) : Bool := fitBytes [(1, b.portGroup), (1, b.direction), (2, b.scIndex), (1, b.an)]

/-- The gate list carries the entries that COUNT says. -/
def GateListBody.fits (b : GateListBody) : Bool :=
  fitBytes [(2, b.port), (4, b.cycleTime), (2, b.listLen), (2, b.firstEntry), (2, b.count)] && b.baseTime.fits &&
    b.entries.length = b.count && b.entries.all (fun e => fitBytes [(4, e.interval)])

/-- The chunk fills the body after OFFSET. -/
def FirmwareStageBody.fits (b : FirmwareStageBody) (z : Zelgen) : Bool :=
  fitBytes [(4, b.offset)] && (b.chunk.length + 4 = z.bodyLen || b.chunk.length + 4 > 8160)

/-! ## Happenings -/

def Descriptor.fits (d : Descriptor) : Bool :=
  fitBytes [(8, d.bufAddr), (2, d.bufLen), (2, d.tsId), (1, d.tsOffset), (6, d.rsv), (1, d.mark)]

def XDesc.fits (d : XDesc) : Bool :=
  fitBytes [(8, d.srcAddr), (8, d.dstAddr), (4, d.rowBytes), (4, d.rows), (8, d.srcStride), (8, d.dstStride), (8, d.nextAddr),
    (9, d.rsv), (1, d.status)]

def LeafStatus.fits (w : LeafStatus) : Bool :=
  fitBits [(18, w.leaf), (12, w.grantId), (11, w.released), (14, w.headLen), (7, w.rsv), (32, w.backlogBytes), (32, w.headEnq)]

def TxMeta.fits (m : TxMeta) : Bool :=
  fitBits [(12, m.grantId), (18, m.leaf), (4, m.tc), (14, m.len), (8, m.scIndex), (3, m.pcp), (12, m.vid), (2, m.tsReq), (8, m.tsOffset),
    (16, m.tsId), (5, m.samplePg), (16, m.sampleTag), (5, m.rsv)]

def TxSlices.fits (t : TxSlices) : Bool :=
  t.portOff ≤ 15 && t.nbytes ≤ 64 * t.slices && (match t.start with | some m => m.fits | none => true) &&
    (match t.eof with | some e => fitBits [(12, e.grantId)] | none => true)

def RxFrame.fits (f : RxFrame) : Bool :=
  isPort f.port && (f.mpacket ≠ .none || f.bytes ≠ []) && isPort f.lane && f.phase < 64

def HlkHead.fits (h : HlkHead) : Bool := isPort h.port && fitBytes [(1, h.version), (1, h.src), (1, h.dst), (8, h.seq)]

def WorkerReply.fits (r : WorkerReply) : Bool :=
  fitBytes [(2, r.opcode), (8, r.sequence), (2, r.status), (2, r.epoch), (4, r.detail)] && r.inst ≤ 63 && r.mode ≤ 15 &&
    r.body.length % 4 = 0

def Summary.fits (m : Summary) : Bool :=
  fitBytes [(1, m.mode), (1, m.lifecycle), (1, m.timeState), (2, m.epoch), (2, m.degraded), (2, m.portsUp), (8, m.rxBytes),
    (8, m.txBytes), (8, m.refused), (4, m.errors)] && fitSigned 8 m.timeOffset

def copyFits (c : Option (Nat × Nat × List (Nat × KeyInstallBody))) : Bool :=
  match c with
  | some (q, _, l) => fitBytes [(8, q)] && l.all (fun e => e.1 ≤ 0xFF && e.2.fits)
  | none => true

def BootFacts.fits (f : BootFacts) : Bool :=
  f.fwKeyIndex ≤ 3 && copyFits f.storeA && copyFits f.storeB && f.pools.length ≤ 8

def SramHit.fits : SramHit → Bool
  | .security pg => isGroup pg
  | .policer c => c < 69632
  | .sched o => o.fits
  | .correctable | .counter _ | .errorStore => true

/-! ## The rows -/

/-- Every operand of a command has the form its carrier gives it. -/
def wellFormed (i : Instr) : Bool :=
  match i with
  | .nop z => z.fits && z.unlisted
  | .statusGet z => z.fits && z.listed
  | .attestGet z _ => z.fits && z.listed
  | .sessionOpen z b => z.fits && z.listed && fitBytes [(4, b.lifetime)]
  | .sessionClose z n => z.fits && z.listed && fitBytes [(2, n)]
  | .sessionList z => z.fits && z.listed
  | .epochCommit z b => z.fits && z.listed && fitBytes [(2, b.expectedEpoch), (4, b.stagedCount)] && b.commitTime.fits
  | .epochCancel z => z.fits && z.listed
  | .epochDiscard z => z.fits && z.listed
  | .epochStatus z => z.fits && z.listed
  | .errorRead z u => z.fits && z.listed && fitBytes [(1, u)]
  | .errorAck z u n => z.fits && z.listed && fitBytes [(1, u), (4, n)]
  | .portSet z b => z.fits && z.listed && fitBytes [(2, b.port), (1, b.portMode), (1, b.fecMode), (2, b.mtu)]
  | .portClear z p => z.fits && z.listed && fitBytes [(2, p)]
  | .portAddrSet z b => z.fits && z.listed && fitBytes [(2, b.port)]
  | .portVlanSet z b => z.fits && z.listed && fitBytes [(2, b.port), (2, b.outerTpid), (2, b.innerTpid), (2, b.vid), (1, b.pcp)]
  | .laneSet z b => z.fits && z.listed && fitBytes [(2, b.lane)]
  | .zelgenTransportSet z b => z.fits && z.listed && fitBytes [(2, b.port), (1, b.ethEnable), (1, b.udpEnable), (2, b.udpPort)]
  | .linkRetrain z p => z.fits && z.listed && fitBytes [(2, p)]
  | .portStateGet z p => z.fits && z.listed && fitBytes [(2, p)]
  | .secySet z b => z.fits && z.listed && fitBytes [(2, b.port), (1, b.cipherSuite), (4, b.replayWindow)]
  | .scSet z b => z.fits && z.listed && fitBytes [(1, b.portGroup), (1, b.direction), (2, b.scIndex), (2, b.port)]
  | .scClear z b => z.fits && z.listed && fitBytes [(1, b.portGroup), (1, b.direction), (2, b.scIndex)]
  | .saInstall z b =>
    z.fits && z.listed && fitBytes [(1, b.portGroup), (1, b.direction), (2, b.scIndex), (1, b.an), (1, b.keyLen), (4, b.ssci), (8, b.nextPn)]
  | .saEnable z b => z.fits && z.listed && b.fits
  | .saRetire z b => z.fits && z.listed && b.fits
  | .saStateGet z b => z.fits && z.listed && b.fits
  | .classSet z b => z.fits && z.listed && fitBytes [(1, b.portGroup), (1, b.entry)] && b.cls.fits
  | .classClear z g e => z.fits && z.listed && fitBytes [(1, g), (1, e)]
  | .classGet z g e => z.fits && z.listed && fitBytes [(1, g), (1, e)]
  | .senderIdSet z b => z.fits && z.listed && fitBytes [(1, b.portGroup), (1, b.entry), (1, b.senderSource), (2, b.senderBase)]
  | .refusalCountsGet z g => z.fits && z.listed && fitBytes [(1, g)]
  | .policerSet z b => z.fits && z.listed && fitBytes [(4, b.context), (4, b.rate), (4, b.burst)]
  | .policerClear z c => z.fits && z.listed && fitBytes [(4, c)]
  | .policerGet z c => z.fits && z.listed && fitBytes [(4, c)]
  | .leafSet z b =>
    z.fits && z.listed && fitBytes [(4, b.leaf), (2, b.parentNode), (1, b.cls), (2, b.weight), (4, b.shaperRate), (4, b.shaperBurst),
      (1, b.overheadProfile)]
  | .leafClear z n => z.fits && z.listed && fitBytes [(4, n)]
  | .nodeSet z b =>
    z.fits && z.listed && fitBytes [(2, b.node), (2, b.port), (1, b.cls), (2, b.weight), (4, b.shaperRate), (4, b.shaperBurst)]
  | .nodeClear z n => z.fits && z.listed && fitBytes [(2, n)]
  | .portSchedSet z b =>
    z.fits && z.listed && fitBytes [(2, b.port), (1, b.strictClasses), (2, b.grantQuantum), (4, b.portShaperRate)] &&
      b.classWeights.length = 16 && b.classWeights.all (fun w => fitBytes [(2, w)])
  | .overheadProfileSet z b => z.fits && z.listed && fitBytes [(1, b.profile)] && fitSigned 1 b.overhead
  | .hostLeafSet z b => z.fits && z.listed && fitBytes [(2, b.source), (2, b.port), (4, b.leaf)]
  | .schedStateGet z k n => z.fits && z.listed && fitBytes [(1, k), (4, n)]
  | .gateListSet z b => z.fits && z.listed && b.fits
  | .preemptSet z b => z.fits && z.listed && fitBytes [(2, b.port), (1, b.addFragSize), (1, b.verify)]
  | .pauseSet z b => z.fits && z.listed && fitBytes [(2, b.port), (1, b.pauseMode), (2, b.quanta), (2, b.refresh)]
  | .pauseSend z b => z.fits && z.listed && fitBytes [(2, b.port), (2, b.quanta)]
  | .gateStateGet z p => z.fits && z.listed && fitBytes [(2, p)]
  | .timeGet z => z.fits && z.listed
  | .timeStep z b => z.fits && z.listed && fitBytes [(1, b.stepMode)] && b.time.fits && fitSigned 8 b.offset
  | .timeRateSet z r => z.fits && z.listed && fitSigned 8 r
  | .timeSlew z b => z.fits && z.listed && fitBytes [(4, b.duration)] && fitSigned 8 b.offset
  | .ppsSet z b => z.fits && z.listed && fitBytes [(4, b.pulseWidth), (4, b.ppsInWindow)] && fitSigned 4 b.ppsOutOffset
  | .tsuCalSet z b => z.fits && z.listed && fitBytes [(2, b.port)] && fitSigned 4 b.rxCal && fitSigned 4 b.txCal
  | .tsRead z p t => z.fits && z.listed && fitBytes [(2, p), (2, t)]
  | .ringConfig z b =>
    z.fits && z.listed && fitBytes [(1, b.ringType), (1, b.ring), (8, b.baseAddr), (1, b.sizeLog2), (2, b.accessId), (4, b.holdTime), (2, b.irqSource)]
  | .ringStart z t n => z.fits && z.listed && fitBytes [(1, t), (1, n)]
  | .ringStop z t n => z.fits && z.listed && fitBytes [(1, t), (1, n)]
  | .ringReset z t n => z.fits && z.listed && fitBytes [(1, t), (1, n)]
  | .ringStateGet z t n => z.fits && z.listed && fitBytes [(1, t), (1, n)]
  | .rxSteerSet z b => z.fits && z.listed && fitBytes [(2, b.port), (1, b.matchIndex), (1, b.ring)]
  | .irqSourceSet z b => z.fits && z.listed && fitBytes [(2, b.source), (1, b.priority), (1, b.target), (4, b.modTime)]
  | .irqTargetSet z b => z.fits && z.listed && fitBytes [(1, b.target), (2, b.accessId), (1, b.threshold)]
  | .irqStateGet z t => z.fits && z.listed && fitBytes [(1, t)]
  | .battSet z b => z.fits && z.listed && fitBytes [(4, b.period), (8, b.destAddr), (4, b.destSize), (2, b.accessId)]
  | .counterWindowSet z b => z.fits && z.listed && fitBytes [(1, b.window), (2, b.accessId)]
  | .sampleSet z b => z.fits && z.listed && fitBytes [(1, b.rateLog2), (1, b.spill)]
  | .queueSampleSet z b => z.fits && z.listed && fitBytes [(4, b.period), (4, b.queueMaskBase), (4, b.count)]
  | .eventModeSet z b => z.fits && z.listed && fitBytes [(2, b.event), (1, b.edgeOrLevel)]
  | .countersGet z c n => z.fits && z.listed && fitBytes [(1, c), (4, n)]
  | .smcSet z b =>
    z.fits && z.listed && fitBytes [(1, b.dataRate)] && b.qosTargets.length = 4 &&
      b.qosTargets.all (fun t => fitBytes [(2, t.latTarget), (1, t.share), (1, t.rsv)])
  | .rankMigrate z c r => z.fits && z.listed && fitBytes [(1, c), (1, r)]
  | .frcRegionSet z b => z.fits && z.listed && fitBytes [(1, b.region), (8, b.base), (8, b.size), (1, b.regionMode)]
  | .frcControl z r a => z.fits && z.listed && fitBytes [(1, r), (1, a)]
  | .xdmaChannelSet z b => z.fits && z.listed && fitBytes [(1, b.channel), (2, b.accessId), (1, b.busShare), (8, b.descAddr)]
  | .xdmaStart z c => z.fits && z.listed && fitBytes [(1, c)]
  | .xdmaStop z c => z.fits && z.listed && fitBytes [(1, c)]
  | .smcStateGet z c => z.fits && z.listed && fitBytes [(1, c)]
  | .modeRequest z b => z.fits && z.listed && fitBytes [(1, b.mode), (1, b.nextMode)]
  | .groupPowerSet z b => z.fits && z.listed && fitBytes [(1, b.portGroup), (1, b.policy)]
  | .wakeSet z b => z.fits && z.listed && fitBytes [(1, b.portGroup)]
  | .powerStateGet z => z.fits && z.listed
  | .debugTokenLoad z t => z.fits && z.listed && t.fits
  | .freeze z n => z.fits && z.listed && fitBytes [(1, n)]
  | .pouncerSet z b => z.fits && z.listed && fitBytes [(2, b.perturbation), (4, b.target), (4, b.duration), (2, b.rateLog2), (8, b.arg)]
  | .pouncerStop z => z.fits && z.listed
  | .debugStateGet z => z.fits && z.listed
  | .keyInstall z b => z.fits && z.listed && b.fits
  | .keyRevoke z k => z.fits && z.listed && fitBytes [(2, k)]
  | .keyList z => z.fits && z.listed
  | .accessPolicySet z b => z.fits && z.listed && fitBytes [(2, b.accessId)]
  | .masterUnfreeze z a => z.fits && z.listed && fitBytes [(2, a)]
  | .lifecycleAdvance z b => z.fits && z.listed && fitBytes [(1, b.targetState)] && (match b.token with | some t => t.fits | none => true)
  | .firmwareStage z b => z.fits && z.listed && b.fits z
  | .firmwareActivate z b => z.fits && z.listed && fitBytes [(4, b.imageLen)]
  | .zeroize z _ => z.fits && z.listed
  | .fwKeyRevoke z t => z.fits && z.listed && t.fits
  | .hlkRoleSet z b => z.fits && z.listed && fitBytes [(1, b.role), (1, b.inst)]
  | .hlkLinkSet z b => z.fits && z.listed && fitBytes [(2, b.port), (1, b.enable)]
  | .delegationInstall z c => z.fits && z.listed && c.fits
  | .workerList z => z.fits && z.listed
  | .timeDistSet z n => z.fits && z.listed && fitBytes [(4, n)]
  | .telemetryAggSet z b => z.fits && z.listed && fitBytes [(4, b.period)]
  | .commitTakesEffect _ => true
  | .sessionExpiry _ n => fitBytes [(2, n)]
  | .delegationExpiry _ k => fitBytes [(2, k)]
  | .cmdRingFetch _ n d _ cmd => n ≤ 63 && d.fits && cmd.length ≤ 12920
  | .replyRingWrite _ n d _ => n ≤ 63 && d.fits
  | .rxFrame _ f => f.fits
  | .rxPreambleError _ p => isPort p
  | .bpiResponse _ g _ h => isGroup g && fitBits [(32, h)]
  | .bpiResponseTimeout _ g => isGroup g
  | .heldFrameRelease _ p => isPort p
  | .cliRv _ c g t v => isGroup c && isGroup g && fitBits [(16, t), (16, v)]
  | .cliRvTimeout _ g t => isGroup g && fitBits [(16, t)]
  | .signalDetectChange _ l _ _ => isPort l
  | .laneLockChange _ l _ _ _ => isPort l
  | .laneClockFault _ l => isPort l
  | .laneClockRecover _ l => isPort l
  | .ltPartnerReq _ l _ => isPort l
  | .ltRxReady _ l _ => isPort l
  | .ltTxStatus _ l _ _ => isPort l
  | .anComplete _ p l f _ => isPort p && l.all (fun m => m ≤ 255) && f.all (fun m => m ≤ 3)
  | .anIncompatibleRetry _ p => isPort p
  | .trainingTimeout _ p => isPort p
  | .trainingComplete _ p => isPort p
  | .alignComplete _ p _ l o => isPort p && l.length ≤ 16 && o.length ≤ 16 && o.all (fun k => k < 16)
  | .alignTimeout _ p l => isPort p && l.all isPort
  | .localFault _ p => isPort p
  | .linkDownHoldExpiry _ p => isPort p
  | .faultClear _ p => isPort p
  | .remoteFault _ p _ => isPort p
  | .preemptVerifyTimeout _ p => isPort p
  | .schedDecision _ g => isGroup g
  | .leafStatusWord _ g w => isGroup g && w.fits
  | .grantSettle _ g n => isGroup g && fitBits [(12, n)]
  | .grantTimeout _ g n => isGroup g && fitBits [(12, n)]
  | .wheelTick _ g => isGroup g
  | .shaperRelease _ o => o.fits
  | .cpiTxFrame _ g t => isGroup g && t.fits
  | .txFrameStart _ p l ph _ => isPort p && isPort l && ph < 2 ^ 16
  | .txFrameEnd _ p => isPort p
  | .txUnderrun _ p => isPort p
  | .pauseRequestWord _ g w => isGroup g && w.portOff ≤ 15 && w.rsv ≤ 15
  | .pauseRefresh _ p => isPort p
  | .pauseTimerExpiry _ p n => isPort p && n ≤ 7
  | .gateEntryChange _ p => isPort p
  | .gateCycleStart _ p => isPort p
  | .timeStepEffect _ => true
  | .slewComplete _ => true
  | .ppsInEdge _ _ ph _ => ph < 64
  | .ppsInLoss _ => true
  | .todMessage _ _ => true
  | .ppsOutPulse _ => true
  | .ppsOutPulseEnd _ => true
  | .refFault _ => true
  | .refFaultClear _ => true
  | .doorbellProducer _ a t n p c => isId a && isRing t n && fitBits [(17, p), (17, c.getD 0)]
  | .doorbellCplAck _ a t n c => isId a && isRing t n && fitBits [(17, c)]
  | .ringEntryProcess _ t n d ok data => isRing t n && d.fits && (t ≠ 1 || !ok || data.length = d.bufLen)
  | .rxRingAllot _ n l => n ≤ 255 && l.all Descriptor.fits
  | .rxRingHoldExpiry _ n _ => n ≤ 255
  | .ringStopDone _ t n => isRing t n
  | .sypMasterResponse _ a _ => a.fits
  | .sypResponseTimeout _ a => a.fits
  | .claim _ a t => isId a && t ≤ 31
  | .complete _ a t n => isId a && t ≤ 31 && fitBits [(12, n)]
  | .enableSet _ a t n => isId a && t ≤ 31 && fitBits [(12, n)]
  | .enableClear _ a t n => isId a && t ≤ 31 && fitBits [(12, n)]
  | .softSet _ a t n => isId a && t ≤ 31 && fitBits [(12, n)]
  | .softClear _ a t n => isId a && t ≤ 31 && fitBits [(12, n)]
  | .irqModerationExpiry _ n => fitBits [(12, n)]
  | .tgtStateChange _ t _ => t ≤ 31
  | .counterWindowRead _ a w o _ => isId a && w ≤ 255 && o < 65536
  | .writeNotPermitted _ a o _ => isId a && o < 67108864
  | .battTrigger _ => true
  | .battWriteDone _ => true
  | .queueSweep _ => true
  | .smcZeroFillDone _ => true
  | .dfiInitTimeout _ c => c ≤ 3
  | .refreshDue _ c r => c ≤ 3 && r ≤ 1
  | .mr4Poll _ c r code => c ≤ 3 && r ≤ 1 && fitBits [(8, code)]
  | .selfRefreshEntry _ c r => c ≤ 3 && r ≤ 1
  | .retrainWindow _ c => c ≤ 3
  | .phyUpdateRequest _ c _ _ => c ≤ 3
  | .channelFullRetrain _ c => c ≤ 3
  | .scrubRead _ _ _ => true
  | .rankMigrationComplete _ _ => true
  | .frcGranuleFlush _ n => n ≤ 15
  | .frcGranuleWriteDone _ n _ => n ≤ 15
  | .frcRegionStopDone _ n => n ≤ 15
  | .xdmaDescFetch _ c d _ => c ≤ 15 && d.fits
  | .xdmaDescComplete _ c _ => c ≤ 15
  | .groupGate _ g => isGroup g
  | .idleTimeExpiry _ g => isGroup g
  | .groupWakeStart _ g => isGroup g
  | .groupWakeDone _ g => isGroup g
  | .probeWake _ g => isGroup g
  | .probeHoldExpiry _ g => isGroup g
  | .drainComplete _ => true
  | .drainTimeout _ => true
  | .firmwareActivateDone _ _ => true
  | .brimResetRelease _ => true
  | .coreResetRelease _ _ => true
  | .railGood _ => true
  | .pllLock _ => true
  | .bootComplete _ f => f.fits
  | .railGoodLoss _ _ => true
  | .brimPowerLoss _ => true
  | .freezeInput _ => true
  | .freezeInputFall _ => true
  | .freezeClockStop _ _ _ => true
  | .tokenExpiry _ => true
  | .pouncerDurationExpiry _ c _ => 1 ≤ c && c ≤ 0xB
  | .idcode _ => true
  | .dbgStatus _ => true
  | .chainSelect _ _ => true
  | .chainRead _ _ => true
  | .resume _ _ => true
  | .bypass _ _ => true
  | .errorEscalationTimeout _ u => u ≤ 0x1B
  | .errorLogWriteTimeout _ => true
  | .sramEccError _ _ h => h.fits
  | .cpxLockstepError _ => true
  | .pufCheckFail _ _ => true
  | .hlkHelloTimer _ => true
  | .hlkHello _ h _ _ _ => h.fits
  | .hlkOffer _ h _ _ => h.fits
  | .hlkConfirm _ h e m => h.fits && fitBytes [(2, e), (1, m)]
  | .hlkHeartbeat _ h a b => h.fits && fitBytes [(4, a), (4, b)]
  | .hlkHeartbeatTimer _ => true
  | .hlkCommand _ h a b => h.fits && a.length ≤ 32 && a.length + b.length ≤ 12920
  | .hlkReply _ h r => h.fits && r.fits
  | .hlkDelegation _ h c => h.fits && c.fits
  | .hlkTimeReq _ h n => h.fits && fitBytes [(4, n)]
  | .hlkTimeResp _ h n a b => h.fits && fitBytes [(4, n)] && a.fits && b.fits
  | .timeDistTimer _ => true
  | .hlkSummary _ h m => h.fits && m.fits
  | .summaryTimer _ => true
  | .hlkLeave _ h r => h.fits && fitBytes [(1, r)]
  | .hlkPartnerLoss _ i => i ≤ 63
  | .targetTimeout _ _ => true
  | .accessViolation _ a o _ => isId a && o < 67108864
  | .groupPowerNotGood _ g => isGroup g
  | .bpiRdDataTimeout _ p => isPort p
  | .channelRetrainDone _ c _ => c ≤ 3
  | .cpxRestartDone _ => true
  | .errorLogWriteError _ => true
  | .hammerThrottleExpiry _ c r _ q => c ≤ 3 && r ≤ 1 && q ≤ 3
  | .laneDropExpiry _ l => isPort l

end Sys2Proof
end

