-- ==== Sys2Proof/Tests/Slice0.lean ====
section
/-! SUPPORT. The model's own tests: `wellFormed` refuses an ill-formed operand of each kind; a few single steps; and, for every
statement of `Sys2Proof.Certificates.Slice0.Obligations` with premises, states and operands that meet the premises of each of its
clauses (`witness_…` for happenings and refusals, `commands_…` for commands). -/

open Sys2Proof Sys2Proof.Machine Sys2Proof.Safety

namespace Sys2Proof.Tests

set_option Elab.async false

/-! ## The state that the witnesses start from -/

/-- A manager key. -/
def mgrKey : KeySlot := { manager := true, ecdsaPub := 4 * 2 ^ 768, mldsaPub := 0, secret := 0 }

/-- A session of it, open for 100 s. -/
def sess : Session := { keyId := 2, manager := true, sk := 0, kw := 0, mask := 0xFFFF, expiry := 100 }

/-- A block that has run for 1 s in SERVICE, with a manager key and a session of it, side memory and its first group. -/
def live : State :=
  { mode := { stage := .run, base := .service, coreRstN := true, coreGood := true, sramGood := true, pwrReq := true, shown := 4 }
    fuses := { groupPresent := 0xFFFFFFFF, servicePresent := 0xF, lifecycle := 3 }
    tsu := { now := 1600000000, time := 1000000000 * 2 ^ 64, sync := .set, tick := 100000000 }
    cpx := { bootTag := 0x11223344, sessions := [(0, sess)], queue := [{ origin := .ring 0 }] }
    hood := { pufOk := true, slots := [(2, mgrKey)] }
    smc := { present := true, filled := true, chans := [(0, { state := .inService })] }
    groups := [(0, { state := .powered })] }

/-- Port 0 as a 25 GbE port. -/
def p25 : PortSetBody := { port := 0, portMode := 1, fecMode := 0, mtu := 9600, portFlags := 0 }

/-- PPS in and out, the ToD input and its checks, all on. -/
def ppsAll : PpsBody := { ppsFlags := 0x3F, pulseWidth := 100, ppsInWindow := 100, ppsOutOffset := 0 }

/-- A command or transmit ring of 64 entries of access ID 9. -/
def ringCfg1 : RingConfigBody :=
  { ringType := 0, ring := 0, baseAddr := 4096, sizeLog2 := 6, accessId := 9, ringFlags := 0, holdTime := 0, irqSource := 0xFFFF }

/-- What a boot without fault finds. -/
def goodBoot : BootFacts :=
  { pufOk := true, imageOk := true, cpxOk := true, sveOk := true, timeOk := true, fusesEqual := true, groupsOk := 0xFFFFFFFF
    fwVersion := 1, fwDigest := 0, fwKeyIndex := 0, storeA := none, storeB := none, pools := [] }

/-- A transmit frame of 64 bytes. -/
def shortFrame : TxFrame :=
  { source := .core, grantId := 9, leaf := 0, tc := 0, len := 60, wire := 64, bytes := List.replicate 60 0, action := some 0 }

/-- One leaf on one node on port 0. -/
def treeCfg : Cfg :=
  { port := [(0, p25)]
    node := [(0, { node := 0, port := 0, cls := 0, weight := 1, shaperRate := 0, shaperBurst := 0 })]
    leaf := [(0, { leaf := 0, parentNode := 0, cls := 0, weight := 1, shaperRate := 0, shaperBurst := 0, overheadProfile := 0 })] }

/-- A delegation certificate of the manager key. -/
def cert : Certificate :=
  { certType := 1, rsv1 := 0, keyId := 0x100, targetMask := 0xFFFFFFFFFFFFFFFF, groupMask := 0xFFFF, issuer := 2, notBefore := 0
    expiry := 100, rsv28 := 0, ecdsaPub := 4 * 2 ^ 768, mldsaPub := 0, rsv2721 := 0, trailerOk := true }

/-! ## Forms of a witness -/

/-- A happening that comes now in the state meets this condition. -/
def Here (p : State → Prop) (s : State) : Prop := p (start 0 s)

theorem here_of {p : State → Prop} {s : State} (h : p (start 0 s)) : Here p s := h

theorem some_all {α : Type} {P : α → Prop} {o : Option α} (v : α) (e : o = some v) (h : P v) : ∀ x, o = some x → P x := by
  simpa [e] using h

theorem nil_ne {α : Type} {l : List α} {a : α} {r : List α} (h : l = []) : l ≠ a :: r := by simp [h]

theorem reaches_of {a n : Nat} {s : State} (b : IrqTargetBody)
    (h : clocked s = true ∧ n < 32 ∧ (tget s.cfg.irqTarget n = some b ∧ b.accessId = a) ∧ accFrozen s a = false ∧
      s.mode.stage ≠ .boot ∧ s.mode.zeroized = false) : reaches a n s :=
  ⟨h.1, h.2.1, ⟨b, h.2.2.1⟩, h.2.2.2⟩

theorem cons_ne {l : List (Nat × Nat)} {m x p0 : Nat} (h : l = [(x, p0)]) (d : x ≠ m) : ∀ p r, l ≠ (m, p) :: r := by
  simp [h, d]

theorem none_all {α : Type} {P : α → Prop} {o : Option α} (e : o = none) : ∀ x, o = some x → P x := by
  simp [e]

theorem coreOnly_of {pg : Nat} {s : State} (h : ∀ g, g ∈ (engine s pg).grants → g.host = false ∨ g.released.isSome = true) :
    coreOnly pg s := h

/-! ## The commands -/

/-- A command of this opcode from ring 0, under the session of `live`. -/
def ask (op : Op) : Zelgen :=
  { origin := .ring 0, flags := 0x80, bodyLen := roundUp (fieldLen op.body) 4, sequence := 1, bootTag := 0x11223344, keyId := 0x8000
    carrierLen := 32 + roundUp (fieldLen op.body) 4 + 52, trailer := { typ := 2, len := 52, tagOk := true } }

/-- The same, signed with the manager key of `live`. -/
def askSigned (op : Op) : Zelgen :=
  { ask op with flags := 0x40, keyId := 2, carrierLen := 32 + roundUp (fieldLen op.body) 4 + 4728
                trailer := { typ := 1, len := 4728, ecdsaOk := true, mldsaOk := true } }

/-- The command passes every check in `s`, and is carried out in a state of this condition. -/
def Takes (op : Op) (z : Zelgen) (s : State) (pre : State → Prop) : Prop := ∃ c u, admitted op z s = some (c, u) ∧ pre u

theorem takes_of {op : Op} {z : Zelgen} {s : State} {pre : State → Prop} [DecidablePred pre]
    (h : (admitted op z s).any (fun x => decide (pre x.2)) = true) : Takes op z s pre := by
  obtain ⟨x, hx, hp⟩ := (Option.any_eq_true _ _).mp h
  exact ⟨x.1, x.2, hx, of_decide_eq_true hp⟩

theorem takes_quiet {op : Op} {z : Zelgen} {s : State} (h : Takes op z s (fun u => u.cpx.activation = none)) :
    Takes op z s quietCpx := by
  obtain ⟨c, u, e, p⟩ := h
  exact ⟨c, u, e, fun a ha => by rw [p] at ha; cases ha⟩

/-- The command passes every check, and the staged set is open and has room for it. -/
def Enters (op : Op) (z : Zelgen) (s : State) : Prop :=
  Takes op z s (fun _ => True) ∧ s.cpx.staged.sealed = none ∧ s.cpx.staged.count < 65536 ∧ s.cpx.staged.bytes + z.bodyLen ≤ 1048576

theorem admitted_gate (op : Op) (z : Zelgen) (s : State) :
    admitted op z s = (authenticated op z s).bind (fun x => passGate op z x.1 x.2) := by
  unfold admitted
  cases authenticated op z s <;> rfl

/-- The checks of an opcode before its own. -/
def plainly (op : Op) : Op := { op with check := fun _ _ => none }

/-- A command that passes every check before its opcode's own is taken where these pass. -/
theorem taken_of {op : Op} {s : State} {p : State → Prop} (h : Takes (plainly op) (ask (plainly op)) s p)
    (g : ∀ c u, Changes checkParts (start 0 s) u → op.check c u = none) :
    Takes op (ask op) s (fun u => Changes checkParts (start 0 s) u ∧ p u) := by
  obtain ⟨c, u, e, p0⟩ := h
  have hc := admitted_changes e
  have hm := (admitted_ctx e).2.2.2.2.2
  rw [admitted_gate] at e
  have ha : authenticated (plainly op) (ask (plainly op)) s = authenticated op (ask op) s := rfl
  rw [ha] at e
  obtain ⟨⟨d, v⟩, e1, e2⟩ := Option.bind_eq_some_iff.mp e
  obtain ⟨rfl, rfl, -, -⟩ := passGate_some e2
  refine ⟨c, u, ?_, hc, p0⟩
  rw [admitted_gate, e1, Option.bind_some]
  have hk : authKind (ask (plainly op)) ≠ 0 := (by decide : authKind (ask opNop) ≠ 0)
  have hp : paramCheck op c u = none := by
    have h2 := hm.2
    unfold paramCheck at h2 ⊢
    rw [g c u hc]
    exact h2
  have h3 : modeCheck op u = none := hm.1 hk
  unfold passGate
  rw [if_pos ⟨.inr h3, hp⟩]

theorem fuses_kept {s u : State} (h : Changes checkParts (start 0 s) u) : u.fuses = s.fuses :=
  (h .fuses (by decide)).trans (start_changes 0 s .fuses (by decide))
theorem hood_kept {s u : State} (h : Changes checkParts (start 0 s) u) : u.hood = s.hood :=
  (h .hood (by decide)).trans (start_changes 0 s .hood (by decide))
theorem tsu_kept {s u : State} (h : Changes checkParts (start 0 s) u) : u.tsu = (start 0 s).tsu := h .tsu (by decide)
theorem cpx_kept {s u : State} (h : Changes checkParts (start 0 s) u) :
    u.cpx.bootTag = s.cpx.bootTag ∧ u.cpx.fwKeyIndex = s.cpx.fwKeyIndex ∧ u.cpx.staging = s.cpx.staging := by
  have a := h .cpx (by decide); have b := start_changes 0 s .cpx (by decide)
  simp only [Part.same, Cpx.mk.injEq] at a b
  exact ⟨by simp_all, by simp_all, by simp_all⟩

theorem takes_mono {op : Op} {z : Zelgen} {s : State} {p q : State → Prop} (h : Takes op z s p) (g : ∀ u, p u → q u) :
    Takes op z s q := by
  obtain ⟨c, u, e, hp⟩ := h
  exact ⟨c, u, e, g u hp⟩

/-- A token for this die. -/
def token (s : State) (typ level signer : Nat) : Token :=
  { tokenType := typ, level, pouncerMask := 0, tokenFlags := 0, rsv5 := 0, signerKeyId := signer, notBefore := 0, expiry := 604800
    fuseDigest := fuseDigest s, bootTag := 0, rsv72 := 0, trailerOk := true }

theorem token_passes {s u : State} {o typ level signer : Nat} (h : Changes checkParts (start 0 s) u)
    (hl : (match typ with | 1 => decide (1 ≤ level) && decide (level ≤ 2) | 2 => decide (level = 0) | _ => decide (level ≤ 3)) = true)
    (hk : signerKnown s signer = true) (hs : seconds (start 0 s) < 604800) : tokenCheck o typ (token s typ level signer) u = none := by
  have e1 : fuseDigest s = fuseDigest u := by unfold fuseDigest; rw [fuses_kept h]
  have e2 : signerKnown u signer = true := by rw [← hk]; unfold signerKnown; rw [hood_kept h]
  have e3 : seconds u = seconds (start 0 s) := by unfold seconds; rw [tsu_kept h]
  unfold tokenCheck windowCheck
  by_cases hu : u.tsu.sync = .unset <;> split <;> simp_all [token, firstOf, need, param]

/-- PROVISIONED, running firmware signed under key 1. -/
def provisioned : State := { live with fuses.lifecycle := 1, cpx.fwKeyIndex := 1 }

/-- Tokens that meet the premises of TokensAndPerturbations, LifecycleAndZeroization and KeysAreInstalledAndRevoked. -/
theorem commands_tokens :
    (∃ t, Takes (opDebugTokenLoad t) (ask (opDebugTokenLoad t)) live (fun _ => True)) ∧
    (∃ b, Takes (opLifecycleAdvance b) (ask (opLifecycleAdvance b)) provisioned (fun _ => b.targetState = 3)) ∧
    (∃ t, Takes (opFwKeyRevoke t) (ask (opFwKeyRevoke t)) provisioned (fun _ => True)) := by
  refine ⟨⟨token live 1 1 2, takes_mono (taken_of (p := fun _ => True) (takes_of (by decide +kernel)) fun c u h => ?_) fun _ h => h.2⟩,
    ⟨{ targetState := 3, token := some (token provisioned 2 0 1) },
      takes_mono (taken_of (p := fun _ => True) (takes_of (by decide +kernel)) fun c u h => ?_) fun _ _ => rfl⟩,
    ⟨token provisioned 3 0 1, takes_mono (taken_of (p := fun _ => True) (takes_of (by decide +kernel)) fun c u h => ?_) fun _ h => h.2⟩⟩
  · have e : levelSigner 1 2 u = true := by
      have : levelSigner 1 2 u = levelSigner 1 2 live := by unfold levelSigner lifecycle hoodBlank; rw [fuses_kept h, hood_kept h]
      rw [this]; decide +kernel
    have t : tokenCheck 0 1 (token live 1 1 2) u = none := token_passes h rfl (by decide +kernel) (by decide +kernel)
    show firstOf [tokenCheck 0 1 (token live 1 1 2) u, need (levelSigner 1 2 u) stWrongLifecycle] = none
    rw [t, e]; rfl
  · have e : lifecycle u = 1 := by unfold lifecycle; rw [fuses_kept h]; decide +kernel
    have t : tokenCheck 1 2 (token provisioned 2 0 1) u = none := token_passes h rfl (by decide +kernel) (by decide +kernel)
    show firstOf [need (transition (lifecycle u) 3 c.signer) _, param true 1, param true 0,
      firstOf [tokenCheck 1 2 (token provisioned 2 0 1) u, param true 69, param true 7]] = none
    rw [t, e]; rfl
  · have e : u.cpx.fwKeyIndex = 1 := (cpx_kept h).2.1
    have f : decide (fwRevoked u 0 ≠ 0xF) = true := by unfold fwRevoked; rw [fuses_kept h]; decide +kernel
    have t : tokenCheck 0 3 (token provisioned 3 0 1) u = none := token_passes h rfl (by decide +kernel) (by decide +kernel)
    show firstOf [tokenCheck 0 3 (token provisioned 3 0 1) u, param true 2, param true 4, param true 6,
      param (decide (0 ≠ u.cpx.fwKeyIndex)) 1, param (decide (fwRevoked u 0 ≠ 0xF)) 1] = none
    rw [t, e, f]; rfl

/-- An image of 5,520 bytes: MAGIC, its length, version 0, key 0. -/
def image : List Host.Cell := [(0, 0x31), (1, 0x57), (2, 0x46), (3, 0x4A), (8, 0x90), (9, 0x15)]

/-- It is staged, and the fuses hold the digests of its keys. -/
def imageState (q : List Waiting) : State :=
  { live with cpx.staging := image, cpx.queue := q, fuses.anchorDigest := Config.sha384 (memReads image 2824 2696)
              fuses.fwKeyDigest := (Config.sha384 (memReads image 128 2696)).setWidth 1536 }

/-- Its activation. -/
def activation : FirmwareActivateBody := { imageLen := 5520, imageDigest := Config.sha384 (memReads image 0 5520), trailerOk := true }

theorem image_passes {c : ReplyCtx} {q : List Waiting} {u : State} (hs : u.cpx.staging = image)
    (hf : u.fuses = (imageState q).fuses) : (opFirmwareActivate activation).check c u = none := by
  have e0 : staged u 8 4 = 5520 := by unfold staged; rw [hs]; decide +kernel
  have e1 : staged u 0 4 = 0x4A465731 := by unfold staged; rw [hs]; decide +kernel
  have e2 : staged u 12 1 = 0 := by unfold staged; rw [hs]; decide +kernel
  have e3 : staged u 7 1 = 0 := by unfold staged; rw [hs]; decide +kernel
  have e4 : u.fuses.fwKeyRevoked = 0 := by rw [hf]; rfl
  have e5 : burnt u.fuses.fwSvn = 0 := by rw [hf]; show burnt (0 : BitVec 256) = 0; decide +kernel
  have e6 : u.fuses.anchorDigest = Config.sha384 (memReads image 2824 2696) := by rw [hf]; rfl
  have e7 : u.fuses.fwKeyDigest = (Config.sha384 (memReads image 128 2696)).setWidth 1536 := by rw [hf]; rfl
  have e8 : ∀ d : Digest, BitVec.extractLsb' 0 384 (d.setWidth 1536) = d := fun d => by
    ext i hi; simp [BitVec.getElem_extractLsb']; rw [BitVec.getLsbD_eq_getElem hi]; simp; omega
  show firstOf [param (decide (5520 ≤ 2097152) && decide (5520 = staged u 8 4)) 0,
    param (decide (Config.sha384 (memReads image 0 5520) = Config.sha384 (imageBytes u 0 5520))) 4, param (imageOk u true) 0] = none
  unfold imageOk imageBytes
  simp only [hs, e0, e1, e2, e3, e4, e5, e6, e7, e8, Nat.mul_zero]
  simp [firstOf, param, need]
  decide

/-- Activations that meet the premises of FirmwareIsStagedAndActivated. -/
theorem commands_activation :
    (∃ b s, Takes (opFirmwareActivate b) (ask (opFirmwareActivate b)) s (fun u => u.cpx.queue = [])) ∧
    (∃ b s, Takes (opFirmwareActivate b) (ask (opFirmwareActivate b)) s (fun u => u.cpx.queue ≠ [])) :=
  ⟨⟨activation, imageState [{ origin := .ring 0 }], takes_mono (taken_of (p := fun u => u.cpx.queue = []) (takes_of (by decide +kernel))
      fun _ _ h => image_passes (cpx_kept h).2.2 (fuses_kept h)) fun _ h => h.2⟩,
   ⟨activation, imageState [{ origin := .ring 0 }, { origin := .ring 1 }], takes_mono (taken_of (p := fun u => u.cpx.queue ≠ [])
      (takes_of (by decide +kernel)) fun _ _ h => image_passes (cpx_kept h).2.2 (fuses_kept h)) fun _ h => h.2⟩⟩

/-! ## Well-formed operands -/

/-- NOP on ring 0, and a key, a token and frames' heads whose fields all fit. -/
def nopZ : Zelgen := ask opNop
def okToken : Token := token live 1 1 2
def okDesc : Descriptor := { bufAddr := 4096, bufLen := 64, mark := 1 }
def okXDesc : XDesc := { srcAddr := 0, dstAddr := 0, rowBytes := 64, rows := 1, srcStride := 0, dstStride := 0, nextAddr := 0, descCtl := 0 }
def okLeaf : LeafStatus :=
  { leaf := 262143, backlogged := true, grantDone := false, grantId := 4095, released := 2047, headLen := 16383
    backlogBytes := 0xFFFFFFFF, headEnq := 0 }
def okMeta : TxMeta := { grantId := 9, grantLast := true, leaf := 0, tc := 15, len := 64 }
def okSlices : TxSlices := { portOff := 15, start := some okMeta, bytes := List.replicate 64 0, slices := 1, eof := some { action := 0, grantId := 9 } }
def okFrame : RxFrame := { port := 515, bytes := [0], lane := 515, phase := 63 }
def okHead : HlkHead := { port := 515, srcMac := 1, src := 255, dst := 255, seq := 1 }
def okReply : WorkerReply :=
  { opcode := 0x0001, quarantine := false, inst := 63, mode := 15, sequence := 1, status := 0, degraded := 0, epoch := 65535
    detail := 0, correlation := 0, body := [1, 2, 3, 4], tagged := none, trailer := 0 }
def okSummary : Summary :=
  { mode := 4, lifecycle := 3, timeState := 1, epoch := 1, degraded := 0, timeOffset := -1, portsUp := 516, unacked := 0
    rxBytes := 1, txBytes := 1, refused := 0, errors := 0 }
def gates (l : List GateEntry) (n : Nat) : GateListBody :=
  { port := 0, baseTime := {}, cycleTime := 1000, listLen := 1, firstEntry := 0, count := n, entries := l }

/-- Operands at the ends of their fields are accepted. -/
theorem test_well_formed_accepted :
    [Instr.nop nopZ, .nop { nopZ with origin := .hlk 63 }, .sessionOpen nopZ { hostNonce := 0, lifetime := 0xFFFFFFFF, groupMask := 0 },
     .debugTokenLoad nopZ okToken, .delegationInstall nopZ cert, .gateListSet nopZ (gates [{ gates := 1, interval := 1, rsv := 0 }] 1),
     .tsuCalSet nopZ { port := 65535, rxCal := -2147483648, txCal := 2147483647 },
     .firmwareStage { nopZ with bodyLen := 8 } { offset := 0, chunk := [1, 2, 3, 4] },
     .cmdRingFetch 0 63 okDesc true [1], .rxFrame 0 okFrame, .xdmaDescFetch 0 15 okXDesc true, .leafStatusWord 0 31 okLeaf,
     .cpiTxFrame 0 31 okSlices, .hlkHello 0 okHead 0 0 0, .hlkReply 0 okHead okReply, .hlkSummary 0 okHead okSummary,
     .doorbellProducer 0 4095 3 255 131071 (some 131071), .claim 0 4095 31, .bootComplete 0 goodBoot,
     .sramEccError 0 0 (.policer 69631), .pouncerDurationExpiry 0 0xB 0, .hlkCommand 0 okHead (List.replicate 32 0) (List.replicate 12888 0)].all wellFormed = true := by
  decide +kernel

/-- A command whose header, trailer or body does not fit its fields is refused. -/
theorem test_ill_formed_commands_refused :
    [Instr.nop { nopZ with origin := .ring 64 }, .nop { nopZ with origin := .eth 516 }, .nop { nopZ with origin := .udp 516 },
     .nop { nopZ with origin := .hlk 64 }, .nop { nopZ with version := 256 }, .nop { nopZ with bodyLen := 65536 },
     .nop { nopZ with sequence := 2 ^ 64 }, .nop { nopZ with keyId := 65536 }, .nop { nopZ with notAfter := 2 ^ 48 },
     .statusGet { nopZ with undefined := some (0x0099, []) }, .nop { nopZ with trailer := { typ := 256 } },
     .nop { nopZ with trailer := { rsv := 256 } },
     .nop { nopZ with trailer := { len := 65536 } }, .sessionClose nopZ 65536, .errorRead nopZ 256, .errorAck nopZ 0 (2 ^ 32),
     .sessionOpen nopZ { hostNonce := 0, lifetime := 2 ^ 32, groupMask := 0 },
     .epochCommit nopZ { expectedEpoch := 0, commitTime := { sec := 2 ^ 48 }, stagedCount := 0, stagedDigest := 0 },
     .epochCommit nopZ { expectedEpoch := 0, commitTime := { ns := 2 ^ 32 }, stagedCount := 0, stagedDigest := 0 },
     .epochCommit nopZ { expectedEpoch := 0, commitTime := { frac := 65536 }, stagedCount := 0, stagedDigest := 0 },
     .debugTokenLoad nopZ { okToken with level := 256 }, .fwKeyRevoke nopZ { okToken with expiry := 2 ^ 48 },
     .lifecycleAdvance nopZ { targetState := 3, token := some { okToken with tokenType := 256 } },
     .delegationInstall nopZ { cert with issuer := 65536 }, .keyRevoke nopZ 65536,
     .keyInstall nopZ { keyId := 1, keyClass := 256, ecdsaPub := 0, mldsaPub := 0, wrappedSecret := 0, onCurve := true, unwrapped := none },
     .saEnable nopZ { portGroup := 0, direction := 0, scIndex := 65536, an := 0 },
     .gateListSet nopZ (gates [] 1), .gateListSet nopZ (gates [{ gates := 1, interval := 2 ^ 32, rsv := 0 }] 1),
     .overheadProfileSet nopZ { profile := 0, overhead := 128 }, .timeRateSet nopZ (2 ^ 63),
     .tsuCalSet nopZ { port := 0, rxCal := -2147483649, txCal := 0 },
     .portSchedSet nopZ { port := 0, strictClasses := 0, classWeights := List.replicate 15 1, grantQuantum := 1, portShaperRate := 0 },
     .smcSet nopZ { dataRate := 0, ranks := 1, qosTargets := [] }, .firmwareStage nopZ { offset := 0, chunk := [1] },
     .firmwareStage { nopZ with bodyLen := 5 } { offset := 2 ^ 32, chunk := [1] }].all (fun i => !wellFormed i) = true := by
  decide +kernel

/-- A happening whose operands do not fit their buses, indices and words is refused. -/
theorem test_ill_formed_happenings_refused :
    [Instr.sessionExpiry 0 65536, .cmdRingFetch 0 64 okDesc true [], .replyRingWrite 0 0 { okDesc with bufLen := 65536 } true,
     .rxFrame 0 { okFrame with port := 516 }, .rxFrame 0 { okFrame with bytes := [] }, .rxFrame 0 { okFrame with phase := 64 },
     .rxPreambleError 0 516, .bpiResponse 0 32 false 0, .bpiResponse 0 0 false (2 ^ 32), .cliRv 0 0 0 65536 0,
     .alignComplete 0 0 false (List.replicate 17 0) [0], .alignComplete 0 0 false [] [16], .anComplete 0 0 [256] [],
     .ringEntryProcess 0 1 0 okDesc true [],
     .alignTimeout 0 0 [516], .leafStatusWord 0 0 { okLeaf with leaf := 262144 },
     .leafStatusWord 0 0 { okLeaf with grantId := 4096 }, .grantSettle 0 0 4096, .shaperRelease 0 (.leaf 262144),
     .shaperRelease 0 (.node 16384), .shaperRelease 0 (.port 512), .cpiTxFrame 0 0 { okSlices with portOff := 16 },
     .cpiTxFrame 0 0 { okSlices with bytes := List.replicate 65 0 }, .cpiTxFrame 0 0 { okSlices with start := some { okMeta with len := 16384 } },
     .cpiTxFrame 0 0 { okSlices with eof := some { action := 0, grantId := 4096 } },
     .txFrameStart 0 0 0 65536 0, .pauseRequestWord 0 0 { portOff := 16, xoff := 0 }, .pauseTimerExpiry 0 0 8, .ppsInEdge 0 true 64 100,
     .doorbellProducer 0 4096 0 0 0 none, .doorbellProducer 0 0 4 0 0 none, .doorbellProducer 0 0 0 0 131072 none,
     .doorbellProducer 0 0 0 0 0 (some 131072), .doorbellCplAck 0 0 0 256 0, .rxRingAllot 0 256 [], .rxRingHoldExpiry 0 256 0,
     .sypMasterResponse 0 (.dataRead 4 0) false, .sypResponseTimeout 0 (.xdma 16), .claim 0 0 32, .complete 0 0 0 4096,
     .tgtStateChange 0 32 0, .counterWindowRead 0 0 256 0 8, .counterWindowRead 0 0 0 65536 8, .accessViolation 0 0 67108864 8,
     .dfiInitTimeout 0 4, .refreshDue 0 0 2, .mr4Poll 0 0 0 256, .frcGranuleFlush 0 16, .xdmaDescComplete 0 16 .done,
     .xdmaDescFetch 0 0 { okXDesc with rows := 2 ^ 32 } true, .groupGate 0 32, .bootComplete 0 { goodBoot with fwKeyIndex := 4 },
     .bootComplete 0 { goodBoot with pools := List.replicate 9 (0, 0, 0) }, .bootComplete 0 { goodBoot with storeA := some (2 ^ 64, 0, []) },
     .pouncerDurationExpiry 0 0 0, .errorEscalationTimeout 0 0x1C, .sramEccError 0 0 (.security 32), .sramEccError 0 0 (.policer 69632),
     .sramEccError 0 0 (.sched (.port 512)), .hlkHello 0 { okHead with port := 516 } 0 0 0, .hlkHello 0 { okHead with src := 256 } 0 0 0,
     .hlkConfirm 0 okHead 65536 0, .hlkHeartbeat 0 okHead (2 ^ 32) 0, .hlkCommand 0 okHead (List.replicate 32 0) (List.replicate 12889 0),
     .hlkReply 0 okHead { okReply with inst := 64 }, .hlkReply 0 okHead { okReply with body := [1] },
     .hlkSummary 0 okHead { okSummary with epoch := 65536 }, .hlkSummary 0 okHead { okSummary with timeOffset := 2 ^ 63 },
     .hlkTimeResp 0 okHead 0 { sec := 2 ^ 48 } {}, .hlkLeave 0 okHead 256, .hlkPartnerLoss 0 64, .bpiRdDataTimeout 0 516,
     .hammerThrottleExpiry 0 0 0 0 4].all (fun i => !wellFormed i) = true := by
  decide +kernel

/-! ## Single steps, each against the sentence of the spec it names -/

/-- R437, Table 15-1: release of the brim reset takes OFF to BRIM, mode 1. -/
theorem test_brim_reset_release :
    (match step { State.reset with pending := [.brimResetRelease 0] } with | .next t => some (modeCode t, t.pending) | _ => none) =
      some (1, []) := by decide +kernel

/-- R46: a command is not processed in OFF. -/
theorem test_off_processes_nothing :
    (match step { State.reset with pending := [.nop nopZ] } with | .next t => some t.out | _ => none) = some [] := by decide +kernel

/-- R60: the three fields of a 96-bit time cover 12 bytes, seconds above nanoseconds above 2^-16 ns. -/
theorem test_time_units : ofTime { sec := 1, ns := 1, frac := 1 } = 1000000001 * 2 ^ 64 + 2 ^ 48 := by decide +kernel

/-- R222: 1,600,000,000 ccyc to a second. -/
theorem test_second : secs 1 = 1600000000 ∧ us 1 = 1600 := by decide +kernel

/-- No row has bits, so no word is a command. -/
theorem test_no_word : decodeTableWord 16 0x1234 = none := by decide +kernel

/-- R156: the CRC-32 of IEEE 802.3, of the nine ASCII digits 1 to 9 (its published check value). -/
theorem test_crc : (crc32 [0x31, 0x32, 0x33, 0x34, 0x35, 0x36, 0x37, 0x38, 0x39]) = 0xCBF43926 := by decide +kernel

/-! ## Refusals, the queue and the block's clock -/

/-- PORT_CLEAR under the session of `live`, and the states and forms that fail one check of R46 after the other. -/
def clear : Op := opPortClear 0

/-- The premises of ChecksInOrder. -/
def FailsWith (z : Zelgen) (s : State) (st : Nat) : Prop :=
  takes z (start z.dt s) ∧ authKind z ≠ 0 ∧ field z.target 5 0 = instOf (start z.dt s) ∧
    (firstFailing (checksOf clear z (start z.dt s)) = some st ∧ z.undefined = none ∧ commandOf (.portClear z 0) = some (clear, z) ∨
      firstFailing (checksOf (seenAs opNop z) z (start z.dt s)) = some st ∧ commandOf (.nop z) = some (opNop, z))

theorem failsWith_of {z : Zelgen} {s : State} {st : Nat}
    (h : (processing (start z.dt s) = true ∧ (start z.dt s).cpx.restart = none ∧ (start z.dt s).cpx.activation = none ∧
      (takeWaiting z.origin (start z.dt s)).isSome = true) ∧ authKind z ≠ 0 ∧ field z.target 5 0 = instOf (start z.dt s) ∧
      firstFailing (checksOf clear z (start z.dt s)) = some st) (hu : z.undefined = none) : FailsWith z s st :=
  ⟨h.1, h.2.1, h.2.2.1, .inl ⟨h.2.2.2, hu, rfl⟩⟩

/-- One command for each check of R46, which it is the first to fail. -/
theorem witness_ChecksInOrder :
    FailsWith { ask clear with version := 2 } live 0x0101 ∧
    FailsWith { ask clear with carrierLen := 5 } live 0x0102 ∧
    FailsWith { ask clear with padZero := false } live 0x0102 ∧
    FailsWith { ask clear with rsv7 := 1 } live 0x0103 ∧
    FailsWith { ask clear with bootTag := 0 } live 0x0206 ∧
    FailsWith { ask clear with notAfter := 0 } live 0x0205 ∧
    FailsWith { ask clear with keyId := 0x8001 } live 0x0202 ∧
    FailsWith (ask clear) { live with cpx.sessions := [(0, { sess with manager := false, mask := 0 })] } 0x0203 ∧
    FailsWith { ask opNop with undefined := some (0x0099, []) } live 0x0104 ∧
    FailsWith (ask clear) { live with mode.quarantine := true } 0x0203 ∧
    FailsWith { ask clear with sequence := 0 } live 0x0204 ∧
    FailsWith { ask clear with trailer := { typ := 2, len := 52, tagOk := false } } live 0x0201 := by
  refine
    ⟨failsWith_of ?_ rfl, failsWith_of ?_ rfl, failsWith_of ?_ rfl, failsWith_of ?_ rfl, failsWith_of ?_ rfl, failsWith_of ?_ rfl,
   failsWith_of ?_ rfl, failsWith_of ?_ rfl, ⟨by unfold takes; decide +kernel, ?_, ?_, .inr ⟨?_, rfl⟩⟩,
   failsWith_of ?_ rfl, failsWith_of ?_ rfl, failsWith_of ?_ rfl⟩ <;> decide +kernel

/-- The same without authentication. -/
def askOpen (op : Op) : Zelgen :=
  { ask op with flags := 0, keyId := 0, bootTag := 0, sequence := 0, carrierLen := 32 + roundUp (fieldLen op.body) 4, trailer := {} }

theorem witness_UnauthenticatedCommandsAreRefused :
    (takes (askOpen clear) (start 0 live) ∧ openForm clear (askOpen clear) ∧ field (askOpen clear).target 5 0 = instOf (start 0 live)) ∧
    (takes { askOpen clear with target := 1 } (start 0 live) ∧ openForm clear { askOpen clear with target := 1 } ∧
      field (1 : BitVec 8) 5 0 ≠ instOf (start 0 live) ∧ roleOf (start 0 live) ≠ 1) := by
  unfold takes openForm; decide +kernel

theorem witness_AuthenticationConsumesTheSequence :
    firstFailing (checksOf clear (ask clear) (start 0 live)) = none ∧ processing (start 0 live) = true ∧
      (authenticated clear (ask clear) live).isSome = true ∧ authKind (ask clear) ≠ 0 := by decide +kernel

/-- A command that passes its authentication, at a state of this condition. -/
def Passes (op : Op) (z : Zelgen) (s : State) (pre : ReplyCtx → State → Prop) : Prop :=
  ∃ c u, authenticated op z s = some (c, u) ∧ pre c u

theorem passes_of {op : Op} {z : Zelgen} {s : State} {pre : ReplyCtx → State → Prop} [∀ c u, Decidable (pre c u)]
    (h : (authenticated op z s).any (fun x => decide (pre x.1 x.2)) = true) : Passes op z s pre := by
  obtain ⟨x, hx, hp⟩ := (Option.any_eq_true _ _).mp h
  exact ⟨x.1, x.2, hx, of_decide_eq_true hp⟩

/-- A mode that refuses, and a port that does not exist. -/
theorem witness_ModeAndParametersRefuse :
    Passes clear (ask clear) { live with mode.base := .locked, mode.shown := 3 } (fun _ u => u.cpx.activation = none ∧ modeCheck clear u = some (stWrongMode, 0)) ∧
    Passes (opPortClear 516) (ask (opPortClear 516)) live (fun c u => u.cpx.activation = none ∧ modeCheck (opPortClear 516) u = none ∧
      paramCheck (opPortClear 516) c u = some (stOutOfRange, 0)) :=
  ⟨passes_of (by decide +kernel), passes_of (by decide +kernel)⟩

theorem witness_NothingIsProcessedOutsideRun :
    processing (start 0 State.reset) = false ∧
    processing (start 0 { live with cpx.restart := some 0 }) = true ∧
    (start 0 { live with cpx.restart := some 0 }).cpx.restart.isSome = true ∧
    processing (start 0 live) = true ∧ takeWaiting (.ring 1) (start 0 live) = none := by decide +kernel

/-- A sealed set, a full one, and one whose bodies leave no room. -/
theorem witness_StagedSetRefuses :
    Passes opEpochDiscard (ask opEpochDiscard) { live with cpx.staged.sealed := some {} }
      (fun _ u => u.cpx.activation = none ∧ modeCheck opEpochDiscard u = none ∧ u.cpx.staged.sealed.isSome = true) ∧
    Takes clear (ask clear) { live with cpx.staged.sealed := some {} } (fun u => u.cpx.staged.sealed.isSome = true) ∧
    Takes clear (ask clear) { live with cpx.staged.count := 65536 }
      (fun u => u.cpx.staged.sealed = none ∧ 65536 ≤ u.cpx.staged.count) ∧
    Takes clear (ask clear) { live with cpx.staged.bytes := 1048573 }
      (fun u => u.cpx.staged.sealed = none ∧ 1048576 < u.cpx.staged.bytes + (ask clear).bodyLen) :=
  ⟨passes_of (by decide +kernel), takes_of (by decide +kernel), takes_of (by decide +kernel), takes_of (by decide +kernel)⟩

/-- A commit whose time is past, and one that comes 16 µs less a ccyc after the last effect. -/
def commitOp (t : Time96) : Op := opEpochCommit { expectedEpoch := 0, commitTime := t, stagedCount := 0, stagedDigest := 0 }

theorem witness_CommitsAreFenced :
    Passes (commitOp { ns := 1 }) (ask (commitOp { ns := 1 })) live
      (fun _ u => u.cpx.activation = none ∧ modeCheck (commitOp { ns := 1 }) u = none ∧ ofTime { ns := 1 } < u.tsu.time) ∧
    Passes (commitOp {}) (ask (commitOp {})) { live with cpx.lastEffectCcyc := some (1600000000 - us 16 + 1) }
      (fun _ u => u.cpx.activation = none ∧ modeCheck (commitOp {}) u = none ∧
        u.cpx.lastEffectCcyc = some (1600000000 - us 16 + 1) ∧ u.tsu.now < 1600000000 - us 16 + 1 + us 16) :=
  ⟨passes_of (by decide +kernel), passes_of (by decide +kernel)⟩

theorem witness_FatalErrorsQuarantine :
    clocked live = true ∧ live.mode.zeroized = false ∧ live.mode.quarantine = false := by decide +kernel

theorem witness_TimePasses : live.pending = [] ∧ clocked live = true ∧ State.reset.pending = [] ∧ clocked State.reset = false := by
  decide +kernel

/-- The fuses of `live` as a reading of themselves, and a step from it. -/
theorem witness_BurntFusesStayBurnt : burnFuses live.fuses live.fuses = live.fuses ∧ ∃ t, step live = .next t :=
  ⟨by decide +kernel, _, rfl⟩

/-! ## Happenings -/

/-- States and operands that meet the premises of SessionsOpenCloseAndExpire clause by clause. -/
theorem witness_SessionsOpenCloseAndExpire :
    (∃ id, Here (fun s => clocked s = true ∧ 0x8000 ≤ id ∧ ∃ x, tget s.cpx.sessions (id - 0x8000) = some x ∧ x.expiry ≤ seconds
     s) ({ live with cpx.sessions := [(0, { sess with expiry := 1 })] })) ∧
    (∃ id, Here (fun s => ∀ x, tget s.cpx.sessions (id - 0x8000) = some x → seconds s < x.expiry) (live)) :=
  ⟨⟨0x8000, here_of (by refine ⟨?_, ?_, { sess with expiry := 1 }, ?_, ?_⟩ <;> decide +kernel)⟩,
   ⟨0x8000, here_of (some_all sess (by decide +kernel) (by decide +kernel))⟩⟩

/-- States and operands that meet the premises of EpochsCommitAtTheirTime clause by clause. -/
theorem witness_EpochsCommitAtTheirTime :
    (∃ at_, Here (fun s => clocked s = true ∧ s.cpx.staged.sealed = some at_ ∧ ofTime at_ ≤ s.tsu.time)
     ({ live with cpx.staged.sealed := some { sec := 1 } })) ∧
    (Here (fun s => ∀ at_, s.cpx.staged.sealed = some at_ → s.tsu.time < ofTime at_)
     ({ live with cpx.staged.sealed := some { sec := 1, frac := 1 } })) :=
  ⟨⟨{ sec := 1 }, here_of (by decide +kernel)⟩,
   here_of (some_all { sec := 1, frac := 1 } (by decide +kernel) (by decide +kernel))⟩

/-- States and operands that meet the premises of TimeStepsRatesAndSlews clause by clause. -/
theorem witness_TimeStepsRatesAndSlews :
    (∃ q l, Here (fun s => clocked s = true ∧ s.tsu.step = q :: l ∧ q.due ≤ s.tsu.now)
     ({ live with tsu.step := [{ due := 1600000000, relative := false, time := 0, offset := 0, ctx := none }] })) ∧
    (Here (fun s => ∀ q ∈ s.tsu.step, s.tsu.now < q.due)
     ({ live with tsu.step := [{ due := 1600000001, relative := false, time := 0, offset := 0, ctx := none }] })) ∧
    (∃ w, Here (fun s => s.tsu.slew = some w ∧ w.total ≤ w.done)
     ({ live with tsu.slew := some { offset := 5, total := 1600, done := 1600 } })) ∧
    (∃ w, Here (fun s => s.tsu.slew = some w ∧ w.done < w.total)
     ({ live with tsu.slew := some { offset := 5, total := 1600, done := 1599 } })) :=
  ⟨⟨{ due := 1600000000, relative := false, time := 0, offset := 0, ctx := none }, [], here_of (by decide +kernel)⟩,
   here_of (by decide +kernel),
   ⟨{ offset := 5, total := 1600, done := 1600 }, here_of (by decide +kernel)⟩,
   ⟨{ offset := 5, total := 1600, done := 1599 }, here_of (by decide +kernel)⟩⟩

/-- States and operands that meet the premises of PulsesMessagesAndReference clause by clause. -/
theorem witness_PulsesMessagesAndReference :
    (∃ rising phase held, Here (fun s => clocked s = true ∧ ppsFlag s 1 = true ∧ rising ≠ ppsFlag s 2 ∧ 100 ≤ held ∧ s.tsu.tods
     = [] ∧ ppsPlausible s (s.tsu.time + (phase * incNow s / 64 : Nat)) = true) ({ live with cfg.pps := some ppsAll })) ∧
    (∃ rising phase held q l, Here (fun s => clocked s = true ∧ ppsFlag s 1 = true ∧ rising ≠ ppsFlag s 2 ∧ 100 ≤ held ∧
     s.tsu.tods = q :: l ∧ q.ended + ms 10 ≤ s.tsu.now ∧ (ppsFlag s 4 = false ∨ s.tsu.sync ≠ .unset) ∧ ppsPlausible s
     (s.tsu.time + (phase * incNow s / 64 : Nat)) = true)
     ({ live with cfg.pps := some ppsAll, tsu.tods := [{ seconds := 5, ended := 1584000000, flags := 0, utc := 0 }] })) ∧
    (∃ rising phase held, Here (fun s => clocked s = true ∧ ppsFlag s 1 = true ∧ rising ≠ ppsFlag s 2 ∧ 100 ≤ held ∧
     ppsPlausible s (s.tsu.time + (phase * incNow s / 64 : Nat)) = false)
     ({ live with cfg.pps := some ppsAll, tsu.ppsEdge := some (1000000000 * 2 ^ 64) })) ∧
    (∃ rising held, Here (fun s => ppsFlag s 1 = false ∨ rising = ppsFlag s 2 ∨ held < 100)
     ({ live with cfg.pps := some ppsAll })) ∧
    (Here (fun s => clocked s = true ∧ ppsFlag s 5 = true ∧ s.tsu.ppsLost = false ∧ s.tsu.ppsEdgeCcyc + secs 3 ≤ s.tsu.now)
     ({ live with cfg.pps := some ppsAll, tsu.now := 4800000000 })) ∧
    (∃ m, Here (fun s => clocked s = true ∧ ppsFlag s 3 = true ∧ todValid m = true) ({ live with cfg.pps := some ppsAll })) ∧
    (∃ m, Here (fun s => clocked s = true ∧ ppsFlag s 3 = true ∧ todValid m = false) ({ live with cfg.pps := some ppsAll })) ∧
    (∃ b, Here (fun s => clocked s = true ∧ s.cfg.pps = some b ∧ bit b.ppsFlags 0 = true ∧ s.tsu.ppsOut = false ∧
     ((b.ppsOutOffset * nsUnit - s.tsu.time) % (secUnit : Int)).toNat < incNow s) ({ live with cfg.pps := some ppsAll })) ∧
    (∃ b, Here (fun s => clocked s = true ∧ s.cfg.pps = some b ∧ s.tsu.ppsOut = true ∧ s.tsu.ppsOutSince + (b.pulseWidth *
     nsUnit : Nat) < (s.tsu.time : Int) + incNow s) ({ live with cfg.pps := some ppsAll, tsu.ppsOut := true,
                                                                 tsu.ppsOutSince := 0 })) ∧
    (Here (fun s => clocked s = true ∧ s.tsu.refFault = false) (live)) ∧
    (Here (fun s => clocked s = true) ({ live with tsu.refFault := true })) :=
  ⟨⟨false, 63, 100, here_of (by decide +kernel)⟩,
   ⟨false, 0, 100, { seconds := 5, ended := 1584000000, flags := 0, utc := 0 }, [], here_of (by decide +kernel)⟩,
   ⟨false, 0, 100, here_of (by decide +kernel)⟩,
   ⟨false, 99, here_of (by decide +kernel)⟩,
   here_of (by decide +kernel),
   ⟨[0x5A, 0x54, 1, 1, 0, 0, 0, 0, 0, 2, 0, 0, 0, 0, 0x8F, 0xFD], here_of (by decide +kernel)⟩,
   ⟨[0x5A, 0x54, 1, 1, 0, 0, 0, 0, 0, 2, 0, 0, 0, 0, 0x8F, 0xFC], here_of (by decide +kernel)⟩,
   ⟨ppsAll, here_of (by decide +kernel)⟩,
   ⟨ppsAll, here_of (by decide +kernel)⟩,
   here_of (by decide +kernel),
   here_of (by decide +kernel)⟩

/-- States and operands that meet the premises of ClaimAndCompleteKeepTheStack clause by clause. -/
theorem witness_ClaimAndCompleteKeepTheStack :
    (∃ a n m l, Here (fun s => reaches a n s ∧ (target s n).presented = some (m, l))
     ({ live with cfg.irqTarget := [(31, { target := 31, accessId := 7, threshold := 0 })], cfg.irqSource := [(0xF00,
                  { source := 0xF00, priority := 3, target := 31, modTime := 0, sourceFlags := 0 })], jic.enable := [(0xF00,
                  true)], jic.levels := [(0xF00, [(0, true)])], jic.targets := [(31, { presented := some (0xF00, 5) })] })) ∧
    (∃ a n, Here (fun s => reaches a n s ∧ (target s n).presented = none)
     ({ live with cfg.irqTarget := [(31, { target := 31, accessId := 7, threshold := 0 })], jic.targets := [(31, {})] })) ∧
    (∃ a n m p r, Here (fun s => reaches a n s ∧ (target s n).stack = (m % 4096, p) :: r)
     ({ live with cfg.irqTarget := [(31, { target := 31, accessId := 7, threshold := 0 })], jic.targets := [(31,
                  { stack := [(0xF00, 3)] })] })) ∧
    (∃ a n m, Here (fun s => reaches a n s ∧ ∀ p r, (target s n).stack ≠ (m % 4096, p) :: r)
     ({ live with cfg.irqTarget := [(31, { target := 31, accessId := 7, threshold := 0 })], jic.targets := [(31,
                  { stack := [(0xF00, 3)] })] })) :=
  ⟨⟨7, 31, 0xF00, 5, here_of (⟨reaches_of { target := 31, accessId := 7, threshold := 0 } (by decide +kernel),
    by decide +kernel⟩)⟩,
   ⟨7, 31, here_of (⟨reaches_of { target := 31, accessId := 7, threshold := 0 } (by decide +kernel), by decide +kernel⟩)⟩,
   ⟨7, 31, 0xF00, 3, [], here_of (⟨reaches_of { target := 31, accessId := 7, threshold := 0 } (by decide +kernel),
    by decide +kernel⟩)⟩,
   ⟨7, 31, 0xF01, here_of (⟨reaches_of { target := 31, accessId := 7, threshold := 0 } (by decide +kernel), cons_ne (x := 0xF00)
    (p0 := 3) (by decide +kernel) (by decide)⟩)⟩⟩

/-- States and operands that meet the premises of EnablesSoftBitsAndTargetStates clause by clause. -/
theorem witness_EnablesSoftBitsAndTargetStates :
    (∃ a n m, Here (fun s => reaches a n s ∧ mayRoute s n (m % 4096) = true)
     ({ live with cfg.irqTarget := [(31, { target := 31, accessId := 7, threshold := 0 })], cfg.irqSource := [(0xF00,
                  { source := 0xF00, priority := 3, target := 31, modTime := 0, sourceFlags := 0 }), (0xFDF,
                  { source := 0xFDF, priority := 3, target := 31, modTime := 0, sourceFlags := 0 })] })) ∧
    (∃ a n m, Here (fun s => reaches a n s ∧ mayRoute s n (m % 4096) = true)
     ({ live with cfg.irqTarget := [(31, { target := 31, accessId := 7, threshold := 0 })], cfg.irqSource := [(0xF00,
                  { source := 0xF00, priority := 3, target := 31, modTime := 0, sourceFlags := 0 }), (0xFDF,
                  { source := 0xFDF, priority := 3, target := 31, modTime := 0, sourceFlags := 0 })] })) ∧
    (∃ a n m, Here (fun s => reaches a n s ∧ mayRoute s n (m % 4096) = true ∧ 0xF00 ≤ m % 4096 ∧ m % 4096 ≤ 0xFDF)
     ({ live with cfg.irqTarget := [(31, { target := 31, accessId := 7, threshold := 0 })], cfg.irqSource := [(0xF00,
                  { source := 0xF00, priority := 3, target := 31, modTime := 0, sourceFlags := 0 }), (0xFDF,
                  { source := 0xFDF, priority := 3, target := 31, modTime := 0, sourceFlags := 0 })] })) ∧
    (∃ a n m, Here (fun s => reaches a n s ∧ mayRoute s n (m % 4096) = true ∧ 0xF00 ≤ m % 4096 ∧ m % 4096 ≤ 0xFDF)
     ({ live with cfg.irqTarget := [(31, { target := 31, accessId := 7, threshold := 0 })], cfg.irqSource := [(0xF00,
                  { source := 0xF00, priority := 3, target := 31, modTime := 0, sourceFlags := 0 }), (0xFDF,
                  { source := 0xFDF, priority := 3, target := 31, modTime := 0, sourceFlags := 0 })] })) ∧
    (∃ a n m, Here (fun s => reaches a n s ∧ mayRoute s n (m % 4096) = false)
     ({ live with cfg.irqTarget := [(31, { target := 31, accessId := 7, threshold := 0 })], cfg.irqSource := [(0xF00,
                  { source := 0xF00, priority := 3, target := 31, modTime := 0, sourceFlags := 0 }), (0xFDF,
                  { source := 0xFDF, priority := 3, target := 31, modTime := 0, sourceFlags := 0 })] })) ∧
    (∃ n, Here (fun s => tgetD s.jic.modDue n 0 ≤ s.tsu.now) ({ live with jic.modDue := [(3, 1600000000)] })) ∧
    (∃ n v, Here (fun s => clocked s = true ∧ n < 32 ∧ v ≠ 3) (live)) ∧
    (∃ n, Here (fun s => clocked s = true ∧ n < 32) (live)) :=
  ⟨⟨7, 31, 0xF00, here_of (⟨reaches_of { target := 31, accessId := 7, threshold := 0 } (by decide +kernel), by decide +kernel⟩)⟩,
   ⟨7, 31, 0xF00, here_of (⟨reaches_of { target := 31, accessId := 7, threshold := 0 } (by decide +kernel), by decide +kernel⟩)⟩,
   ⟨7, 31, 0xF00, here_of (⟨reaches_of { target := 31, accessId := 7, threshold := 0 } (by decide +kernel), by decide +kernel⟩)⟩,
   ⟨7, 31, 0xFDF, here_of (⟨reaches_of { target := 31, accessId := 7, threshold := 0 } (by decide +kernel), by decide +kernel⟩)⟩,
   ⟨7, 31, 0xF01, here_of (⟨reaches_of { target := 31, accessId := 7, threshold := 0 } (by decide +kernel), by decide +kernel⟩)⟩,
   ⟨3, here_of (by decide +kernel)⟩,
   ⟨31, 2, here_of (by decide +kernel)⟩,
   ⟨31, here_of (by decide +kernel)⟩⟩

/-- States and operands that meet the premises of DoorbellsMoveValidIndices clause by clause. -/
theorem witness_DoorbellsMoveValidIndices :
    (∃ a k n p, Here (fun s => rings a k n s ∧ newProducer (ringLog s (k * 256 + n)) (ringOf s (k * 256 + n)) s.tsu.now p)
     ({ live with cfg.ring := [(1, { ringCfg1 with ring := 1 })], hpe.rings := [(1,
                  { state := 1, p := 3, c := 1, a := 0, w := 2 })] })) ∧
    (∃ a k n p q, Here (fun s => rings a k n s ∧ newProducer (ringLog s (k * 256 + n)) (ringOf s (k * 256 + n)) s.tsu.now p ∧
     newAck (ringLog s (k * 256 + n)) (ringOf s (k * 256 + n)) q)
     ({ live with cfg.ring := [(1, { ringCfg1 with ring := 1 })], hpe.rings := [(1,
                  { state := 2, p := 3, c := 1, a := 0, w := 2 })] })) ∧
    (∃ a k n q, Here (fun s => rings a k n s ∧ newAck (ringLog s (k * 256 + n)) (ringOf s (k * 256 + n)) q)
     ({ live with cfg.ring := [(1, { ringCfg1 with ring := 1 })], hpe.rings := [(1,
                  { state := 2, p := 3, c := 1, a := 0, w := 2 })] })) ∧
    (∃ a k n, Here (fun s => accountable a s ∧ ringPage k n = true ∧ ringOwner s (k * 256 + n) a = true ∧ (ringOf s (k * 256 +
     n)).state ≠ 1 ∧ (ringOf s (k * 256 + n)).state ≠ 2)
     ({ live with cfg.ring := [(1, { ringCfg1 with ring := 1 })], hpe.rings := [(1,
                  { state := 3, p := 3, c := 1, a := 0, w := 2 })] })) ∧
    (∃ a k n, Here (fun s => accountable a s ∧ ringPage k n = true ∧ ringOwner s (k * 256 + n) a = false)
     ({ live with cfg.ring := [(1, { ringCfg1 with ring := 1 })], hpe.rings := [(1,
                  { state := 2, p := 3, c := 1, a := 0, w := 2 })] })) ∧
    (∃ a k n, Here (fun s => accountable a s ∧ s.mode.stage = .run ∧ ringPage k n = true ∧ thas s.cfg.ring (k * 256 + n) = false
     ∧ ((accOf s a).times.filter (fun x => s.tsu.now < x + secs 1)).length + 1 < violationLimit s a)
     ({ live with cfg.policy := [(7, 0x20)] })) :=
  ⟨⟨9, 0, 1, 65537, here_of (by unfold newProducer rings; decide +kernel)⟩,
   ⟨9, 0, 1, 3, 2, here_of (by unfold newProducer newAck rings; decide +kernel)⟩,
   ⟨9, 0, 1, 0, here_of (by unfold newAck rings; decide +kernel)⟩,
   ⟨9, 0, 1, here_of (by unfold accountable; decide +kernel)⟩,
   ⟨8, 0, 1, here_of (by unfold accountable; decide +kernel)⟩,
   ⟨7, 0, 255, here_of (by unfold accountable; decide +kernel)⟩⟩

/-- States and operands that meet the premises of AccessesAreAnsweredOrViolate clause by clause. -/
theorem witness_AccessesAreAnsweredOrViolate :
    (∃ a off v, Here (fun s => clocked s = true ∧ accFrozen s a = false ∧ off % 8 = 0 ∧ spotAt s off = .status none v ∧
     statusRead s a = true) ({ live with cfg.policy := [(7, 1)] })) ∧
    (∃ a off, Here (fun s => accountable a s ∧ spotAt s off = .sealed) (live)) ∧
    (∃ a off, Here (fun s => accountable a s ∧ spotAt s off = .unmapped) (live)) ∧
    (∃ a off, Here (fun s => accountable a s ∧ spotAt s off = .sealed) (live)) ∧
    (∃ a off o v, Here (fun s => accountable a s ∧ spotAt s off = .status o v) (live)) ∧
    (∃ a off, Here (fun s => clocked s = true ∧ accFrozen s a = true ∧ spotAt s off = .unmapped)
     ({ live with acc := [(7, { frozen := true })] })) :=
  ⟨⟨7, 0x10, 0x11223344, here_of (by decide +kernel)⟩,
   ⟨7, 0x2000000, here_of (by unfold accountable; decide +kernel)⟩,
   ⟨7, 0x30, here_of (by unfold accountable; decide +kernel)⟩,
   ⟨7, 0x2000000, here_of (by unfold accountable; decide +kernel)⟩,
   ⟨7, 0x10, none, 0x11223344, here_of (by unfold accountable; decide +kernel)⟩,
   ⟨7, 0x30, here_of (by decide +kernel)⟩⟩

/-- States and operands that meet the premises of PowerUpReachesBoot clause by clause. -/
theorem witness_PowerUpReachesBoot :
    (Here (fun s => s.mode.stage = .off) (State.reset)) ∧
    (Here (fun s => s.mode.stage = .brim) ({ mode :=
                                               { stage := .brim, coreRstN := false, coreGood := true, sramGood := true,
                                                 pwrReq := true } })) ∧
    (Here (fun s => s.mode.stage = .brim) ({ mode :=
                                               { stage := .brim, coreRstN := false, coreGood := true, sramGood := true,
                                                 pwrReq := true } })) ∧
    (Here (fun s => railsUp s) ({ mode := { stage := .brim, coreRstN := true, coreGood := true, sramGood := true,
                                            pwrReq := true } })) ∧
    (Here (fun s => ¬ railsUp s) ({ mode := { stage := .brim, coreRstN := false, coreGood := true, sramGood := true,
                                              pwrReq := true } })) :=
  ⟨here_of (by decide +kernel),
   here_of (by decide +kernel),
   here_of (by decide +kernel),
   here_of (by unfold railsUp; decide +kernel),
   here_of (by unfold railsUp; decide +kernel)⟩

/-- States and operands that meet the premises of BootEndsInLocked clause by clause. -/
theorem witness_BootEndsInLocked :
    (∃ f, Here (fun s => s.mode.stage = .boot ∧ bit s.mode.bootStatus 1 = false ∧ bootBits f s % 128 = 0 ∧ s.mode.fuseBad =
     false ∧ f.fusesEqual = true ∧ lifecycle s ≠ 4 ∧ s.dbg.input = false ∧ f.pools.all (fun e => poolOk e.1) = true)
     ({ fuses := { groupPresent := 1 }, mode := { stage := .boot, coreRstN := true, coreGood := true, sramGood := true,
                                                  pwrReq := true, bootStatus := 0 } })) ∧
    (∃ f, Here (fun s => s.mode.stage = .boot ∧ bit s.mode.bootStatus 1 = false ∧ bootBits f s % 128 ≠ 0)
     ({ mode := { stage := .boot, coreRstN := true, coreGood := true, sramGood := true, pwrReq := true, bootStatus := 0 } })) ∧
    (Here (fun s => s.mode.stage ≠ .boot ∨ bit s.mode.bootStatus 1 = true)
     ({ mode := { stage := .boot, coreRstN := true, coreGood := true, sramGood := true, pwrReq := true, bootStatus := 2 } })) :=
  ⟨⟨goodBoot, here_of (by decide +kernel)⟩,
   ⟨{ goodBoot with pufOk := false }, here_of (by decide +kernel)⟩,
   here_of (by decide +kernel)⟩

/-- States and operands that meet the premises of PowerLossRetainsOnlyItsDomain clause by clause. -/
theorem witness_PowerLossRetainsOnlyItsDomain :
    (Here (fun s => s.mode.stage ≠ .off) (live)) ∧
    (Here (fun s => s.mode.stage = .off) (State.reset)) ∧
    (Here (fun _ => True) (live)) :=
  ⟨here_of (by decide +kernel),
   here_of (by decide +kernel),
   here_of (by decide +kernel)⟩

/-- States and operands that meet the premises of ModesAndDrains clause by clause. -/
theorem witness_ModesAndDrains :
    (∃ d, Here (fun s => clocked s = true ∧ s.mode.drain = some d ∧ (drainList d).all (portDrained s) = true)
     ({ live with mode.drain := some { ports := 1, next := .lean, start := 0 }, cfg.port := [(0, p25)] })) ∧
    (∃ d, Here (fun s => s.mode.drain = some d ∧ (drainList d).all (portDrained s) = false)
     ({ live with mode.drain := some { ports := 1, next := .lean, start := 0 }, cfg.port := [(0, p25)], esh.used := [(0,
                  64)] })) ∧
    (∃ d, Here (fun s => clocked s = true ∧ s.mode.drain = some d ∧ d.start + secs 1 ≤ s.tsu.now)
     ({ live with mode.drain := some { ports := 1, next := .lean, start := 0 } })) ∧
    (∃ d, Here (fun s => s.mode.drain = some d ∧ s.tsu.now < d.start + secs 1)
     ({ live with mode.drain := some { ports := 1, next := .lean, start := 1 } })) :=
  ⟨⟨{ ports := 1, next := .lean, start := 0 }, here_of (by decide +kernel)⟩,
   ⟨{ ports := 1, next := .lean, start := 0 }, here_of (by decide +kernel)⟩,
   ⟨{ ports := 1, next := .lean, start := 0 }, here_of (by decide +kernel)⟩,
   ⟨{ ports := 1, next := .lean, start := 1 }, here_of (by decide +kernel)⟩⟩

/-- States and operands that meet the premises of GroupsGateAndWake clause by clause. -/
theorem witness_GroupsGateAndWake :
    (∃ g, Here (fun s => clocked s = true ∧ groupState s g = .gating) ({ live with groups := [(5, { state := .gating })] })) ∧
    (∃ g, Here (fun s => groupState s g ≠ .gating) ({ live with groups := [(5, { state := .powered })] })) ∧
    (∃ g, Here (fun s => clocked s = true ∧ s.mode.zeroized = false ∧ wakeCauseOf s g = true ∧ waking s < 4 ∧ (List.range g).any
     (wakeCauseOf s) = false) ({ live with cfg.port := [(80, { p25 with port := 80 })], groups := [(5,
                                           { state := .gated, cause := true })] })) ∧
    (∃ g, Here (fun s => wakeCauseOf s g = false ∨ 4 ≤ waking s) ({ live with groups := [(5, { state := .gated })] })) ∧
    (∃ g, Here (fun s => clocked s = true ∧ groupState s g = .waking ∧ (groupSt s g).gateNext = false)
     ({ live with groups := [(5, { state := .waking })] })) ∧
    (∃ g, Here (fun s => clocked s = true ∧ groupState s g = .waking) ({ live with groups := [(5, { state := .waking })] })) ∧
    (∃ g, Here (fun s => clocked s = true ∧ s.mode.base = .lean ∧ policyOfGroup s.cfg g = 0 ∧ noneUp s g = true ∧ (groupSt s
     g).probeEnd = none ∧ max (groupSt s g).lastUp (groupSt s g).since + idleTime (wakeFlags s.cfg g) ≤ s.tsu.now ∧ groupState s
     g = .powered) ({ live with mode.base := .lean, groups := [(5, { state := .powered })] })) ∧
    (∃ g, Here (fun s => s.mode.base ≠ .lean ∨ noneUp s g = false) ({ live with groups := [(5, { state := .powered })] })) ∧
    (∃ g, Here (fun s => clocked s = true ∧ s.mode.base = .lean ∧ required s g = true ∧ groupState s g = .gated ∧ probePeriod
     (wakeFlags s.cfg g) ≠ 0 ∧ (groupSt s g).since + probePeriod (wakeFlags s.cfg g) ≤ s.tsu.now)
     ({ live with mode.base := .lean, cfg.port := [(80, { p25 with port := 80 })], cfg.wake := [(5, 0x08)], groups := [(5,
                  { state := .gated })] })) ∧
    (∃ g e, Here (fun s => clocked s = true ∧ groupState s g = .powered ∧ (groupSt s g).probeEnd = some e ∧ e ≤ s.tsu.now)
     ({ live with mode.base := .lean, groups := [(5, { state := .powered, probeEnd := some 1600000000 })] })) :=
  ⟨⟨5, here_of (by decide +kernel)⟩,
   ⟨5, here_of (by decide +kernel)⟩,
   ⟨5, here_of (by decide +kernel)⟩,
   ⟨5, here_of (by decide +kernel)⟩,
   ⟨5, here_of (by decide +kernel)⟩,
   ⟨5, here_of (by decide +kernel)⟩,
   ⟨5, here_of (by decide +kernel)⟩,
   ⟨5, here_of (by decide +kernel)⟩,
   ⟨5, here_of (by decide +kernel)⟩,
   ⟨5, 1600000000, here_of (by decide +kernel)⟩⟩

/-- States and operands that meet the premises of LanesHoldTheirInputs clause by clause. -/
theorem witness_LanesHoldTheirInputs :
    (Here (fun _ => True) (live)) ∧
    (Here (fun _ => True) (live)) ∧
    (Here (fun _ => True) (live)) ∧
    (∃ n h, Here (fun s => sdFilter s.cfg n ≤ h) (live)) ∧
    (∃ n h, Here (fun s => h < sdFilter s.cfg n) (live)) ∧
    (∃ n h, Here (fun s => s.mode.stage ≠ .off ∧ sdFilter s.cfg n ≤ h) (live)) ∧
    (∃ n h, Here (fun s => s.mode.stage ≠ .off ∧ h < sdFilter s.cfg n ∧ clocked s = true ∧ bit (laneFlags s.cfg n) 4 = false ∧
     (512 ≤ n ∨ groupState s (groupOf n) ≠ .gated)) (live)) ∧
    (∃ n h, Here (fun s => h < sdFilter s.cfg n ∧ (bit (laneFlags s.cfg n) 4 = true ∨ n < 512 ∧ groupState s (groupOf n) =
     .gated)) ({ live with groups := [(0, { state := .gated })] })) ∧
    (∃ n, Here (fun s => clocked s = true ∧ (laneOf s n).clockFault = false) (live)) ∧
    (∃ n, Here (fun s => (laneOf s n).clockFault = true) ({ live with lanes := [(3, { clockFault := true })] })) ∧
    (∃ n, Here (fun s => (laneOf s n).rxLock = true) ({ live with lanes := [(3, { rxLock := true, clockFault := true })] })) ∧
    (∃ n e, Here (fun s => (laneOf s n).dropUntil = some e ∧ e ≤ s.tsu.now)
     ({ live with lanes := [(3, { dropUntil := some 1600000000 })] })) :=
  ⟨here_of (by decide +kernel),
   here_of (by decide +kernel),
   here_of (by decide +kernel),
   ⟨3, 1600000, here_of (by decide +kernel)⟩,
   ⟨3, 0, here_of (by decide +kernel)⟩,
   ⟨3, 1600000, here_of (by decide +kernel)⟩,
   ⟨3, 0, here_of (by decide +kernel)⟩,
   ⟨3, 0, here_of (by decide +kernel)⟩,
   ⟨3, here_of (by decide +kernel)⟩,
   ⟨3, here_of (by decide +kernel)⟩,
   ⟨3, here_of (by decide +kernel)⟩,
   ⟨3, 1600000000, here_of (by decide +kernel)⟩⟩

/-- States and operands that meet the premises of LinksFollowTheirTable clause by clause. -/
theorem witness_LinksFollowTheirTable :
    (∃ p page, Here (fun s => portLive s p ∧ (portOf s p).link = .an ∧ sameAbility (portOf s p).page page = true)
     ({ live with cfg.port := [(0, p25)], ports := [(0, { link := .an, page := { abilities := [1], fecs := [0] } })] })) ∧
    (∃ p page, Here (fun s => portLive s p ∧ (portOf s p).link = .an ∧ sameAbility (portOf s p).page page = false)
     ({ live with cfg.port := [(0, p25)], ports := [(0, { link := .an, page := { abilities := [1], fecs := [0] } })] })) ∧
    (∃ p, Here (fun s => portLive s p ∧ (portOf s p).link = .anIncompatible ∧ (portOf s p).since + ms 50 ≤ s.tsu.now)
     ({ live with cfg.port := [(0, p25)], ports := [(0, { link := .anIncompatible })] })) ∧
    (∃ p, Here (fun s => portLive s p ∧ (portOf s p).link = .training ∧ (portOf s p).since + Config.trainWait (modeOf s p) ≤
     s.tsu.now) ({ live with cfg.port := [(0, p25)], ports := [(0, { link := .training })], tsu.now := Config.trainWait 1 })) ∧
    (∃ p, Here (fun s => portLive s p ∧ (portOf s p).link = .training ∧ (portLanes s.cfg p).all (fun n => (laneOf s
     n).ltRxReady) = true) ({ live with cfg.port := [(0, p25)], ports := [(0, { link := .training })], lanes := [(0,
                                        { ltRxReady := true })] })) ∧
    (∃ (p : _) (o : _) (l : List Nat), Here (fun s => portLive s p ∧ (portOf s p).link = .aligning ∧ (∀ k ∈ l, k ≤ skewLimit) ∧
     laneOrder (portLanes s.cfg p).length (if hasMarkers (modeOf s p) then o else [0]) = true)
     ({ live with cfg.port := [(0, p25)], ports := [(0, { link := .aligning })] })) ∧
    (∃ (p : _) (o : _) (l : List Nat), Here (fun s => portLive s p ∧ (portOf s p).link = .aligning ∧ (∀ k ∈ l, k ≤ skewLimit) ∧
     laneOrder (portLanes s.cfg p).length (if hasMarkers (modeOf s p) then o else [0]) = true)
     ({ live with cfg.port := [(0, p25)], ports := [(0, { link := .aligning })] })) ∧
    (∃ (p : _) (o : _) (l : List Nat), Here (fun s => (∃ k ∈ l, skewLimit < k) ∨ (hasMarkers (modeOf s p) = true ∧ laneOrder
     (portLanes s.cfg p).length o = false)) (live)) ∧
    (∃ p, Here (fun s => portLive s p ∧ (portOf s p).link = .aligning ∧ (portOf s p).since + ms 100 ≤ s.tsu.now)
     ({ live with cfg.port := [(0, p25)], ports := [(0, { link := .aligning })] })) ∧
    (∃ p, Here (fun s => portLive s p ∧ ((portOf s p).link = .up ∨ (portOf s p).link = .remoteFault))
     ({ live with cfg.port := [(0, p25)], ports := [(0, { link := .remoteFault })] })) ∧
    (∃ p e, Here (fun s => portLive s p ∧ (portOf s p).link = .localFault ∧ (portOf s p).faultAt = some e ∧ e + downHold s.cfg p
     ≤ s.tsu.now) ({ live with cfg.port := [(0, p25)], ports := [(0, { link := .localFault, faultAt := some 0 })] })) ∧
    (∃ p e, Here (fun s => portLive s p ∧ (portOf s p).link = .localFault ∧ (portOf s p).faultAt = some e ∧ s.tsu.now < e +
     downHold s.cfg p ∧ lanesLive s p = true ∧ (portOf s p).highErr = false)
     ({ live with cfg.port := [(0, { p25 with portFlags := 0x0020 })], ports := [(0,
                  { link := .localFault, faultAt := some 1600000000 })], lanes := [(0, { sd := true, rxLock := true })] })) ∧
    (∃ p e, Here (fun s => portLive s p ∧ (portOf s p).link = .localFault ∧ (portOf s p).faultAt = some e ∧ e + downHold s.cfg p
     ≤ s.tsu.now) ({ live with cfg.port := [(0, p25)], ports := [(0, { link := .localFault, faultAt := some 0 })] })) ∧
    (∃ p, Here (fun s => portLive s p ∧ (portOf s p).link = .up)
     ({ live with cfg.port := [(0, p25)], ports := [(0, { link := .up })] })) ∧
    (∃ p, Here (fun s => portLive s p ∧ (portOf s p).link = .remoteFault)
     ({ live with cfg.port := [(0, p25)], ports := [(0, { link := .remoteFault })] })) ∧
    (∃ p n, Here (fun s => portLive s p ∧ (portOf s p).verify = .running n ∧ (portOf s p).verifyDue = false ∧ n < 3 ∧ (portOf s
     p).verifyAt + ms (preemptCfg s.cfg p).verify ≤ s.tsu.now)
     ({ live with cfg.port := [(0, p25)], ports := [(0, { link := .up, verify := .running 2 })] })) ∧
    (∃ p n, Here (fun s => portLive s p ∧ (portOf s p).verify = .running n ∧ (portOf s p).verifyDue = false ∧ 3 ≤ n ∧ (portOf s
     p).verifyAt + ms (preemptCfg s.cfg p).verify ≤ s.tsu.now)
     ({ live with cfg.port := [(0, p25)], ports := [(0, { link := .up, verify := .running 3 })] })) :=
  ⟨⟨0, { abilities := [0x10, 1], fecs := [0] }, here_of (by unfold portLive; decide +kernel)⟩,
   ⟨0, { abilities := [0x10], fecs := [0] }, here_of (by unfold portLive; decide +kernel)⟩,
   ⟨0, here_of (by unfold portLive; decide +kernel)⟩,
   ⟨0, here_of (by refine ⟨⟨?_, ?_, ?_⟩, ?_, Nat.le_of_eq (Nat.zero_add _)⟩ <;> decide +kernel)⟩,
   ⟨0, here_of (by unfold portLive; decide +kernel)⟩,
   ⟨0, [0], [skewLimit], here_of (by unfold portLive; decide +kernel)⟩,
   ⟨0, [0], [skewLimit], here_of (by unfold portLive; decide +kernel)⟩,
   ⟨0, [0], [skewLimit + 1], here_of (by decide +kernel)⟩,
   ⟨0, here_of (by unfold portLive; decide +kernel)⟩,
   ⟨0, here_of (by unfold portLive; decide +kernel)⟩,
   ⟨0, 0, here_of (by unfold portLive; decide +kernel)⟩,
   ⟨0, 1600000000, here_of (by unfold portLive; decide +kernel)⟩,
   ⟨0, 0, here_of (by unfold portLive; decide +kernel)⟩,
   ⟨0, here_of (by unfold portLive; decide +kernel)⟩,
   ⟨0, here_of (by unfold portLive; decide +kernel)⟩,
   ⟨0, 2, here_of (by unfold portLive; decide +kernel)⟩,
   ⟨0, 3, here_of (by unfold portLive; decide +kernel)⟩⟩

/-- States and operands that meet the premises of ErrorsAreRecordedAndContained clause by clause. -/
theorem witness_ErrorsAreRecordedAndContained :
    (∃ u f, Here (fun s => clocked s = true ∧ (errUnit s u).first = some f ∧ f.ccyc + ms 10 ≤ s.tsu.now)
     ({ live with err.units := [(4, { first := some { ccyc := 1584000000 } })] })) ∧
    (∃ u, Here (fun s => ∀ f, (errUnit s u).first = some f → s.tsu.now < f.ccyc + ms 10)
     ({ live with err.units := [(4, { first := some { ccyc := 1584000001 } })] })) ∧
    (Here (fun s => clocked s = true ∧ ∃ w ∈ recentWrites s, w.1 + us 100 ≤ s.tsu.now)
     ({ live with err.writes := [(1599840000, 0)] })) ∧
    (Here (fun s => ∀ w ∈ recentWrites s, s.tsu.now < w.1 + us 100) ({ live with err.writes := [(1599840001, 0)] })) ∧
    (Here (fun s => clocked s = true ∧ recentWrites s ≠ []) ({ live with err.writes := [(1599840001, 0)] })) ∧
    (Here (fun s => clocked s = true) (live)) ∧
    (Here (fun s => clocked s = true) (live)) ∧
    (Here (fun s => clocked s = true) (live)) ∧
    (Here (fun s => clocked s = true) (live)) ∧
    (∃ g, Here (fun s => clocked s = true ∧ g < 32) (live)) ∧
    (Here (fun s => clocked s = true) (live)) ∧
    (Here (fun s => clocked s = true ∧ s.mode.stage = .run ∧ s.mode.zeroized = false) (live)) ∧
    (Here (fun s => clocked s = true ∧ s.cpx.activation = none) ({ live with cpx.restart := some 0 })) ∧
    (Here (fun s => s.cpx.activation ≠ none) ({ live with cpx.activation := some { since := 0, restarting := true },
                                                          cpx.restart := some 0 })) :=
  ⟨⟨4, { ccyc := 1584000000 }, here_of (by decide +kernel)⟩,
   ⟨4, here_of (some_all { ccyc := 1584000001 } (by decide +kernel) (by decide +kernel))⟩,
   here_of (by decide +kernel),
   here_of (by decide +kernel),
   here_of (by decide +kernel),
   here_of (by decide +kernel),
   here_of (by decide +kernel),
   here_of (by decide +kernel),
   here_of (by decide +kernel),
   ⟨31, here_of (by decide +kernel)⟩,
   here_of (by decide +kernel),
   here_of (by decide +kernel),
   here_of (by decide +kernel),
   here_of (by decide +kernel)⟩

/-- States and operands that meet the premises of HostResponsesAreTaken clause by clause. -/
theorem witness_HostResponsesAreTaken :
    (Here (fun s => clocked s = true ∧ s.dbg.pounce = []) (live)) ∧
    (Here (fun s => clocked s = true) (live)) :=
  ⟨here_of (by decide +kernel),
   here_of (by decide +kernel)⟩

/-- States and operands that meet the premises of FirmwareIsStagedAndActivated clause by clause. -/
theorem witness_FirmwareIsStagedAndActivated :
    (∃ a, Here (fun s => clocked s = true ∧ s.cpx.activation = some a ∧ a.restarting = true)
     ({ live with cpx.activation := some { since := 0, restarting := true } })) ∧
    (∃ a, Here (fun s => clocked s = true ∧ s.cpx.activation = some a ∧ a.restarting = true)
     ({ live with cpx.activation := some { since := 0, restarting := true } })) :=
  ⟨⟨{ since := 0, restarting := true }, here_of (by decide +kernel)⟩,
   ⟨{ since := 0, restarting := true }, here_of (by decide +kernel)⟩⟩

/-- States and operands that meet the premises of TokensAndPerturbations clause by clause. -/
theorem witness_TokensAndPerturbations :
    (Here (fun s => s.dbg.level ≠ .closed ∧ tokenExpired s = true ∧ s.dbg.freeze = none)
     ({ live with dbg.level := .opened, dbg.expiry := 1 })) ∧
    (Here (fun s => tokenExpired s = false) ({ live with dbg.level := .opened, dbg.expiry := 2 })) ∧
    (Here (fun s => clocked s = true) (live)) :=
  ⟨here_of (by decide +kernel),
   here_of (by decide +kernel),
   here_of (by decide +kernel)⟩

/-- States and operands that meet the premises of FreezesStopTheClocks clause by clause. -/
theorem witness_FreezesStopTheClocks :
    (Here (fun s => s.mode.stage = .run ∧ s.mode.zeroized = false ∧ freezeAllowed s = true ∧ s.dbg.freeze = none)
     ({ live with dbg.level := .observe, dbg.freezePermit := true })) ∧
    (Here (fun s => s.mode.stage = .run ∧ s.mode.zeroized = false ∧ freezeAllowed s = false)
     ({ live with dbg.level := .observe })) ∧
    (∃ q f, Here (fun s => s.dbg.freeze = some f ∧ s.dbg.frozen = false ∧ q ≤ 4096 ∧ f.f + q = s.tsu.now ∧ s.dbg.level ≠
     .closed) ({ live with dbg.level := .opened, dbg.freeze := some { f := 1599995904, byInput := true, time := 0 } })) ∧
    (Here (fun s => s.mode.stage ≠ .off ∧ ∀ f, s.dbg.freeze = some f → f.byInput = false)
     ({ live with dbg.level := .opened, dbg.freeze := some { f := 1599995904, byInput := false, time := 0 } })) ∧
    (∃ f, Here (fun s => s.mode.stage ≠ .off ∧ s.dbg.freeze = some f ∧ f.byInput = true)
     ({ live with dbg.level := .opened, dbg.freeze := some { f := 1599995904, byInput := true, time := 0 } })) ∧
    (∃ f, Here (fun s => s.mode.stage ≠ .off ∧ s.dbg.freeze = some f ∧ f.byInput = true ∧ ∀ e ∈ s.cfg.port, portPowered s e.1 =
     false) ({ live with cfg.port := [(16, { p25 with port := 16 })], dbg.level := .opened,
                         dbg.freeze := some { f := 1599995904, byInput := true, time := 0 } })) :=
  ⟨here_of (by decide +kernel),
   here_of (by decide +kernel),
   ⟨4096, { f := 1599995904, byInput := true, time := 0 }, here_of (by decide +kernel)⟩,
   here_of (⟨by decide +kernel, some_all ({ f := 1599995904, byInput := false, time := 0 }) (by decide +kernel) (by
    decide +kernel)⟩),
   ⟨{ f := 1599995904, byInput := true, time := 0 }, here_of (by decide +kernel)⟩,
   ⟨{ f := 1599995904, byInput := true, time := 0 }, here_of (by decide +kernel)⟩⟩

/-- States and operands that meet the premises of TapInstructionsShift clause by clause. -/
theorem witness_TapInstructionsShift :
    (Here (fun s => s.mode.stage = .run ∨ s.mode.stage = .boot) (live)) ∧
    (Here (fun s => s.mode.stage = .run ∨ s.mode.stage = .boot) (live)) ∧
    (Here (fun s => s.mode.stage = .run ∧ s.mode.zeroized = false) (live)) ∧
    (Here (fun s => s.mode.stage = .run ∧ s.mode.zeroized = false ∧ s.dbg.level = .closed) (live)) ∧
    (Here (fun s => s.mode.stage = .run ∧ s.mode.zeroized = false ∧ s.dbg.freeze.isSome = true)
     ({ live with dbg.level := .opened, dbg.freeze := some { f := 1599995904, byInput := true, time := 0 } })) ∧
    (Here (fun s => s.mode.stage = .run ∧ s.mode.zeroized = false ∧ s.dbg.freeze.isSome = true ∧ ∀ e ∈ s.cfg.port, portPowered s
     e.1 = false) ({ live with cfg.port := [(16, { p25 with port := 16 })], dbg.level := .opened,
                               dbg.freeze := some { f := 1599995904, byInput := true, time := 0 } })) ∧
    (∃ v, Here (fun s => s.mode.stage = .run ∧ s.mode.zeroized = false ∧ v ≠ 0x5245534D) (live)) ∧
    (Here (fun s => s.mode.stage ≠ .off) (live)) ∧
    (Here (fun s => s.mode.stage = .brim) ({ mode :=
                                               { stage := .brim, coreRstN := false, coreGood := true, sramGood := true,
                                                 pwrReq := true } })) ∧
    (Here (fun s => s.mode.stage = .off) (State.reset)) :=
  ⟨here_of (by decide +kernel),
   here_of (by decide +kernel),
   here_of (by decide +kernel),
   here_of (by decide +kernel),
   here_of (by decide +kernel),
   here_of (by decide +kernel),
   ⟨0, here_of (by decide +kernel)⟩,
   here_of (by decide +kernel),
   here_of (by decide +kernel),
   here_of (by decide +kernel)⟩

/-- States and operands that meet the premises of WorkersJoinTheirManager clause by clause. -/
theorem witness_WorkersJoinTheirManager :
    (∃ k, Here (fun s => hlkRuns s = true ∧ roleOf s = 2 ∧ s.hlk.manager = none ∧ s.hlk.helloAt ≤ s.tsu.now ∧ lowestManager s =
     some k) ({ live with cfg.role := some { role := 2, inst := 5 }, cfg.port := [(0, p25)], cfg.hlkPort := [(0, 1)] })) ∧
    (∃ (h : HlkHead) (d : _) (k : _), Here (fun s => hlkRuns s = true ∧ h.version = 1 ∧ h.rsvOk = true ∧ h.src ≤ 63 ∧ h.dst =
     0x80 ∧ h.port ∈ hlkPorts s.cfg ∧ roleOf s = 1 ∧ h.src ≠ instOf s ∧ tget s.hlk.workers h.src = none ∧ lowestManager s = some
     k ∧ keyDigest k = d) ({ live with cfg.role := some { role := 1, inst := 3 }, cfg.port := [(0, p25)], cfg.hlkPort := [(0,
                                       1)] })) ∧
    (∃ h b k, Here (fun s => hlkRuns s = true ∧ s.hlk.manager = none ∧ roleOf s = 2 ∧ headOk h s = true ∧ h.src ≠ instOf s ∧
     h.seq ≠ 0 ∧ s.hlk.nonce = some b ∧ lowestManager s = some k ∧ h.tagOk = true)
     ({ live with cfg.role := some { role := 2, inst := 5 }, cfg.port := [(0, p25)], cfg.hlkPort := [(0, 1)],
                  hlk.nonce := some 9 })) ∧
    (∃ h k w, Here (fun s => hlkRuns s = true ∧ roleOf s = 1 ∧ headOk h s = true ∧ h.tagOk = true ∧ h.seq ≠ 0 ∧ lowestManager s
     = some k ∧ tget s.hlk.workers h.src = some w ∧ w.mgrNonce ≠ 0 ∧ w.port = h.port ∧ w.mac = h.srcMac)
     ({ live with cfg.role := some { role := 1, inst := 3 }, cfg.port := [(0, p25)], cfg.hlkPort := [(0, 1)],
                  hlk.workers := [(5, { mgrNonce := 4, mac := 1 })] })) :=
  ⟨⟨mgrKey, here_of (by decide +kernel)⟩,
   ⟨{ port := 0, srcMac := 1, src := 5, dst := 0x80, seq := 0 }, keyDigest mgrKey, mgrKey,
    here_of (by
      refine ⟨?_, ?_, ?_, ?_, ?_, ?_, ?_, ?_, ?_, ?_, rfl⟩ <;> decide +kernel)⟩,
   ⟨{ port := 0, srcMac := 1, src := 3, dst := 5, seq := 1, tagOk := true }, 9, mgrKey, here_of (by decide +kernel)⟩,
   ⟨{ port := 0, srcMac := 1, src := 5, dst := 3, seq := 1, tagOk := true }, mgrKey, { mgrNonce := 4, mac := 1 }, here_of (by
    decide +kernel)⟩⟩

/-- States and operands that meet the premises of JoinedPartnersExchangeFrames clause by clause. -/
theorem witness_JoinedPartnersExchangeFrames :
    (∃ h, Here (fun s => managerFrame h s) ({ live with cfg.role := some { role := 2, inst := 5 }, cfg.port := [(0, p25)],
                                                        cfg.hlkPort := [(0, 1)], hlk.manager := some (3, {}) })) ∧
    (∃ h, Here (fun s => workerFrame h s) ({ live with cfg.role := some { role := 1, inst := 3 }, cfg.port := [(0, p25)],
                                                       cfg.hlkPort := [(0, 1)], hlk.workers := [(5, { state := 1 })] })) ∧
    (∃ (h : HlkHead), Here (fun s => hlkRuns s = true ∧ h.tagOk = false)
     ({ live with cfg.role := some { role := 2, inst := 5 }, cfg.port := [(0, p25)], cfg.hlkPort := [(0, 1)],
                  hlk.manager := some (3, {}) })) ∧
    (Here (fun s => hlkRuns s = true ∧ roleOf s = 1 ∧ s.hlk.beatAt ≤ s.tsu.now)
     ({ live with cfg.role := some { role := 1, inst := 3 }, cfg.port := [(0, p25)], cfg.hlkPort := [(0, 1)],
                  hlk.workers := [(5, { state := 1 })] })) ∧
    (∃ i m, Here (fun s => hlkRuns s = true ∧ roleOf s = 2 ∧ s.hlk.manager = some (i, m) ∧ s.hlk.beatAt ≤ s.tsu.now)
     ({ live with cfg.role := some { role := 2, inst := 5 }, cfg.port := [(0, p25)], cfg.hlkPort := [(0, 1)],
                  hlk.manager := some (3, {}) })) ∧
    (∃ h, Here (fun s => managerFrame h s ∧ queueFull s = false)
     ({ live with cfg.role := some { role := 2, inst := 5 }, cfg.port := [(0, p25)], cfg.hlkPort := [(0, 1)],
                  hlk.manager := some (3, {}) })) ∧
    (∃ (h : _) (r : WorkerReply) (f : _) (l : _), Here (fun s => workerFrame h s ∧ s.cpx.forwarded = f :: l ∧ f.target = h.src ∧
     f.ctx.opcode = r.opcode ∧ f.ctx.sequence = r.sequence ∧ f.ctx.correlation = r.correlation ∧ unanswered f.ctx r.status =
     false) ({ live with cfg.role := some { role := 1, inst := 3 }, cfg.port := [(0, p25)], cfg.hlkPort := [(0, 1)],
                         hlk.workers := [(5, { state := 1 })],
                         cpx.forwarded := [{ ctx := { origin := .ring 0, opcode := 0, sequence := 7, correlation := 9,
                                                      keyId := 0, onError := false, key := none, digest := 0, header := [] },
                                             target := 5, due := 1600000000 }] })) ∧
    (∃ c f l, Here (fun s => hlkRuns s = true ∧ s.cpx.forwarded = f :: l ∧ f.ctx.correlation = c ∧ f.due ≤ s.tsu.now)
     ({ live with cfg.role := some { role := 1, inst := 3 }, cfg.port := [(0, p25)], cfg.hlkPort := [(0, 1)],
                  hlk.workers := [(5, { state := 1 })],
                  cpx.forwarded := [{ ctx := { origin := .ring 0, opcode := 0, sequence := 7, correlation := 9, keyId := 0,
                                               onError := false, key := none, digest := 0, header := [] }, target := 5,
                                      due := 1600000000 }] })) ∧
    (∃ h, Here (fun s => workerFrame h s) ({ live with cfg.role := some { role := 1, inst := 3 }, cfg.port := [(0, p25)],
                                                       cfg.hlkPort := [(0, 1)], hlk.workers := [(5, { state := 1 })] })) ∧
    (Here (fun s => hlkRuns s = true ∧ s.hlk.manager.isSome = true ∧ s.hlk.sumPer ≠ 0 ∧ s.hlk.sumAt ≤ s.tsu.now)
     ({ live with cfg.role := some { role := 2, inst := 5 }, cfg.port := [(0, p25)], cfg.hlkPort := [(0, 1)],
                  hlk.manager := some (3, {}), hlk.sumPer := 10000 })) ∧
    (Here (fun s => s.hlk.sumPer = 0 ∨ s.tsu.now < s.hlk.sumAt)
     ({ live with cfg.role := some { role := 2, inst := 5 }, cfg.port := [(0, p25)], cfg.hlkPort := [(0, 1)],
                  hlk.manager := some (3, {}) })) :=
  ⟨⟨{ port := 0, srcMac := 1, src := 3, dst := 5, seq := 1, tagOk := true },
    here_of (by
      refine ⟨?_, ?_, ?_, ?_, {}, ?_, ?_⟩ <;> decide +kernel)⟩,
   ⟨{ port := 0, srcMac := 1, src := 5, dst := 3, seq := 1, tagOk := true },
    here_of (by
      refine ⟨?_, ?_, ?_, ?_, { state := 1 }, ?_, ?_, ?_⟩ <;> decide +kernel)⟩,
   ⟨{ port := 0, srcMac := 1, src := 3, dst := 5, seq := 1, tagOk := false }, here_of (by decide +kernel)⟩,
   here_of (by decide +kernel),
   ⟨3, {}, here_of (by decide +kernel)⟩,
   ⟨{ port := 0, srcMac := 1, src := 3, dst := 5, seq := 1, tagOk := true },
    here_of (by
      refine ⟨⟨?_, ?_, ?_, ?_, {}, ?_, ?_⟩, ?_⟩ <;> decide +kernel)⟩,
   ⟨{ port := 0, srcMac := 1, src := 5, dst := 3, seq := 1, tagOk := true },
    { opcode := 0, quarantine := false, inst := 5, mode := 4, sequence := 7, status := 0, degraded := 0, epoch := 0,
      detail := 0, correlation := 9, body := [], tagged := none, trailer := 0 },
    { ctx := { origin := .ring 0, opcode := 0, sequence := 7, correlation := 9, keyId := 0, onError := false, key := none,
               digest := 0, header := [] }, target := 5, due := 1600000000 }, [],
    here_of (by
      refine ⟨⟨?_, ?_, ?_, ?_, { state := 1 }, ?_, ?_, ?_⟩, ?_⟩ <;> decide +kernel)⟩,
   ⟨9, { ctx := { origin := .ring 0, opcode := 0, sequence := 7, correlation := 9, keyId := 0, onError := false, key := none,
                  digest := 0, header := [] }, target := 5, due := 1600000000 }, [], here_of (by decide +kernel)⟩,
   ⟨{ port := 0, srcMac := 1, src := 5, dst := 3, seq := 1, tagOk := true },
    here_of (by
      refine ⟨?_, ?_, ?_, ?_, { state := 1 }, ?_, ?_, ?_⟩ <;> decide +kernel)⟩,
   here_of (by decide +kernel),
   here_of (by decide +kernel)⟩

/-- States and operands that meet the premises of TimeAndDelegationTravel clause by clause. -/
theorem witness_TimeAndDelegationTravel :
    (Here (fun s => hlkRuns s = true ∧ following s = true ∧ s.hlk.reqAt ≤ s.tsu.now)
     ({ live with cfg.role := some { role := 2, inst := 5 }, cfg.port := [(0, p25)], cfg.hlkPort := [(0, 1)],
                  hlk.manager := some (3, {}), hlk.timeInt := 1000 })) ∧
    (∃ h, Here (fun s => workerFrame h s) ({ live with cfg.role := some { role := 1, inst := 3 }, cfg.port := [(0, p25)],
                                                       cfg.hlkPort := [(0, 1)], hlk.workers := [(5, { state := 1 })] })) ∧
    (∃ h n t2 t3, Here (fun s => managerFrame h s ∧ timeOk t2 = true ∧ timeOk t3 = true ∧ ∀ e ∈ s.hlk.exchange, (e.n + 1) % 2 ^
     32 ≠ n) ({ live with cfg.role := some { role := 2, inst := 5 }, cfg.port := [(0, p25)], cfg.hlkPort := [(0, 1)],
                          hlk.manager := some (3, {}), hlk.exchange := [{ n := 4, frame := 1 }] })) ∧
    (∃ h c, Here (fun s => managerFrame h s ∧ certRsvZero c = true ∧ (certRanges c).all (fun r => r.2) = true ∧ certNames c s =
     true ∧ certValid c s = none ∧ lifecycle s ≠ 3) ({ live with cfg.role := some { role := 2, inst := 5 }, cfg.port := [(0,
                                                                 p25)], cfg.hlkPort := [(0, 1)], hlk.manager := some (3, {}) })) ∧
    (∃ k d, Here (fun s => clocked s = true ∧ tget s.hood.delegated k = some d ∧ d.expiryCcyc = none ∧ d.expiry ≤ seconds s)
     ({ live with hood.delegated := [(0x100, { slot := mgrKey, mask := 0xFFFF, target := 0, expiry := 1, issuer := 2 })] })) ∧
    (∃ k d, Here (fun s => tget s.hood.delegated k = some d ∧ d.expiryCcyc = none ∧ seconds s < d.expiry)
     ({ live with hood.delegated := [(0x100, { slot := mgrKey, mask := 0xFFFF, target := 0, expiry := 2, issuer := 2 })] })) :=
  ⟨here_of (by decide +kernel),
   ⟨{ port := 0, srcMac := 1, src := 5, dst := 3, seq := 1, tagOk := true },
    here_of (by
      refine ⟨?_, ?_, ?_, ?_, { state := 1 }, ?_, ?_, ?_⟩ <;> decide +kernel)⟩,
   ⟨{ port := 0, srcMac := 1, src := 3, dst := 5, seq := 1, tagOk := true }, 4, { sec := 1 }, { sec := 1, ns := 999999999 },
    here_of (by
      refine ⟨⟨?_, ?_, ?_, ?_, {}, ?_, ?_⟩, ?_⟩ <;> decide +kernel)⟩,
   ⟨{ port := 0, srcMac := 1, src := 3, dst := 5, seq := 1, tagOk := true }, cert,
    here_of (by
      refine ⟨⟨?_, ?_, ?_, ?_, {}, ?_, ?_⟩, ?_⟩ <;> decide +kernel)⟩,
   ⟨0x100, { slot := mgrKey, mask := 0xFFFF, target := 0, expiry := 1, issuer := 2 }, here_of (by decide +kernel)⟩,
   ⟨0x100, { slot := mgrKey, mask := 0xFFFF, target := 0, expiry := 2, issuer := 2 }, here_of (by decide +kernel)⟩⟩

/-- States and operands that meet the premises of PartnersAreLost clause by clause. -/
theorem witness_PartnersAreLost :
    (∃ h n, Here (fun s => n ≤ 2 ∧ managerFrame h s)
     ({ live with cfg.role := some { role := 2, inst := 5 }, cfg.port := [(0, p25)], cfg.hlkPort := [(0, 1)],
                  hlk.manager := some (3, {}) })) ∧
    (∃ h n, Here (fun s => n ≤ 2 ∧ workerFrame h s) ({ live with cfg.role := some { role := 1, inst := 3 }, cfg.port := [(0,
                                                                 p25)], cfg.hlkPort := [(0, 1)], hlk.workers := [(5,
                                                                 { state := 1 })] })) ∧
    (∃ i m, Here (fun s => hlkRuns s = true ∧ roleOf s = 2 ∧ s.hlk.manager = some (i, m) ∧ m.seen + ms 50 ≤ s.tsu.now)
     ({ live with cfg.role := some { role := 2, inst := 5 }, cfg.port := [(0, p25)], cfg.hlkPort := [(0, 1)],
                  hlk.manager := some (3, { seen := 1520000000 }) })) ∧
    (∃ i w, Here (fun s => hlkRuns s = true ∧ roleOf s = 1 ∧ tget s.hlk.workers i = some w ∧ w.state = 1 ∧ w.seen + ms 50 ≤
     s.tsu.now) ({ live with cfg.role := some { role := 1, inst := 3 }, cfg.port := [(0, p25)], cfg.hlkPort := [(0, 1)],
                             hlk.workers := [(5, { state := 1, seen := 1520000000 })] })) ∧
    (∃ i m, Here (fun s => roleOf s = 2 ∧ s.hlk.manager = some (i, m) ∧ s.tsu.now < m.seen + ms 50)
     ({ live with cfg.role := some { role := 2, inst := 5 }, cfg.port := [(0, p25)], cfg.hlkPort := [(0, 1)],
                  hlk.manager := some (3, { seen := 1520000001 }) })) :=
  ⟨⟨{ port := 0, srcMac := 1, src := 3, dst := 5, seq := 1, tagOk := true }, 2,
    here_of (by
      refine ⟨?_, ⟨?_, ?_, ?_, ?_, {}, ?_, ?_⟩⟩ <;> decide +kernel)⟩,
   ⟨{ port := 0, srcMac := 1, src := 5, dst := 3, seq := 1, tagOk := true }, 2,
    here_of (by
      refine ⟨?_, ⟨?_, ?_, ?_, ?_, { state := 1 }, ?_, ?_, ?_⟩⟩ <;> decide +kernel)⟩,
   ⟨3, { seen := 1520000000 }, here_of (by decide +kernel)⟩,
   ⟨5, { state := 1, seen := 1520000000 }, here_of (by decide +kernel)⟩,
   ⟨3, { seen := 1520000001 }, here_of (by decide +kernel)⟩⟩

/-- States and operands that meet the premises of PauseAndGatesFollowTheirTimers clause by clause. -/
theorem witness_PauseAndGatesFollowTheirTimers :
    (∃ (pg : _) (w : PauseReq), Here (fun s => clocked s = true ∧ groupState s pg = .powered ∧ thas s.cfg.port (pg * 16 +
     w.portOff) = true ∧ (pauseCfg s.cfg (pg * 16 + w.portOff)).pauseMode ≠ 0)
     ({ live with cfg.port := [(0, p25)], cfg.pause := [(0,
                  { port := 0, pauseMode := 2, obeyMask := 0xFF, genMask := 0xFF, quanta := 65535, refresh := 1000 })] })) ∧
    (∃ (pg : _) (w : PauseReq), Here (fun s => clocked s = true ∧ groupState s pg = .powered ∧ (thas s.cfg.port (pg * 16 +
     w.portOff) = false ∨ (pauseCfg s.cfg (pg * 16 + w.portOff)).pauseMode = 0))
     ({ live with cfg.port := [(0, p25)], cfg.pause := [] })) ∧
    (∃ p, Here (fun s => clocked s = true ∧ (portOf s p).link = .up ∧ (pauseCfg s.cfg p).pauseMode ≠ 0 ∧ xoffState s p ≠ 0 ∧
     (portOf s p).xoffAt + quantaCcyc (portSpeed s.cfg p) (pauseCfg s.cfg p).refresh ≤ s.tsu.now)
     ({ live with cfg.port := [(0, p25)], cfg.pause := [(0,
                  { port := 0, pauseMode := 2, obeyMask := 0xFF, genMask := 0xFF, quanta := 65535, refresh := 1000 })],
                  ports := [(0, { link := .up, xoff := 1 })] })) ∧
    (Here (fun _ => True) (live)) ∧
    (∃ p g q, Here (fun s => clocked s = true ∧ tget s.gates p = some g ∧ g.pending = some q ∧ g.swapAt ≤ s.tsu.time ∧ (p < 512
     → groupState s (groupOf p) ≠ .gated)) ({ live with gates := [(0,
                                                        { pending := some { base := 0, cycle := 1000, entries := [] },
                                                          swapAt := 1000000000 * 2 ^ 64 })] })) ∧
    (∃ p g l, Here (fun s => clocked s = true ∧ tget s.gates p = some g ∧ g.pending = none ∧ g.running = some l ∧ g.cycleAt ≤
     s.tsu.time ∧ (p < 512 → groupState s (groupOf p) ≠ .gated))
     ({ live with gates := [(0, { running := some { base := 0, cycle := 1000, entries := [] },
                                  cycleAt := 1000000000 * 2 ^ 64 })] })) ∧
    (Here (fun _ => True) (live)) :=
  ⟨⟨0, { portOff := 0, xoff := 1 }, here_of (by decide +kernel)⟩,
   ⟨0, { portOff := 0, xoff := 1 }, here_of (by decide +kernel)⟩,
   ⟨0, here_of (by decide +kernel)⟩,
   here_of (by decide +kernel),
   ⟨0, { pending := some { base := 0, cycle := 1000, entries := [] }, swapAt := 1000000000 * 2 ^ 64 },
    { base := 0, cycle := 1000, entries := [] }, here_of (by decide +kernel)⟩,
   ⟨0, { running := some { base := 0, cycle := 1000, entries := [] }, cycleAt := 1000000000 * 2 ^ 64 },
    { base := 0, cycle := 1000, entries := [] }, here_of (by decide +kernel)⟩,
   here_of (by decide +kernel)⟩

/-- States and operands that meet the premises of RingsRunStopAndReset clause by clause. -/
theorem witness_RingsRunStopAndReset :
    ∃ t n c, Here (fun s => processing s = true ∧ t ≠ 2 ∧ (ringOf s (ringKey t n)).state = 3 ∧ (ringOf s (ringKey t n)).taken =
     [] ∧ (ringOf s (ringKey t n)).sop = false ∧ (ringOf s (ringKey t n)).stop = some c ∧ c.onError = false)
     ({ live with hpe.rings := [(0, { state := 3, stop := some
                                        { origin := .ring 0, opcode := 0, sequence := 7, correlation := 9, keyId := 0,
                                          onError := false, key := none, digest := 0, header := [] } })] }) :=
  ⟨0, 0, { origin := .ring 0, opcode := 0, sequence := 7, correlation := 9, keyId := 0, onError := false, key := none,
           digest := 0, header := [] }, here_of (by decide +kernel)⟩

/-- States and operands that meet the premises of EntriesAreTakenInOrder clause by clause. -/
theorem witness_EntriesAreTakenInOrder :
    (∃ n d, Here (fun s => takesEntry (ringKey 2 n) s ∧ (∀ i r l, repliesOf s n ≠ (i, some r) :: l) ∧ s.cpx.restart = none ∧
     badCommand (ringBatched s (ringKey 2 n)) d = false ∧ queueFull s = false)
     ({ live with cfg.ring := [(512, ringCfg1)], hpe.rings := [(512, { state := 2, p := 1 })] })) ∧
    (∃ n d, Here (fun s => takesEntry (ringKey 2 n) s ∧ (∀ i r l, repliesOf s n ≠ (i, some r) :: l) ∧ s.cpx.restart = none ∧
     badCommand (ringBatched s (ringKey 2 n)) d = false ∧ queueFull s = true)
     ({ live with cfg.ring := [(512, ringCfg1)], hpe.rings := [(512, { state := 2, p := 1 })],
                  cpx.queue := List.replicate 1024 { origin := .ring 0 } })) ∧
    (∃ n d, Here (fun s => takesEntry (ringKey 2 n) s ∧ (∀ i r l, repliesOf s n ≠ (i, some r) :: l) ∧ s.cpx.restart = none ∧
     badCommand (ringBatched s (ringKey 2 n)) d = false)
     ({ live with cfg.ring := [(512, ringCfg1)], hpe.rings := [(512, { state := 2, p := 1 })] })) ∧
    (∃ n d, Here (fun s => takesEntry (ringKey 2 n) s ∧ (∀ i r l, repliesOf s n ≠ (i, some r) :: l) ∧ s.cpx.restart = none ∧
     badCommand (ringBatched s (ringKey 2 n)) d = true)
     ({ live with cfg.ring := [(512, ringCfg1)], hpe.rings := [(512, { state := 2, p := 1 })] })) ∧
    (∃ n d i r l, Here (fun s => takesEntry (ringKey 3 n) s ∧ repliesOf s n = (i, some r) :: l ∧ badReceive false d = false ∧
     replyLen r ≤ d.bufLen) ({ live with cfg.ring := [(768, ringCfg1)], hpe.rings := [(768, { state := 2, p := 1 })],
                                         hpe.replies := [(0, [(0,
                                         some { opcode := 0, quarantine := false, inst := 0, mode := 4, sequence := 1,
                                                status := 0, degraded := 0, epoch := 0, detail := 0, correlation := 0,
                                                body := [], trailer := .digest 0 })])] })) ∧
    (∃ n d b, Here (fun s => takesEntry (ringKey 1 n) s ∧ (ringOf s (ringKey 1 n)).sop = false ∧ badTransmit (ringBatched s
     (ringKey 1 n)) 0 0 d = false ∧ dEop d = true ∧ bindingOf s.cfg n = some b)
     ({ live with cfg.ring := [(256, ringCfg1)], hpe.rings := [(256, { state := 2, p := 1 })], cfg.hostLeaf := [(0,
                  { source := 0, port := 0, leaf := 0 })] })) ∧
    (∃ n d, Here (fun s => takesEntry (ringKey 2 n) s ∧ badCommand (ringBatched s (ringKey 2 n)) d = true)
     ({ live with cfg.ring := [(512, ringCfg1)], hpe.rings := [(512, { state := 2, p := 1 })] })) ∧
    (∃ k n d, Here (fun s => (k = 0 ∨ k = 3) ∧ takesEntry (ringKey k n) s ∧ badReceive false d = true)
     ({ live with cfg.ring := [(0, ringCfg1)], hpe.rings := [(0, { state := 2, p := 1 })] })) ∧
    (∃ (n : _) (ds : List Descriptor) (f : _) (use : _), Here (fun s => takesEntry n s ∧ headFrame s n = some f ∧ f.ready ≤
     s.tsu.now ∧ coverOf f.info.bytes.length (((ds.take (ringFree s n)).take 64).takeWhile (fun d => !badReceive false d)) =
     some use) ({ live with cfg.ring := [(0, ringCfg1)], hpe.rings := [(0, { state := 2, p := 1 })],
                            hpe.staged := [{ ring := 0, id := 4,
                                             info :=
                                               { port := 0, epoch := 0, dest := .ring 0, bytes := List.replicate 60 0,
                                                 frameLen := 64, stamp := 0, sfdCcyc := 0, preempt := false, held := false },
                                             ready := 1600000000 }] })) ∧
    (∃ n d f, Here (fun s => takesEntry n s ∧ headFrame s n = some f ∧ f.ready ≤ s.tsu.now ∧ badReceive false d = true)
     ({ live with cfg.ring := [(0, ringCfg1)], hpe.rings := [(0, { state := 2, p := 1 })],
                  hpe.staged := [{ ring := 0, id := 4,
                                   info := { port := 0, epoch := 0, dest := .ring 0, bytes := List.replicate 60 0,
                                             frameLen := 64, stamp := 0, sfdCcyc := 0, preempt := false, held := false },
                                   ready := 0 }] })) ∧
    (∃ n id f, Here (fun s => s.hpe.staged.find? (fun g => g.ring = n && g.id = id) = some f ∧ clocked s = true ∧ f.ready +
     holdCcyc s n ≤ s.tsu.now) ({ live with cfg.ring := [(0, ringCfg1)], hpe.rings := [(0, { state := 2, p := 1 })],
                                            hpe.staged :=
                                              [{ ring := 0, id := 4,
                                                 info :=
                                                   { port := 0, epoch := 0, dest := .ring 0, bytes := List.replicate 60 0,
                                                     frameLen := 64, stamp := 0, sfdCcyc := 0, preempt := false,
                                                     held := false }, ready := 0 }] })) :=
  ⟨⟨0, { bufAddr := 4096, bufLen := 84, flags := 3 },
    here_of (by
      refine ⟨⟨?_, ?_, ?_, ?_⟩, fun _ _ _ => nil_ne ?_, ?_⟩ <;> decide +kernel)⟩,
   ⟨0, { bufAddr := 4096, bufLen := 84, flags := 3 },
    here_of (by
      refine ⟨⟨?_, ?_, ?_, ?_⟩, fun _ _ _ => nil_ne ?_, ?_⟩ <;> decide +kernel)⟩,
   ⟨0, { bufAddr := 4096, bufLen := 84, flags := 3 },
    here_of (by
      refine ⟨⟨?_, ?_, ?_, ?_⟩, fun _ _ _ => nil_ne ?_, ?_⟩ <;> decide +kernel)⟩,
   ⟨0, { bufAddr := 4096, bufLen := 84, flags := 1 },
    here_of (by
      refine ⟨⟨?_, ?_, ?_, ?_⟩, fun _ _ _ => nil_ne ?_, ?_⟩ <;> decide +kernel)⟩,
   ⟨0, { bufAddr := 4096, bufLen := 4096 }, 0, { opcode := 0, quarantine := false, inst := 0, mode := 4, sequence := 1,
                                                 status := 0, degraded := 0, epoch := 0, detail := 0, correlation := 0,
                                                 body := [], trailer := .digest 0 }, [],
    here_of (by
      refine ⟨⟨?_, ?_, ?_, ?_⟩, ?_⟩ <;> decide +kernel)⟩,
   ⟨0, { bufAddr := 4096, bufLen := 64, flags := 3 }, { source := 0, port := 0, leaf := 0 },
    here_of (by
      refine ⟨⟨?_, ?_, ?_, ?_⟩, ?_⟩ <;> decide +kernel)⟩,
   ⟨0, { bufAddr := 4096, bufLen := 84, flags := 1 }, here_of (by refine ⟨⟨?_, ?_, ?_, ?_⟩, ?_⟩ <;> decide +kernel)⟩,
   ⟨0, 0, { bufAddr := 4096, bufLen := 64, flags := 1 }, here_of (by refine ⟨?_, ⟨?_, ?_, ?_, ?_⟩, ?_⟩ <;> decide +kernel)⟩,
   ⟨0, [{ bufAddr := 4096, bufLen := 256 }], { ring := 0, id := 4,
                                               info :=
                                                 { port := 0, epoch := 0, dest := .ring 0, bytes := List.replicate 60 0,
                                                   frameLen := 64, stamp := 0, sfdCcyc := 0, preempt := false, held := false },
                                               ready := 1600000000 }, [{ bufAddr := 4096, bufLen := 256 }],
    here_of (by
      refine ⟨⟨?_, ?_, ?_, ?_⟩, ?_⟩ <;> decide +kernel)⟩,
   ⟨0, { bufAddr := 4096, bufLen := 64 }, { ring := 0, id := 4,
                                            info := { port := 0, epoch := 0, dest := .ring 0, bytes := List.replicate 60 0,
                                                      frameLen := 64, stamp := 0, sfdCcyc := 0, preempt := false,
                                                      held := false }, ready := 0 },
    here_of (by
      refine ⟨⟨?_, ?_, ?_, ?_⟩, ?_⟩ <;> decide +kernel)⟩,
   ⟨0, 4, { ring := 0, id := 4, info := { port := 0, epoch := 0, dest := .ring 0, bytes := List.replicate 60 0, frameLen := 64,
                                          stamp := 0, sfdCcyc := 0, preempt := false, held := false }, ready := 0 }, here_of (by
    decide +kernel)⟩⟩

/-- States and operands that meet the premises of TelemetryIsRead clause by clause. -/
theorem witness_TelemetryIsRead :
    (∃ id w off b, Here (fun s => clocked s = true ∧ w < 256 ∧ tget s.cfg.window w = some b ∧ b.accessId = id ∧ accFrozen s id =
     false ∧ s.mode.stage ≠ .boot ∧ s.mode.zeroized = false ∧ off % 8 = 0 ∧ off < 65536 ∧ contentCode b.content ≠ 2 ∧
     contentFirst b.content + off / strideOf (contentCode b.content) < indexCount (contentCode b.content))
     ({ live with cfg.window := [(255, { window := 255, accessId := 7, content := 0x0000 })] })) ∧
    (∃ id w off width b, Here (fun s => clocked s = true ∧ w < 256 ∧ tget s.cfg.window w = some b ∧ b.accessId = id ∧ accFrozen
     s id = false ∧ s.mode.stage ≠ .boot ∧ s.mode.zeroized = false ∧ (width ≠ 8 ∨ off % 8 ≠ 0 ∨ 65536 ≤ off))
     ({ live with cfg.window := [(255, { window := 255, accessId := 7, content := 0x0000 })] })) ∧
    (∃ b, Here (fun s => s.cfg.batt = some b ∧ clocked s = true ∧ b.contentMask ≠ 0 ∧ s.tel.battNext ≤ s.tsu.tick ∧
     s.tel.battBusy = none ∧ accFrozen s b.accessId = false ∧ commitNear s = false)
     ({ live with cfg.batt := some { period := 1000, destAddr := 4096, destSize := 4194304, contentMask := 1, accessId := 7 },
                  tel.battNext := 100000000 })) ∧
    (∃ b r, Here (fun s => s.cfg.batt = some b ∧ clocked s = true ∧ b.contentMask ≠ 0 ∧ s.tel.battNext ≤ s.tsu.tick ∧
     s.tel.battBusy = some r) ({ live with cfg.batt := some
                                             { period := 1000, destAddr := 4096, destSize := 4194304, contentMask := 1,
                                               accessId := 7 },
                                           tel.battBusy := some
                                             { t0 := 0, accessId := 7, addr := 4096, mask := 1, head := [], counts := [],
                                               tail := [], missed := 0, failed := 0, lost := 0 } })) ∧
    (∃ r, Here (fun s => s.tel.battBusy = some r ∧ clocked s = true ∧ 32 < r.next ∧ r.t0 + battLen r.mask / 10 ≤ s.tsu.now)
     ({ live with cfg.batt := some { period := 1000, destAddr := 4096, destSize := 4194304, contentMask := 1, accessId := 7 },
                  tel.battBusy := some { t0 := 0, accessId := 7, addr := 4096, mask := 1, head := [], counts := [], tail := [],
                                         missed := 0, failed := 0, lost := 0, next := 33 } })) ∧
    (∃ b, Here (fun s => s.cfg.qsample = some b ∧ clocked s = true ∧ s.tel.sweepNext ≤ s.tsu.tick)
     ({ live with cfg.qsample := some { period := 10, queueMaskBase := 0, count := 4 } })) :=
  ⟨⟨7, 255, 0, { window := 255, accessId := 7, content := 0x0000 }, here_of (by decide +kernel)⟩,
   ⟨7, 255, 4, 8, { window := 255, accessId := 7, content := 0x0000 }, here_of (by decide +kernel)⟩,
   ⟨{ period := 1000, destAddr := 4096, destSize := 4194304, contentMask := 1, accessId := 7 }, here_of (by decide +kernel)⟩,
   ⟨{ period := 1000, destAddr := 4096, destSize := 4194304, contentMask := 1, accessId := 7 },
    { t0 := 0, accessId := 7, addr := 4096, mask := 1, head := [], counts := [], tail := [], missed := 0, failed := 0,
      lost := 0 }, here_of (by decide +kernel)⟩,
   ⟨{ t0 := 0, accessId := 7, addr := 4096, mask := 1, head := [], counts := [], tail := [], missed := 0, failed := 0,
      lost := 0, next := 33 }, here_of (by decide +kernel)⟩,
   ⟨{ period := 10, queueMaskBase := 0, count := 4 }, here_of (by decide +kernel)⟩⟩

/-- States and operands that meet the premises of SideMemoryIsMaintained clause by clause. -/
theorem witness_SideMemoryIsMaintained :
    (Here (fun s => clocked s = true ∧ s.smc.present = true ∧ s.smc.filled = false) ({ live with smc.filled := false })) ∧
    (∃ c, Here (fun s => clocked s = true ∧ s.smc.present = true ∧ s.smc.filled = false ∧ (chanOf s c).state = .init ∧ ms 10 ≤
     s.tsu.now) ({ live with smc.filled := false, smc.chans := [(3, { state := .init })], tsu.now := 16000000 })) ∧
    (∃ c k, Here (fun s => clocked s = true ∧ smcUp s = true ∧ (rankOf s (c * 2 + k)).state ≠ .absent ∧ (rankOf s (c * 2 +
     k)).selfRefresh = false) ({ live with smc.ranks := [(7, { state := .inService })] })) ∧
    (Here (fun s => clocked s = true) (live)) ∧
    (∃ c k, Here (fun s => clocked s = true ∧ smcUp s = true ∧ (rankOf s (c * 2 + k)).owed = 0 ∧ (rankOf s (c * 2 +
     k)).lastUse + us 10 ≤ s.tsu.now) ({ live with smc.ranks := [(7, { state := .inService, lastUse := 1599984000 })] })) ∧
    (∃ c, Here (fun s => clocked s = true ∧ smcUp s = true ∧ (chanOf s c).windowAt + ms 100 ≤ s.tsu.now ∧ (rankOf s (c *
     2)).owed < 4 ∧ (rankOf s (c * 2 + 1)).owed < 4)
     ({ live with smc.ranks := [(7, { state := .inService, owed := 3 })], smc.chans := [(3,
                  { state := .inService, windowAt := 1440000000 })] })) ∧
    (∃ n, Here (fun s => clocked s = true ∧ s.smc.present = true ∧ (n ≤ 2000 ∨ modeCode s = 8)) (live)) ∧
    (∃ n w, Here (fun s => clocked s = true ∧ s.smc.present = true ∧ 2000 < n ∧ modeCode s ≠ 8 ∧ w < 100000000) (live)) ∧
    (∃ n w, Here (fun s => clocked s = true ∧ s.smc.present = true ∧ 2000 < n ∧ modeCode s ≠ 8 ∧ 100000000 ≤ w) (live)) ∧
    (∃ c k b q e, Here (fun s => tget s.smc.throttle (q * 65536 + (c * 2 + k) * 256 + b) = some e ∧ e ≤ s.tsu.now)
     ({ live with smc.throttle := [(3 * 65536 + 7 * 256 + 15, 1600000000)] })) :=
  ⟨here_of (by decide +kernel),
   ⟨3, here_of (by decide +kernel)⟩,
   ⟨3, 1, here_of (by decide +kernel)⟩,
   here_of (by decide +kernel),
   ⟨3, 1, here_of (by decide +kernel)⟩,
   ⟨3, here_of (by decide +kernel)⟩,
   ⟨2000, here_of (by decide +kernel)⟩,
   ⟨2001, 99999999, here_of (by decide +kernel)⟩,
   ⟨2001, 100000000, here_of (by decide +kernel)⟩,
   ⟨3, 1, 15, 3, 1600000000, here_of (by decide +kernel)⟩⟩

/-- States and operands that meet the premises of RanksMigrateAndChannelsTrain clause by clause. -/
theorem witness_RanksMigrateAndChannelsTrain :
    (∃ m, Here (fun s => s.smc.migration = some m ∧ clocked s = true)
     ({ live with smc.migration := some { logical := 0, src := 0, dst := 2 } })) ∧
    (∃ m, Here (fun s => s.smc.migration = some m ∧ clocked s = true ∧ m.src ≠ m.dst)
     ({ live with smc.migration := some { logical := 0, src := 0, dst := 2 } })) ∧
    (∃ c, Here (fun s => clocked s = true ∧ s.smc.filled = true ∧ ((chanOf s c).state = .inService ∨ (chanOf s c).state =
     .migrating)) (live)) ∧
    (∃ c, Here (fun s => clocked s = true ∧ (chanOf s c).state = .training ∧ migratingHere s c = false ∧ s.smc.retrain = [])
     ({ live with smc.chans := [(2, { state := .training })] })) ∧
    (∃ c, Here (fun s => clocked s = true ∧ (chanOf s c).state = .training ∧ s.smc.retrain = [])
     ({ live with smc.chans := [(2, { state := .training })] })) ∧
    (∃ a r b w o, Here (fun s => clocked s = true ∧ smcUp s = true ∧ a < capacity s ∧ s.dbg.pounce = [] ∧ locate s a = (r, b, w)
     ∧ a / 512 ∉ s.smc.poison ∧ tget (rankOf s r).rows b = some (w, o) ∧ s.tsu.now < o.2 ∧ (rankOf s r).ceTimes.2 < 10000)
     ({ live with smc.rankSize := 2 ^ 30, smc.table := [0], smc.ranks := [(0,
                  { state := .inService, rows := [(1, 3, 1599999999, 1600000001)], ceTimes := (1, 9999) })] })) ∧
    (∃ (a : _) (r : _) (b : _) (w : _) (o : _) (e : EccResult), Here (fun s => clocked s = true ∧ smcUp s = true ∧ a < capacity
     s ∧ s.dbg.pounce = [] ∧ locate s a = (r, b, w) ∧ (a / 512 ∈ s.smc.poison ∨ e = .uncorrectable) ∧ tget (rankOf s r).rows b =
     some (w, o) ∧ s.tsu.now < o.2 ∧ (rankOf s r).ueRows = [])
     ({ live with smc.rankSize := 2 ^ 30, smc.table := [0], smc.ranks := [(0,
                  { state := .inService, rows := [(1, 3, 1599999999, 1600000001)] })] })) ∧
    (∃ a r b w o, Here (fun s => clocked s = true ∧ smcUp s = true ∧ a < capacity s ∧ s.dbg.pounce = [] ∧ locate s a = (r, b, w)
     ∧ a / 512 ∉ s.smc.poison ∧ tget (rankOf s r).rows b = some (w, o) ∧ s.tsu.now < o.2)
     ({ live with smc.rankSize := 2 ^ 30, smc.table := [0], smc.ranks := [(0,
                  { state := .inService, rows := [(1, 3, 1599999999, 1600000001)] })] })) ∧
    (∃ a r b w, Here (fun s => clocked s = true ∧ smcUp s = true ∧ a < capacity s ∧ s.dbg.pounce = [] ∧ locate s a = (r, b, w) ∧
     a / 512 ∉ s.smc.poison ∧ (tget (rankOf s r).rows b).all (fun o => decide (o.1 ≠ w ∨ o.2.2 ≤ s.tsu.now)) = true ∧ tgetD
     (rankOf s r).hits b 0 ≠ 3) ({ live with smc.rankSize := 2 ^ 30, smc.table := [0], smc.ranks := [(0,
                                             { state := .inService, rows := [(1, 4, 1599999999, 1600000001)] })] })) :=
  ⟨⟨{ logical := 0, src := 0, dst := 2 }, here_of (by decide +kernel)⟩,
   ⟨{ logical := 0, src := 0, dst := 2 }, here_of (by decide +kernel)⟩,
   ⟨0, here_of (by decide +kernel)⟩,
   ⟨2, here_of (by decide +kernel)⟩,
   ⟨2, here_of (by decide +kernel)⟩,
   ⟨100352, 0, 1, 3, (1599999999, 1600000001), here_of (by decide +kernel)⟩,
   ⟨100352, 0, 1, 3, (1599999999, 1600000001), .uncorrectable, here_of (by decide +kernel)⟩,
   ⟨100352, 0, 1, 3, (1599999999, 1600000001), here_of (by decide +kernel)⟩,
   ⟨100352, 0, 1, 3, here_of (by decide +kernel)⟩⟩

/-- States and operands that meet the premises of RegionsRecordAndStop clause by clause. -/
theorem witness_RegionsRecordAndStop :
    (∃ n, Here (fun s => clocked s = true ∧ (regionOf s n).state = .recording ∧ (regionOf s n).granule ≠ [] ∧ (regionOf s
     n).granuleAt + us 50 ≤ s.tsu.now) ({ live with cfg.frc := [(2,
                                                    { region := 2, base := 0, size := 1048576, regionMode := 0,
                                                      content := 0 })], frc.regions := [(2,
                                                    { state := .recording, granule := [1], granuleAt := 1599920000 })] })) ∧
    (∃ n b e l, Here (fun s => clocked s = true ∧ smcUp s = true ∧ (regionOf s n).state = .recording ∧ tget s.cfg.frc n = some b
     ∧ (regionOf s n).inFlight = e :: l) ({ live with cfg.frc := [(2,
                                                      { region := 2, base := 0, size := 1048576, regionMode := 0,
                                                        content := 0 })], frc.regions := [(2,
                                                      { state := .recording, inFlight := [(0, List.replicate 64 0)] })] })) ∧
    (∃ n b e l, Here (fun s => clocked s = true ∧ (regionOf s n).state = .recording ∧ tget s.cfg.frc n = some b ∧ (regionOf s
     n).inFlight = e :: l) ({ live with cfg.frc := [(2,
                                        { region := 2, base := 0, size := 1048576, regionMode := 0, content := 0 })],
                                        frc.regions := [(2,
                                        { state := .recording, inFlight := [(0, List.replicate 64 0)] })] })) ∧
    (∃ n c, Here (fun s => clocked s = true ∧ (regionOf s n).stopping = some c ∧ (regionOf s n).inFlight = [] ∧ c.onError =
     false) ({ live with cfg.frc := [(2, { region := 2, base := 0, size := 1048576, regionMode := 0, content := 0 })],
                         frc.regions := [(2, { state := .recording,
                                               stopping := some
                                                 { origin := .ring 0, opcode := 0, sequence := 7, correlation := 9, keyId := 0,
                                                   onError := false, key := none, digest := 0, header := [] } })] })) :=
  ⟨⟨2, here_of (by decide +kernel)⟩,
   ⟨2, { region := 2, base := 0, size := 1048576, regionMode := 0, content := 0 }, (0, List.replicate 64 0), [], here_of (by
    decide +kernel)⟩,
   ⟨2, { region := 2, base := 0, size := 1048576, regionMode := 0, content := 0 }, (0, List.replicate 64 0), [], here_of (by
    decide +kernel)⟩,
   ⟨2, { origin := .ring 0, opcode := 0, sequence := 7, correlation := 9, keyId := 0, onError := false, key := none,
         digest := 0, header := [] }, here_of (by decide +kernel)⟩⟩

/-- States and operands that meet the premises of ExportChannelsRunTheirChains clause by clause. -/
theorem witness_ExportChannelsRunTheirChains :
    (∃ c d, Here (fun s => clocked s = true ∧ halting s = false ∧ (xchan s c).state = .running ∧ (xchan s c).cur ≠ 0 ∧ (xchan s
     c).begun = [] ∧ xMalformed d = false ∧ xBadRange s d = false)
     ({ live with smc.rankSize := 2 ^ 30, smc.table := [0], xdma := [(2, { state := .running, cur := 4096 })] })) ∧
    (∃ c, Here (fun s => clocked s = true ∧ halting s = false ∧ (xchan s c).state = .running ∧ (xchan s c).cur ≠ 0)
     ({ live with xdma := [(2, { state := .running, cur := 4096 })] })) ∧
    (∃ c d, Here (fun s => clocked s = true ∧ halting s = false ∧ (xchan s c).state = .running ∧ (xchan s c).cur ≠ 0 ∧ (xchan s
     c).begun = [] ∧ xMalformed d = true) ({ live with xdma := [(2, { state := .running, cur := 4096 })] })) ∧
    (∃ c e, Here (fun s => clocked s = true ∧ (xchan s c).state = .running ∧ (xchan s c).begun = [e] ∧ e.done = none ∧ e.noted =
     false ∧ e.ecc = none ∧ e.sent = e.desc.rows * e.desc.rowBytes ∧ e.fixed = [])
     ({ live with xdma := [(2, { state := .running, cur := 4096,
                                 begun := [{ addr := 4096,
                                             desc :=
                                               { srcAddr := 0, dstAddr := 4096, rowBytes := 64, rows := 1, srcStride := 64,
                                                 dstStride := 64, nextAddr := 0, descCtl := 0 }, sent := 64 }] })] })) ∧
    (∃ c e off, Here (fun s => clocked s = true ∧ (xchan s c).state = .running ∧ (xchan s c).begun = [e] ∧ e.done = none ∧
     e.noted = false ∧ e.ecc = none ∧ off < e.sent ∧ e.fixed = [])
     ({ live with xdma := [(2, { state := .running, cur := 4096,
                                 begun := [{ addr := 4096,
                                             desc :=
                                               { srcAddr := 0, dstAddr := 4096, rowBytes := 64, rows := 1, srcStride := 64,
                                                 dstStride := 64, nextAddr := 0, descCtl := 0 }, sent := 64 }] })] })) :=
  ⟨⟨2, { srcAddr := 0, dstAddr := 4096, rowBytes := 64, rows := 1, srcStride := 64, dstStride := 64, nextAddr := 0,
         descCtl := 0 }, here_of (by decide +kernel)⟩,
   ⟨2, here_of (by decide +kernel)⟩,
   ⟨2, { srcAddr := 0, dstAddr := 4096, rowBytes := 64, rows := 1, srcStride := 64, dstStride := 64, nextAddr := 1,
         descCtl := 0 }, here_of (by decide +kernel)⟩,
   ⟨2, { addr := 4096, desc := { srcAddr := 0, dstAddr := 4096, rowBytes := 64, rows := 1, srcStride := 64, dstStride := 64,
                                 nextAddr := 0, descCtl := 0 }, sent := 64 }, here_of (by decide +kernel)⟩,
   ⟨2, { addr := 4096, desc := { srcAddr := 0, dstAddr := 4096, rowBytes := 64, rows := 1, srcStride := 64, dstStride := 64,
                                 nextAddr := 0, descCtl := 0 }, sent := 64 }, 63, here_of (by decide +kernel)⟩⟩

/-- States and operands that meet the premises of LeavesAreGrantedAndSettled clause by clause. -/
theorem witness_LeavesAreGrantedAndSettled :
    (∃ pg w, Here (fun s => takesWord pg w s ∧ w.grantDone = false)
     ({ live with cfg.port := [(0, p25)], cfg.node := [(0,
                  { node := 0, port := 0, cls := 0, weight := 1, shaperRate := 0, shaperBurst := 0 })], cfg.leaf := [(0,
                  { leaf := 0, parentNode := 0, cls := 0, weight := 1, shaperRate := 0, shaperBurst := 0,
                    overheadProfile := 0 })] })) ∧
    (∃ pg w g, Here (fun s => takesWord pg w s ∧ w.grantDone = true ∧ grantOf s pg w.grantId = some g ∧ g.leaf = w.leaf ∧
     g.released = none) ({ live with cfg := treeCfg, esh.engines := [(0,
                                     { grants := [{ id := 9, leaf := 0, node := 0, cls := 0, port := 0, maxBytes := 512,
                                                    est := 0, overhead := 0, wLeaf := 1, wNode := 1, wClass := none, wPort := 1,
                                                    at_ := 0, epoch := 0, cfg := treeCfg }] })] })) ∧
    (∃ (pg : _) (w : LeafStatus), Here (fun s => clocked s = true ∧ fencedOrAbsent s pg = false ∧ coreOnly pg s ∧ groupOfLeaf
     w.leaf ≠ pg) (live)) ∧
    (∃ pg p k n f, Here (fun s => clocked s = true ∧ halting s = false ∧ s.mode.zeroized = false ∧ groupState s pg = .powered ∧
     (engine s pg).grants.length < 4096 ∧ (engine s pg).holdTo = 0 ∧ (engine s pg).decided ≠ some s.tsu.now ∧ s.dbg.pounce = []
     ∧ choose pg s = some (p, k, n, f) ∧ leafSources s.cfg f = [])
     ({ live with cfg := treeCfg, ports := [(0, { link := .up })], esh.words := [(0, [(0,
                  { backlogged := true, headLen := 64, backlog := 64 })])], esh.leaves := [(0, { ready := true })],
                  esh.nodes := [(0, { ready := true })], esh.ports := [(0, { ready := true })] })) ∧
    (∃ pg, Here (fun s => choose pg s = none ∨ (engine s pg).decided = some s.tsu.now) (live)) ∧
    (∃ pg id g, Here (fun s => grantOf s pg id = some g ∧ g.released = some g.frames.length ∧ coreOnly pg s)
     ({ live with cfg := treeCfg, esh.engines := [(0,
                  { grants := [{ id := 9, leaf := 0, node := 0, cls := 0, port := 0, maxBytes := 512, est := 0, overhead := 0,
                                 wLeaf := 1, wNode := 1, wClass := none, wPort := 1, at_ := 0, epoch := 0, cfg := treeCfg,
                                 released := some 0 }] })] })) ∧
    (∃ pg id g n, Here (fun s => clocked s = true ∧ grantOf s pg id = some g ∧ g.released = some n ∧ n < g.frames.length ∧
     coreOnly pg s) ({ live with cfg := treeCfg, esh.engines := [(0,
                                 { grants := [{ id := 9, leaf := 0, node := 0, cls := 0, port := 0, maxBytes := 512, est := 0,
                                                overhead := 0, wLeaf := 1, wNode := 1, wClass := none, wPort := 1, at_ := 0,
                                                epoch := 0, cfg := treeCfg, released := some 0,
                                                frames := [{ charge := 84, cpiLen := 60 }] }] })] })) ∧
    (∃ pg id g, Here (fun s => grantOf s pg id = some g ∧ g.at_ + 512 ≤ s.tsu.now ∧ g.begun = true ∧ g.host = false ∧ g.released
     = none ∧ coreOnly pg s) ({ live with cfg := treeCfg, esh.engines := [(0,
                                          { grants :=
                                              [{ id := 9, leaf := 0, node := 0, cls := 0, port := 0, maxBytes := 512, est := 0,
                                                 overhead := 0, wLeaf := 1, wNode := 1, wClass := none, wPort := 1,
                                                 at_ := 1599999488, epoch := 0, cfg := treeCfg, begun := true }] })] })) ∧
    (∃ pg id g, Here (fun s => clocked s = true ∧ grantOf s pg id = some g ∧ g.at_ + 512 ≤ s.tsu.now ∧ g.begun = false ∧ g.host
     = false ∧ g.released = none ∧ coreOnly pg s) ({ live with cfg := treeCfg, esh.engines := [(0,
                                                               { grants :=
                                                                   [{ id := 9, leaf := 0, node := 0, cls := 0, port := 0,
                                                                      maxBytes := 512, est := 0, overhead := 0, wLeaf := 1,
                                                                      wNode := 1, wClass := none, wPort := 1, at_ := 1599999488,
                                                                      epoch := 0, cfg := treeCfg }] })] })) ∧
    (Here (fun _ => True) (live)) ∧
    (∃ o, Here (fun s => releasesNext o s = true) ({ live with esh.nodes := [(3,
                                                               { shaper :=
                                                                   { eligible := false, due := 100000000, place := .fine 256 0 }
                                                                   })] })) ∧
    (∃ o, Here (fun s => releasesNext o s = false) ({ live with esh.nodes := [(3,
                                                                { shaper :=
                                                                    { eligible := false, due := 100000001,
                                                                      place := .fine 257 0 } })] })) :=
  ⟨⟨0, { leaf := 0, backlogged := true, grantDone := false, grantId := 0, released := 1, headLen := 64, backlogBytes := 64,
         headEnq := 0 }, here_of (by unfold takesWord Safety.headOk coreOnly; decide +kernel)⟩,
   ⟨0, { leaf := 0, backlogged := true, grantDone := true, grantId := 9, released := 1, headLen := 64, backlogBytes := 64,
         headEnq := 0 }, { id := 9, leaf := 0, node := 0, cls := 0, port := 0, maxBytes := 512, est := 0, overhead := 0,
                           wLeaf := 1, wNode := 1, wClass := none, wPort := 1, at_ := 0, epoch := 0, cfg := treeCfg }, here_of
    (by unfold takesWord Safety.headOk coreOnly; decide +kernel)⟩,
   ⟨0, { leaf := 8192, backlogged := true, grantDone := false, grantId := 0, released := 1, headLen := 64, backlogBytes := 64,
         headEnq := 0 }, here_of (by unfold coreOnly; decide +kernel)⟩,
   ⟨0, 0, 0, 0, 0, here_of (by decide +kernel)⟩,
   ⟨0, here_of (by decide +kernel)⟩,
   ⟨0, 9, { id := 9, leaf := 0, node := 0, cls := 0, port := 0, maxBytes := 512, est := 0, overhead := 0, wLeaf := 1,
            wNode := 1, wClass := none, wPort := 1, at_ := 0, epoch := 0, cfg := treeCfg, released := some 0 }, here_of (by
    unfold coreOnly; decide +kernel)⟩,
   ⟨0, 9, { id := 9, leaf := 0, node := 0, cls := 0, port := 0, maxBytes := 512, est := 0, overhead := 0, wLeaf := 1,
            wNode := 1, wClass := none, wPort := 1, at_ := 0, epoch := 0, cfg := treeCfg, released := some 0,
            frames := [{ charge := 84, cpiLen := 60 }] }, 0, here_of (by unfold coreOnly; decide +kernel)⟩,
   ⟨0, 9, { id := 9, leaf := 0, node := 0, cls := 0, port := 0, maxBytes := 512, est := 0, overhead := 0, wLeaf := 1,
            wNode := 1, wClass := none, wPort := 1, at_ := 1599999488, epoch := 0, cfg := treeCfg, begun := true }, here_of (by
    unfold coreOnly; decide +kernel)⟩,
   ⟨0, 9, { id := 9, leaf := 0, node := 0, cls := 0, port := 0, maxBytes := 512, est := 0, overhead := 0, wLeaf := 1,
            wNode := 1, wClass := none, wPort := 1, at_ := 1599999488, epoch := 0, cfg := treeCfg }, here_of (by
    unfold coreOnly; decide +kernel)⟩,
   here_of (by decide +kernel),
   ⟨.node 3, here_of (by decide +kernel)⟩,
   ⟨.node 3, here_of (by decide +kernel)⟩⟩

/-- States and operands that meet the premises of FramesAreTransmitted clause by clause. -/
theorem witness_FramesAreTransmitted :
    (∃ (pg : _) (t : TxSlices) (m : TxMeta) (g : _), Here (fun s => clocked s = true ∧ groupState s pg = .powered ∧ t.portOff <
     16 ∧ thas s.cfg.port (pg * 16 + t.portOff) = true ∧ t.start = some m ∧ openFrame (portOf s (pg * 16 + t.portOff)) = none ∧
     grantOf s pg m.grantId = some g ∧ coreOnly pg s ∧ goodStart s (pg * 16 + t.portOff) g m t)
     ({ live with cfg := treeCfg, esh.engines := [(0,
                  { grants := [{ id := 9, leaf := 0, node := 0, cls := 0, port := 0, maxBytes := 512, est := 0, overhead := 0,
                                 wLeaf := 1, wNode := 1, wClass := none, wPort := 1, at_ := 0, epoch := 0, cfg := treeCfg }]
                      })], ports := [(0, { link := .up })] })) ∧
    (∃ (pg : _) (t : TxSlices), Here (fun s => clocked s = true ∧ groupState s pg = .powered ∧ coreOnly pg s ∧ (16 ≤ t.portOff ∨
     thas s.cfg.port (pg * 16 + t.portOff) = false)) (live)) ∧
    (∃ p fr gen, Here (fun s => lineLive s p ∧ (portOf s p).line = none ∧ (portOf s p).lineFree ≤ s.tsu.now ∧ (portOf s p).link
     = .up ∧ controlDue s p = some (fr, gen)) ({ live with cfg := treeCfg, ports := [(0,
                                                           { link := .up, macDue := [[1, 2]] })] })) ∧
    (∃ p f r, Here (fun s => lineLive s p ∧ p < 512 ∧ (portOf s p).line = none ∧ (portOf s p).lineFree ≤ s.tsu.now ∧ noControl s
     p ∧ (portOf s p).express = f :: r ∧ permitted s p f = true)
     ({ live with cfg := treeCfg, ports := [(0, { link := .up, express := [shortFrame] })] })) ∧
    (∃ p f a, Here (fun s => clocked s = true ∧ halting s = false ∧ (portOf s p).line = some f ∧ f.action = some a ∧ a ≠ 2 ∧ 8 +
     (f.wire - f.sent) ≤ lineBytes (portSpeed s.cfg p) (s.tsu.now + 1 - f.fragAt))
     ({ live with cfg := treeCfg, ports := [(0, { link := .up, line := some { shortFrame with action := some 0 } })] })) ∧
    (∃ p f, Here (fun s => clocked s = true ∧ halting s = false ∧ (portOf s p).line = some f ∧ f.action = some 2 ∧ f.opened =
     false ∧ 8 + (f.head + f.len - f.sent) ≤ lineBytes (portSpeed s.cfg p) (s.tsu.now + 1 - f.fragAt))
     ({ live with cfg := treeCfg, ports := [(0, { link := .up, line := some { shortFrame with action := some 2 } })] })) ∧
    (∃ p f, Here (fun s => clocked s = true ∧ halting s = false ∧ (portOf s p).line = some f ∧ f.action = none ∧ f.opened = true
     ∧ 8 + (f.head + f.got - f.sent) ≤ lineBytes (portSpeed s.cfg p) (s.tsu.now + 1 - f.fragAt))
     ({ live with cfg := treeCfg, ports := [(0, { link := .up,
                                                  line := some
                                                    { shortFrame with opened := true, bytes := List.replicate 32 0,
                                                                      action := none } })] })) ∧
    (∃ p f n, Here (fun s => lineLive s p ∧ (portOf s p).line = some f ∧ (if breakCause s p then breakAt s p f else gateBreak s
     p f) = some n) ({ live with cfg := treeCfg, ports := [(0,
                                 { link := .up, express := [shortFrame],
                                   line := some { shortFrame with wire := 1000, merged := true, fragAt := 1600000000,
                                                                  opened := true, action := none } })] })) :=
  ⟨⟨0, { portOff := 0, start := some { grantId := 9, grantLast := true, leaf := 0, tc := 0, len := 60 },
         bytes := List.replicate 60 0, slices := 1, eof := some { action := 0, grantId := 9 } },
    { grantId := 9, grantLast := true, leaf := 0, tc := 0, len := 60 },
    { id := 9, leaf := 0, node := 0, cls := 0, port := 0, maxBytes := 512, est := 0, overhead := 0, wLeaf := 1, wNode := 1,
      wClass := none, wPort := 1, at_ := 0, epoch := 0, cfg := treeCfg },
    here_of (by
      refine ⟨?_, ?_, ?_, ?_, ?_, ?_, ?_, coreOnly_of ?_, ⟨?_, ?_, ?_, some_all { action := 0, grantId := 9 } (by decide) (by
        decide), (fun h => by cases h), by decide, by decide, by decide,
        ⟨{ leaf := 0, parentNode := 0, cls := 0, weight := 1, shaperRate := 0, shaperBurst := 0, overheadProfile := 0 },
        { node := 0, port := 0, cls := 0, weight := 1, shaperRate := 0, shaperBurst := 0 }, ?_, ?_⟩, ?_, ⟨p25, ?_, ?_, ?_⟩, ?_⟩⟩
        <;> decide +kernel)⟩,
   ⟨0, { portOff := 0, start := none, bytes := [], slices := 0, eof := none }, here_of (by unfold coreOnly; decide +kernel)⟩,
   ⟨0, [1, 2], false, here_of (by unfold lineLive; decide +kernel)⟩,
   ⟨0, shortFrame, [], here_of (by refine ⟨⟨?_, ?_, ?_, ?_, ?_, ?_⟩, ?_, ?_, ?_, fun _ => ?_, ?_, ?_⟩ <;> decide +kernel)⟩,
   ⟨0, { shortFrame with action := some 0 }, 0, here_of (by decide +kernel)⟩,
   ⟨0, { shortFrame with action := some 2 }, here_of (by decide +kernel)⟩,
   ⟨0, { shortFrame with opened := true, bytes := List.replicate 32 0, action := none }, here_of (by decide +kernel)⟩,
   ⟨0, { shortFrame with wire := 1000, merged := true, fragAt := 1600000000, opened := true, action := none }, 64, here_of (by
    unfold lineLive; decide +kernel)⟩⟩

/-- States and operands that meet the premises of FramesAreReceived clause by clause. -/
theorem witness_FramesAreReceived :
    (∃ (f : RxFrame), Here (fun s => plainFrame f s ∧ destOf s.cfg f.port f.bytes (parse s.cfg f.port f.bytes) = .core ∧
     s.dbg.pounce = [] ∧ rxOpen (pcsCounts f s) f.port = true)
     ({ live with cfg.port := [(0, p25)], ports := [(0, { link := .up })] })) ∧
    (∃ (f : RxFrame), Here (fun s => f.mpacket = .verify ∧ (preemptCfg s.cfg f.port).preemptableMask ≠ 0 ∧ bit (portFlags s.cfg
     f.port) 3 = false ∧ s.dbg.pounce = [] ∧ rxOpen (pcsCounts f s) f.port = true)
     ({ live with cfg.port := [(0, p25)], ports := [(0, { link := .up })], cfg.preempt := [(0,
                  { port := 0, preemptableMask := 1, addFragSize := 0, verify := 10 })] })) ∧
    (∃ p, Here (fun s => rxOpen s p = true) ({ live with cfg.port := [(0, p25)], ports := [(0, { link := .up })] })) ∧
    (∃ p, Here (fun s => rxOpen s p = false) (live)) ∧
    (∃ pg q r, Here (fun s => asksLadder s ∧ (rxGroup s pg).timedOut = q :: r)
     ({ live with rx.ladder := [{ number := 1, size := 4096, base := 100, count := 10 }], rx.groups := [(0,
                  { timedOut := [{ at_ := 0, pool := 0, port := 0, frame := 4 }] })] })) ∧
    (∃ pg n q r, Here (fun s => asksLadder s ∧ (rxGroup s pg).timedOut = q :: r ∧ handleOf s q n)
     ({ live with rx.ladder := [{ number := 1, size := 4096, base := 100, count := 10 }], rx.groups := [(0,
                  { timedOut := [{ at_ := 0, pool := 0, port := 0, frame := 4 }] })] })) ∧
    (∃ pg n q r h, Here (fun s => asksLadder s ∧ (rxGroup s pg).timedOut = [] ∧ (rxGroup s pg).requests = q :: r ∧ handleOf s q
     n ∧ (q.frame, h) ∈ (rxGroup s pg).frames) ({ live with rx.ladder :=
                                                              [{ number := 1, size := 4096, base := 100, count := 10 }],
                                                            rx.groups := [(0,
                                                            { requests := [{ at_ := 0, pool := 0, port := 0, frame := 4 }],
                                                              frames := [(4,
                                                              { info :=
                                                                  { port := 0, epoch := 0, dest := .core,
                                                                    bytes := List.replicate 60 0, frameLen := 64, stamp := 0,
                                                                    sfdCcyc := 0, preempt := false, held := true },
                                                                need := 60 })] })] })) ∧
    (∃ pg, Here (fun s => asksLadder s ∧ (rxGroup s pg).timedOut = [] ∧ (rxGroup s pg).requests = []) (live)) ∧
    (∃ pg q r, Here (fun s => clocked s = true ∧ (rxGroup s pg).requests = q :: r ∧ q.at_ + 128 ≤ s.tsu.now)
     ({ live with rx.ladder := [{ number := 1, size := 4096, base := 100, count := 10 },
                  { number := 2, size := 4096, base := 100, count := 10 }], rx.groups := [(0,
                  { requests := [{ at_ := 1599999872, pool := 0, port := 0, frame := 4 }], frames := [(4,
                    { info := { port := 0, epoch := 0, dest := .core, bytes := List.replicate 60 0, frameLen := 64, stamp := 0,
                                sfdCcyc := 0, preempt := false, held := true }, need := 60 })] })] })) ∧
    (∃ pg q r p h, Here (fun s => clocked s = true ∧ halting s = false ∧ (rxGroup s pg).requests = q :: r ∧ r.length < 16 ∧
     q.at_ + 128 ≤ s.tsu.now ∧ (rxGroup s pg).frames = [(q.frame, h)] ∧ (rxGroup s pg).asked ≠ some s.tsu.now ∧
     s.rx.ladder[q.pool + 1]? = some p) ({ live with rx.ladder := [{ number := 1, size := 4096, base := 100, count := 10 },
                                                     { number := 2, size := 4096, base := 100, count := 10 }], rx.groups := [(0,
                                                     { requests := [{ at_ := 1599999872, pool := 0, port := 0, frame := 4 }],
                                                       frames := [(4,
                                                       { info :=
                                                           { port := 0, epoch := 0, dest := .core, bytes := List.replicate 60 0,
                                                             frameLen := 64, stamp := 0, sfdCcyc := 0, preempt := false,
                                                             held := true }, need := 60 })] })] })) ∧
    (∃ port id h, Here (fun s => oneHeld port id h s ∧ halting s = false ∧ h.info.dest = .core ∧ h.info.charged = [])
     ({ live with rx.ladder := [{ number := 1, size := 4096, base := 100, count := 10 }], rx.groups := [(0,
                  { frames := [(4, { info := { port := 0, epoch := 0, dest := .core, bytes := List.replicate 60 0,
                                               frameLen := 64, stamp := 0, sfdCcyc := 0, preempt := false, held := true },
                                     need := 60, buffers := [(0, 100)], settled := true })] })] })) ∧
    (∃ port id h, Here (fun s => oneHeld port id h s ∧ h.due + 128 ≤ s.tsu.now)
     ({ live with rx.ladder := [{ number := 1, size := 4096, base := 100, count := 10 }], rx.groups := [(0,
                  { frames := [(4, { info := { port := 0, epoch := 0, dest := .core, bytes := List.replicate 60 0,
                                               frameLen := 64, stamp := 0, sfdCcyc := 0, preempt := false, held := true },
                                     need := 60, buffers := [(0, 100)], settled := true })] })] })) ∧
    (∃ pg tag w, Here (fun s => clocked s = true ∧ s.rx.cli.find? (fun w => w.pg = pg && w.tag = tag && s.tsu.now < w.at_ +
     4096) = some w) ({ live with rx.cli := [{ pg := 3, tag := 65535, at_ := 1599995905 }] })) ∧
    (∃ c pg tag, Here (fun s => clocked s = true ∧ (c ≠ pg ∨ s.rx.cli.find? (fun w => w.pg = pg && w.tag = tag && s.tsu.now <
     w.at_ + 4096) = none)) ({ live with rx.cli := [{ pg := 3, tag := 65535, at_ := 1599995904 }] })) ∧
    (∃ pg tag w, Here (fun s => clocked s = true ∧ s.rx.cli.find? (fun w => w.pg = pg && w.tag = tag && w.at_ + 4096 ≤
     s.tsu.now) = some w) ({ live with rx.cli := [{ pg := 3, tag := 65535, at_ := 1599995904 }] })) :=
  ⟨⟨{ port := 0, bytes := withFcs (List.replicate 60 0) },
    here_of (by
      refine ⟨⟨?_, rfl, (fun h => by cases h), ?_, none_all ?_, ?_, ?_, rfl, ?_, rfl, ?_, ?_, ?_, some_all p25 ?_ ?_, ?_, ?_,
        fun _ => ⟨?_, fun b => by cases b <;> decide +kernel⟩⟩, ?_, ?_, ?_⟩ <;> decide +kernel)⟩,
   ⟨{ port := 0, bytes := [], mpacket := .verify }, here_of (by decide +kernel)⟩,
   ⟨0, here_of (by decide +kernel)⟩,
   ⟨0, here_of (by decide +kernel)⟩,
   ⟨0, { at_ := 0, pool := 0, port := 0, frame := 4 }, [], here_of (⟨⟨by decide +kernel, by decide +kernel⟩,
    by decide +kernel⟩)⟩,
   ⟨0, 109, { at_ := 0, pool := 0, port := 0, frame := 4 }, [],
    here_of (by
      refine ⟨⟨?_, ?_⟩, ?_, ⟨{ number := 1, size := 4096, base := 100, count := 10 }, ?_, by decide, by decide⟩⟩ <;>
        decide +kernel)⟩,
   ⟨0, 109, { at_ := 0, pool := 0, port := 0, frame := 4 }, [],
    { info := { port := 0, epoch := 0, dest := .core, bytes := List.replicate 60 0, frameLen := 64, stamp := 0, sfdCcyc := 0,
                preempt := false, held := true }, need := 60 },
    here_of (by
      refine ⟨⟨?_, ?_⟩, ?_, ?_, ⟨{ number := 1, size := 4096, base := 100, count := 10 }, ?_, by decide, by decide⟩, ?_⟩ <;>
        decide +kernel)⟩,
   ⟨0, here_of (⟨⟨by decide +kernel, by decide +kernel⟩, by decide +kernel⟩)⟩,
   ⟨0, { at_ := 1599999872, pool := 0, port := 0, frame := 4 }, [], here_of (by decide +kernel)⟩,
   ⟨0, { at_ := 1599999872, pool := 0, port := 0, frame := 4 }, [], { number := 2, size := 4096, base := 100, count := 10 },
    { info := { port := 0, epoch := 0, dest := .core, bytes := List.replicate 60 0, frameLen := 64, stamp := 0, sfdCcyc := 0,
                preempt := false, held := true }, need := 60 }, here_of (by decide +kernel)⟩,
   ⟨0, 4, { info := { port := 0, epoch := 0, dest := .core, bytes := List.replicate 60 0, frameLen := 64, stamp := 0,
                      sfdCcyc := 0, preempt := false, held := true }, need := 60, buffers := [(0, 100)], settled := true },
    here_of (by
      refine ⟨⟨?_, ?_, ?_, ?_, ?_, ?_, ?_, ?_⟩, ?_⟩ <;> decide +kernel)⟩,
   ⟨0, 4, { info := { port := 0, epoch := 0, dest := .core, bytes := List.replicate 60 0, frameLen := 64, stamp := 0,
                      sfdCcyc := 0, preempt := false, held := true }, need := 60, buffers := [(0, 100)], settled := true },
    here_of (by
      refine ⟨⟨?_, ?_, ?_, ?_, ?_, ?_, ?_, ?_⟩, ?_⟩ <;> decide +kernel)⟩,
   ⟨3, 65535, { pg := 3, tag := 65535, at_ := 1599995905 }, here_of (by decide +kernel)⟩,
   ⟨3, 3, 65535, here_of (by decide +kernel)⟩,
   ⟨3, 65535, { pg := 3, tag := 65535, at_ := 1599995904 }, here_of (by decide +kernel)⟩⟩

/-- Premises of the clauses of TelemetryIsRead, ExportChannelsRunTheirChains and LifecycleAndZeroization that are about one ccyc. -/
theorem witness_ccycs :
    (∃ r, ({ live with tel.battBusy := some r } : State).tel.battBusy = some r ∧ r.next ≤ 32 ∧ sectionAt r.t0 r.next ≤ live.tsu.now) ∧
    (∃ r, ({ live with tel.sweepRun := some r } : State).tel.sweepRun = some r ∧ 64 < r.count - r.next) ∧
    (∃ e s, xRun (xchan s 2) = some e ∧ s.dbg.pounce = [] ∧ s.smc.poison = [] ∧ 0 < xLen e) ∧
    (∃ b s, tget s.cfg.xdma 2 = some b ∧ thas s.xdma 2 = true ∧ halting s = true) ∧
    (clocked (start 0 live) = true ∧ (start 0 live).mode.stage = .run ∧ (start 0 live).mode.zeroized = false) :=
  ⟨⟨{ t0 := 1599999937, accessId := 7, addr := 4096, mask := 1, head := [], counts := [], tail := [], missed := 0, failed := 0, lost := 0
      next := 32 }, rfl, by decide, by decide +kernel⟩,
   ⟨{ epoch := 0, ccyc := 0, time := 0, base := 0, count := 129, next := 64 }, rfl, by decide⟩,
   ⟨{ addr := 4096, desc := { srcAddr := 0, dstAddr := 4351, rowBytes := 64, rows := 1, srcStride := 64, dstStride := 64, nextAddr := 0
                              descCtl := 0 } },
    { live with xdma := [(2, { state := .running, begun := [
        { addr := 4096, desc := { srcAddr := 0, dstAddr := 4351, rowBytes := 64, rows := 1, srcStride := 64, dstStride := 64, nextAddr := 0
                                  descCtl := 0 } }] })] },
    by decide +kernel, rfl, rfl, by decide +kernel⟩,
   ⟨{ channel := 2, accessId := 7, busShare := 255, descAddr := 64 },
    { live with dbg := { freeze := some { f := 1599995904, byInput := true, time := 0 } }, xdma := [(2, {})],
                cfg := { xdma := [(2, { channel := 2, accessId := 7, busShare := 255, descAddr := 64 })] } },
    by decide +kernel, by decide +kernel, by decide +kernel⟩,
   by decide +kernel, by decide +kernel, by decide +kernel⟩

/-- A frame for the core, and its place on the bus of group 0, with the error `abort`. -/
def coreInfo (abort : Bool) : RxInfo :=
  { port := 0, epoch := 0, dest := .core, bytes := List.replicate 320 0, frameLen := 324, stamp := 0, sfdCcyc := 1600000000 - 1000
    preempt := false, held := false, speed := 25, abort, errAt := 1600000000 }
def onBus (abort : Bool) (sent : Nat) : BusFrame := { info := coreInfo abort, ready := 1600000000, whole := true, sent, buffers := [(0, 100)] }
def busState (abort : Bool) (sent : Nat) : State := { live with rx.groups := [(0, { bus := [(4, onBus abort sent)] })] }

/-- Premises of the clauses of FramesAreReceived that are about a frame's turn, an ICV and a buffer to return. -/
theorem witness_turns :
    (hasTurn 0 3 4 1 (onBus false 3) (busState false 3) ∧ (onBus false 3).sent ≠ 0) ∧
    (hasTurn 0 0 4 4 (onBus false 0) (busState false 0) ∧ (onBus false 0).sent = 0 ∧
      ((onBus false 0).info.abort = true → (busState false 0).tsu.now < (onBus false 0).info.errAt) ∧
      behind (rxGroup (busState false 0) 0) 4 (onBus false 0).info = false ∧ 4 ≠ 0) ∧
    (hasTurn 0 0 4 4 (onBus true 0) (busState true 0) ∧ (onBus true 0).sent = 0 ∧ (onBus true 0).info.abort = true ∧
      (onBus true 0).info.errAt ≤ (busState true 0).tsu.now) ∧
    (∃ h : HeldFrame, h.icvOk = true ∧ h.sa = some 3 ∧ h.pn < 2 ^ 64 - 1) ∧ (∃ h : HeldFrame, h.icvOk = false) ∧
    (∃ s : State, (1600000000, 0, 100) ∈ (rxGroup s 0).returns ∧ 1600000000 ≤ s.tsu.now) :=
  ⟨⟨⟨by decide +kernel, by decide +kernel⟩, by decide⟩,
   ⟨⟨by decide +kernel, by decide +kernel⟩, rfl, (fun h => by cases h), by decide +kernel, by decide⟩,
   ⟨⟨by decide +kernel, by decide +kernel⟩, rfl, rfl, by decide +kernel⟩,
   ⟨{ info := coreInfo false, need := 320, sa := some 3, pn := 2 ^ 64 - 2 }, rfl, rfl, by decide⟩,
   ⟨{ info := coreInfo false, need := 320, icvOk := false }, rfl⟩,
   ⟨{ live with rx.groups := [(0, { returns := [(1600000000, 0, 100)] })] }, by decide +kernel, by decide +kernel⟩⟩

/-! ## Commands that are taken -/

/-- Commands that meet the premises of StatusAndAttestation clause by clause. -/
theorem commands_StatusAndAttestation :
    Takes opNop (ask opNop) live (fun _ => True) ∧
    Takes opStatusGet (ask opStatusGet) live quietCpx ∧
    (∃ nonce, Takes (opAttestGet nonce) (ask (opAttestGet nonce)) live quietCpx) :=
  ⟨takes_of (by decide +kernel),
   takes_quiet (takes_of (by decide +kernel)),
   ⟨7, takes_quiet (takes_of (by decide +kernel))⟩⟩

/-- Commands that meet the premises of SessionsOpenCloseAndExpire clause by clause. -/
theorem commands_SessionsOpenCloseAndExpire :
    (∃ b n secret, Takes (opSessionOpen b) (askSigned (opSessionOpen b)) live (fun u => freeSession u = some n ∧ secretOf u
     (askSigned (opSessionOpen b)).keyId = some secret)) ∧
    (∃ b, Takes (opSessionOpen b) (askSigned (opSessionOpen b))
     ({ live with cpx.sessions := (List.range 64).map (fun n => (n, sess)) }) (fun u => freeSession u = none)) ∧
    (∃ id, Takes (opSessionClose id) (ask (opSessionClose id)) live (fun _ => True)) :=
  ⟨⟨{ hostNonce := 1, lifetime := 86400, groupMask := 0xFFFF }, 1, 0, takes_of (by decide +kernel)⟩,
   ⟨{ hostNonce := 1, lifetime := 1, groupMask := 0xFFFF }, takes_of (by decide +kernel)⟩,
   ⟨0x8000, takes_of (by decide +kernel)⟩⟩

/-- Commands that meet the premises of EpochsCommitAtTheirTime clause by clause. -/
theorem commands_EpochsCommitAtTheirTime :
    (∃ b, Takes (opEpochCommit b) (ask (opEpochCommit b))
     ({ live with cpx.staged := { edits := [.portClear 0], count := 1, bytes := 4, digest := 5 } }) (fun _ => b.commitTime =
     {})) ∧
    (∃ b, Takes (opEpochCommit b) (ask (opEpochCommit b))
     ({ live with cpx.staged := { edits := [.portClear 0], count := 1, bytes := 4, digest := 5 } }) (fun _ => b.commitTime ≠
     {})) :=
  ⟨⟨{ expectedEpoch := 0, commitTime := {}, stagedCount := 1, stagedDigest := 5 }, takes_of (by decide +kernel)⟩,
   ⟨{ expectedEpoch := 0, commitTime := { sec := 1 }, stagedCount := 1, stagedDigest := 5 }, takes_of (by decide +kernel)⟩⟩

/-- Commands that meet the premises of TimeStepsRatesAndSlews clause by clause. -/
theorem commands_TimeStepsRatesAndSlews :
    (∃ b, Takes (opTimeStep b) (ask (opTimeStep b)) live (fun _ => True)) ∧
    (∃ r, Takes (opTimeRateSet r) (ask (opTimeRateSet r)) live (fun _ => True)) ∧
    (∃ b, Takes (opTimeSlew b) (ask (opTimeSlew b)) live (fun _ => True)) :=
  ⟨⟨{ stepMode := 1, time := {}, offset := -4 }, takes_of (by decide +kernel)⟩,
   ⟨(-32768000000), takes_of (by decide +kernel)⟩,
   ⟨{ offset := -32768, duration := 1 }, takes_of (by decide +kernel)⟩⟩

/-- Commands that meet the premises of AccessesAreAnsweredOrViolate clause by clause. -/
theorem commands_AccessesAreAnsweredOrViolate :
    (∃ a, Takes (opMasterUnfreeze a) (ask (opMasterUnfreeze a)) ({ live with acc := [(7, { frozen := true })] }) (fun _ =>
     True)) :=
  ⟨7, takes_of (by decide +kernel)⟩

/-- Commands that meet the premises of ModesAndDrains clause by clause. -/
theorem commands_ModesAndDrains :
    (∃ b, Takes (opModeRequest b) (ask (opModeRequest b)) live (fun _ => b.mode ≠ 6)) ∧
    (∃ b, Takes (opModeRequest b) (ask (opModeRequest b)) live (fun _ => b.mode = 6)) :=
  ⟨⟨{ mode := 5, nextMode := 0, drainPorts := 0 }, takes_of (by decide +kernel)⟩,
   ⟨{ mode := 6, nextMode := 5, drainPorts := 1 }, takes_of (by decide +kernel)⟩⟩

/-- Commands that meet the premises of LanesHoldTheirInputs clause by clause. -/
theorem commands_LanesHoldTheirInputs :
    (∃ p, Takes (opLinkRetrain p) (ask (opLinkRetrain p)) ({ live with cfg.port := [(0, p25)] }) (fun _ => True)) :=
  ⟨0, takes_of (by decide +kernel)⟩

/-- Commands that meet the premises of ErrorsAreRecordedAndContained clause by clause. -/
theorem commands_ErrorsAreRecordedAndContained :
    (∃ u n, Takes (opErrorAck u n) (ask (opErrorAck u n)) ({ live with err.units := [(27, { first := some {}, count := 1 })] })
     (fun _ => True)) :=
  ⟨27, 1, takes_of (by decide +kernel)⟩

/-- Commands that meet the premises of KeysAreInstalledAndRevoked clause by clause. -/
theorem commands_KeysAreInstalledAndRevoked :
    (∃ b k, Takes (opKeyInstall b) (ask (opKeyInstall b)) ({ live with fuses.lifecycle := 1 }) (fun _ => b.unwrapped = some k)) ∧
    (∃ k, Takes (opKeyRevoke k) (ask (opKeyRevoke k)) ({ live with hood.slots := [(2, mgrKey), (0xFF, mgrKey)] }) (fun _ => k <
     0x100)) ∧
    (∃ k, Takes (opKeyRevoke k) (ask (opKeyRevoke k))
     ({ live with hood.delegated := [(0x100, { slot := mgrKey, mask := 0, target := 0, expiry := 9, issuer := 2 })] }) (fun _ =>
     0x100 ≤ k)) :=
  ⟨⟨{ keyId := 7, keyClass := 1, ecdsaPub := 4 * 2 ^ 768, mldsaPub := 0, wrappedSecret := 0, onCurve := true,
      unwrapped := some 9 }, 9, takes_of (by decide +kernel)⟩,
   ⟨0xFF, takes_of (by decide +kernel)⟩,
   ⟨0x100, takes_of (by decide +kernel)⟩⟩

/-- Commands that meet the premises of LifecycleAndZeroization clause by clause. -/
theorem commands_LifecycleAndZeroization :
    (∃ b, Takes (opLifecycleAdvance b) (ask (opLifecycleAdvance b))
     ({ live with fuses := { groupPresent := 1, bootAccessId := 1, fwImageAddr := 64, keyStoreAddr := 64 } }) (fun _ =>
     b.targetState = 1 ∨ b.targetState = 2)) ∧
    (∃ b, Takes (opLifecycleAdvance b) (ask (opLifecycleAdvance b)) live (fun u => b.targetState = 4 ∧ u.mode.zeroized = false ∧
     u.mode.stage = .run)) ∧
    (∃ v, Takes (opZeroize v) (ask (opZeroize v)) live (fun u => u.mode.zeroized = false ∧ u.mode.stage = .run)) :=
  ⟨⟨{ targetState := 1, token := none }, takes_of (by decide +kernel)⟩,
   ⟨{ targetState := 4, token := none }, takes_of (by decide +kernel)⟩,
   ⟨0x5A45524F, takes_of (by decide +kernel)⟩⟩

/-- Commands that meet the premises of FirmwareIsStagedAndActivated clause by clause. -/
theorem commands_FirmwareIsStagedAndActivated :
    (∃ b, Takes (opFirmwareStage b) (ask (opFirmwareStage b)) live (fun _ => True)) :=
  ⟨{ offset := 2097148, chunk := [1, 2, 3, 4] }, takes_of (by decide +kernel)⟩

/-- Commands that meet the premises of TokensAndPerturbations clause by clause. -/
theorem commands_TokensAndPerturbations :
    (∃ b, Takes (opPouncerSet b) (ask (opPouncerSet b)) ({ live with dbg.level := .opened }) (fun _ => b.perturbation ≠ 5 ∧
     b.perturbation ≠ 7 ∧ b.perturbation ≠ 8 ∧ b.perturbation ≠ 0xA)) ∧
    Takes opPouncerStop (ask opPouncerStop) ({ live with dbg.level := .opened }) (fun _ => True) :=
  ⟨⟨{ perturbation := 0xB, target := 0, duration := 0, rateLog2 := 30, rsv := 0, arg := 0 }, takes_of (by decide +kernel)⟩,
   takes_of (by decide +kernel)⟩

/-- Commands that meet the premises of FreezesStopTheClocks clause by clause. -/
theorem commands_FreezesStopTheClocks :
    (∃ n, Takes (opFreeze n) (ask (opFreeze n)) ({ live with dbg.level := .opened }) (fun _ => n ≠ 0)) ∧
    Takes (opFreeze 0) (ask (opFreeze 0)) ({ live with dbg.level := .opened }) (fun _ => True) :=
  ⟨⟨0x80, takes_of (by decide +kernel)⟩,
   takes_of (by decide +kernel)⟩

/-- Commands that meet the premises of TimeAndDelegationTravel clause by clause. -/
theorem commands_TimeAndDelegationTravel :
    (∃ c, Takes (opDelegationInstall c) (ask (opDelegationInstall c))
     ({ live with fuses.lifecycle := 1, fuses.groupPresent := 1 }) (fun u => roleOf u ≠ 1)) ∧
    (∃ c, Takes (opDelegationInstall c) (ask (opDelegationInstall c))
     ({ live with fuses.lifecycle := 1, fuses.groupPresent := 1, cfg.role := some { role := 1, inst := 0 } }) (fun u => roleOf u
     = 1)) :=
  ⟨⟨cert, takes_of (by decide +kernel)⟩,
   ⟨cert, takes_of (by decide +kernel)⟩⟩

/-- Commands that meet the premises of PortAndMacsecSettingsAreStaged clause by clause. -/
theorem commands_PortAndMacsecSettingsAreStaged :
    (∃ b, Enters (opPortSet b) (ask (opPortSet b)) live) ∧
    (∃ port, Enters (opPortClear port) (ask (opPortClear port)) ({ live with groups := [(31, { state := .powered })] })) ∧
    (∃ b, Enters (opPortAddrSet b) (ask (opPortAddrSet b)) live) ∧
    (∃ b, Enters (opPortVlanSet b) (ask (opPortVlanSet b)) live) ∧
    (∃ b, Enters (opLaneSet b) (ask (opLaneSet b)) live) ∧
    (∃ b, Enters (opZelgenTransportSet b) (ask (opZelgenTransportSet b)) live) ∧
    (∃ b, Enters (opSecySet b) (ask (opSecySet b)) live) ∧
    (∃ b, Enters (opScSet b) (ask (opScSet b)) live) ∧
    (∃ b, Enters (opScClear b) (ask (opScClear b)) live) :=
  ⟨⟨p25, ⟨takes_of (by decide +kernel), by decide +kernel⟩⟩,
   ⟨511, ⟨takes_of (by decide +kernel), by decide +kernel⟩⟩,
   ⟨{ port := 515, addr := 1 }, ⟨takes_of (by decide +kernel), by decide +kernel⟩⟩,
   ⟨{ port := 515, tagMode := 0xA, outerTpid := 0x88A8, innerTpid := 0x8100, vid := 4095, pcp := 7 }, ⟨takes_of (by
    decide +kernel), by decide +kernel⟩⟩,
   ⟨{ lane := 515, laneFlags := 0x1F }, ⟨takes_of (by decide +kernel), by decide +kernel⟩⟩,
   ⟨{ port := 515, ethEnable := 1, udpEnable := 1, udpPort := 65535, ipAddr := 1 }, ⟨takes_of (by decide +kernel),
    by decide +kernel⟩⟩,
   ⟨{ port := 0, cipherSuite := 4, secyFlags := 0, sci := 1, replayWindow := 1073741824 }, ⟨takes_of (by decide +kernel),
    by decide +kernel⟩⟩,
   ⟨{ portGroup := 0, direction := 1, scIndex := 255, port := 0, sci := 1 }, ⟨takes_of (by decide +kernel), by decide +kernel⟩⟩,
   ⟨{ portGroup := 0, direction := 1, scIndex := 255 }, ⟨takes_of (by decide +kernel), by decide +kernel⟩⟩⟩

/-- Commands that meet the premises of TrafficSettingsAreStaged clause by clause. -/
theorem commands_TrafficSettingsAreStaged :
    (∃ b, Enters (opClassSet b) (ask (opClassSet b)) live) ∧
    (∃ portGroup entry, Enters (opClassClear portGroup entry) (ask (opClassClear portGroup entry)) live) ∧
    (∃ b, Enters (opSenderIdSet b) (ask (opSenderIdSet b)) live) ∧
    (∃ b, Enters (opPolicerSet b) (ask (opPolicerSet b)) live) ∧
    (∃ context, Enters (opPolicerClear context) (ask (opPolicerClear context)) live) ∧
    (∃ b, Enters (opLeafSet b) (ask (opLeafSet b)) live) ∧
    (∃ leaf, Enters (opLeafClear leaf) (ask (opLeafClear leaf)) live) ∧
    (∃ b, Enters (opNodeSet b) (ask (opNodeSet b)) live) ∧
    (∃ node, Enters (opNodeClear node) (ask (opNodeClear node)) live) ∧
    (∃ b, Enters (opPortSchedSet b) (ask (opPortSchedSet b)) live) ∧
    (∃ b, Enters (opOverheadProfileSet b) (ask (opOverheadProfileSet b)) live) ∧
    (∃ b, Enters (opHostLeafSet b) (ask (opHostLeafSet b)) live) :=
  ⟨⟨{ portGroup := 0, entry := 63, cls := { entryFlags := 0x10, headerKind := 0xE, portMask := 1, secy := 0xFFFF, matchEn := 0,
                                            da := 0, daMask := 0, sa := 0, ethertype := 0, vidPcp := 0, vidPcpMask := 0,
                                            ipProto := 0, ipSrcBits := 128, l4DstPort := 0, l4DstMask := 0, ipSrc := 0,
                                            parseStatusMask := 0, trailerKeys := 0, rsv := 0 } }, ⟨takes_of (by decide +kernel),
    by decide +kernel⟩⟩,
   ⟨0, 63, ⟨takes_of (by decide +kernel), by decide +kernel⟩⟩,
   ⟨{ portGroup := 0, entry := 63, senderSource := 7, senderBase := 2047 }, ⟨takes_of (by decide +kernel), by decide +kernel⟩⟩,
   ⟨{ context := 0, rate := 1600000000, burst := 16777216, policerFlags := 1 }, ⟨takes_of (by decide +kernel),
    by decide +kernel⟩⟩,
   ⟨127, ⟨takes_of (by decide +kernel), by decide +kernel⟩⟩,
   ⟨{ leaf := 8191, parentNode := 511, cls := 15, weight := 65535, shaperRate := 1000, shaperBurst := 64,
      overheadProfile := 63 }, ⟨takes_of (by decide +kernel), by decide +kernel⟩⟩,
   ⟨8191, ⟨takes_of (by decide +kernel), by decide +kernel⟩⟩,
   ⟨{ node := 511, port := 0, cls := 15, weight := 65535, shaperRate := 1000, shaperBurst := 64 }, ⟨takes_of (by
    decide +kernel), by decide +kernel⟩⟩,
   ⟨511, ⟨takes_of (by decide +kernel), by decide +kernel⟩⟩,
   ⟨{ port := 0, strictClasses := 4, classWeights := List.replicate 16 1, grantQuantum := 16384, portShaperRate := 0 },
    ⟨takes_of (by decide +kernel), by decide +kernel⟩⟩,
   ⟨{ profile := 63, overhead := -32 }, ⟨takes_of (by decide +kernel), by decide +kernel⟩⟩,
   ⟨{ source := 0x0101, port := 0, leaf := 8191 }, ⟨takes_of (by decide +kernel), by decide +kernel⟩⟩⟩

/-- Commands that meet the premises of GateTimeAndRingSettingsAreStaged clause by clause. -/
theorem commands_GateTimeAndRingSettingsAreStaged :
    (∃ b, Enters (opGateListSet b) (ask (opGateListSet b)) live) ∧
    (∃ b, Enters (opPreemptSet b) (ask (opPreemptSet b)) live) ∧
    (∃ b, Enters (opPauseSet b) (ask (opPauseSet b)) live) ∧
    (∃ b, Enters (opPpsSet b) (ask (opPpsSet b)) live) ∧
    (∃ b, Enters (opTsuCalSet b) (ask (opTsuCalSet b)) live) ∧
    (∃ b, Enters (opRingConfig b) (ask (opRingConfig b)) live) ∧
    (∃ b, Enters (opRxSteerSet b) (ask (opRxSteerSet b)) live) :=
  ⟨⟨{ port := 0, baseTime := { ns := 999999999 }, cycleTime := 1000, listLen := 1, firstEntry := 0, count := 1,
      entries := [{ gates := 0xFFFF, interval := 1, rsv := 0 }] }, ⟨takes_of (by decide +kernel), by decide +kernel⟩⟩,
   ⟨{ port := 0, preemptableMask := 1, addFragSize := 3, verify := 128 }, ⟨takes_of (by decide +kernel), by decide +kernel⟩⟩,
   ⟨{ port := 0, pauseMode := 2, obeyMask := 0xFF, genMask := 0xFF, quanta := 65535, refresh := 65535 }, ⟨takes_of (by
    decide +kernel), by decide +kernel⟩⟩,
   ⟨{ ppsAll with pulseWidth := 500000000, ppsOutOffset := -500000000 }, ⟨takes_of (by decide +kernel), by decide +kernel⟩⟩,
   ⟨{ port := 515, rxCal := -65536000, txCal := 65536000 }, ⟨takes_of (by decide +kernel), by decide +kernel⟩⟩,
   ⟨{ ringCfg1 with ring := 255, holdTime := 100 }, ⟨takes_of (by decide +kernel), by decide +kernel⟩⟩,
   ⟨{ port := 515, matchIndex := 15, da := 1, ring := 255 }, ⟨takes_of (by decide +kernel), by decide +kernel⟩⟩⟩

/-- Commands that meet the premises of ServiceSettingsAreStaged clause by clause. -/
theorem commands_ServiceSettingsAreStaged :
    (∃ b, Enters (opIrqSourceSet b) (ask (opIrqSourceSet b)) live) ∧
    (∃ b, Enters (opIrqTargetSet b) (ask (opIrqTargetSet b)) live) ∧
    (∃ b, Enters (opBattSet b) (ask (opBattSet b)) live) ∧
    (∃ b, Enters (opCounterWindowSet b) (ask (opCounterWindowSet b)) live) ∧
    (∃ b, Enters (opSampleSet b) (ask (opSampleSet b)) live) ∧
    (∃ b, Enters (opQueueSampleSet b) (ask (opQueueSampleSet b)) live) ∧
    (∃ b, Enters (opEventModeSet b) (ask (opEventModeSet b)) live) ∧
    (∃ b, Enters (opSmcSet b) (ask (opSmcSet b)) live) ∧
    (∃ b, Enters (opFrcRegionSet b) (ask (opFrcRegionSet b)) live) ∧
    (∃ b, Enters (opXdmaChannelSet b) (ask (opXdmaChannelSet b)) live) ∧
    (∃ b, Enters (opGroupPowerSet b) (ask (opGroupPowerSet b)) live) ∧
    (∃ b, Enters (opWakeSet b) (ask (opWakeSet b)) live) ∧
    (∃ b, Enters (opAccessPolicySet b) (ask (opAccessPolicySet b)) live) ∧
    (∃ b, Enters (opHlkRoleSet b) (ask (opHlkRoleSet b)) live) ∧
    (∃ b, Enters (opHlkLinkSet b) (ask (opHlkLinkSet b)) live) ∧
    (∃ interval, Enters (opTimeDistSet interval) (ask (opTimeDistSet interval)) live) ∧
    (∃ b, Enters (opTelemetryAggSet b) (ask (opTelemetryAggSet b)) live) :=
  ⟨⟨{ source := 0xFDF, priority := 15, target := 0x20, modTime := 100, sourceFlags := 7 }, ⟨takes_of (by decide +kernel),
    by decide +kernel⟩⟩,
   ⟨{ target := 31, accessId := 4095, threshold := 15 }, ⟨takes_of (by decide +kernel), by decide +kernel⟩⟩,
   ⟨{ period := 1000, destAddr := 4096, destSize := 4096, contentMask := 1, accessId := 4095 }, ⟨takes_of (by decide +kernel),
    by decide +kernel⟩⟩,
   ⟨{ window := 255, accessId := 4095, content := 0 }, ⟨takes_of (by decide +kernel), by decide +kernel⟩⟩,
   ⟨{ rateLog2 := 30, spill := 1 }, ⟨takes_of (by decide +kernel), by decide +kernel⟩⟩,
   ⟨{ period := 10, queueMaskBase := 262143, count := 1 }, ⟨takes_of (by decide +kernel), by decide +kernel⟩⟩,
   ⟨{ event := 0xA, edgeOrLevel := 1 }, ⟨takes_of (by decide +kernel), by decide +kernel⟩⟩,
   ⟨{ dataRate := 5, ranks := 1, qosTargets := List.replicate 4 { latTarget := 1, share := 25, rsv := 0 } }, ⟨takes_of (by
    decide +kernel), by decide +kernel⟩⟩,
   ⟨{ region := 15, base := 0, size := 1048576, regionMode := 1, content := 0 }, ⟨takes_of (by decide +kernel),
    by decide +kernel⟩⟩,
   ⟨{ channel := 15, accessId := 4095, busShare := 255, descAddr := 64 }, ⟨takes_of (by decide +kernel), by decide +kernel⟩⟩,
   ⟨{ portGroup := 31, policy := 2 }, ⟨takes_of (by decide +kernel), by decide +kernel⟩⟩,
   ⟨{ portGroup := 31, wakeFlags := 0x1F }, ⟨takes_of (by decide +kernel), by decide +kernel⟩⟩,
   ⟨{ accessId := 4095, policy := 0x5F }, ⟨takes_of (by decide +kernel), by decide +kernel⟩⟩,
   ⟨{ role := 2, inst := 63 }, ⟨takes_of (by decide +kernel), by decide +kernel⟩⟩,
   ⟨{ port := 515, enable := 1 }, ⟨takes_of (by decide +kernel), by decide +kernel⟩⟩,
   ⟨1000000, ⟨takes_of (by decide +kernel), by decide +kernel⟩⟩,
   ⟨{ workerMask := 1, period := 60000000 }, ⟨takes_of (by decide +kernel), by decide +kernel⟩⟩⟩

/-- Commands that meet the premises of TrafficQueriesAnswer clause by clause. -/
theorem commands_TrafficQueriesAnswer :
    Takes opSessionList (ask opSessionList) live (fun _ => True) ∧
    Takes opEpochStatus (ask opEpochStatus) live (fun _ => True) ∧
    (∃ n, Takes (opErrorRead n) (ask (opErrorRead n)) live (fun _ => True)) ∧
    (∃ p, Takes (opPortStateGet p) (ask (opPortStateGet p)) live (fun _ => True)) ∧
    (∃ b, Takes (opSaStateGet b) (ask (opSaStateGet b)) live (fun _ => True)) ∧
    (∃ g n, Takes (opClassGet g n) (ask (opClassGet g n)) live (fun _ => True)) ∧
    (∃ g, Takes (opRefusalCountsGet g) (ask (opRefusalCountsGet g)) live (fun _ => True)) ∧
    (∃ n, Takes (opPolicerGet n) (ask (opPolicerGet n)) live (fun _ => True)) ∧
    (∃ k n, Takes (opSchedStateGet k n) (ask (opSchedStateGet k n)) live (fun _ => True)) :=
  ⟨takes_of (by decide +kernel),
   takes_of (by decide +kernel),
   ⟨0x1B, takes_of (by decide +kernel)⟩,
   ⟨515, takes_of (by decide +kernel)⟩,
   ⟨{ portGroup := 31, direction := 1, scIndex := 255, an := 3 }, takes_of (by decide +kernel)⟩,
   ⟨31, 63, takes_of (by decide +kernel)⟩,
   ⟨31, takes_of (by decide +kernel)⟩,
   ⟨69631, takes_of (by decide +kernel)⟩,
   ⟨2, 511, takes_of (by decide +kernel)⟩⟩

/-- Commands that meet the premises of ServiceQueriesAnswer clause by clause. -/
theorem commands_ServiceQueriesAnswer :
    (∃ p, Takes (opGateStateGet p) (ask (opGateStateGet p)) live (fun _ => True)) ∧
    Takes opTimeGet (ask opTimeGet) live (fun _ => True) ∧
    (∃ p n, Takes (opTsRead p n) (ask (opTsRead p n)) ({ live with tsu.ppsCaps := [(65535, 5)] }) (fun _ => True)) ∧
    (∃ k n, Takes (opRingStateGet k n) (ask (opRingStateGet k n)) live (fun _ => True)) ∧
    (∃ n, Takes (opIrqStateGet n) (ask (opIrqStateGet n)) live (fun _ => True)) ∧
    (∃ g n, Takes (opCountersGet g n) (ask (opCountersGet g n)) live (fun _ => True)) ∧
    (∃ c, Takes (opSmcStateGet c) (ask (opSmcStateGet c)) live (fun _ => True)) ∧
    Takes opPowerStateGet (ask opPowerStateGet) live (fun _ => True) ∧
    Takes opDebugStateGet (ask opDebugStateGet) live (fun _ => True) ∧
    Takes opKeyList (ask opKeyList) live (fun _ => True) ∧
    Takes opWorkerList (ask opWorkerList) live (fun _ => True) :=
  ⟨⟨511, takes_of (by decide +kernel)⟩,
   takes_of (by decide +kernel),
   ⟨0x0400, 65535, takes_of (by decide +kernel)⟩,
   ⟨3, 63, takes_of (by decide +kernel)⟩,
   ⟨31, takes_of (by decide +kernel)⟩,
   ⟨0xF, 0, takes_of (by decide +kernel)⟩,
   ⟨3, takes_of (by decide +kernel)⟩,
   takes_of (by decide +kernel),
   takes_of (by decide +kernel),
   takes_of (by decide +kernel),
   takes_of (by decide +kernel)⟩

/-- Commands that meet the premises of StagedSetIsUnsealedEmptiedAndBounded clause by clause. -/
theorem commands_StagedSetIsUnsealedEmptiedAndBounded :
    Takes opEpochCancel (ask opEpochCancel) ({ live with cpx.staged.sealed := some { sec := 9 } }) (fun _ => True) ∧
    Takes opEpochDiscard (ask opEpochDiscard) live (fun _ => True) :=
  ⟨takes_of (by decide +kernel),
   takes_of (by decide +kernel)⟩

/-- Commands that meet the premises of SecureAssociationsAreManaged clause by clause. -/
theorem commands_SecureAssociationsAreManaged :
    (∃ b y, Takes (opSaInstall b) (ask (opSaInstall b))
     ({ live with cfg.secy := [(0, { port := 0, cipherSuite := 4, secyFlags := 0, sci := 1, replayWindow := 0 })],
                  cfg.sc := [(0, { portGroup := 0, direction := 0, scIndex := 0, port := 0, sci := 1 })] }) (fun u => scSecy u
     b.portGroup b.direction b.scIndex = some y)) ∧
    (∃ b, Takes (opSaEnable b) (ask (opSaEnable b)) ({ live with cfg.secy := [(0,
                                                                 { port := 0, cipherSuite := 4, secyFlags := 0, sci := 1,
                                                                   replayWindow := 0 })], cfg.sc := [(0,
                                                                 { portGroup := 0, direction := 0, scIndex := 0, port := 0,
                                                                   sci := 1 })], sas := [(3, { state := .installed })] }) (fun _
     => True)) ∧
    (∃ b, Takes (opSaRetire b) (ask (opSaRetire b)) ({ live with cfg.secy := [(0,
                                                                 { port := 0, cipherSuite := 4, secyFlags := 0, sci := 1,
                                                                   replayWindow := 0 })], cfg.sc := [(0,
                                                                 { portGroup := 0, direction := 0, scIndex := 0, port := 0,
                                                                   sci := 1 })], sas := [(3, { state := .active })] }) (fun _ =>
     True)) :=
  ⟨⟨{ portGroup := 0, direction := 0, scIndex := 0, an := 3, keyLen := 32, ssci := 1, salt := 1, nextPn := 1, wrappedSak := 0,
      unwrapped := some 5 }, { port := 0, cipherSuite := 4, secyFlags := 0, sci := 1, replayWindow := 0 }, takes_of (by
    decide +kernel)⟩,
   ⟨{ portGroup := 0, direction := 0, scIndex := 0, an := 3 }, takes_of (by decide +kernel)⟩,
   ⟨{ portGroup := 0, direction := 0, scIndex := 0, an := 3 }, takes_of (by decide +kernel)⟩⟩

/-- Commands that meet the premises of PauseAndGatesFollowTheirTimers clause by clause. -/
theorem commands_PauseAndGatesFollowTheirTimers :
    (∃ b, Takes (opPauseSend b) (ask (opPauseSend b))
     ({ live with cfg.port := [(0, p25)], ports := [(0, { link := .up })], cfg.pause := [(0,
                  { port := 0, pauseMode := 1, obeyMask := 0, genMask := 0, quanta := 1, refresh := 1 })] }) (fun _ => True)) :=
  ⟨{ port := 0, classMask := 0x80, quanta := 65535 }, takes_of (by decide +kernel)⟩

/-- Commands that meet the premises of RingsRunStopAndReset clause by clause. -/
theorem commands_RingsRunStopAndReset :
    (∃ t n, Takes (opRingStart t n) (ask (opRingStart t n))
     ({ live with cfg.ring := [(5, { ringCfg1 with ring := 5 })], hpe.rings := [(5, { state := 1 })] }) (fun _ => True)) ∧
    (∃ t n, Takes (opRingStop t n) (ask (opRingStop t n))
     ({ live with cfg.ring := [(5, { ringCfg1 with ring := 5 })], hpe.rings := [(5, { state := 1 })] }) (fun u => (ringOf u
     (ringKey t n)).state = 1)) ∧
    (∃ t n, Takes (opRingStop t n) (ask (opRingStop t n))
     ({ live with cfg.ring := [(5, { ringCfg1 with ring := 5 })], hpe.rings := [(5, { state := 2 })] }) (fun u => (ringOf u
     (ringKey t n)).state = 2)) ∧
    (∃ t n, Takes (opRingReset t n) (ask (opRingReset t n))
     ({ live with cfg.ring := [(5, { ringCfg1 with ring := 5 })], hpe.rings := [(5, { state := 4 })] }) (fun _ => True)) :=
  ⟨⟨0, 5, takes_of (by decide +kernel)⟩,
   ⟨0, 5, takes_of (by decide +kernel)⟩,
   ⟨0, 5, takes_of (by decide +kernel)⟩,
   ⟨0, 5, takes_of (by decide +kernel)⟩⟩

/-- Commands that meet the premises of RanksMigrateAndChannelsTrain clause by clause. -/
theorem commands_RanksMigrateAndChannelsTrain :
    (∃ c k sp, Takes (opRankMigrate c k) (ask (opRankMigrate c k))
     ({ live with smc.ranks := [(0, { state := .inService }), (2, { state := .spare })] }) (fun u => spareLeft u = some sp ∧ sp
     ≠ c * 2 + k)) :=
  ⟨0, 0, 2, takes_of (by decide +kernel)⟩

/-- Commands that meet the premises of RegionsRecordAndStop clause by clause. -/
theorem commands_RegionsRecordAndStop :
    (∃ n, Takes (opFrcControl n 1) (ask (opFrcControl n 1)) ({ live with frc.regions := [(15, { state := .stopped })] }) (fun _
     => True)) ∧
    (∃ n, Takes (opFrcControl n 2) (ask (opFrcControl n 2)) ({ live with frc.regions := [(15, { state := .stopped })] }) (fun _
     => True)) ∧
    (∃ n, Takes (opFrcControl n 0) (ask (opFrcControl n 0)) ({ live with frc.regions := [(15, { state := .recording })] })
     (fun _ => True)) :=
  ⟨⟨15, takes_of (by decide +kernel)⟩,
   ⟨15, takes_of (by decide +kernel)⟩,
   ⟨15, takes_of (by decide +kernel)⟩⟩

/-- Commands that meet the premises of ExportChannelsRunTheirChains clause by clause. -/
theorem commands_ExportChannelsRunTheirChains :
    (∃ c, Takes (opXdmaStart c) (ask (opXdmaStart c)) ({ live with xdma := [(15, { state := .idle })] }) (fun _ => True)) ∧
    (∃ c, Takes (opXdmaStop c) (ask (opXdmaStop c)) ({ live with xdma := [(15, { state := .idle })] }) (fun u => (xchan u
     c).state = .idle)) ∧
    (∃ c, Takes (opXdmaStop c) (ask (opXdmaStop c)) ({ live with xdma := [(15, { state := .error })] }) (fun u => (xchan u
     c).state = .error)) ∧
    (∃ c, Takes (opXdmaStop c) (ask (opXdmaStop c)) ({ live with xdma := [(15,
                                                                 { state := .running,
                                                                   begun :=
                                                                     [{ addr := 4096,
                                                                        desc :=
                                                                          { srcAddr := 0, dstAddr := 4096, rowBytes := 64,
                                                                            rows := 1, srcStride := 64, dstStride := 64,
                                                                            nextAddr := 0, descCtl := 0 } }] })] }) (fun u =>
     (xchan u c).state = .running ∧ (xchan u c).begun ≠ [])) :=
  ⟨⟨15, takes_of (by decide +kernel)⟩,
   ⟨15, takes_of (by decide +kernel)⟩,
   ⟨15, takes_of (by decide +kernel)⟩,
   ⟨15, takes_of (by decide +kernel)⟩⟩

end Sys2Proof.Tests
end

section
/-! PROOFS. Telemetry (12): counter windows, batts and queue sweeps. First the form of a happening and the shared operations that the
rows use, then one rule per case of each telemetry operation, and the statement from them. -/
namespace Sys2Proof.Proofs
open Sys2Proof.Machine Sys2Proof.Safety

/-! ## Happenings and shared operations -/

/-- A row that is the happening of the effect `f`: it is enough to say what `f` does once time has passed. -/
theorem happens_of_effect {i : Instr} {dt : Nat} {f : State → State} {pre : State → Prop} {parts : List Part} {post : State → State → Prop}
    (hexec : ∀ s, exec i s = happen dt f s) (hfuses : Part.fuses ∉ parts) (hpending : Part.pending ∉ parts)
    (heffect : ∀ s, pre s → post s (f s) ∧ Changes parts s (f s)) : Happens i dt pre parts post := fun s hs =>
  have ⟨hpost, hchanges⟩ := heffect (start dt s) hs
  ⟨f (start dt s), (hexec s).trans (happen_next hchanges hfuses hpending), hpost, hchanges⟩

theorem mem_out_emit (o : Output) (s : State) : o ∈ (emit o s).out := List.mem_append_right _ (List.mem_singleton.mpr rfl)

@[simp] theorem total_tally_self (k : Nat) (s : State) : total (tally k s) k = total s k + 1 := by
  unfold tally count
  rw [if_neg Nat.one_ne_zero]
  exact tgetD_tput_self _ _ _ _

@[simp] theorem setLevel_tel (n : Nat) (b : Bool) (s : State) : (setLevel n b s).tel = s.tel := by
  unfold setLevel
  dsimp only
  split <;> rfl

@[simp] theorem raiseEvent_tel (n : Nat) (s : State) : (raiseEvent n s).tel = s.tel := setLevel_tel n true s

@[simp] theorem raiseEvent_out (n : Nat) (s : State) : (raiseEvent n s).out = s.out :=
  (raiseEvent_frame (Changes.refl [.levels, .jic] s) (by decide)).out (by decide)

/-! ## Counter windows (R289, R292) -/

/-- Access ID `id` reads its window `w`, which `b` configures, while nothing forbids it. -/
structure ReadsWindow (s : State) (id w : Nat) (b : WindowBody) : Prop where
  clocked : clocked s = true
  inRange : w < 256
  window : tget s.cfg.window w = some b
  owner : b.accessId = id
  notFrozen : accFrozen s id = false
  booted : s.mode.stage ≠ .boot
  notZeroized : s.mode.zeroized = false

/-- Key of the counter that a window of this CONTENT shows at an offset. -/
def windowCtr (c : BitVec 16) (off : Nat) : Nat :=
  ctrKey (contentCode c) (contentFirst c + off / strideOf (contentCode c)) (off % strideOf (contentCode c) / 8)

/-- Only the form of the access still decides about a read that nothing forbids. -/
theorem windowRead_of_readsWindow {s : State} {id w : Nat} {b : WindowBody} (h : ReadsWindow s id w b) (off width : Nat) :
    windowRead id w off width s =
      if width ≠ 8 ∨ off % 8 ≠ 0 ∨ 65536 ≤ off then tally windowBadReadsCtr (sypError s)
      else sypOk (windowWord w off b.content s).1 (windowWord w off b.content s).2 := by
  obtain ⟨hclocked, hw, hwindow, howner, hfrozen, hboot, hzero⟩ := h
  unfold windowRead
  simp [hclocked, Nat.not_le.mpr hw, hwindow, howner, hfrozen, hboot, hzero]

theorem windowRead_malformed {s : State} {id w off width : Nat} {b : WindowBody} (h : ReadsWindow s id w b)
    (hform : width ≠ 8 ∨ off % 8 ≠ 0 ∨ 65536 ≤ off) : windowRead id w off width s = tally windowBadReadsCtr (sypError s) := by
  rw [windowRead_of_readsWindow h, if_pos hform]

/-- A group without slot latches: the word is read against the window's baseline, which moves. -/
theorem windowWord_eq_takeWord {c : BitVec 16} {off : Nat} (w : Nat) (s : State) (hslot : contentCode c ≠ 2)
    (hindex : contentFirst c + off / strideOf (contentCode c) < indexCount (contentCode c)) :
    windowWord w off c s = takeWord w (windowCtr c off) (contentCode c) s := by
  unfold windowWord windowCtr
  simp [Nat.not_le.mpr hindex, hslot]

theorem windowRead_word {s : State} {id w off : Nat} {b : WindowBody} (h : ReadsWindow s id w b) (halign : off % 8 = 0)
    (hoff : off < 65536) (hslot : contentCode b.content ≠ 2)
    (hindex : contentFirst b.content + off / strideOf (contentCode b.content) < indexCount (contentCode b.content)) :
    windowRead id w off 8 s = sypOk (takeWord w (windowCtr b.content off) (contentCode b.content) s).1
      (takeWord w (windowCtr b.content off) (contentCode b.content) s).2 := by
  rw [windowRead_of_readsWindow h, if_neg (by omega), windowWord_eq_takeWord w s hslot hindex]

/-! ## Batts (R294 to R298) -/

/-- The section of its ccyc is added to the batt; the one after PG31's ends the body, which is then written. -/
theorem battRead_of_due {s : State} {r : BattRun} (hbusy : s.tel.battBusy = some r) (hnext : r.next ≤ 32)
    (hdue : sectionAt r.t0 r.next ≤ s.tsu.now) :
    ∃ x, (battRead s).tel = { s.tel with battBusy := some x } ∧
      (x.t0, x.accessId, x.mask, x.addr, x.next) = (r.t0, r.accessId, r.mask, r.addr, r.next + 1) ∧
      x.body = r.body ++ battSection s r.mask (if r.next < 32 then some r.next else none) ∧
      x.totals = r.totals ++ sectionTotals s r.mask (if r.next < 32 then some r.next else none) ∧
      (r.next = 32 → Output.hostWrite r.accessId (r.addr + 128) (x.body ++ r.tail) ∈ (battRead s).out) := by
  unfold battRead
  simp only [hbusy, if_neg (show ¬ (32 < r.next ∨ s.tsu.now < sectionAt r.t0 r.next) by omega)]
  split
  · exact ⟨_, rfl, rfl, rfl, rfl, fun hlast => by omega⟩
  · exact ⟨_, rfl, rfl, rfl, rfl, fun _ => mem_out_emit _ _⟩

/-- A snapshot begins with the section of PG0. -/
theorem battSnapshot_begins (b : BattBody) (s : State) :
    ∃ x, (battSnapshot b s).tel = { s.tel with battBusy := some x, battHold := false
                                               samples := if bit b.contentMask 16 then [] else s.tel.samples } ∧
      (x.t0, x.accessId, x.mask, x.addr, x.next) = (s.tsu.now, b.accessId, b.contentMask,
        b.destAddr + s.tel.battSlot % max 1 (battSlots b) * battSlotLen b.contentMask, 1) ∧
      x.body = battSection s b.contentMask (some 0) ∧ x.totals = sectionTotals s b.contentMask (some 0) := by
  unfold battSnapshot
  extract_lets m lost n run
  obtain ⟨x, htel, hrun, hbody, htotals, -⟩ := battRead_of_due (r := run)
    (s := { s with tel := { s.tel with battBusy := some run, battHold := false, samples := if bit m 16 then [] else s.tel.samples } })
    rfl (Nat.zero_le 32) (Nat.le_refl s.tsu.now)
  exact ⟨x, htel, hrun, hbody, htotals⟩

/-- Tick of the next trigger of a PERIOD of `p`, each 100 ticks: the first multiple after now (R294, R302). -/
def nextDue (s : State) (p : Nat) : Nat := (s.tsu.tick / max 1 (p * 100) + 1) * max 1 (p * 100)

section Trigger
variable {s : State} {b : BattBody} (hclocked : clocked s = true) (hmask : b.contentMask ≠ 0) (hdue : s.tel.battNext ≤ s.tsu.tick)
  (hcfg : s.cfg.batt = some b)
include hclocked hmask hdue

theorem battTrigger_notHeldBack : ¬ (clocked s = false ∨ b.contentMask = 0 ∨ s.tsu.tick < s.tel.battNext) :=
  not_or.mpr ⟨by simp [hclocked], not_or.mpr ⟨hmask, hdue.not_gt⟩⟩

include hcfg

theorem battTrigger_free (hbusy : s.tel.battBusy = none) (hfrozen : accFrozen s b.accessId = false) (hcommit : commitNear s = false) :
    battTrigger s = battSnapshot b { s with tel := { s.tel with battNext := nextDue s b.period } } := by
  unfold battTrigger
  simp only [hcfg, if_neg (battTrigger_notHeldBack hclocked hmask hdue), hbusy, hfrozen, hcommit]
  rfl

theorem battTrigger_busy {r : BattRun} (hbusy : s.tel.battBusy = some r) :
    battTrigger s = { s with tel := { s.tel with battNext := nextDue s b.period, battMissed := s.tel.battMissed + 1 } } := by
  unfold battTrigger
  simp only [hcfg, if_neg (battTrigger_notHeldBack hclocked hmask hdue), hbusy]
  rfl

end Trigger

/-- The body has been answered: the header goes out and the batt is over. -/
theorem battDone_ends {s : State} {r : BattRun} (hbusy : s.tel.battBusy = some r) (hclocked : clocked s = true) (hnext : 32 < r.next)
    (hanswered : r.t0 + battLen r.mask / 10 ≤ s.tsu.now) :
    (battDone s).tel.battBusy = none ∧ (battDone s).tel.battSeq = (s.tel.battSeq + 1) % 2 ^ 32 ∧ (battDone s).tel.battT0 = some r.t0 ∧
      Output.hostWrite r.accessId r.addr (battHeader r) ∈ (battDone s).out := by
  unfold battDone
  simp only [hbusy, hclocked, hnext.not_ge, hanswered.not_gt, reduceCtorEq, or_self, if_false, raiseEvent_tel, raiseEvent_out]
  exact ⟨rfl, rfl, rfl, mem_out_emit _ _⟩

/-! ## Queue sweeps (R188, R302) -/

@[simp] theorem length_lsbBytes (w v : Nat) : (lsbBytes w v).length = w := by simp [lsbBytes]

theorem length_sweepHead (r : SweepRun) (seq : Nat) : (sweepHead r seq).length = 32 := by
  simp [sweepHead]

@[simp] theorem endSweep_tel (r : SweepRun) (s : State) :
    (endSweep r s).tel =
      { s.tel with sweep := sweepHead r s.tel.sweepSeq ++ r.taken, sweepRun := none, sweepSeq := s.tel.sweepSeq + 1 } := by
  unfold endSweep
  extract_lets
  split
  · rfl
  · split <;> rfl

/-- More than 64 leaves are left: 64 are read, and the first under a new epoch is noted. -/
theorem sweepRead_goesOn {s : State} {r : SweepRun} (hrun : s.tel.sweepRun = some r) (hleft : 64 < r.count - r.next) :
    (sweepRead s).tel = { s.tel with sweepRun := some { r with
      next := r.next + 64
      taken := r.taken ++ (List.range 64).flatMap (fun i => sweepEntry s (r.base + r.next + i))
      changed := if r.changed = none ∧ s.cpx.epoch ≠ r.epoch then some r.next else r.changed } } := by
  unfold sweepRead
  have hmore : r.next + 64 < r.count := by omega
  simp only [hrun, Nat.min_eq_left hleft.le, if_pos hmore]

/-- At most 64 leaves are left: they are read, and the sweep is complete. -/
theorem sweepRead_ends {s : State} {r : SweepRun} (hrun : s.tel.sweepRun = some r) (hleft : r.count - r.next ≤ 64) :
    ∃ h, h.length = 32 ∧ (sweepRead s).tel = { s.tel with
      sweep := h ++ (r.taken ++ (List.range (r.count - r.next)).flatMap (fun i => sweepEntry s (r.base + r.next + i)))
      sweepRun := none, sweepSeq := s.tel.sweepSeq + 1 } := by
  unfold sweepRead
  have hlast : ¬ r.next + (r.count - r.next) < r.count := by omega
  simp only [hrun, Nat.min_eq_right hleft, if_neg hlast, endSweep_tel]
  exact ⟨_, length_sweepHead _ _, rfl⟩

/-- A sweep as it starts, before its first leaves are read. -/
def newSweep (s : State) (b : QueueSampleBody) : SweepRun :=
  { epoch := s.cpx.epoch, ccyc := ccycCount s, time := s.tsu.time, base := b.queueMaskBase, count := b.count }

/-- The state in which a due sweep takes its first leaves. -/
def sweepStarted (s : State) (b : QueueSampleBody) : State :=
  { s with tel := { s.tel with sweepRun := some (newSweep s b), sweepNext := nextDue s b.period } }

/-- The first leaves of a sweep are read as its start finds them. -/
theorem newSweep_takes (s : State) (b : QueueSampleBody) (n : Nat) :
    (newSweep s b).taken ++ (List.range n).flatMap
        (fun i => sweepEntry (sweepStarted s b) ((newSweep s b).base + (newSweep s b).next + i)) =
      (List.range n).flatMap (fun i => sweepEntry s (b.queueMaskBase + i)) := List.nil_append _

section Sweep
variable {s : State} {b : QueueSampleBody} (hcfg : s.cfg.qsample = some b) (hclocked : clocked s = true)
  (hdue : s.tel.sweepNext ≤ s.tsu.tick)
include hcfg hclocked hdue

theorem queueSweep_of_due : queueSweep s = sweepRead (sweepStarted s b) := by
  unfold queueSweep
  simp only [hcfg, hclocked, hdue.not_gt, reduceCtorEq, or_self, if_false]
  rfl

theorem queueSweep_few (hfew : b.count ≤ 64) :
    ∃ h, h.length = 32 ∧ (queueSweep s).tel = { s.tel with
      sweep := h ++ (List.range b.count).flatMap (fun i => sweepEntry s (b.queueMaskBase + i))
      sweepRun := none, sweepSeq := s.tel.sweepSeq + 1, sweepNext := nextDue s b.period } := by
  obtain ⟨h, hlen, htel⟩ := sweepRead_ends (s := sweepStarted s b) (r := newSweep s b) rfl hfew
  rw [newSweep_takes] at htel
  exact ⟨h, hlen, queueSweep_of_due hcfg hclocked hdue ▸ htel⟩

theorem queueSweep_many (hmany : 64 < b.count) :
    (queueSweep s).tel = { s.tel with
      sweepRun := some { newSweep s b with
        next := 64, taken := (List.range 64).flatMap (fun i => sweepEntry s (b.queueMaskBase + i)) }
      sweepNext := nextDue s b.period } := by
  rw [queueSweep_of_due hcfg hclocked hdue, sweepRead_goesOn (s := sweepStarted s b) (r := newSweep s b) rfl hmany, newSweep_takes,
    if_neg (fun h => h.2 rfl)]
  rfl

end Sweep

/-! ## The statement -/

/-- Settles O53: it holds, clause by clause from the rules above. -/
theorem telemetryIsRead : Obligations.TelemetryIsRead := by
  unfold Obligations.TelemetryIsRead
  refine ⟨?word, ?malformed, ?snapshot, ?missed, ?written, ?nextSection, ?sweep, ?sweepOn⟩
  case word =>
    refine fun dt id w off b => happens_of_effect (fun _ => rfl) (by decide) (by decide)
      fun s ⟨hclocked, hw, hwindow, howner, hfrozen, hboot, hzero, halign, hoff, hslot, hindex⟩ => ?_
    rw [windowRead_word ⟨hclocked, hw, hwindow, howner, hfrozen, hboot, hzero⟩ halign hoff hslot hindex]
    exact ⟨⟨mem_out_emit _ _, tgetD_tput_self _ _ _ _, fun j hj => tget_tput_ne _ _ _ _ hj⟩,
      sypOk_frame (takeWord_frame (Changes.refl _ s) (by decide)) (by decide)⟩
  case malformed =>
    refine fun dt id w off width b => happens_of_effect (fun _ => rfl) (by decide) (by decide)
      fun s ⟨hclocked, hw, hwindow, howner, hfrozen, hboot, hzero, hform⟩ => ?_
    rw [windowRead_malformed ⟨hclocked, hw, hwindow, howner, hfrozen, hboot, hzero⟩ hform]
    exact ⟨⟨tally_out windowBadReadsCtr (sypError s) ▸ mem_out_emit _ s, total_tally_self _ _⟩,
      tally_frame (sypError_frame (Changes.refl _ s) (by decide)) (by decide)⟩
  case snapshot =>
    refine fun dt b => happens_of_effect (fun _ => rfl) (by decide) (by decide)
      fun s ⟨hcfg, hclocked, hmask, hdue, hbusy, hfrozen, hcommit⟩ => ⟨?_, battTrigger_frame (Changes.refl _ s) (by decide)⟩
    rw [battTrigger_free hclocked hmask hdue hcfg hbusy hfrozen hcommit]
    obtain ⟨x, htel, hrun, hbody, htotals⟩ := battSnapshot_begins b { s with tel := { s.tel with battNext := nextDue s b.period } }
    simp only [Prod.mk.injEq] at hrun
    obtain ⟨ht0, hid, hmask', haddr, hnext⟩ := hrun
    rw [htel]
    exact ⟨⟨x, rfl, ht0, hid, hmask', haddr, hnext, hbody, htotals⟩, rfl, fun h => if_neg (by simp [h]), fun h => if_pos h⟩
  case missed =>
    refine fun dt b r => happens_of_effect (fun _ => rfl) (by decide) (by decide) fun s ⟨hcfg, hclocked, hmask, hdue, hbusy⟩ => ?_
    rw [battTrigger_busy hclocked hmask hdue hcfg hbusy]
    exact ⟨⟨rfl, hbusy⟩, upd_tel'tel rfl rfl rfl (Changes.refl _ s) (by decide)⟩
  case written =>
    exact fun dt r => happens_of_effect (fun _ => rfl) (by decide) (by decide) fun s ⟨hbusy, hclocked, hnext, hanswered⟩ =>
      ⟨battDone_ends hbusy hclocked hnext hanswered, battDone_frame (Changes.refl _ s) (by decide)⟩
  case nextSection =>
    intro s r hbusy hnext hdue
    obtain ⟨x, htel, hrun, hbody, -, hout⟩ := battRead_of_due hbusy hnext hdue
    simp only [Prod.mk.injEq] at hrun
    obtain ⟨-, -, -, -, hnext'⟩ := hrun
    rw [htel]
    exact ⟨x, rfl, hnext', hbody, hout⟩
  case sweep =>
    refine fun dt b => happens_of_effect (fun _ => rfl) (by decide) (by decide)
      fun s ⟨hcfg, hclocked, hdue⟩ => ⟨?_, queueSweep_frame (Changes.refl _ s) (by decide)⟩
    rcases le_or_gt b.count 64 with hfew | hmany
    · obtain ⟨h, hlen, htel⟩ := queueSweep_few hcfg hclocked hdue hfew
      rw [htel]
      exact ⟨rfl, fun _ => ⟨rfl, rfl, h, hlen, rfl⟩, fun hmany => absurd hfew hmany.not_ge⟩
    · rw [queueSweep_many hcfg hclocked hdue hmany]
      exact ⟨rfl, fun hfew => absurd hfew hmany.not_ge, fun _ => ⟨rfl, _, rfl, rfl, rfl, rfl, rfl, rfl⟩⟩
  case sweepOn =>
    intro s r hrun hleft
    rw [sweepRead_goesOn hrun hleft]
    exact ⟨_, rfl, rfl, rfl, rfl⟩

end Sys2Proof.Proofs
end

section
/-! PROOFS. Staging (R54, R57): each settings command stages its own edit, by the law of staging commands. What is left of a row is
that its meaning is the check of its opcode, that the opcode has that edit, and that the opcode is not open to all. -/
namespace Sys2Proof.Proofs
open Sys2Proof.Machine Sys2Proof.Safety

/-- Settles O37: it holds, row by row. -/
theorem portAndMacsecSettingsAreStaged : Obligations.PortAndMacsecSettingsAreStaged := by
  unfold Obligations.PortAndMacsecSettingsAreStaged
  refine ⟨?portSet, ?portClear, ?portAddrSet, ?portVlanSet, ?laneSet, ?zelgenTransportSet, ?secySet, ?scSet, ?scClear⟩
  all_goals
    intros
    exact stages_of (fun _ => rfl) rfl rfl

/-- Settles O38: it holds, row by row. -/
theorem trafficSettingsAreStaged : Obligations.TrafficSettingsAreStaged := by
  unfold Obligations.TrafficSettingsAreStaged
  refine ⟨?classSet, ?classClear, ?senderIdSet, ?policerSet, ?policerClear, ?leafSet, ?leafClear, ?nodeSet, ?nodeClear,
    ?portSchedSet, ?overheadProfileSet, ?hostLeafSet⟩
  all_goals
    intros
    exact stages_of (fun _ => rfl) rfl rfl

/-- Settles O39: it holds, row by row. -/
theorem gateTimeAndRingSettingsAreStaged : Obligations.GateTimeAndRingSettingsAreStaged := by
  unfold Obligations.GateTimeAndRingSettingsAreStaged
  refine ⟨?gateListSet, ?preemptSet, ?pauseSet, ?ppsSet, ?tsuCalSet, ?ringConfig, ?rxSteerSet⟩
  all_goals
    intros
    exact stages_of (fun _ => rfl) rfl rfl

/-- Settles O40: it holds, row by row. -/
theorem serviceSettingsAreStaged : Obligations.ServiceSettingsAreStaged := by
  unfold Obligations.ServiceSettingsAreStaged
  refine ⟨?irqSourceSet, ?irqTargetSet, ?battSet, ?counterWindowSet, ?sampleSet, ?queueSampleSet, ?eventModeSet, ?smcSet,
    ?frcRegionSet, ?xdmaChannelSet, ?groupPowerSet, ?wakeSet, ?accessPolicySet, ?hlkRoleSet, ?hlkLinkSet, ?timeDistSet,
    ?telemetryAggSet⟩
  all_goals
    intros
    exact stages_of (fun _ => rfl) rfl rfl

end Sys2Proof.Proofs
end

section
/-! PROOFS. Commits (R25, R26, R54, R55): what takes effect stays in force as the units follow it, which conditions refuse a commit,
and the statement from both. -/
namespace Sys2Proof.Proofs
open Sys2Proof.Machine Sys2Proof.Safety

/-! ## The effect of a commit (R25, R28) -/

/-- What the units may change as they follow the configuration of a commit. -/
def unitParts : List Part :=
  [.quarantine, .tsu, .sessions, .checks, .sealed, .err, .levels, .jic, .ctr, .sweep, .samples, .tel, .mem, .smc, .frc, .xdma,
   .groups, .ports, .gates, .hostQueue, .esh, .replies, .hpe, .pounce, .dbg, .hlk, .rx, .sas, .pols, .out]

theorem commitShared_changes (o : Cfg) (s : State) : Changes unitParts s (commitShared o s) := by
  unfold commitShared
  extract_lets n s1 s2 s3 s4 s5 s6 s7 s8
  have hrings : Changes unitParts s s1 := onChanged_frame (Changes.refl _ _) fun _ _ h => commitRing_frame h (by decide)
  have hsources : Changes unitParts s s2 := onChanged_frame hrings fun _ _ h => commitSource_frame h (by decide)
  have hwindows : Changes unitParts s s3 := onChanged_frame hsources fun _ _ h => commitWindow_frame h (by decide)
  have hevents : Changes unitParts s s4 := hwindows.foldl_frame fun _ _ h => commitEvent_frame h (by decide)
  have hmemory : Changes unitParts s s5 := commitSmc_frame (commitTel_frame hevents (by decide)) (by decide)
  have hregions : Changes unitParts s s6 := onChanged_frame hmemory fun _ _ h => commitRegion_frame h (by decide)
  have hbudgets : Changes unitParts s s7 := by
    unfold s7
    split
    · exact hregions
    · exact commitBudget_frame hregions (by decide)
  have hwakes : Changes unitParts s s8 :=
    onChanged_frame (onChanged_frame hbudgets fun _ _ h => commitChannel_frame h (by decide)) fun _ _ h =>
      commitWake_frame h (by decide)
  refine commitRole_frame ?_ (by decide)
  split
  · exact hwakes
  · exact commitPps_frame hwakes (by decide)

/-- The state that has adopted the staged configuration: the next set opens empty and the epoch has advanced, before any unit
follows. -/
def adopted (s : State) : State :=
  let n := nextCfg s.cfg s.cpx.staged.edits
  let s0 := if n.role = s.cfg.role then s else sendLeaves 0 s
  { s0 with
    cfg := n
    cpx := { s0.cpx with staged := {}, epoch := (s.cpx.epoch + 1) % 65536, lastEffect := toTime s.tsu.time
                         lastEffectCcyc := some s.tsu.now }
    mode := { s0.mode with drained := s0.mode.drained.filter (fun p => !(reopens s.cpx.staged.edits p)) } }

theorem commitEffect_changes_adopted (at_ : Time96) (s : State) : Changes unitParts (adopted s) (commitEffect at_ s) := by
  have hunits : Changes unitParts (adopted s) (commitShared s.cfg (commitEgress s.cfg (commitIngress s.cfg (adopted s)))) :=
    (commitEgress_frame (commitIngress_frame (Changes.refl _ _) (by decide)) (by decide)).trans (commitShared_changes _ _)
  have hrevived := hunits.foldl_frame (f := fun a e => revive e a) (xs := s.cpx.staged.edits) fun _ _ h => revive_frame h (by decide)
  exact battAtCommit_frame (raiseEvent_frame (eventRecord_frame (powerUpdate_frame hrevived (by decide)) (by decide)) (by decide))
    (by decide)

theorem adopted_activation (s : State) : (adopted s).cpx.activation = s.cpx.activation := by
  show (if _ then s else sendLeaves 0 s).cpx.activation = s.cpx.activation
  split
  · rfl
  · exact (sendLeaves_frame (Changes.refl [.hostQueue, .replies, .hlk, .out] s) fun _ h => h).cpx_activation (by decide)

/-- A commit's effect: the staged configuration is in force, and no unit that follows it changes that. -/
theorem commitEffect_committed (at_ : Time96) (s : State) : committed s.tsu.time s (commitEffect at_ s) := by
  have h := commitEffect_changes_adopted at_ s
  exact ⟨h.cfg (by decide), h.cpx_open (by decide) rfl, h.cpx_epoch (by decide), h.cpx_lastEffect (by decide)⟩

theorem commitEffect_activation (at_ : Time96) (s : State) : (commitEffect at_ s).cpx.activation = s.cpx.activation :=
  ((commitEffect_changes_adopted at_ s).cpx_activation (by decide)).trans (adopted_activation s)

/-- What has taken effect stays so under a change of other parts. -/
theorem committed_of_changes {at_ : Nat} {l : List Part} {s t t' : State} (h : committed at_ s t) (hc : Changes l t t')
    (hcfg : Part.cfg ∉ l) (hstaged : Part.staged ∉ l) (hcpx : Part.cpx ∉ l) : committed at_ s t' := by
  obtain ⟨h1, h2, h3, h4⟩ := h
  exact ⟨(hc.cfg hcfg).trans h1, (hc.cpx_open hstaged (by rw [h2])).trans h2, (hc.cpx_epoch hcpx).trans h3,
    (hc.cpx_lastEffect hcpx).trans h4⟩

/-! ## The conditions of a commit (R26, R55) -/

theorem firstOf_forall {P : Nat × Nat → Prop} {l : List Refused} (h : ∀ r ∈ l, ∀ x ∈ r, P x) : ∀ x ∈ firstOf l, P x := by
  induction l with
  | nil => simp [firstOf]
  | cons r l ih =>
    obtain ⟨hr, hl⟩ := List.forall_mem_cons.mp h
    cases r with
    | none => exact ih hl
    | some y => exact hr

/-- A status whose reply no transport and no REPLY_ON_ERROR withholds (R44, Table 2-2). -/
abbrev AlwaysAnswered (st : Nat) : Prop := 2 < st ∧ (st < 0x0201 ∨ 0x0206 < st)

theorem need_answered {ok : Bool} {st d : Nat} (h : AlwaysAnswered st) : ∀ x ∈ need ok st d, AlwaysAnswered x.1 := by
  unfold need
  split
  · nofun
  · rintro _ ⟨⟩
    exact h

theorem commitRefused_answered (b : EpochCommitBody) (s : State) : ∀ x ∈ commitRefused b s, AlwaysAnswered x.1 := by
  have hchecks : ∀ x ∈ commitChecks (nextCfg s.cfg s.cpx.staged.edits) s, AlwaysAnswered x.1 := by
    refine firstOf_forall ?_
    simp only [List.forall_mem_cons, param]
    refine ⟨?_, ?_, ?_, ?_, ?_, ?_, ?_, nofun⟩ <;> exact need_answered (by decide)
  refine firstOf_forall ?_
  simp only [List.forall_mem_cons]
  refine ⟨?_, ?_, ?_, ?_, ?_, ?_, hchecks, nofun⟩ <;> exact need_answered (by decide)

/-- A commit that is not refused finds its set open, its time not past, and the last effect 16 µs ago (R26, R55). -/
theorem commitRefused_none {b : EpochCommitBody} {s : State} (h : commitRefused b s = none) :
    s.cpx.staged.sealed = none ∧ (b.commitTime = {} ∨ s.tsu.time ≤ ofTime b.commitTime) ∧
      ∀ x, s.cpx.lastEffectCcyc = some x → x + us 16 ≤ s.tsu.now := by
  have hconds := firstOf_none h
  simp only [List.forall_mem_cons] at hconds
  obtain ⟨-, -, -, hopen, htime, hsoon, -⟩ := hconds
  refine ⟨Option.isNone_iff_eq_none.mp (need_none hopen), by simpa using need_none htime, fun x hx => ?_⟩
  rw [hx] at hsoon
  exact of_decide_eq_true (need_none hsoon)

/-- Beside the form of its time, an EPOCH_COMMIT is checked for the conditions of R55 and R26. -/
theorem paramCheck_epochCommit (b : EpochCommitBody) (c : ReplyCtx) (s : State) :
    paramCheck (opEpochCommit b) c s = if timeOk b.commitTime then commitRefused b s else some (stOutOfRange, 2) := by
  unfold paramCheck opEpochCommit
  cases timeOk b.commitTime <;> simp

theorem paramCheck_none_open {b : EpochCommitBody} {c : ReplyCtx} {s : State} (h : paramCheck (opEpochCommit b) c s = none) :
    s.cpx.staged.sealed = none := by
  rw [paramCheck_epochCommit] at h
  split at h
  · exact (commitRefused_none h).1
  · cases h

/-- A commit whose time is past, or that comes too soon after the last effect, is refused (R26). -/
theorem paramCheck_late {b : EpochCommitBody} {s : State} (c : ReplyCtx)
    (h : (b.commitTime ≠ {} ∧ ofTime b.commitTime < s.tsu.time) ∨ ∃ x, s.cpx.lastEffectCcyc = some x ∧ s.tsu.now < x + us 16) :
    ∃ x, paramCheck (opEpochCommit b) c s = some x ∧ AlwaysAnswered x.1 := by
  rw [paramCheck_epochCommit]
  split
  · cases hrefused : commitRefused b s with
    | some x => exact ⟨x, rfl, commitRefused_answered b s x hrefused⟩
    | none =>
      obtain ⟨-, htime, hlast⟩ := commitRefused_none hrefused
      obtain ⟨htimed, hpast⟩ | ⟨x, hx, hsoon⟩ := h
      · exact (htime.elim htimed hpast.not_ge).elim
      · exact absurd (hlast x hx) hsoon.not_ge
  · exact ⟨_, rfl, by decide⟩

/-! ## A command whose parameters are refused (R46) -/

theorem zelgen_authenticated {op : Op} {z : Zelgen} {s u : State} {c : ReplyCtx} (h : authenticated op z s = some (c, u)) :
    zelgen op z (start z.dt s) = activationRestart (concluded c (carryOut op c z u)) := by
  have hk := authenticated_known h
  obtain ⟨w, c1, s1, k, n, s2, ht, hc, rfl, rfl⟩ := authenticated_some h
  obtain ⟨hprocessing, hrestart, hwaiting, rfl⟩ := takenUp_some ht
  rw [hk] at hc ⊢
  rw [← checked_passed hc]
  unfold zelgen
  rw [if_neg (by simp [hprocessing, hrestart]), hwaiting]
  dsimp only
  rw [hk]

theorem authenticated_ctx {op : Op} {z : Zelgen} {s u : State} {c : ReplyCtx} (h : authenticated op z s = some (c, u)) :
    c.origin = z.origin ∧ c.opcode = op.opcode ∧ c.sequence = z.sequence ∧ c.correlation = z.correlation := by
  have hk := authenticated_known h
  obtain ⟨w, c1, s1, k, n, s2, ht, -, rfl, -⟩ := authenticated_some h
  obtain ⟨-, -, -, rfl⟩ := takenUp_some ht
  rw [hk]
  exact ⟨rfl, rfl, rfl, rfl⟩

/-- An authenticated command whose parameters are refused is answered with the refusal, and has no effect (R46). -/
theorem command_refused {op : Op} {z : Zelgen} {s u : State} {c : ReplyCtx} {st d : Nat} (h : authenticated op z s = some (c, u))
    (hmode : modeCheck op u = none) (hparam : paramCheck op c u = some (st, d)) (hst : AlwaysAnswered st) :
    ∃ t, command op z s = .next t ∧ Changes replyParts u t ∧ Replied z op.opcode st [] t := by
  have hcarry : carryOut op c z u = { state := u, status := st, detail := d } := by
    simp only [carryOut, hmode, hparam, ite_self]
  have hchanges : Changes replyParts u (concluded c { state := u, status := st, detail := d }) := concluded_changes c _
  have hzelgen : zelgen op z (start z.dt s) = concluded c { state := u, status := st, detail := d } := by
    rw [zelgen_authenticated h, hcarry]
    exact activationRestart_none ((hchanges.cpx_activation (by decide)).trans (modeCheck_activation hmode))
  have hwhole := ((authenticated_changes h).mono (l' := checkParts ++ replyParts) (by decide)).trans (hchanges.mono (by decide))
  refine ⟨_, ?_, hchanges, ?_⟩
  · unfold command
    rw [hzelgen, within_of_changes hwhole (by decide) (by decide)]
  · obtain ⟨horigin, hopcode, hsequence, hcorrelation⟩ := authenticated_ctx h
    obtain ⟨y, hout, hop, hstatus, hbody, hseq, hcor⟩ :=
      concluded_out (c := c) (r := { state := u, status := st, detail := d }) rfl (.inr hst.1) hst.2
    exact ⟨y, horigin ▸ hout, hop.trans hopcode, hstatus, hbody, hseq.trans hsequence, hcor.trans hcorrelation⟩

/-! ## The rows of a commit -/

/-- An immediate commit takes effect when `d` ccyc have passed. -/
def commitAfter (d : Nat) (s : State) : State := commitEffect (toTime (advance d s).tsu.time) (advance d s)

theorem commitAfter_committed (d : Nat) {s : State} (hopen : s.cpx.staged.sealed = none) :
    committed (advance d s).tsu.time s (commitAfter d s) := by
  have hwait : Changes timeParts s (advance d s) := advance_frame (Changes.refl _ s) (by decide)
  have heffect : committed (advance d s).tsu.time (advance d s) (commitAfter d s) := commitEffect_committed _ _
  unfold committed at heffect ⊢
  rwa [hwait.cfg (by decide), hwait.cpx_open (by decide) hopen, hwait.cpx_epoch (by decide)] at heffect

theorem commitAfter_activation (d : Nat) (s : State) : (commitAfter d s).cpx.activation = s.cpx.activation :=
  (commitEffect_activation _ _).trans
    ((advance_frame (Changes.refl timeParts s) (by decide)).cpx_activation (by decide))

theorem commitAfter_changes (d : Nat) (s : State) : Changes (.shown :: .draws :: commitParts) s (commitAfter d s) :=
  commitEffect_frame (advance_frame (Changes.refl _ s) (by decide)) (by decide)

theorem sealing_changes (at_ : Time96) {s : State} (hopen : s.cpx.staged.sealed = none) :
    Changes [.staged] s { s with cpx := { s.cpx with staged := { s.cpx.staged with sealed := some at_ } } } := by
  intro p hp
  cases p
  case staged => simp at hp
  case sealed => exact fun hsealed => absurd hopen hsealed
  case sent => exact fun _ h => h
  all_goals rfl

theorem opEpochCommit_run_now {b : EpochCommitBody} {c : ReplyCtx} {s : State} (h : b.commitTime = {}) :
    (opEpochCommit b).run c s =
      { state := commitAfter (snapshotLeft s + 1) s, body := [(2, (commitAfter (snapshotLeft s + 1) s).cpx.epoch)] } :=
  if_pos h

theorem opEpochCommit_run_timed {b : EpochCommitBody} {c : ReplyCtx} {s : State} (h : b.commitTime ≠ {}) :
    (opEpochCommit b).run c s =
      { state := { s with cpx := { s.cpx with staged := { s.cpx.staged with sealed := some b.commitTime } } }
        status := stPending, body := [(2, s.cpx.epoch)] } :=
  if_neg h

theorem commitDue_of_due {at_ : Time96} {s : State} (hclocked : clocked s = true) (hsealed : s.cpx.staged.sealed = some at_)
    (htime : ofTime at_ ≤ s.tsu.time) : commitDue s = commitEffect at_ s := by
  unfold commitDue
  simp only [hsealed, hclocked, htime, and_self, if_true]

theorem commitDue_of_early {s : State} (h : ∀ at_, s.cpx.staged.sealed = some at_ → s.tsu.time < ofTime at_) : commitDue s = s := by
  unfold commitDue
  split
  next at_ hsealed => exact if_neg fun hdue => (h at_ hsealed).not_ge hdue.2
  next => rfl

/-! ## The statement -/

/-- Settles O10: it holds; an immediate commit waits, a timed one seals the set, a due one takes effect, and one that is late or too
soon is refused. -/
theorem epochsCommitAtTheirTime : Obligations.EpochsCommitAtTheirTime := by
  unfold Obligations.EpochsCommitAtTheirTime
  refine ⟨?immediate, ?timed, ?due, ?notDue, ?refused⟩
  case immediate =>
    refine fun z b => performs_of (fun _ => rfl) rfl rfl (by decide) (by decide) (by decide)
      (fun u v t hv hc => committed_of_changes hv hc (by decide) (by decide) (by decide)) fun c u hnow _ hparam => ?_
    have heffect := commitAfter_committed (snapshotLeft u + 1) (paramCheck_none_open hparam)
    rw [opEpochCommit_run_now hnow]
    have ⟨_, _, hepoch, _⟩ := heffect
    exact ⟨rfl, rfl, by rw [hepoch], commitAfter_activation _ _, heffect, (commitAfter_changes _ u).mono (by decide)⟩
  case timed =>
    refine fun z b => performs_of (fun _ => rfl) rfl rfl (by decide) (by decide) (by decide)
      (fun u v t hv hc => (hc.cpx_staged (by decide) (by decide)).trans hv) fun c u htimed _ hparam => ?_
    rw [opEpochCommit_run_timed htimed]
    exact ⟨rfl, rfl, rfl, rfl, rfl, (sealing_changes _ (paramCheck_none_open hparam)).mono (by decide)⟩
  case due =>
    refine fun dt at_ => happens_of_effect (fun _ => rfl) (by decide) (by decide) fun s ⟨hclocked, hsealed, htime⟩ => ?_
    rw [commitDue_of_due hclocked hsealed htime]
    exact ⟨commitEffect_committed _ _, commitEffect_frame (Changes.refl _ s) (by decide)⟩
  case notDue =>
    refine fun dt => happens_of_effect (fun _ => rfl) (by decide) (by decide) fun s hearly => ?_
    rw [commitDue_of_early hearly]
    exact ⟨trivial, Changes.refl _ s⟩
  case refused =>
    intro z b s u c hauth _ _ hmode hlate
    obtain ⟨⟨st, d⟩, hparam, hst⟩ := paramCheck_late c hlate
    obtain ⟨t, hnext, hchanges, hreplied⟩ := command_refused hauth hmode hparam hst
    exact ⟨t, st, hnext, hst.1, hchanges.cpx_staged (by decide) (by decide), hchanges, hreplied⟩

end Sys2Proof.Proofs
end

section
/-! PROOFS. The step (02 R48): it is the row at the front of the queue, and a row leaves the queue behind it as it was. -/
namespace Sys2Proof.Proofs
open Sys2Proof.Machine Sys2Proof.Safety

/-- Every row, whether a command or a happening, leaves what it would within the fuses and the queue of its state. -/
theorem exec_within (i : Instr) (s : State) : ∃ t, exec i s = .next (within s t) := by
  cases i <;> exact ⟨_, rfl⟩

theorem exec_next (i : Instr) (s : State) : ∃ t, exec i s = .next t ∧ t.pending = s.pending := by
  obtain ⟨t, ht⟩ := exec_within i s
  exact ⟨within s t, ht, rfl⟩

/-- Settles O1: it holds by the definition of a step. -/
theorem stepCarriesOutTheFront : Obligations.StepCarriesOutTheFront := fun _ _ _ => rfl

/-- Settles O4: it holds, since a row keeps the queue; a step on the empty queue is a happening. -/
theorem everyStepAnswersInOrder : Obligations.EveryStepAnswersInOrder := by
  unfold Obligations.EveryStepAnswersInOrder
  refine ⟨exec_next, fun s => ?_⟩
  unfold step
  split
  next hempty => exact ⟨_, rfl, by rw [hempty]; exact hempty⟩
  next c r hfront =>
    obtain ⟨t, ht, hpending⟩ := exec_next c { s with pending := r }
    exact ⟨t, ht, by rw [hpending, hfront]; rfl⟩

end Sys2Proof.Proofs
end

section
/-! PROOFS. The checks of a command (02 R42 to R47, R58, R392): the order of R46 as one list of checks, the consumption of a sequence,
how a refused command ends, and the statements from them. -/
namespace Sys2Proof.Proofs
open Sys2Proof.Machine Sys2Proof.Safety

/-! ## Command rows -/

theorem exec_of_commandOf {i : Instr} {op : Op} {z : Zelgen} (h : commandOf i = some (op, z)) (s : State) :
    exec i s = command op z s := by
  cases i <;> cases h <;> rfl

theorem known_of_commandOf {i : Instr} {op : Op} {z : Zelgen} (h : commandOf i = some (op, z)) : op.unknown = false := by
  cases i <;> cases h <;> rfl

theorem seenAs_defined {op : Op} {z : Zelgen} (h : z.undefined = none) : seenAs op z = op := by
  unfold seenAs
  rw [h]

/-- The row of a command whose check leaves fuses and queue alone. -/
theorem exec_command_next {i : Instr} {op : Op} {z : Zelgen} {s : State} {l : List Part} (hi : commandOf i = some (op, z))
    (h : Changes l (start z.dt s) (zelgen op z (start z.dt s))) (hfuses : Part.fuses ∉ l) (hpending : Part.pending ∉ l) :
    exec i s = .next (zelgen op z (start z.dt s)) := by
  rw [exec_of_commandOf hi, command, within_of_changes h hfuses hpending]

/-! ## The order of R46 -/

/-- How a list of checks ends: refused with the status of the first that fails, or as `v`. -/
def verdictOf (l : List (Bool × Nat)) (s : State) (v : Verdict) : Verdict :=
  match firstFailing l with
  | some st => .refused st 0 s
  | none => v

/-- One check ahead of the rest. -/
theorem verdictOf_cons {b : Bool} {st : Nat} {l : List (Bool × Nat)} {s : State} {v rest : Verdict} {p : Prop} [Decidable p]
    (hcheck : p ↔ b = false) (hrest : b = true → rest = verdictOf l s v) :
    (if p then .refused st 0 s else rest) = verdictOf ((b, st) :: l) s v := by
  cases b with
  | false => exact if_pos (hcheck.mpr rfl)
  | true => exact (if_neg (hcheck.not.mpr nofun)).trans (hrest rfl)

/-- A command whose checks all hold passes under the session's key or its own, and its sequence is consumed. -/
def passedAs (z : Zelgen) (w : Who) (s : State) : Verdict :=
  .passed (w.session.map (·.sk)) (match w.session with | some x => x.keyId | none => z.keyId) (consume z s)

/-- The check of R46 is the list of its checks in order. -/
theorem checkZ_eq_verdictOf {op : Op} {z : Zelgen} {s : State} (c : ReplyCtx) (hauth : authKind z ≠ 0)
    (htarget : field z.target 5 0 = instOf s) :
    checkZ op c z s =
      verdictOf (checksOf op z s) s (passedAs z ((whoOf s z.keyId).getD { manager := false }) s) := by
  unfold checkZ checksOf
  refine verdictOf_cons (by simp) fun _ => ?_
  refine verdictOf_cons (by grind) fun _ => ?_
  refine verdictOf_cons (by grind) fun _ => ?_
  refine verdictOf_cons (by grind) fun _ => ?_
  refine verdictOf_cons (by simp) fun _ => ?_
  rw [if_neg (not_not.mpr htarget), if_neg hauth]
  refine verdictOf_cons (by simp) fun _ => ?_
  refine verdictOf_cons (by simp) fun _ => ?_
  unfold authCheck
  cases whoOf s z.keyId with
  | none => rfl
  | some w =>
    refine (if_neg (c := false = true) nofun).symm.trans (verdictOf_cons (by simp) fun _ => ?_)
    refine verdictOf_cons (by simp) fun _ => ?_
    refine verdictOf_cons (by simp only [Option.all_some]; grind) fun _ => ?_
    refine verdictOf_cons (by simp) fun _ => ?_
    exact verdictOf_cons (by simp) fun _ => rfl

theorem firstFailing_mem {l : List (Bool × Nat)} {st : Nat} (h : firstFailing l = some st) : ∃ b, (b, st) ∈ l := by
  obtain ⟨⟨b, n⟩, hfind, rfl⟩ := Option.map_eq_some_iff.mp h
  exact ⟨b, List.mem_of_find?_eq_some hfind⟩

/-- No check of R46 fails with a status that REPLY_ON_ERROR withholds. -/
theorem checksOf_status {op : Op} {z : Zelgen} {s : State} {st : Nat} (h : firstFailing (checksOf op z s) = some st) : 2 < st := by
  have hall : ∀ x ∈ checksOf op z s, 2 < x.2 := by simp [checksOf]
  obtain ⟨b, hmem⟩ := firstFailing_mem h
  exact hall _ hmem

/-! ## Taking a command up (R43) -/

/-- Taking a command up moves the queue and the round, and nothing that a check reads. -/
theorem takeWaiting_eq {o : Origin} {w : Waiting} {s u : State} (h : takeWaiting o s = some (w, u)) :
    ∃ queue round, u = { s with cpx := { s.cpx with queue, round } } := by
  unfold takeWaiting at h
  split at h
  · cases h
    exact ⟨_, _, rfl⟩
  · cases h

theorem checksOf_takeWaiting {op : Op} {z : Zelgen} {o : Origin} {w : Waiting} {s u : State} (h : takeWaiting o s = some (w, u)) :
    checksOf op z u = checksOf op z s := by
  obtain ⟨_, _, rfl⟩ := takeWaiting_eq h
  rfl

theorem instOf_takeWaiting {o : Origin} {w : Waiting} {s u : State} (h : takeWaiting o s = some (w, u)) : instOf u = instOf s := by
  obtain ⟨_, _, rfl⟩ := takeWaiting_eq h
  rfl

theorem roleOf_takeWaiting {o : Origin} {w : Waiting} {s u : State} (h : takeWaiting o s = some (w, u)) : roleOf u = roleOf s := by
  obtain ⟨_, _, rfl⟩ := takeWaiting_eq h
  rfl

/-- What CPX makes of a command that it takes up. -/
theorem zelgen_taken {op : Op} {z : Zelgen} {s u : State} {w : Waiting} (hprocessing : processing s = true)
    (hrestart : s.cpx.restart = none) (hwaiting : takeWaiting z.origin s = some (w, u)) :
    zelgen op z s = activationRestart (zelgen.checked (seenAs op z) z w u) := by
  unfold zelgen
  rw [if_neg (by simp [hprocessing, hrestart]), hwaiting]

/-! ## How a refused command ends (R44, R46) -/

/-- A refused command's frame has ended, it is answered with the status, and recorded. -/
def refusal (c : ReplyCtx) (w : Waiting) (st : Nat) (u : State) : State :=
  commandRecord c st (answer c st 0 [] (settleFrame w (st < 0x0201 || 0x0206 < st) u))

theorem checked_refused {op : Op} {z : Zelgen} {w : Waiting} {u : State} {st : Nat}
    (h : checkZ op (ctxOf op z w u) z u = .refused st 0 u) : zelgen.checked op z w u = refusal (ctxOf op z w u) w st u := by
  unfold zelgen.checked
  simp only [h]
  rfl

/-- What the refusal of a command that was taken up changes: nothing of CPX. -/
def refusalParts : List Part :=
  [.pols, .replies, .ctr, .samples, .levels, .jic, .frc, .dbg, .pounce, .err, .out, .hostQueue, .hlk]

theorem refusal_changes (c : ReplyCtx) (w : Waiting) (st : Nat) (u : State) : Changes refusalParts u (refusal c w st u) :=
  commandRecord_frame (answer_frame (settleFrame_frame (Changes.refl _ u) (by decide)) (by decide)) (by decide)

theorem refusal_out (c : ReplyCtx) (w : Waiting) (st : Nat) (u : State) :
    (refusal c w st u).out = (answer c st 0 [] (settleFrame w (st < 0x0201 || 0x0206 < st) u)).out :=
  (commandRecord_changes c st _).out (by decide)

/-- An authentication failure that came over the network is counted and not answered (R44). -/
theorem answer_network {c : ReplyCtx} {st d : Nat} {b : Fields} (s : State) (hnetwork : network c.origin = true) (hlow : 0x0201 ≤ st)
    (hhigh : st ≤ 0x0206) : answer c st d b s = countRefused c s := by
  have hunanswered : unanswered c st = true := by
    unfold unanswered
    rw [Bool.and_eq_true, Bool.and_eq_true]
    exact ⟨⟨hnetwork, decide_eq_true hlow⟩, decide_eq_true hhigh⟩
  unfold answer
  rw [if_neg (by simp; omega), if_pos hunanswered]

theorem refusal_network {c : ReplyCtx} {w : Waiting} {st : Nat} (u : State) (hnetwork : network c.origin = true) (hlow : 0x0201 ≤ st)
    (hhigh : st ≤ 0x0206) : (refusal c w st u).out = u.out := by
  rw [refusal_out, answer_network _ hnetwork hlow hhigh]
  exact (countRefused_frame (settleFrame_frame (Changes.refl [.err, .levels, .jic, .ctr, .samples, .frc, .pounce, .dbg, .pols] u)
    (by decide)) (by decide)).out (by decide)

/-- A refusal that R44 does not withhold is answered. -/
theorem answer_refusal_out {c : ReplyCtx} {st d : Nat} {b : Fields} {s : State} (hst : 2 < st)
    (h : network c.origin = false ∨ st < 0x0201 ∨ 0x0206 < st) :
    Output.reply c.origin (mkReply c st d b s) ∈ (answer c st d b s).out := by
  obtain hlocal | hstatus := h
  · have hanswered : unanswered c st = false := by
      unfold unanswered
      rw [Bool.and_eq_false_iff, Bool.and_eq_false_iff]
      exact .inl (.inl hlocal)
    unfold answer
    rw [if_neg (by simp; omega), if_neg (by simp [hanswered])]
    exact deliverReply_out _ _ _
  · exact answer_out (.inr hst) hstatus

/-- A block that is not a manager forwards nothing (R42). -/
theorem forward_of_notManager {s : State} (op : Op) (c : ReplyCtx) (z : Zelgen) (h : roleOf s ≠ 1) : forward op c z s = none := by
  unfold forward
  unfold roleOf at h
  dsimp only
  split
  next r w hrole _ =>
    rw [hrole] at h
    exact if_neg fun hforward => h hforward.1
  next => rfl

section OpenForm
variable {op : Op} {z : Zelgen} {s : State} (c : ReplyCtx) (hform : openForm op z) (hknown : op.unknown = false)
include hform hknown

/-- Without authentication the checks of the form are followed by TARGET. -/
theorem checkZ_noRoute (htarget : field z.target 5 0 ≠ instOf s) (hrole : roleOf s ≠ 1) : checkZ op c z s = .refused stNoRoute 0 s := by
  obtain ⟨hauth, hversion, hlength, hbody, hpad, hlen, hflags, hreserved, hrsv, hkey, hzero⟩ := hform
  unfold checkZ
  simp [hauth, hversion, hlength, hbody, hpad, hlen, hflags, hreserved, hrsv, hkey, hzero, hknown, htarget,
    forward_of_notManager op c z hrole]

/-- At this block only the commands that need no authentication go on. -/
theorem checkZ_notOpen (htarget : field z.target 5 0 = instOf s) (hopen : isOpen op = false) :
    checkZ op c z s = .refused stNotAuthorised 0 s := by
  obtain ⟨hauth, hversion, hlength, hbody, hpad, hlen, hflags, hreserved, hrsv, hkey, hzero⟩ := hform
  unfold checkZ
  simp [hauth, hversion, hlength, hbody, hpad, hlen, hflags, hreserved, hrsv, hkey, hzero, hknown, htarget, hopen]

end OpenForm

/-- A command that is taken up and whose check refuses it is refused. -/
theorem refused_of_verdict {i : Instr} {op : Op} {z : Zelgen} {s : State} {st : Nat} (hi : commandOf i = some (op, z))
    (htakes : takes z (start z.dt s)) (hst : 2 < st)
    (hverdict : ∀ c w u, takeWaiting z.origin (start z.dt s) = some (w, u) → checkZ (seenAs op z) c z u = .refused st 0 u) :
    refused i (seenAs op z) z s st := by
  obtain ⟨hprocessing, hrestart, hactivation, hwaits⟩ := htakes
  obtain ⟨⟨w, u⟩, hwaiting⟩ := Option.isSome_iff_exists.mp hwaits
  obtain ⟨_, _, hu⟩ := takeWaiting_eq hwaiting
  let c := ctxOf (seenAs op z) z w u
  have hrefusal : Changes refusalParts u (refusal c w st u) := refusal_changes c w st u
  have hzelgen : zelgen op z (start z.dt s) = refusal c w st u := by
    rw [zelgen_taken hprocessing hrestart hwaiting, checked_refused (hverdict _ _ _ hwaiting)]
    exact activationRestart_none ((hrefusal.cpx_activation (by decide)).trans (by rw [hu]; exact hactivation))
  have hchanges : Changes refusedParts (start z.dt s) (refusal c w st u) :=
    ((takeWaiting_some hwaiting).1.mono (by decide)).trans (hrefusal.mono (by decide))
  refine ⟨refusal c w st u, ?_, hchanges, hchanges.cpx_sessions (by decide), ?_, ?_, fun hanswered => ?_⟩
  · rw [exec_command_next hi (hzelgen ▸ hchanges) (by decide) (by decide), hzelgen]
  · rw [hrefusal.cpx_keySeq (by decide), hu]
  · rintro ⟨hnetwork, hlow, hhigh⟩ o r hreply
    rw [refusal_network u hnetwork hlow hhigh, hu] at hreply
    exact hreply
  · obtain ⟨hopcode, hstatus, hbody, hsequence, hcorrelation⟩ :=
      mkReply_fields c st 0 [] (settleFrame w (st < 0x0201 || 0x0206 < st) u)
    exact ⟨_, (refusal_out c w st u) ▸ answer_refusal_out hst hanswered, hopcode, hstatus, hbody, hsequence, hcorrelation⟩

/-! ## The consumption of a sequence (R47) -/

theorem bit_setBit_self {n : Nat} (w : BitVec n) {i : Nat} (h : i < n) : bit (setBit w i) i = true := by
  unfold bit setBit
  simp [h]

/-- A session's window holds the sequence that it has accepted. -/
theorem accept_holds (x : Session) (q : Nat) :
    ((x.accept q).seqHigh < q || ((x.accept q).seqHigh - q < 64 && !bit (x.accept q).window ((x.accept q).seqHigh - q))) = false := by
  unfold Session.accept
  split
  · simp [bit_setBit_self]
  · by_cases hnear : x.seqHigh - q < 64
    · simp [bit_setBit_self _ hnear]; omega
    · simp [hnear]; omega

/-- A consumed sequence is fresh no more. -/
theorem fresh_consume (z : Zelgen) (s : State) : fresh (consume z s) z = false := by
  unfold fresh consume
  by_cases hsession : 0x8000 ≤ z.keyId
  · simp only [if_pos hsession]
    cases hopen : tget s.cpx.sessions (z.keyId - 0x8000) with
    | none => simp [hopen]
    | some x =>
      by_cases hlast : z.sequence = 2 ^ 64 - 1
      · simp [hlast, tget_tdel_self]
      · simp only [if_neg hlast, tget_tput_self]
        rw [accept_holds, Bool.and_false]
  · simp [if_neg hsession, tgetD_tput_self]

/-- `fresh` reads sessions and key sequences only. -/
theorem fresh_of_changes {l : List Part} {s t : State} {z : Zelgen} (h : Changes l s t) (hsessions : Part.sessions ∉ l)
    (hchecks : Part.checks ∉ l) : fresh t z = fresh s z := by
  unfold fresh
  rw [h.cpx_sessions hsessions, h.cpx_keySeq hchecks]

/-- A command that passes is for this block. -/
theorem checkZ_passed_target {op : Op} {c : ReplyCtx} {z : Zelgen} {s t : State} {k : Option Digest} {n : Nat}
    (h : checkZ op c z s = .passed k n t) : field z.target 5 0 = instOf s := by
  revert h
  fun_cases checkZ op c z s <;> intro h <;> simp_all

theorem checkZ_passed_consumes {op : Op} {c : ReplyCtx} {z : Zelgen} {s t : State} {k : Option Digest} {n : Nat}
    (h : checkZ op c z s = .passed k n t) (hauth : authKind z ≠ 0) : t = consume z s := by
  rw [checkZ_eq_verdictOf c hauth (checkZ_passed_target h)] at h
  unfold verdictOf at h
  split at h
  · cases h
  · cases h
    rfl

/-- A command that is taken up is authenticated where its check passes. -/
theorem authenticated_isSome {op : Op} {z : Zelgen} {s u : State} {w : Waiting} {c : ReplyCtx} (h : takenUp op z s = some (w, c, u)) :
    (authenticated op z s).isSome = true ↔ ∃ k n t, checkZ (seenAs op z) c z u = .passed k n t := by
  unfold authenticated
  rw [h]
  dsimp only
  split <;> simp_all

/-! ## Commands that end before their effect -/

/-- CPX takes nothing up outside RUN, during a restart, and where nothing waits that may be served. -/
theorem zelgen_idle {op : Op} {z : Zelgen} {s : State}
    (h : processing s = false ∨ s.cpx.restart.isSome = true ∨ takeWaiting z.origin s = none) : zelgen op z s = s := by
  unfold zelgen
  by_cases hclosed : processing s = false ∨ s.cpx.restart.isSome = true
  · rw [if_pos hclosed]
  · rw [if_neg hclosed, (or_assoc.mpr h).resolve_left hclosed]

/-- An authenticated command whose effect is a refusal is answered with it, and nothing else changes (R46). -/
theorem command_refused_of {i : Instr} {op : Op} {z : Zelgen} {s u : State} {c : ReplyCtx} {st d : Nat}
    (hi : commandOf i = some (op, z)) (hpassed : authenticated op z s = some (c, u)) (hactivation : u.cpx.activation = none)
    (hcarry : carryOut op c z u = { state := u, status := st, detail := d }) (hst : 2 < st) (hanswered : st < 0x0201 ∨ 0x0206 < st) :
    ∃ t, exec i s = .next t ∧ Changes replyParts u t ∧ Replied z op.opcode st [] t := by
  have hchanges : Changes replyParts u (concluded c { state := u, status := st, detail := d }) := concluded_changes c _
  have hzelgen : zelgen op z (start z.dt s) = concluded c { state := u, status := st, detail := d } := by
    rw [zelgen_authenticated hpassed, hcarry]
    exact activationRestart_none ((hchanges.cpx_activation (by decide)).trans hactivation)
  have hwhole : Changes (checkParts ++ replyParts) (start z.dt s) (concluded c { state := u, status := st, detail := d }) :=
    ((authenticated_changes hpassed).mono (by decide)).trans (hchanges.mono (by decide))
  refine ⟨_, ?_, hchanges, ?_⟩
  · rw [exec_command_next hi (hzelgen ▸ hwhole) (by decide) (by decide), hzelgen]
  · obtain ⟨horigin, hopcode, hsequence, hcorrelation⟩ := authenticated_ctx hpassed
    obtain ⟨y, hout, hop, hstatus, hbody, hseq, hcor⟩ :=
      concluded_out (c := c) (r := { state := u, status := st, detail := d }) rfl (.inr hst) hanswered
    exact ⟨y, horigin ▸ hout, hop.trans hopcode, hstatus, hbody, hseq.trans hsequence, hcor.trans hcorrelation⟩

/-! ## The statements -/

/-- Settles O43: it holds; the check of R46 is its list of checks in order, and a refusal moves no replay state. -/
theorem checksInOrder : Obligations.ChecksInOrder := by
  unfold Obligations.ChecksInOrder
  intro i op z s st hi htakes hauth htarget hfails
  refine refused_of_verdict hi htakes (checksOf_status hfails) fun c w u hwaiting => ?_
  rw [checkZ_eq_verdictOf c hauth (by rw [instOf_takeWaiting hwaiting, htarget]), checksOf_takeWaiting hwaiting, verdictOf, hfails]

/-- Settles O44: it holds; behind the checks of its form such a command meets TARGET, and then the list of open commands. -/
theorem unauthenticatedCommandsAreRefused : Obligations.UnauthenticatedCommandsAreRefused := by
  unfold Obligations.UnauthenticatedCommandsAreRefused
  intro i op z s hi htakes hform hdefined
  have hknown : op.unknown = false := known_of_commandOf hi
  have hseen : seenAs op z = op := seenAs_defined hdefined
  refine ⟨fun htarget hnotStatus hnotAttest => ?_, fun htarget hrole => ?_⟩
  · rw [← hseen]
    refine refused_of_verdict hi htakes (by decide) fun c w u hwaiting => ?_
    rw [hseen, checkZ_notOpen c hform hknown ((instOf_takeWaiting hwaiting).symm ▸ htarget) (by simp [isOpen, hnotStatus, hnotAttest])]
    rfl
  · rw [← hseen]
    refine refused_of_verdict hi htakes (by decide) fun c w u hwaiting => ?_
    rw [hseen, checkZ_noRoute c hform hknown ((instOf_takeWaiting hwaiting).symm ▸ htarget)
      ((roleOf_takeWaiting hwaiting).symm ▸ hrole)]
    rfl

/-- Settles O45: it holds; the check of R46 passes where its list of checks does, and a consumed sequence is not fresh. -/
theorem authenticationConsumesTheSequence : Obligations.AuthenticationConsumesTheSequence := by
  unfold Obligations.AuthenticationConsumesTheSequence
  refine ⟨fun op z s htaken hauth htarget => ?_, fun op z s u c hpassed hauth => ?_⟩
  · obtain ⟨⟨w, c, u⟩, htaken⟩ := Option.isSome_iff_exists.mp htaken
    obtain ⟨-, -, hwaiting, -⟩ := takenUp_some htaken
    rw [authenticated_isSome htaken, checkZ_eq_verdictOf c hauth ((instOf_takeWaiting hwaiting).symm ▸ htarget),
      checksOf_takeWaiting hwaiting]
    unfold verdictOf
    cases firstFailing (checksOf (seenAs op z) z (start z.dt s)) with
    | none => exact iff_of_true ⟨_, _, _, rfl⟩ rfl
    | some st => exact iff_of_false (by simp) (by simp)
  · obtain ⟨w, c1, s1, k, n, s2, -, hcheck, -, rfl⟩ := authenticated_some hpassed
    rw [checkZ_passed_consumes hcheck hauth]
    exact (fresh_of_changes (settleFrame_frame (Changes.refl [.err, .levels, .jic, .ctr, .samples, .frc, .pounce, .dbg, .pols] _)
      (by decide)) (by decide) (by decide)).trans (fresh_consume z s1)

/-- Settles O46: it holds; a refusal by the mode or by the parameters is the whole effect. -/
theorem modeAndParametersRefuse : Obligations.ModeAndParametersRefuse := by
  unfold Obligations.ModeAndParametersRefuse
  intro i op z s u c st d hi hpassed hactivation hauth hanswered hst hrefuses
  have hcarry : carryOut op c z u = { state := u, status := st, detail := d } := by
    obtain hmode | ⟨hmode, hparam⟩ := hrefuses
    · simp only [carryOut, if_neg hauth, hmode]
    · simp only [carryOut, if_neg hauth, hmode, hparam]
  exact command_refused_of hi hpassed hactivation hcarry hst hanswered

/-- Settles O47: it holds; CPX takes no such command up. -/
theorem nothingIsProcessedOutsideRun : Obligations.NothingIsProcessedOutsideRun := by
  unfold Obligations.NothingIsProcessedOutsideRun
  intro i op z s hi hidle
  have hzelgen : zelgen op z (start z.dt s) = start z.dt s := zelgen_idle hidle
  rw [exec_command_next (l := []) hi (by rw [hzelgen]; exact Changes.refl _ _) (by decide) (by decide), hzelgen]

end Sys2Proof.Proofs
end

section
/-! PROOFS. Status and attestation, sessions, the staged set, and the queries of groups 0x06 to 0x0F (02 R49 to R52, R57, Table 2-9):
each command from its effect, by the laws of admitted commands. -/
namespace Sys2Proof.Proofs
open Sys2Proof.Machine Sys2Proof.Safety

/-! ## Queries (R49) -/

/-- IRQ_STATE_GET shows as many sources as the claim stack holds. -/
theorem irqReply_eq (x : TgtSt) :
    irqReply x = [(1, x.stack.length)] ++ (x.stack.reverse.map (fun e => ((1, e.2) : Nat × Nat)) ++
      List.replicate (16 - x.stack.length) (1, 0xFF)) ++ [(4, x.vanish)] := by
  simp [irqReply]

/-- Settles O42: it holds, query by query. -/
theorem serviceQueriesAnswer : Obligations.ServiceQueriesAnswer := by
  unfold Obligations.ServiceQueriesAnswer
  refine ⟨?gateStateGet, ?timeGet, ?tsRead, ?ringStateGet, ?irqStateGet, ?countersGet, ?smcStateGet, ?powerStateGet, ?debugStateGet,
    ?keyList, ?workerList⟩
  case irqStateGet => exact fun z n => answers_of (fun _ => rfl) rfl (fun _ u => by rw [← irqReply_eq]; rfl) rfl
  all_goals
    intros
    exact answers_of (fun _ => rfl) rfl (fun _ _ => rfl) rfl

/-! ## Commands that are carried out while an activation waits (R46, R392) -/

theorem activationRestart_quiet {s : State} (h : quietCpx s) : activationRestart s = s := by
  unfold activationRestart
  split
  next a hactivation => exact if_pos (h a hactivation)
  next => rfl

theorem quietCpx_of_changes {l : List Part} {s t : State} (h : Changes l s t) (hcpx : Part.cpx ∉ l) (hchecks : Part.checks ∉ l)
    (hquiet : quietCpx s) : quietCpx t := by
  unfold quietCpx
  rw [h.cpx_activation hcpx, h.cpx_queue hchecks]
  exact hquiet

/-- A command that no activation follows, for one that needs no authentication too. -/
theorem performs_of_quiet {i : Instr} {op : Op} {z : Zelgen} {st : Nat} {body : State → Fields} {l : List Part}
    {post : State → State → Prop} (hi : commandOf i = some (op, z)) (hedit : op.edit = none) (hst : st < 0x0201 ∨ 0x0206 < st)
    (hfuses : Part.fuses ∉ l) (hpending : Part.pending ∉ l) (hpost : ∀ u v t, post u v → Changes replyParts v t → post u t)
    (hrun : ∀ c u, quietCpx u →
      (op.run c u).later = false ∧ (op.run c u).status = st ∧ (op.run c u).body = body u ∧ quietCpx (op.run c u).state ∧
      post u (op.run c u).state ∧ Changes l u (op.run c u).state) :
    Performs i op op.opcode z quietCpx st body l post := by
  intro s c u hadmitted hquiet
  obtain ⟨horigin, hopcode, hsequence, hcorrelation, honError, -, -⟩ := admitted_ctx hadmitted
  obtain ⟨hlater, hstatus, hbody, hquiet', heffect, hchanges⟩ := hrun c u hquiet
  have hconcluded : Changes replyParts (op.run c u).state (concluded c (op.run c u)) := concluded_changes c _
  have hzelgen : zelgen op z (start z.dt s) = concluded c (op.run c u) := by
    rw [zelgen_admitted hadmitted, effectOf, hedit]
    exact activationRestart_quiet (quietCpx_of_changes hconcluded (by decide) (by decide) hquiet')
  have hwhole : Changes (l ++ (checkParts ++ replyParts)) (start z.dt s) (concluded c (op.run c u)) :=
    (((admitted_changes hadmitted).mono (by simp +contextual)).trans (hchanges.mono (by simp +contextual))).trans
      (hconcluded.mono (by simp +contextual))
  refine ⟨concluded c (op.run c u), ?_, hpost _ _ _ heffect hconcluded, fun hreplied => ?_, hwhole⟩
  · rw [exec_command_next hi (hzelgen ▸ hwhole), hzelgen]
    · simp only [List.mem_append, not_or]; exact ⟨hfuses, by decide, by decide⟩
    · simp only [List.mem_append, not_or]; exact ⟨hpending, by decide, by decide⟩
  · obtain ⟨y, hout, hop, hy, hfields, hseq, hcor⟩ :=
      concluded_out (c := c) (r := op.run c u) hlater (by rw [honError, hstatus]; exact hreplied) (hstatus ▸ hst)
    exact ⟨y, horigin ▸ hout, hop.trans hopcode, hy.trans hstatus, hfields.trans hbody, hseq.trans hsequence,
      hcor.trans hcorrelation⟩

theorem attested_changes (x : Nat × Nat) (s : State) : Changes [.cpx] s { s with cpx := { s.cpx with attests := x } } :=
  upd_cpx'cpx rfl rfl rfl (Changes.refl _ s) (by decide)

/-- Settles O8: it holds; STATUS_GET and ATTEST_GET are carried out also while an activation waits. -/
theorem statusAndAttestation : Obligations.StatusAndAttestation := by
  unfold Obligations.StatusAndAttestation
  refine ⟨?nop, ?statusGet, ?attestGet⟩
  case nop => exact fun z => answers_of (fun _ => rfl) rfl (fun _ _ => rfl) rfl
  case statusGet =>
    exact fun z => performs_of_quiet rfl rfl (by decide) (by decide) (by decide) (fun _ _ _ _ _ => trivial)
      fun c u hquiet => ⟨rfl, rfl, rfl, hquiet, trivial, Changes.refl _ u⟩
  case attestGet =>
    exact fun z nonce => performs_of_quiet rfl rfl (by decide) (by decide) (by decide)
      (fun u v t hv hchanges => (hchanges.cpx_attests (by decide)).trans hv)
      fun c u hquiet => ⟨rfl, rfl, rfl, hquiet, rfl, attested_changes _ u⟩

/-! ## Sessions (R51, R52) -/

/-- SESSION_OPEN's effect where session number `n` is the lowest free one. -/
def sessionOpened (b : SessionOpenBody) (keyId n : Nat) (secret : Digest) (s : State) : Done :=
  { state := { s with draws := s.draws + 1
                      cpx := { s.cpx with sessions := tput s.cpx.sessions n (openedSession b keyId n secret s) } }
    body := [(2, 0x8000 + n), (6, seconds s + b.lifetime), (32, (nextNonce s).toNat)]
    sk := some (0x8000 + n, (openedSession b keyId n secret s).sk) }

theorem openSession_free {b : SessionOpenBody} {c : ReplyCtx} {s : State} {n : Nat} {secret : Digest}
    (hfree : freeSession s = some n) (hsecret : secretOf s c.keyId = some secret) :
    openSession b c s = sessionOpened b c.keyId n secret s := by
  unfold openSession
  rw [hfree, hsecret]
  rfl

theorem openSession_full {b : SessionOpenBody} {c : ReplyCtx} {s : State} (hfull : freeSession s = none) :
    openSession b c s = { state := s, status := stNoResource } := by
  unfold openSession
  rw [hfull]

theorem sessions_changes (x : Tab Session) (s : State) : Changes [.sessions] s { s with cpx := { s.cpx with sessions := x } } :=
  upd_cpx'sessions rfl rfl rfl (Changes.refl _ s) (by decide)

theorem sessionOpened_changes (b : SessionOpenBody) (keyId n : Nat) (secret : Digest) (s : State) :
    Changes [.draws, .sessions] s (sessionOpened b keyId n secret s).state :=
  have hsessions : Changes [.draws, .sessions] s
      { s with cpx := { s.cpx with sessions := tput s.cpx.sessions n (openedSession b keyId n secret s) } } :=
    (sessions_changes _ s).mono (by decide)
  upd_draws (x0 := s.draws + 1) hsessions (by decide)

theorem sessionExpiry_of_ended {id : Nat} {s : State} {x : Session} (hclocked : clocked s = true) (hid : 0x8000 ≤ id)
    (hopen : tget s.cpx.sessions (id - 0x8000) = some x) (hended : x.expiry ≤ seconds s) :
    sessionExpiry id s = { s with cpx := { s.cpx with sessions := tdel s.cpx.sessions (id - 0x8000) } } := by
  unfold sessionExpiry
  rw [hopen]
  exact if_pos ⟨hclocked, hid, hended⟩

theorem sessionExpiry_of_running {id : Nat} {s : State}
    (h : ∀ x, tget s.cpx.sessions (id - 0x8000) = some x → seconds s < x.expiry) : sessionExpiry id s = s := by
  unfold sessionExpiry
  split
  next x hopen => exact if_neg fun hended => (h x hopen).not_ge hended.2.2
  next => rfl

/-- Settles O9: it holds; the reply and the record of a command leave its session as the command made it. -/
theorem sessionsOpenCloseAndExpire : Obligations.SessionsOpenCloseAndExpire := by
  unfold Obligations.SessionsOpenCloseAndExpire
  refine ⟨?opens, ?full, ?closes, ?ends, ?runs⟩
  case opens =>
    rintro z b n secret s c u hadmitted ⟨hfree, hsecret⟩
    have hkey : c.keyId = z.keyId := admitted_key hadmitted
    have hactivation : u.cpx.activation = none := admitted_activation hadmitted rfl
    obtain ⟨t, hnext, hreply, hwhole, hreplied⟩ := command_runs hadmitted (openSession_free (b := b) hfree (hkey ▸ hsecret)).symm
      (sessionOpened_changes b c.keyId n secret u) (by decide) (by decide) hactivation rfl (.inl (Nat.zero_lt_succ _))
    refine ⟨t, hnext, ⟨?_, hreply.draws (by decide)⟩, hreplied, hwhole.mono (by decide)⟩
    rw [hreply.cpx_sessions (by decide), hkey]
    rfl
  case full =>
    refine fun z b => performs_of (fun _ => rfl) rfl rfl (by decide) (by decide) (by decide)
      (fun u v t hv hchanges => (hchanges.cpx_sessions (by decide)).trans hv) fun c u hfull _ _ => ?_
    rw [show (opSessionOpen b).run c u = _ from openSession_full hfull]
    exact ⟨rfl, rfl, rfl, rfl, rfl, Changes.refl _ u⟩
  case closes =>
    exact fun z id => performs_of (fun _ => rfl) rfl rfl (by decide) (by decide) (by decide)
      (fun u v t hv hchanges => (hchanges.cpx_sessions (by decide)).trans hv)
      fun c u _ _ _ => ⟨rfl, rfl, rfl, rfl, rfl, (sessions_changes _ u).mono (by decide)⟩
  case ends =>
    refine fun dt id => happens_of_effect (fun _ => rfl) (by decide) (by decide) fun s ⟨hclocked, hid, x, hopen, hended⟩ => ?_
    rw [sessionExpiry_of_ended hclocked hid hopen hended]
    exact ⟨rfl, sessions_changes _ s⟩
  case runs =>
    refine fun dt id => happens_of_effect (fun _ => rfl) (by decide) (by decide) fun s hruns => ?_
    rw [sessionExpiry_of_running hruns]
    exact ⟨trivial, Changes.refl _ s⟩

/-! ## The staged set (R57) -/

theorem unsealing_changes (s : State) :
    Changes [.sealed] s { s with cpx := { s.cpx with staged := { s.cpx.staged with sealed := none } } } := by
  intro p hp
  cases p
  case sealed => simp at hp
  case staged => exact fun hopen => by rw [← hopen]
  case sent => exact fun _ h => h
  all_goals rfl

theorem discarding_changes {s : State} (hopen : s.cpx.staged.sealed = none) :
    Changes [.staged] s { s with cpx := { s.cpx with staged := {} } } := by
  intro p hp
  cases p
  case staged => simp at hp
  case sealed => exact fun hsealed => absurd hopen hsealed
  case sent => exact fun _ h => h
  all_goals rfl

/-- EPOCH_DISCARD is refused while a commit is pending, and for nothing else. -/
theorem paramCheck_epochDiscard (c : ReplyCtx) (s : State) :
    paramCheck opEpochDiscard c s = need s.cpx.staged.sealed.isNone stSealed := by
  simp [paramCheck, opEpochDiscard]

/-- A settings command needs an authenticated sender. -/
theorem notOpen_of_edit {i : Instr} {op : Op} {z : Zelgen} {e : Edit} (hi : commandOf i = some (op, z)) (hedit : op.edit = some e) :
    isOpen op = false := by
  have hrow : (op.edit.isNone || !isOpen op) = true := by cases i <;> cases hi <;> rfl
  simpa [hedit] using hrow

theorem stage_sealed {op : Op} {z : Zelgen} {e : Edit} {s : State} (h : s.cpx.staged.sealed.isSome = true) :
    stage op z e s = { state := s, status := stSealed } := if_pos h

theorem stage_full {op : Op} {z : Zelgen} {e : Edit} {s : State} (hopen : s.cpx.staged.sealed = none)
    (hfull : 65536 ≤ s.cpx.staged.count ∨ 1048576 < s.cpx.staged.bytes + z.bodyLen) :
    stage op z e s = { state := s, status := stNoResource } :=
  (if_neg (by simp [hopen])).trans (if_pos hfull)

/-- A settings command that the staged set does not take is answered with the reason, and changes nothing else. -/
theorem staging_refused {i : Instr} {op : Op} {z : Zelgen} {e : Edit} {s u : State} {c : ReplyCtx} {st : Nat}
    (hi : commandOf i = some (op, z)) (hedit : op.edit = some e) (hadmitted : admitted op z s = some (c, u))
    (hstage : stage op z e u = { state := u, status := st }) (hst : 2 < st) (hanswered : st < 0x0201 ∨ 0x0206 < st) :
    ∃ t, exec i s = .next t ∧ Changes replyParts u t ∧ Replied z op.opcode st [] t := by
  obtain ⟨hpassed, hmode, hparam⟩ := admitted_some hadmitted
  refine command_refused_of (d := 0) hi hpassed (admitted_activation hadmitted (notOpen_of_edit hi hedit)) ?_ hst hanswered
  rw [carryOut_admitted hmode hparam, effectOf, hedit]
  exact hstage

/-- Settles O48: it holds; a refusal leaves the set as it is, since it changes only what replies change. -/
theorem stagedSetIsUnsealedEmptiedAndBounded : Obligations.StagedSetIsUnsealedEmptiedAndBounded := by
  unfold Obligations.StagedSetIsUnsealedEmptiedAndBounded
  refine ⟨?cancel, ?discard, ?discardRefused, ?stageRefused⟩
  case cancel =>
    exact fun z => performs_of (fun _ => rfl) rfl rfl (by decide) (by decide) (by decide)
      (fun u v t hv hchanges => (hchanges.cpx_staged (by decide) (by decide)).trans hv)
      fun c u _ _ _ => ⟨rfl, rfl, rfl, rfl, rfl, (unsealing_changes u).mono (by decide)⟩
  case discard =>
    refine fun z => performs_of (fun _ => rfl) rfl rfl (by decide) (by decide) (by decide)
      (fun u v t hv hchanges => (hchanges.cpx_staged (by decide) (by decide)).trans hv) fun c u _ _ hparam => ?_
    rw [paramCheck_epochDiscard] at hparam
    exact ⟨rfl, rfl, rfl, rfl, rfl, (discarding_changes (Option.isNone_iff_eq_none.mp (need_none hparam))).mono (by decide)⟩
  case discardRefused =>
    intro z s u c hpassed hactivation hauth hmode hsealed
    have hparam : paramCheck opEpochDiscard c u = some (stSealed, 0) := by
      rw [paramCheck_epochDiscard, need, if_neg (by simp [Option.isSome_iff_ne_none.mp hsealed])]
    exact modeAndParametersRefuse (.epochDiscard z) _ z s u c _ _ rfl hpassed hactivation hauth (.inr (by decide)) (by decide)
      (.inr ⟨hmode, hparam⟩)
  case stageRefused =>
    intro i op z e s u c hi hedit hadmitted
    exact ⟨fun hsealed => staging_refused hi hedit hadmitted (stage_sealed hsealed) (by decide) (.inr (by decide)),
      fun hopen hfull => staging_refused hi hedit hadmitted (stage_full hopen hfull) (by decide) (.inr (by decide))⟩

end Sys2Proof.Proofs
end

section
/-! PROOFS. The end of BOOT (15 R365, 17 R391, 01 R30, R35): what BOOT notes and records as it finds it, and the entry into LOCKED. -/
namespace Sys2Proof.Proofs
open Sys2Proof.Machine Sys2Proof.Safety

/-! ## What BOOT finds (R391) -/

/-- BOOT_STATUS and a fuse difference are noted as this BOOT finds them. -/
def bootNoted (f : BootFacts) (s : State) : State :=
  { s with mode := { s.mode with bootStatus := BitVec.ofNat 64 (bootBits f s), fuseBad := s.mode.fuseBad || !f.fusesEqual } }

/-- A rejected image and an empty store are recorded. -/
def bootFound (f : BootFacts) (s : State) : State :=
  if f.imageOk = false ∨ storeEmpty f s then errorAt 0x12 0x1201 0 sevMajor clsInternal 0 0 (bootNoted f s) else bootNoted f s

theorem bootFound_changes (f : BootFacts) (s : State) : Changes errorParts (bootNoted f s) (bootFound f s) := by
  unfold bootFound
  split
  · exact errorAt_frame (Changes.refl _ _) (by decide)
  · exact Changes.refl _ _

theorem bootNoted_changes (f : BootFacts) (s : State) : Changes [.mode] s (bootNoted f s) :=
  upd_mode'mode rfl rfl (Changes.refl _ s) (by decide)

@[simp] theorem triggerFreeze_input (n : Nat) (b : Bool) (s : State) : (triggerFreeze n b s).dbg.input = s.dbg.input := by
  unfold triggerFreeze
  split <;> rfl

@[simp] theorem armedFires_input (kind : Nat) (s : State) : (armedFires kind s).dbg.input = s.dbg.input := by
  unfold armedFires
  split
  · rfl
  · dsimp only
    split
    · exact triggerFreeze_input _ _ _
    · exact (dbgNote_frame (Changes.refl [.err] _) (by decide)).dbg_input (by decide)

/-- An error that is not FATAL leaves the FREEZE input as it is. -/
theorem errorAt_input {unit code inst sev cls d0 d1 : Nat} {s : State} (h : sev ≠ sevFatal) :
    (errorAt unit code inst sev cls d0 d1 s).dbg.input = s.dbg.input := by
  unfold errorAt errorWith
  split
  · rfl
  · dsimp only
    rw [if_neg fun hfatal => h hfatal.1, armedFires_input]
    exact (raiseError_frame (Changes.refl [.err] s) (by decide)).dbg_input (by decide)

theorem bootFound_input (f : BootFacts) (s : State) : (bootFound f s).dbg.input = s.dbg.input := by
  unfold bootFound
  split
  · exact errorAt_input (by decide)
  · rfl

/-- BOOT ends where nothing that must hold is missing. -/
theorem bootComplete_ends {f : BootFacts} {s : State} (hstage : s.mode.stage = .boot) (hrejected : bit s.mode.bootStatus 1 = false)
    (hgood : bootBits f s % 128 = 0) :
    ∃ os, bootComplete f s = finishBoot f (emits os (bootFound f s)) := by
  unfold bootComplete
  rw [if_neg (by simp [hstage, hrejected])]
  exact ⟨_, if_pos hgood⟩

theorem bootComplete_stays {f : BootFacts} {s : State} (hstage : s.mode.stage = .boot) (hrejected : bit s.mode.bootStatus 1 = false)
    (hbad : bootBits f s % 128 ≠ 0) : bootComplete f s = bootFound f s := by
  unfold bootComplete
  rw [if_neg (by simp [hstage, hrejected])]
  exact if_neg hbad

/-! ## The entry into LOCKED (R365) -/

/-- RUN begins with a fresh BOOT_TAG, the image's version and digest, the store and the ladder; LOCKED is not yet entered. -/
def runBegun (f : BootFacts) (s : State) : State :=
  let (d, s1) := draw (fenceFailed f (loadStore f s))
  { s1 with
    mode := { s1.mode with stage := .run, base := .locked, quarantine := false, zeroized := false }
    hood := { s1.hood with pufOk := true }
    rx := { s1.rx with ladder := ladderOf f.pools }
    cpx := { s1.cpx with bootTag := BitVec.ofNat 32 (d.toNat % (2 ^ 32 - 1) + 1), fwVersion := f.fwVersion, fwDigest := f.fwDigest
                         fwKeyIndex := f.fwKeyIndex } }

theorem bootTag_ne_zero (n : Nat) : BitVec.ofNat 32 (n % (2 ^ 32 - 1) + 1) ≠ 0 := by
  intro h
  have hnat : (n % (2 ^ 32 - 1) + 1) % 2 ^ 32 = 0 := by simpa using congrArg BitVec.toNat h
  omega

theorem loaded_changes (f : BootFacts) (s : State) : Changes [.hood, .groups] s (fenceFailed f (loadStore f s)) :=
  fenceFailed_frame (loadStore_frame (Changes.refl _ s) (by decide)) (by decide)

theorem runBegun_fuses (f : BootFacts) (s : State) : (runBegun f s).fuses = s.fuses := (loaded_changes f s).fuses (by decide)

theorem runBegun_input (f : BootFacts) (s : State) : (runBegun f s).dbg.input = s.dbg.input := (loaded_changes f s).dbg_input (by decide)

theorem runBegun_fuseBad (f : BootFacts) (s : State) : (runBegun f s).mode.fuseBad = s.mode.fuseBad :=
  (loaded_changes f s).mode_fuseBad (by decide)

theorem lifecycle_of_fuses {s t : State} (h : t.fuses = s.fuses) : lifecycle t = lifecycle s := by
  unfold lifecycle
  rw [h]

/-- What entering LOCKED may change. -/
def lockedParts : List Part := [.sessions, .cfg, .ctr, .ports, .hpe]

theorem enterLocked_changes (s : State) : Changes lockedParts s (enterLocked s) := enterLocked_frame (Changes.refl _ s) (by decide)

/-- Entering LOCKED ends every session (R52). -/
theorem enterLocked_sessions (s : State) : (enterLocked s).cpx.sessions = [] := by
  unfold enterLocked
  refine (bootPair_frame (pl := [.ctr, .ports, .cfg, .hpe]) (z0 := endSessions s) (Changes.foldl_frame (Changes.refl _ _) ?_)
    (by decide)).cpx_sessions (by decide)
  intro a e h
  split
  · exact bringupFail_frame h (by decide)
  · exact h

/-- Nothing is recorded of pools that all fit the ladder. -/
theorem poolErrors_of_all {l : List (Nat × Nat × Nat)} {s : State} (h : l.all (fun e => poolOk e.1) = true) : poolErrors l s = s := by
  have hnone : l.filter (fun e => !poolOk e.1) = [] := by simpa [List.filter_eq_nil_iff] using h
  unfold poolErrors
  rw [hnone]
  rfl

/-- After the entry a fuse error is recorded, a burnt-out lifecycle zeroizes, and a FREEZE input held high acts. -/
def lockedActs (s : State) : State :=
  let s1 := if s.mode.fuseBad then errorAt 0x14 0x1402 0xFFFF sevFatal clsInternal 0 0 s else s
  if lifecycle s1 = 4 then enterZeroized s1 else if s1.dbg.input then inputActs s1 else s1

theorem finishBoot_eq (f : BootFacts) (s : State) :
    finishBoot f s = lockedActs (enterLocked (poolErrors f.pools (runBegun f s))) := rfl

theorem lockedActs_of_clear {s : State} (hfuse : s.mode.fuseBad = false) (hlifecycle : lifecycle s ≠ 4)
    (hinput : s.dbg.input = false) : lockedActs s = s := by
  unfold lockedActs
  simp [hfuse, hlifecycle, hinput]

/-- A boot without a fault, a burnt-out lifecycle and a FREEZE input ends as LOCKED is entered. -/
theorem finishBoot_locked {f : BootFacts} {s : State} (hpools : f.pools.all (fun e => poolOk e.1) = true)
    (hfuse : s.mode.fuseBad = false) (hlifecycle : lifecycle s ≠ 4) (hinput : s.dbg.input = false) :
    finishBoot f s = enterLocked (runBegun f s) := by
  have hlocked := enterLocked_changes (runBegun f s)
  rw [finishBoot_eq, poolErrors_of_all hpools]
  refine lockedActs_of_clear ?_ ?_ ?_
  · rw [hlocked.mode_fuseBad (by decide), runBegun_fuseBad, hfuse]
  · rwa [lifecycle_of_fuses ((hlocked.fuses (by decide)).trans (runBegun_fuses f s))]
  · rw [hlocked.dbg_input (by decide), runBegun_input, hinput]

/-! ## The statement -/

/-- Settles O18: it holds; a boot that is missing something only notes and records it. -/
theorem bootEndsInLocked : Obligations.BootEndsInLocked := by
  unfold Obligations.BootEndsInLocked
  refine ⟨?ends, ?stays, ?elsewhere⟩
  case ends =>
    refine fun dt f => happens_of_effect (fun _ => rfl) (by decide) (by decide)
      fun s ⟨hstage, hrejected, hgood, hfuse, hequal, hlifecycle, hinput, hpools⟩ =>
        ⟨?_, bootComplete_frame (Changes.refl _ s) (by decide)⟩
    obtain ⟨os, hends⟩ := bootComplete_ends hstage hrejected hgood
    have hfound := bootFound_changes f s
    have hfuses : (emits os (bootFound f s)).fuses = s.fuses := hfound.fuses (by decide)
    have hlocked := enterLocked_changes (runBegun f (emits os (bootFound f s)))
    rw [hends, finishBoot_locked hpools]
    · exact ⟨hlocked.mode_stage (by decide), hlocked.mode_base (by decide), hlocked.mode_zeroized (by decide),
        (hlocked.cpx_bootTag (by decide)).trans_ne (bootTag_ne_zero _), hlocked.cpx_fwVersion (by decide),
        hlocked.cpx_fwDigest (by decide), enterLocked_sessions _,
        (hlocked.fuses (by decide)).trans ((runBegun_fuses _ _).trans hfuses), congrArg Rx.ladder (hlocked.rx (by decide))⟩
    · exact (hfound.mode_fuseBad (by decide)).trans (by simp [bootNoted, hfuse, hequal])
    · rwa [lifecycle_of_fuses hfuses]
    · exact (bootFound_input f s).trans hinput
  case stays =>
    refine fun dt f => happens_of_effect (fun _ => rfl) (by decide) (by decide) fun s ⟨hstage, hrejected, hbad⟩ => ?_
    have hfound := bootFound_changes f s
    rw [bootComplete_stays hstage hrejected hbad]
    exact ⟨⟨(hfound.mode_stage (by decide)).trans hstage, hfound.mode_bootStatus (by decide), hfound.cpx_bootTag (by decide)⟩,
      ((bootNoted_changes f s).mono (by decide)).trans (hfound.mono (by decide))⟩
  case elsewhere =>
    refine fun dt f => happens_of_effect (fun _ => rfl) (by decide) (by decide) fun s hnot => ?_
    rw [show bootComplete f s = s from if_pos hnot]
    exact ⟨trivial, Changes.refl _ s⟩

end Sys2Proof.Proofs
end

section
/-! PROOFS. Ring entries (10 R238 to R262): the rules of a ring's record, of one entry that completes and of one that is malformed, then
what each kind of entry does, and the statement from them. -/
namespace Sys2Proof.Proofs
open Sys2Proof.Machine Sys2Proof.Safety

/-! ## A ring's record -/

@[simp] theorem ringOf_putRing_self (k : Nat) (r : Ring) (s : State) : ringOf (putRing k r s) k = r := tgetD_tput_self _ _ _ _

theorem ringOf_putRing_ne {k j : Nat} (r : Ring) (s : State) (h : j ≠ k) : ringOf (putRing k r s) j = ringOf s j :=
  tgetD_tput_ne _ _ _ _ _ h

@[simp] theorem repliesOf_putReplies_self (n : Nat) (l : List (Nat × Option Reply)) (s : State) : repliesOf (putReplies n l s) n = l :=
  tgetD_tput_self _ _ _ _

section Kept
variable {l : List Part} {s t : State} (h : Changes l s t)
include h

theorem ringOf_of_changes (hhpe : Part.hpe ∉ l) (k : Nat) : ringOf t k = ringOf s k := by
  unfold ringOf
  rw [h.hpe_rings hhpe]

theorem repliesOf_of_changes (hreplies : Part.replies ∉ l) (n : Nat) : repliesOf t n = repliesOf s n := by
  unfold repliesOf
  rw [h.hpe_replies hreplies]

theorem ringLog_of_changes (hcfg : Part.cfg ∉ l) (k : Nat) : ringLog t k = ringLog s k := by
  unfold ringLog ringCfg
  rw [h.cfg hcfg]

theorem advances_before {k : Nat} {u : State} (hhpe : Part.hpe ∉ l) (hcfg : Part.cfg ∉ l) (hadvances : advances k t u) :
    advances k s u := by
  obtain ⟨hc, htaken, hothers⟩ := hadvances
  rw [ringLog_of_changes h hcfg, ringOf_of_changes h hhpe] at hc
  exact ⟨hc, htaken, fun j hj => (hothers j hj).trans (ringOf_of_changes h hhpe j)⟩

theorem advances_after {k : Nat} {u : State} (hhpe : Part.hpe ∉ l) (hadvances : advances k u s) : advances k u t := by
  unfold advances
  simp only [ringOf_of_changes h hhpe]
  exact hadvances

theorem inError_after {k code : Nat} (hhpe : Part.hpe ∉ l) (herror : inError k code s) : inError k code t := by
  unfold inError
  rwa [ringOf_of_changes h hhpe]

end Kept

/-- A ring that takes its next entry runs, has one posted, and nothing holds it. -/
theorem takesEntry_running {k : Nat} {s : State} (h : takesEntry k s) : (ringOf s k).state = 2 ∧ 0 < ringFree s k := by
  obtain ⟨hready, -⟩ := h
  simp only [ringReady, Bool.and_eq_true, decide_eq_true_eq] at hready
  tauto

theorem stallCheck_of_takesEntry {k : Nat} {s : State} (h : takesEntry k s) : stallCheck k s = (true, s) := by
  obtain ⟨-, hstall, hpounce, -⟩ := h
  unfold stallCheck
  simp [hstall, pounceFires, running, hpounce]

/-! ## An entry completes (R241, R247) -/

theorem takeEntry_empty {k : Nat} {e : RingEntry} {s : State} (h : (ringOf s k).taken = []) :
    (ringOf (takeEntry k e s) k).taken = [e] := by
  unfold takeEntry
  simp [h]

/-- The entry at the head of a running ring, alone and done, completes. -/
theorem flushRing_takeEntry {k : Nat} {e : RingEntry} {c : Cpl} {s : State} (hempty : (ringOf s k).taken = [])
    (hstate : (ringOf s k).state = 2) (hdone : e.done = some c) :
    flushRing k (takeEntry k e s) = completeEntry k e c (takeEntry k e s) := by
  have hrunning : (ringOf (takeEntry k e s) k).state = 2 := by unfold takeEntry; simpa using hstate
  unfold flushRing
  dsimp only
  rw [if_pos (.inl hrunning), takeEntry_empty hempty]
  simp [flushEntries, hdone]

/-- What the completion of a good entry may change. -/
def completionParts : List Part := [.hpe, .ctr, .jic, .out]

/-- A completed entry leaves the ring with C one place on; an entry found malformed then stops its ring. -/
theorem completeEntry_advanced (k : Nat) (e : RingEntry) (c : Cpl) (s : State) :
    ∃ r t, r.c = idxAdd (ringLog s k) (ringOf s k).c 1 ∧ r.taken = (ringOf s k).taken.drop 1 ∧
      Changes [.ctr, .jic, .out] (putRing k r s) t ∧
      completeEntry k e c s = if e.fault then ringError k 5 (ringOf s k).c false t else t := by
  unfold completeEntry
  extract_lets r log written c1 cpl r1 s1 s2 s3 s4 s5
  have h2 : Changes [.ctr, .jic, .out] s1 s2 := by
    unfold s2
    split
    · exact emit_frame (Changes.refl _ _) (by decide)
    · exact Changes.refl _ _
  have h3 : Changes [.ctr, .jic, .out] s1 s3 := tally_frame h2 (by decide)
  have h4 : Changes [.ctr, .jic, .out] s1 s4 := by
    unfold s4
    split
    · exact tally_frame h3 (by decide)
    · split
      · exact tally_frame h3 (by decide)
      · exact h3
  refine ⟨r1, s5, rfl, rfl, ?_, rfl⟩
  unfold s5
  split
  · exact wakeEvent_frame h4 (by decide)
  · exact h4

theorem takeEntry_advanced (k : Nat) (e : RingEntry) (s : State) :
    (ringOf (takeEntry k e s) k).c = (ringOf s k).c ∧ ∀ j, j ≠ k → ringOf (takeEntry k e s) j = ringOf s j := by
  unfold takeEntry
  exact ⟨by simp, fun j hj => ringOf_putRing_ne _ _ hj⟩

section Taken
variable {k : Nat} {e : RingEntry} {c : Cpl} {s : State} (htakes : takesEntry k s) (hdone : e.done = some c)
include htakes hdone

/-- A good entry that is done as it is taken. -/
theorem flushRing_good (hgood : e.fault = false) :
    advances k s (flushRing k (takeEntry k e s)) ∧ Changes completionParts s (flushRing k (takeEntry k e s)) := by
  have hempty : (ringOf s k).taken = [] := htakes.2.2.2
  have htaken : Changes completionParts s (takeEntry k e s) := takeEntry_frame (Changes.refl _ s) (by decide)
  obtain ⟨hhead, hothers⟩ := takeEntry_advanced k e s
  obtain ⟨r, t, hc, hrest, hchanges, heq⟩ := completeEntry_advanced k e c (takeEntry k e s)
  rw [flushRing_takeEntry hempty (takesEntry_running htakes).1 hdone, heq, hgood]
  refine ⟨⟨?_, ?_, fun j hj => ?_⟩, (putRing_frame htaken (by decide)).trans (hchanges.mono (by decide))⟩
  all_goals simp only [Bool.false_eq_true, if_false, ringOf_of_changes hchanges (by decide)]
  · rw [ringOf_putRing_self, hc, hhead, ringLog_of_changes htaken (by decide)]
  · rw [ringOf_putRing_self, hrest, takeEntry_empty hempty]
    rfl
  · rw [ringOf_putRing_ne _ _ hj, hothers j hj]

end Taken

/-! ## A malformed entry stops its ring (R246, R251) -/

theorem dropStaged_rings (key ctr : Nat) (s : State) (k : Nat) : ringOf (dropStaged key ctr s) k = ringOf s k := by
  unfold dropStaged
  exact ringOf_of_changes (s := { s with hpe := { s.hpe with staged := s.hpe.staged.filter (fun f => f.ring ≠ key) } })
    (Changes.foldl_frame (Changes.refl [.levels, .jic, .ctr, .samples] _) fun _ _ h => ringDrop_frame h (by decide)) (by decide) k

/-- What stopping a ring touches of the rest leaves every ring's record alone. -/
theorem ringError_inError (k code latched : Nat) (timeout : Bool) (s : State) : inError k code (ringError k code latched timeout s) := by
  unfold ringError
  extract_lets s1 was s2 s3 s4
  have h2 : inError k code s2 := by
    unfold inError s2
    simp
  have h3 : inError k code s3 := by
    refine inError_after (discardReplies_frame (Changes.refl [.ctr, .replies] _) (by decide)) (by decide) ?_
    split
    · unfold inError
      rwa [dropStaged_rings]
    · exact inError_after (dropHostFrames_frame (Changes.refl [.hostQueue] _) (by decide)) (by decide) h2
  have h4 : inError k code s4 := by
    unfold s4
    split
    · exact inError_after (tally_frame (Changes.refl [.ctr] _) (by decide)) (by decide) h3
    · exact h3
  exact inError_after (errorAt_frame (Changes.refl errorParts _) (by decide)) (by decide) h4

theorem takeMalformed_inError {k : Nat} {s : State} (d : Descriptor) (htakes : takesEntry k s) : inError k 5 (takeMalformed k d s) := by
  unfold takeMalformed
  rw [flushRing_takeEntry htakes.2.2.2 (takesEntry_running htakes).1 rfl]
  obtain ⟨r, t, -, -, -, heq⟩ := completeEntry_advanced k _ _ (takeEntry k _ s)
  rw [heq]
  exact ringError_inError _ _ _ _ _

/-! ## Command rings (R43, R260, R262) -/

/-- An entry of a command or reply ring that is done as it is taken. -/
def doneEntry (d : Descriptor) (status length : Nat) : RingEntry := { desc := d, done := some { status, length, flags := 3 } }

/-- The entry of a posted command that was read: complete, with a place among the replies. -/
def commandRead (n : Nat) (d : Descriptor) (s : State) : State :=
  count (ringBytesCtr (ringKey 2 n)) d.bufLen
    (flushRing (ringKey 2 n) (takeEntry (ringKey 2 n) (doneEntry d 0 d.bufLen) (takeSlot n s).2))

/-- The command waits in the CPX queue. -/
def commandQueued (n : Nat) (d : Descriptor) (s : State) : State :=
  { commandRead n d s with cpx := { (commandRead n d s).cpx with
      queue := (commandRead n d s).cpx.queue ++ [{ origin := .ring n, length := d.bufLen, slot := some s.hpe.nextId }] } }

/-- The reply's context of a command that finds the queue full. -/
def overloadCtx (n : Nat) (d : Descriptor) (cmd : List Byte) (s : State) : ReplyCtx :=
  { bytesCtx (.ring n) cmd (commandRead n d s) with slot := some s.hpe.nextId }

/-- The command is answered OVERLOAD. -/
def commandOverloaded (n : Nat) (d : Descriptor) (cmd : List Byte) (s : State) : State :=
  deliverReply (overloadCtx n d cmd s) (mkReply (overloadCtx n d cmd s) stOverload 0 [] (commandRead n d s)) (commandRead n d s)

theorem commandOverloaded_changes (n : Nat) (d : Descriptor) (cmd : List Byte) (s : State) :
    Changes [.ctr, .hostQueue, .replies, .hlk, .out] (commandRead n d s) (commandOverloaded n d cmd s) :=
  deliverReply_frame (Changes.refl _ _) (by decide)

theorem commandOverloaded_answers (n : Nat) (d : Descriptor) (cmd : List Byte) (s : State) :
    ∃ y : Reply, Output.reply (.ring n) y ∈ (commandOverloaded n d cmd s).out ∧ y.status = stOverload ∧ y.opcode = numAt cmd 2 2 ∧
      y.sequence = numAt cmd 8 8 := by
  obtain ⟨hopcode, hstatus, -, hsequence, -⟩ := mkReply_fields (overloadCtx n d cmd s) stOverload 0 [] (commandRead n d s)
  exact ⟨_, deliverReply_out (overloadCtx n d cmd s) _ _, hstatus, hopcode, hsequence⟩

section CommandRing
variable {n : Nat} {d : Descriptor} {s : State} (htakes : takesEntry (ringKey 2 n) s)
include htakes

theorem commandRead_changes : Changes (.replies :: completionParts) s (commandRead n d s) := by
  obtain ⟨-, hchanges⟩ := flushRing_good (s := (takeSlot n s).2) (e := doneEntry d 0 d.bufLen) htakes rfl rfl
  exact count_frame ((takeSlot_frame (Changes.refl _ s) (by decide)).trans (hchanges.mono (by decide))) (by decide)

theorem commandRead_advances : advances (ringKey 2 n) s (commandRead n d s) := by
  obtain ⟨hadvances, -⟩ := flushRing_good (s := (takeSlot n s).2) (e := doneEntry d 0 d.bufLen) htakes rfl rfl
  exact advances_before (takeSlot_frame (Changes.refl [.replies] s) (by decide)) (by decide) (by decide)
    (advances_after (count_frame (Changes.refl [.ctr] _) (by decide)) (by decide) hadvances)

theorem commandRead_replies : repliesOf (commandRead n d s) n = repliesOf s n ++ [(s.hpe.nextId, none)] := by
  obtain ⟨-, hchanges⟩ := flushRing_good (s := (takeSlot n s).2) (e := doneEntry d 0 d.bufLen) htakes rfl rfl
  exact (repliesOf_of_changes (count_frame hchanges (by decide)) (by decide) n).trans (repliesOf_putReplies_self _ _ s)

variable (hfree : ∀ i r l, repliesOf s n ≠ (i, some r) :: l) (hrestart : s.cpx.restart = none)
include hfree hrestart

/-- A ring that no reply holds takes its next command: malformed, unreadable, or read; a read one is queued or answered OVERLOAD. -/
theorem cmdFetch_taken (ok : Bool) (cmd : List Byte) :
    cmdFetch n d ok cmd s =
      if badCommand (ringBatched s (ringKey 2 n)) d then takeMalformed (ringKey 2 n) d s
      else if ok = false then flushRing (ringKey 2 n) (takeEntry (ringKey 2 n) (doneEntry d 3 d.bufLen) s)
      else if queueFull s then commandOverloaded n d cmd s
      else commandQueued n d s := by
  unfold cmdFetch
  dsimp only
  rw [if_neg, stallCheck_of_takesEntry htakes]
  · rfl
  · rintro (hidle | hheld | hrestarts)
    · exact absurd htakes.1 (by simp [hidle])
    · rw [Bool.and_eq_true] at hheld
      obtain ⟨hwaits, -⟩ := hheld
      split at hwaits
      next hhead => exact hfree _ _ _ hhead
      next => cases hwaits
    · simp [hrestart] at hrestarts

end CommandRing

/-! ## Reply rings (R260) -/

/-- The oldest reply is written, and its entry completes. -/
def replyPut (n id : Nat) (r : Reply) (rest : List (Nat × Option Reply)) (d : Descriptor) (s : State) : State :=
  replyWritten id (count (ringBytesCtr (ringKey 3 n)) (min (replyLen r) d.bufLen)
    (flushRing (ringKey 3 n) (takeEntry (ringKey 3 n) (doneEntry d 0 (replyLen r))
      (putReplies n rest (emit (.hostWrite (ringAccess s (ringKey 3 n)) d.bufAddr ((replyBytes r).take d.bufLen)) s)))))

section ReplyRing
variable {n id : Nat} {r : Reply} {rest : List (Nat × Option Reply)} {d : Descriptor} {s : State}
  (htakes : takesEntry (ringKey 3 n) s)
include htakes

theorem replyWrite_taken (hhead : repliesOf s n = (id, some r) :: rest) (hgood : badReceive false d = false)
    (hfits : replyLen r ≤ d.bufLen) : replyWrite n d true s = replyPut n id r rest d s := by
  unfold replyWrite replyPut doneEntry
  simp [hhead, htakes.1, stallCheck_of_takesEntry htakes, hgood, hfits.not_gt]

theorem replyPut_writes : repliesOf (replyPut n id r rest d s) n = rest ∧ advances (ringKey 3 n) s (replyPut n id r rest d s) ∧
    Output.hostWrite (ringAccess s (ringKey 3 n)) d.bufAddr ((replyBytes r).take d.bufLen) ∈ (replyPut n id r rest d s).out := by
  let u := putReplies n rest (emit (.hostWrite (ringAccess s (ringKey 3 n)) d.bufAddr ((replyBytes r).take d.bufLen)) s)
  have hput : Changes [.out, .replies] s u := putReplies_frame (emit_frame (Changes.refl _ s) (by decide)) (by decide)
  obtain ⟨hadvances, hchanges⟩ := flushRing_good (s := u) (e := doneEntry d 0 (replyLen r)) htakes rfl rfl
  have hend : Changes [.ctr, .pounce, .dbg] (flushRing (ringKey 3 n) (takeEntry (ringKey 3 n) (doneEntry d 0 (replyLen r)) u))
      (replyPut n id r rest d s) := replyWritten_frame (count_frame (Changes.refl _ _) (by decide)) (by decide)
  refine ⟨?_, advances_before hput (by decide) (by decide) (advances_after hend (by decide) hadvances), ?_⟩
  · rw [repliesOf_of_changes hend (by decide), repliesOf_of_changes hchanges (by decide)]
    exact repliesOf_putReplies_self _ _ _
  · exact hend.sent (by decide) (hchanges.sent (by decide) (mem_out_emit _ s))

end ReplyRing

/-! ## Transmit rings and other malformed entries (R246, R252) -/

/-- A frame of one descriptor is ready for its leaf. -/
theorem txEntry_single {n : Nat} {d : Descriptor} {data : List Byte} {s : State} {b : HostLeafBody}
    (hsop : (ringOf s (ringKey 1 n)).sop = false) (hgood : badTransmit (ringBatched s (ringKey 1 n)) 0 0 d = false)
    (heop : dEop d = true) (hbound : bindingOf s.cfg n = some b) :
    ∃ f : HostFrame, f.id = s.hpe.nextId ∧ f.len = d.bufLen ∧ f.enq = s.tsu.now ∧ f.desc = some d ∧
      f.bytes = padTo d.bufLen (data.take d.bufLen) ∧
      hostQueue (txEntry (ringKey 1 n) d true data s) b.source b.port = hostQueue s b.source b.port ++ [f] := by
  have hkey : ringKey 1 n - 256 = n := by unfold ringKey; omega
  refine ⟨{ id := s.hpe.nextId, len := d.bufLen, enq := s.tsu.now, desc := some d, bytes := padTo d.bufLen (data.take d.bufLen) },
    rfl, rfl, rfl, rfl, rfl, ?_⟩
  unfold txEntry
  simp [hsop, hgood, heop, hkey, hbound, hostQueue, tgetD_tput_self, takeEntry, putRing, freshId]

section RingEntry
variable {d : Descriptor} {ok : Bool} {data : List Byte} {s : State}

theorem ringEntry_transmit {n : Nat} (htakes : takesEntry (ringKey 1 n) s) :
    ringEntry 1 n d ok data s = txEntry (ringKey 1 n) d ok data s := by
  unfold ringEntry
  simp [htakes.1, stallCheck_of_takesEntry htakes]

theorem ringEntry_badCommand {n : Nat} (htakes : takesEntry (ringKey 2 n) s) (hbad : badCommand (ringBatched s (ringKey 2 n)) d = true) :
    ringEntry 2 n d ok data s = takeMalformed (ringKey 2 n) d s := by
  unfold ringEntry
  simp [htakes.1, stallCheck_of_takesEntry htakes, hbad]

theorem ringEntry_badReceive {k n : Nat} (hkind : k = 0 ∨ k = 3) (htakes : takesEntry (ringKey k n) s)
    (hbad : badReceive false d = true) : ringEntry k n d ok data s = takeMalformed (ringKey k n) d s := by
  have h1 : k ≠ 1 := by omega
  have h2 : k ≠ 2 := by omega
  unfold ringEntry
  simp [htakes.1, stallCheck_of_takesEntry htakes, hbad, h1, h2]

end RingEntry

/-! ## Receive rings (R255) -/

/-- A frame's descriptors are taken in order, and no other ring moves. -/
theorem writeEntries_taken (n frame : Nat) (c : Cpl) (wake first : Bool) (bytes : List Byte) (ds : List Descriptor) (s : State) :
    (ringOf (writeEntries n frame c wake first bytes ds s) n).taken.map (·.desc) = (ringOf s n).taken.map (·.desc) ++ ds ∧
    (∀ j, j ≠ n → ringOf (writeEntries n frame c wake first bytes ds s) j = ringOf s j) ∧
    (writeEntries n frame c wake first bytes ds s).hpe.staged = s.hpe.staged := by
  induction ds generalizing first bytes s with
  | nil => simp [writeEntries]
  | cons d ds ih =>
    unfold writeEntries
    extract_lets part cpl s1
    have hnext : (ringOf s1 n).taken.map (·.desc) = (ringOf s n).taken.map (·.desc) ++ [d] := by
      show (ringOf (takeEntry n _ s) n).taken.map (·.desc) = _
      simp [takeEntry]
    have hothers : ∀ j, j ≠ n → ringOf s1 j = ringOf s j := fun j hj => ringOf_putRing_ne _ _ hj
    obtain ⟨htaken, hrings, hstaged⟩ := ih false (bytes.drop d.bufLen) s1
    exact ⟨by rw [htaken, hnext, List.append_assoc]; rfl, fun j hj => (hrings j hj).trans (hothers j hj), hstaged⟩

theorem giveFrame_changes (n : Nat) (f : RingFrame) (ds : List Descriptor) (s : State) :
    Changes [.levels, .jic, .ctr, .samples]
      (writeEntries n f.id (rxCpl f.info) (wakes s n f.info.bytes) true f.info.bytes ds (unstage f s)) (giveFrame n f ds s) := by
  unfold giveFrame
  extract_lets i s1 s2 s3 s4
  have h2 : Changes [.levels, .jic, .ctr, .samples] s1 s2 := count_frame (Changes.refl _ _) (by decide)
  have h3 : Changes [.levels, .jic, .ctr, .samples] s1 s3 := by
    unfold s3
    split
    · exact h2
    · exact tally_frame h2 (by decide)
  refine endSample_frame ?_ (by decide)
  unfold s4
  split
  · exact count_frame (tally_frame h3 (by decide)) (by decide)
  · exact tally_frame h3 (by decide)

section ReceiveRing
variable {n : Nat} {f : RingFrame} {s : State} (htakes : takesEntry n s)
include htakes

theorem giveFrame_taken (use : List Descriptor) :
    (giveFrame n f use s).hpe.staged = s.hpe.staged.filter (fun g => g.id ≠ f.id) ∧
    (ringOf (giveFrame n f use s) n).taken.map (·.desc) = use ∧ ∀ j, j ≠ n → ringOf (giveFrame n f use s) j = ringOf s j := by
  have hgiven := giveFrame_changes n f use s
  obtain ⟨htaken, hothers, hstaged⟩ :=
    writeEntries_taken n f.id (rxCpl f.info) (wakes s n f.info.bytes) true f.info.bytes use (unstage f s)
  have hempty : (ringOf (unstage f s) n).taken = [] := htakes.2.2.2
  simp only [ringOf_of_changes hgiven (by decide), hgiven.hpe_staged (by decide)]
  exact ⟨hstaged, by rw [htaken, hempty]; rfl, hothers⟩

variable (hhead : headFrame s n = some f) (hready : f.ready ≤ s.tsu.now)
include hhead hready

/-- The frame that is next takes the good descriptors that cover it. -/
theorem rxRingAllot_covered {ds use : List Descriptor}
    (hcover : coverOf f.info.bytes.length (((ds.take (ringFree s n)).take 64).takeWhile (fun d => !badReceive false d)) = some use) :
    rxRingAllot n ds s = giveFrame n f use s := by
  unfold rxRingAllot
  simp [hhead, htakes.1, hready.not_gt, stallCheck_of_takesEntry htakes, hcover]

/-- Where the first descriptor is malformed none is good, and it is taken as malformed. -/
theorem rxRingAllot_bad {d : Descriptor} {ds : List Descriptor} (hbad : badReceive false d = true) :
    rxRingAllot n (d :: ds) s = takeMalformed n d s := by
  obtain ⟨free, hfree⟩ := Nat.exists_eq_succ_of_ne_zero (takesEntry_running htakes).2.ne'
  unfold rxRingAllot
  simp [hhead, htakes.1, hready.not_gt, stallCheck_of_takesEntry htakes, hfree, hbad, coverOf]

end ReceiveRing

/-- A frame whose hold time has ended is dropped from its ring's staged frames. -/
theorem rxHoldExpiry_ends {n id : Nat} {f : RingFrame} {s : State}
    (hstaged : s.hpe.staged.find? (fun g => g.ring = n && g.id = id) = some f) (hclocked : clocked s = true)
    (hended : f.ready + holdCcyc s n ≤ s.tsu.now) :
    rxHoldExpiry n id s = ringDrop (ringHoldDropsCtr n) f.info (unstage f s) := by
  unfold rxHoldExpiry
  rw [hstaged]
  exact if_neg (by simp [hclocked, hended])

/-! ## The statement -/

theorem takeMalformed_queue (k : Nat) (d : Descriptor) (s : State) : (takeMalformed k d s).cpx.queue = s.cpx.queue :=
  (takeMalformed_frame (Changes.refl [.quarantine, .sessions, .sealed, .err, .levels, .jic, .ctr, .samples, .frc, .hostQueue, .replies,
    .hpe, .pounce, .dbg, .hlk, .out] s) (by decide)).cpx_queue (by decide)

/-- Settles O52: it holds, by the kind of ring and what its next entry is. -/
theorem entriesAreTakenInOrder : Obligations.EntriesAreTakenInOrder := by
  unfold Obligations.EntriesAreTakenInOrder
  refine ⟨?queued, ?overload, ?unread, ?badCommand, ?reply, ?transmit, ?badOnCommandRing, ?badOnReceiveRing, ?covered, ?badFirst,
    ?holdEnds⟩
  case queued =>
    refine fun dt n d cmd => happens_of_effect (fun _ => rfl) (by decide) (by decide)
      fun s ⟨htakes, hfree, hrestart, hgood, hroom⟩ => ⟨?_, cmdFetch_frame (Changes.refl _ s) (by decide)⟩
    rw [cmdFetch_taken htakes hfree hrestart, hgood, hroom]
    exact ⟨congrArg (· ++ _) ((commandRead_changes htakes).cpx_queue (by decide)), commandRead_replies htakes,
      commandRead_advances htakes⟩
  case overload =>
    refine fun dt n d cmd => happens_of_effect (fun _ => rfl) (by decide) (by decide)
      fun s ⟨htakes, hfree, hrestart, hgood, hfull⟩ => ⟨?_, cmdFetch_frame (Changes.refl _ s) (by decide)⟩
    rw [cmdFetch_taken htakes hfree hrestart, hgood, hfull]
    have hreply := commandOverloaded_changes n d cmd s
    exact ⟨(hreply.cpx_queue (by decide)).trans ((commandRead_changes htakes).cpx_queue (by decide)),
      advances_after hreply (by decide) (commandRead_advances htakes), commandOverloaded_answers n d cmd s⟩
  case unread =>
    refine fun dt n d cmd => happens_of_effect (fun _ => rfl) (by decide) (by decide)
      fun s ⟨htakes, hfree, hrestart, hgood⟩ => ⟨?_, cmdFetch_frame (Changes.refl _ s) (by decide)⟩
    rw [cmdFetch_taken htakes hfree hrestart, hgood]
    obtain ⟨hadvances, hchanges⟩ := flushRing_good htakes (e := doneEntry d 3 d.bufLen) rfl rfl
    exact ⟨hchanges.cpx_queue (by decide), hchanges.hpe_replies (by decide), hadvances⟩
  case badCommand =>
    refine fun dt n d cmd => happens_of_effect (fun _ => rfl) (by decide) (by decide)
      fun s ⟨htakes, hfree, hrestart, hbad⟩ => ⟨?_, cmdFetch_frame (Changes.refl _ s) (by decide)⟩
    rw [cmdFetch_taken htakes hfree hrestart, hbad]
    exact ⟨takeMalformed_queue _ _ _, takeMalformed_inError d htakes⟩
  case reply =>
    refine fun dt n d i r l => happens_of_effect (fun _ => rfl) (by decide) (by decide)
      fun s ⟨htakes, hhead, hgood, hfits⟩ => ⟨?_, replyWrite_frame (Changes.refl _ s) (by decide)⟩
    rw [replyWrite_taken htakes hhead hgood hfits]
    exact replyPut_writes htakes
  case transmit =>
    refine fun dt n d b data => happens_of_effect (fun _ => rfl) (by decide) (by decide)
      fun s ⟨htakes, hsop, hgood, heop, hbound⟩ => ⟨?_, ringEntry_frame (Changes.refl _ s) (by decide)⟩
    rw [ringEntry_transmit htakes]
    exact txEntry_single hsop hgood heop hbound
  case badOnCommandRing =>
    refine fun dt n d data => happens_of_effect (fun _ => rfl) (by decide) (by decide)
      fun s ⟨htakes, hbad⟩ => ⟨?_, ringEntry_frame (Changes.refl _ s) (by decide)⟩
    rw [ringEntry_badCommand htakes hbad]
    exact takeMalformed_inError d htakes
  case badOnReceiveRing =>
    refine fun dt k n d data => happens_of_effect (fun _ => rfl) (by decide) (by decide)
      fun s ⟨hkind, htakes, hbad⟩ => ⟨?_, ringEntry_frame (Changes.refl _ s) (by decide)⟩
    rw [ringEntry_badReceive hkind htakes hbad]
    exact takeMalformed_inError d htakes
  case covered =>
    refine fun dt n ds f use => happens_of_effect (fun _ => rfl) (by decide) (by decide)
      fun s ⟨htakes, hhead, hready, hcover⟩ => ⟨?_, rxRingAllot_frame (Changes.refl _ s) (by decide)⟩
    rw [rxRingAllot_covered htakes hhead hready hcover]
    exact giveFrame_taken htakes use
  case badFirst =>
    refine fun dt n d ds f => happens_of_effect (fun _ => rfl) (by decide) (by decide)
      fun s ⟨htakes, hhead, hready, hbad⟩ => ⟨?_, rxRingAllot_frame (Changes.refl _ s) (by decide)⟩
    rw [rxRingAllot_bad htakes hhead hready hbad]
    exact takeMalformed_inError d htakes
  case holdEnds =>
    refine fun dt n id f => happens_of_effect (fun _ => rfl) (by decide) (by decide)
      fun s ⟨hstaged, hclocked, hended⟩ => ⟨?_, rxHoldExpiry_frame (Changes.refl _ s) (by decide)⟩
    rw [rxHoldExpiry_ends hstaged hclocked hended]
    have hdrop : Changes [.levels, .jic, .ctr, .samples] (unstage f s) (ringDrop (ringHoldDropsCtr n) f.info (unstage f s)) :=
      ringDrop_frame (Changes.refl _ _) (by decide)
    exact ⟨hdrop.hpe_staged (by decide), hdrop.hpe_rings (by decide)⟩

end Sys2Proof.Proofs
end

section
/-! PROOFS. Lanes and links (03 R63 to R81, Table 3-6; preemption verification, R199): what a lane reads once it is written, what enters a
link state, then one rule per row, and the two statements from them. -/
namespace Sys2Proof.Proofs
open Sys2Proof.Machine Sys2Proof.Safety

/-! ## A lane is written -/

/-- Lane `n` reads `l`, and every other lane as before. -/
def LaneWritten (n : Nat) (l : Lane) (s t : State) : Prop := laneOf t n = l ∧ ∀ m, m ≠ n → laneOf t m = laneOf s m

theorem putLane_written (n : Nat) (l : Lane) (s : State) : LaneWritten n l s (putLane n l s) :=
  ⟨tgetD_tput_self _ _ _ _, fun _ hm => tgetD_tput_ne _ _ _ _ _ hm⟩

theorem putLane_changes (n : Nat) (l : Lane) (s : State) : Changes [.lanes] s (putLane n l s) :=
  putLane_frame (Changes.refl _ s) (by decide)

section Kept
variable {n : Nat} {l : Lane} {parts : List Part} {s t u : State}

theorem laneOf_of_changes (h : Changes parts s t) (hlanes : Part.lanes ∉ parts) (m : Nat) : laneOf t m = laneOf s m := by
  unfold laneOf
  rw [h.lanes hlanes]

theorem LaneWritten.after (h : LaneWritten n l s t) (hc : Changes parts t u) (hlanes : Part.lanes ∉ parts) : LaneWritten n l s u :=
  ⟨(laneOf_of_changes hc hlanes n).trans h.1, fun m hm => (laneOf_of_changes hc hlanes m).trans (h.2 m hm)⟩

theorem LaneWritten.before (hc : Changes parts s t) (hlanes : Part.lanes ∉ parts) (h : LaneWritten n l t u) : LaneWritten n l s u :=
  ⟨h.1, fun m hm => (h.2 m hm).trans (laneOf_of_changes hc hlanes m)⟩

end Kept

/-- A row that does no more than write a lane. -/
theorem happens_putLane {i : Instr} {dt n : Nat} {f : State → State} {pre : State → Prop} {l : State → Lane}
    (hexec : ∀ s, exec i s = happen dt f s) (hwrites : ∀ s, pre s → f s = putLane n (l s) s) :
    Happens i dt pre [.lanes] (fun s t => LaneWritten n (l s) s t) :=
  happens_of_effect hexec (by decide) (by decide) fun s hs => (hwrites s hs).symm ▸ ⟨putLane_written n _ s, putLane_changes n _ s⟩

/-- A row that comes where its rule gives it no effect. -/
theorem happens_nothing {i : Instr} {dt : Nat} {f : State → State} {pre : State → Prop} (hexec : ∀ s, exec i s = happen dt f s)
    (hsame : ∀ s, pre s → f s = s) : Happens i dt pre [] (fun _ _ => True) :=
  happens_of_effect hexec (by decide) (by decide) fun s hs => ⟨trivial, (hsame s hs).symm ▸ Changes.refl [] s⟩

theorem lanePortCheck_changes (n : Nat) (s : State) : Changes linkParts s (lanePortCheck n s) :=
  lanePortCheck_frame (Changes.refl _ s) (by decide)

/-- What a change of a lane brings about, a wake latch and the state of its port, leaves the lanes as they are. -/
theorem laneChanged_written (n : Nat) (l : Lane) (s : State) : LaneWritten n l s (laneChanged n l s) := by
  unfold laneChanged
  extract_lets was s1
  have hlatch : LaneWritten n l s (if laneSignal s1 n = true ∧ was = false then setLatch n s1 else s1) := by
    split
    · exact (putLane_written n l s).after (setLatch_frame (Changes.refl [.groups] s1) (by decide)) (by decide)
    · exact putLane_written n l s
  exact hlatch.after (lanePortCheck_changes n _) (by decide)

/-! ## Lock and signal detect (R63, Table 3-5) -/

theorem sdGlitch_changes (n : Nat) (s : State) : Changes [.ctr] s (sdGlitch n s) := sdGlitch_frame (Changes.refl _ s) (by decide)

/-- A lock that lasts is the lane's lock, and also what IGNORE_SD takes for its signal detect. -/
theorem laneLockChange_held {n held : Nat} {lock ready : Bool} {s : State} (hheld : sdFilter s.cfg n ≤ held) :
    laneLockChange n lock ready held s =
      laneChanged n { laneOf s n with rxLock := lock, txReady := ready, lockSd := lock } s := by
  unfold laneLockChange
  dsimp only
  split
  next hsame => rw [← hsame]
  next => rw [if_neg hheld.not_gt]

/-- A lock that is too short for the filter is the lane's lock only. -/
theorem laneLockChange_short {n held : Nat} {lock ready : Bool} {s : State} (hheld : held < sdFilter s.cfg n) :
    LaneWritten n { laneOf s n with rxLock := lock, txReady := ready } s (laneLockChange n lock ready held s) := by
  unfold laneLockChange
  dsimp only
  rw [if_pos hheld]
  split
  · exact laneChanged_written n _ s
  · split
    · exact .before (sdGlitch_changes n s) (by decide) (laneChanged_written n _ _)
    · exact laneChanged_written n _ s

theorem signalDetect_held {n held : Nat} {level : Bool} {s : State} (hstage : s.mode.stage ≠ .off) (hheld : sdFilter s.cfg n ≤ held) :
    signalDetect n level held s = laneChanged n { laneOf s n with raw := level, sd := level } s := by
  unfold signalDetect
  rw [if_neg hstage, if_neg hheld.not_gt]

theorem signalDetect_short {n held : Nat} {level : Bool} {s : State} (hstage : s.mode.stage ≠ .off) (hheld : held < sdFilter s.cfg n) :
    signalDetect n level held s = if bit (laneFlags s.cfg n) 4 then s else sdGlitch n s := by
  unfold signalDetect
  rw [if_neg hstage, if_pos hheld]

theorem tallyAt_ungated {n : Nat} (k : Nat) {s : State} (h : 512 ≤ n ∨ groupState s (groupOf n) ≠ .gated) :
    tallyAt n k s = tally k s := by
  unfold tallyAt tallyIn
  split
  next hdata => rw [if_neg (h.resolve_left hdata.not_ge)]
  next => rfl

/-- The counters of a gated group stand (R15). -/
theorem tallyAt_gated {n : Nat} (k : Nat) {s : State} (hdata : n < 512) (hgated : groupState s (groupOf n) = .gated) :
    tallyAt n k s = s := by
  unfold tallyAt tallyIn
  rw [if_pos hdata, if_pos hgated]

theorem sdGlitch_counted {n : Nat} {s : State} (hclocked : clocked s = true) (h : 512 ≤ n ∨ groupState s (groupOf n) ≠ .gated) :
    sdGlitch n s = tally (sdGlitchesCtr n) s := by
  unfold sdGlitch
  rw [if_pos hclocked, tallyAt_ungated _ h]

theorem sdGlitch_gated {n : Nat} {s : State} (hdata : n < 512) (hgated : groupState s (groupOf n) = .gated) : sdGlitch n s = s := by
  unfold sdGlitch
  rw [tallyAt_gated _ hdata hgated, ite_self]

/-- A glitch of a lane under IGNORE_SD, or of a gated group, is not even counted. -/
theorem signalDetect_ignored {n held : Nat} {level : Bool} {s : State} (hheld : held < sdFilter s.cfg n)
    (h : bit (laneFlags s.cfg n) 4 = true ∨ n < 512 ∧ groupState s (groupOf n) = .gated) : signalDetect n level held s = s := by
  by_cases hstage : s.mode.stage = .off
  · exact if_pos hstage
  · rw [signalDetect_short hstage hheld]
    obtain hignored | ⟨hdata, hgated⟩ := h
    · exact if_pos hignored
    · rw [sdGlitch_gated hdata hgated, ite_self]

/-! ## The clock and the hold of a lane (R64, Table 16-4) -/

/-- The error that a clock fault records, and what its port then does, leave the lanes as they are. -/
theorem laneClockFault_written {n : Nat} {s : State} (hclocked : clocked s = true) (hfault : (laneOf s n).clockFault = false) :
    LaneWritten n { laneOf s n with clockFault := true } s (laneClockFault n s) := by
  unfold laneClockFault
  rw [if_neg (by simp [hclocked, hfault])]
  have hrecorded : ∀ a, Changes (.ctr :: errorParts) a
      (errorAt 0x00 0x0101 n sevMinor clsInput 0 0 (tallyAt n (clockFaultsCtr n) a)) :=
    fun a => errorAt_frame (tallyAt_frame (Changes.refl _ a) (by decide)) (by decide)
  exact ((putLane_written n _ s).after (hrecorded _) (by decide)).after (lanePortCheck_changes n _) (by decide)

theorem laneClockFault_of_faulted {n : Nat} {s : State} (hfault : (laneOf s n).clockFault = true) : laneClockFault n s = s :=
  if_pos (.inr hfault)

theorem laneClockRecover_locked {n : Nat} {s : State} (hlock : (laneOf s n).rxLock = true) :
    laneClockRecover n s = putLane n { laneOf s n with clockFault := false } s := if_pos hlock

theorem laneDropExpiry_due {n e : Nat} {s : State} (hdrop : (laneOf s n).dropUntil = some e) (hdue : e ≤ s.tsu.now) :
    laneDropExpiry n s = putLane n { laneOf s n with dropUntil := none } s := by
  unfold laneDropExpiry
  rw [hdrop]
  exact if_pos hdue

/-! ## A port enters a link state (Table 3-6) -/

theorem setLink_enters (p : Nat) (x : LinkSt) (hidden : Bool) {s u : State} (hlinks : SameLinks s u) (hnow : u.tsu = s.tsu) :
    enters p x s (setLink p x hidden u) := by
  obtain ⟨hlink, hsince, hothers⟩ := setLink_link p x hidden u
  exact ⟨hlink, hsince.trans (congrArg Tsu.now hnow), fun q hq => (hothers q hq).1.trans (hlinks q).1⟩

theorem enters_of_sameLinks {p : Nat} {x : LinkSt} {s t u : State} (h : enters p x s t) (hlinks : SameLinks t u) : enters p x s u := by
  obtain ⟨hlink, hsince, hothers⟩ := h
  exact ⟨(hlinks p).1.trans hlink, (hlinks p).2.trans hsince, fun q hq => (hlinks q).1.trans (hothers q hq)⟩

theorem onPort_live {p : Nat} (f : State → State) {s : State} (h : portLive s p) : onPort p f s = f s := by
  obtain ⟨hclocked, hconfigured, hpowered⟩ := h
  exact if_neg (by simp [hclocked, hconfigured, hpowered])

/-- A row of a live port: what its effect does where the port is live. -/
theorem happens_onPort {i : Instr} {dt p : Nat} {f : State → State} {pre : State → Prop} {parts : List Part}
    {post : State → State → Prop} (hexec : ∀ s, exec i s = happen dt (onPort p f) s) (hfuses : Part.fuses ∉ parts)
    (hpending : Part.pending ∉ parts) (heffect : ∀ s, pre s → post s (f s) ∧ Changes parts s (f s)) :
    Happens i dt (fun s => portLive s p ∧ pre s) parts post :=
  happens_of_effect hexec hfuses hpending fun s ⟨hlive, hpre⟩ => (onPort_live f hlive).symm ▸ heffect s hpre

/-! ## Bring-up (R72 to R77) -/

section Bringup
variable {p : Nat} {s : State}

theorem anComplete_enters {partner : AnPage} (han : (portOf s p).link = .an) :
    enters p (if sameAbility (portOf s p).page partner then afterAn s.cfg p else .anIncompatible) s (anComplete p partner s) := by
  unfold anComplete
  rw [if_neg (not_not_intro han)]
  exact setLink_enters p _ _ ((SameLinks.refl s).putPort rfl rfl) rfl

theorem anRetry_enters (hlink : (portOf s p).link = .anIncompatible) (hdue : (portOf s p).since + ms 50 ≤ s.tsu.now) :
    enters p .an s (anRetry p s) := by
  unfold anRetry
  rw [if_pos ⟨hlink, hdue⟩]
  exact setLink_enters p _ _ ((SameLinks.refl s).putPort rfl rfl) rfl

theorem trainingTimeout_enters (hlink : (portOf s p).link = .training)
    (hdue : (portOf s p).since + Config.trainWait (modeOf s p) ≤ s.tsu.now) : enters p .noSignal s (trainingTimeout p s) := by
  unfold trainingTimeout
  rw [if_pos ⟨hlink, hdue⟩]
  exact setLink_enters p _ _ (.refl s) rfl

theorem trainingComplete_enters (hlink : (portOf s p).link = .training)
    (hfinished : (portLanes s.cfg p).all (fun n => (laneOf s n).ltRxReady) = true) : enters p .aligning s (trainingComplete p s) := by
  unfold trainingComplete
  rw [if_pos ⟨hlink, hfinished⟩]
  exact setLink_enters p _ _ (.refl s) rfl

theorem alignTimeout_enters (bad : List Nat) (hlink : (portOf s p).link = .aligning) (hdue : (portOf s p).since + ms 100 ≤ s.tsu.now) :
    enters p .noSignal s (alignTimeout p bad s) := by
  unfold alignTimeout
  rw [if_pos ⟨hlink, hdue⟩]
  extract_lets s1 s2
  have hcounted : Changes (.ctr :: errorParts) s s1 :=
    Changes.foldl_frame (Changes.refl _ s) fun _ _ h => tally_frame h (by decide)
  have hrecorded : Changes (.ctr :: errorParts) s s2 := by
    unfold s2
    split
    · exact hcounted
    · exact errorAt_frame hcounted (by decide)
  exact setLink_enters p _ _ ((SameLinks.refl s).step hrecorded (by decide)) (hrecorded.tsu (by decide))

end Bringup

/-! ## Alignment (R71, R77) -/

/-- The port and its lanes with what its alignment found. -/
def alignmentNoted (p : Nat) (remote : Bool) (order skews : List Nat) (s : State) : State :=
  storeSkews p skews
    (putPort p { portOf s p with remote, order := if hasMarkers (modeOf s p) then order else [0] } s)

theorem storeSkews_changes (p : Nat) (skews : List Nat) (s : State) : Changes [.lanes] s (storeSkews p skews s) :=
  storeSkews_frame (Changes.refl _ s) (by decide)

theorem alignmentNoted_links (p : Nat) (remote : Bool) (order skews : List Nat) (s : State) :
    SameLinks s (alignmentNoted p remote order skews s) := by
  unfold alignmentNoted
  refine SameLinks.step ?_ (storeSkews_changes p skews _) (by decide)
  exact (SameLinks.refl s).putPort rfl rfl

theorem alignmentNoted_tsu (p : Nat) (remote : Bool) (order skews : List Nat) (s : State) :
    (alignmentNoted p remote order skews s).tsu = s.tsu := (storeSkews_changes p skews _).tsu (by decide)

theorem alignComplete_achieved {p : Nat} {remote : Bool} {order skews : List Nat} {s : State} (hlink : (portOf s p).link = .aligning)
    (hskews : ∀ k ∈ skews, k ≤ skewLimit)
    (horder : laneOrder (portLanes s.cfg p).length (if hasMarkers (modeOf s p) then order else [0]) = true) :
    alignComplete p remote order skews s =
      setLink p (if remote then .remoteFault else .up) false (alignmentNoted p remote order skews s) := by
  have hwithin : skews.any (fun k => skewLimit < k) = false := by simpa using hskews
  unfold alignComplete
  exact if_neg (by simp [hlink, hwithin, horder])

theorem alignComplete_enters {p : Nat} {remote : Bool} {order skews : List Nat} {s : State} (hlink : (portOf s p).link = .aligning)
    (hskews : ∀ k ∈ skews, k ≤ skewLimit)
    (horder : laneOrder (portLanes s.cfg p).length (if hasMarkers (modeOf s p) then order else [0]) = true) :
    enters p (if remote then .remoteFault else .up) s (alignComplete p remote order skews s) := by
  rw [alignComplete_achieved hlink hskews horder]
  exact setLink_enters p _ _ (alignmentNoted_links p remote order skews s) (alignmentNoted_tsu p remote order skews s)

theorem alignComplete_failed {p : Nat} {remote : Bool} {order skews : List Nat} {s : State}
    (h : (∃ k ∈ skews, skewLimit < k) ∨ (hasMarkers (modeOf s p) = true ∧ laneOrder (portLanes s.cfg p).length order = false)) :
    alignComplete p remote order skews s = s := by
  refine if_pos (.inr (h.imp (fun hskew => by simpa using hskew) fun ⟨hmarkers, horder⟩ => ?_))
  rwa [if_pos hmarkers]

theorem startVerify_retrain (p : Nat) (s : State) : (portOf (startVerify p s) p).retrain = (portOf s p).retrain := by
  unfold startVerify
  split <;> rw [portOf_putPort_self]

theorem enterUp_retrain (p : Nat) (s : State) : (portOf (enterUp p s) p).retrain = (portOf s p).retrain := by
  unfold enterUp
  dsimp only
  split
  · rw [startVerify_retrain, portOf_putPort_self]
  · rw [portOf_putPort_self]

theorem portOf_noteUp (p : Nat) (was : Bool) (s : State) (q : Nat) : portOf (noteUp p was s) q = portOf s q := by
  unfold portOf
  rw [(noteUp_frame (Changes.refl _ s) fun _ h => h).ports (by decide)]

/-- A port that comes UP has ended its retrain (R81). -/
theorem setLink_up_retrain {p : Nat} (hidden : Bool) {s : State} (hlink : (portOf s p).link ≠ .up) :
    (portOf (setLink p .up hidden s) p).retrain = false := by
  unfold setLink
  extract_lets x was trying s1 s2 s3 old s4 s5
  have hs4 : (portOf s4 p).retrain = false := by
    unfold s4
    rw [if_pos ⟨rfl, hlink⟩, enterUp_retrain]
    exact congrArg Port.retrain (portOf_putPort_self p _ s3)
  rw [portOf_noteUp]
  unfold s5
  rwa [if_neg (by simp)]

/-! ## Faults (R75, R76) -/

section Faults
variable {p : Nat} {s : State}

theorem beginFault_enters (hlink : (portOf s p).link = .up ∨ (portOf s p).link = .remoteFault) :
    enters p .localFault s (beginFault p s) := by
  unfold beginFault
  obtain hup | hremote := hlink
  · rw [hup]
    exact setLink_enters p _ _ (.refl s) rfl
  · rw [hremote]
    exact setLink_enters p _ _ (.refl s) rfl

section Hold
variable {e : Nat} (hlink : (portOf s p).link = .localFault) (hfault : (portOf s p).faultAt = some e)
include hlink hfault

theorem holdExpiry_enters (hover : e + downHold s.cfg p ≤ s.tsu.now) : enters p .localFault s (holdExpiry p s) := by
  unfold holdExpiry
  simp only [hlink, hfault, if_pos hover]
  exact setLink_enters p _ _ (.refl s) rfl

theorem faultClear_afterHold (hover : e + downHold s.cfg p ≤ s.tsu.now) : enters p .localFault s (faultClear p s) := by
  unfold faultClear
  simp only [hlink, hfault, if_pos hover]
  exact setLink_enters p _ _ (.refl s) rfl

theorem faultClear_withinHold (hwithin : s.tsu.now < e + downHold s.cfg p) (hlive : lanesLive s p = true)
    (herr : (portOf s p).highErr = false) : enters p .up s (faultClear p s) := by
  unfold faultClear
  simp only [hlink, hfault, if_neg hwithin.not_ge, hlive, herr, and_self, if_true]
  exact enters_of_sameLinks (setLink_enters p _ _ (.refl s) rfl)
    (.of_ports ((tally_frame (Changes.refl [.ctr] _) (by decide)).ports (by decide)))

end Hold

theorem remoteChange_begins_enters (hlink : (portOf s p).link = .up) : enters p .remoteFault s (remoteChange p true s) := by
  unfold remoteChange
  rw [hlink]
  exact setLink_enters p _ _ ((SameLinks.refl s).putPort rfl rfl) rfl

theorem remoteChange_ceases_enters (hlink : (portOf s p).link = .remoteFault) : enters p .up s (remoteChange p false s) := by
  unfold remoteChange
  rw [hlink]
  exact setLink_enters p _ _ ((SameLinks.refl s).putPort rfl rfl) rfl

end Faults

/-! ## LINK_RETRAIN (R81) -/

/-- The cause that a gated group is given leaves the ports as they are. -/
theorem retrain_ports (p : Nat) (s : State) :
    (retrain p s).ports = tput (setLink p .noSignal false s).ports p { portOf (setLink p .noSignal false s) p with retrain := true } := by
  unfold retrain
  extract_lets s1 s2 g
  split <;> rfl

theorem retrain_enters (p : Nat) (s : State) : enters p .noSignal s (retrain p s) ∧ (portOf (retrain p s) p).retrain = true := by
  have hlinks : SameLinks (setLink p .noSignal false s) (retrain p s) :=
    ((SameLinks.refl (setLink p .noSignal false s)).putPort (p := p) (x := { portOf (setLink p .noSignal false s) p with retrain := true })
      rfl rfl).trans (.of_ports (retrain_ports p s))
  refine ⟨enters_of_sameLinks (setLink_enters p _ _ (.refl s) rfl) hlinks, ?_⟩
  unfold portOf
  rw [retrain_ports, tgetD_tput_self]

/-! ## Preemption verification (R199) -/

@[simp] theorem levelNow_raiseEvent (n : Nat) (s : State) : levelNow (tgetD (raiseEvent n s).jic.levels n []) = true := by
  change levelNow (tgetD (setLevel n true s).jic.levels n []) = true
  unfold setLevel
  extract_lets h
  split
  · assumption
  · exact congrArg levelNow (tgetD_tput_self _ _ _ _)

section Verify
variable {p n : Nat} {s : State} (hrunning : (portOf s p).verify = .running n) (hsent : (portOf s p).verifyDue = false)
  (hdue : (portOf s p).verifyAt + ms (preemptCfg s.cfg p).verify ≤ s.tsu.now)
include hrunning hsent hdue

theorem verifyTimeout_due : verifyTimeout p s =
    if n < 3 then putPort p { portOf s p with verify := .running (n + 1), verifyDue := true } s
    else verifyOutcome p .failed (tally (preemptVerifyFailsCtr p) s) := by
  unfold verifyTimeout
  simp only [hrunning, hsent, hdue.not_gt, Bool.false_eq_true, or_self, if_false]

theorem verifyTimeout_retries (hmore : n < 3) :
    portOf (verifyTimeout p s) p = { portOf s p with verify := .running (n + 1), verifyDue := true } := by
  rw [verifyTimeout_due hrunning hsent hdue, if_pos hmore, portOf_putPort_self]

theorem verifyTimeout_fails (hlast : 3 ≤ n) :
    (portOf (verifyTimeout p s) p).verify = .failed ∧
      total (verifyTimeout p s) (preemptVerifyFailsCtr p) = total s (preemptVerifyFailsCtr p) + 1 ∧
      levelNow (tgetD (verifyTimeout p s).jic.levels (0x610 + p) []) = true := by
  rw [verifyTimeout_due hrunning hsent hdue, if_neg hlast.not_gt]
  unfold verifyOutcome
  refine ⟨?_, ?_, levelNow_raiseEvent _ _⟩
  · unfold portOf
    rw [(raiseEvent_frame (Changes.refl [.levels, .jic] _) (by decide)).ports (by decide)]
    exact congrArg Port.verify (portOf_putPort_self p _ _)
  · unfold total
    rw [raiseEvent_tel, putPort_tel]
    exact total_tally_self _ s

end Verify

/-! ## The statements -/

/-- Settles O22: it holds, row by row. -/
theorem lanesHoldTheirInputs : Obligations.LanesHoldTheirInputs := by
  unfold Obligations.LanesHoldTheirInputs
  refine ⟨?partnerReq, ?rxReady, ?txStatus, ?lockHeld, ?lockShort, ?signalHeld, ?glitch, ?ignored, ?fault, ?faultAgain, ?recover, ?drop,
    ?retrain⟩
  case partnerReq => exact fun dt n c => happens_putLane (fun _ => rfl) fun _ _ => rfl
  case rxReady => exact fun dt n b => happens_putLane (fun _ => rfl) fun _ _ => rfl
  case txStatus => exact fun dt n v c => happens_putLane (fun _ => rfl) fun _ _ => rfl
  case lockHeld =>
    exact fun dt n lock ready held => happens_of_effect (fun _ => rfl) (by decide) (by decide) fun s hheld =>
      ⟨laneLockChange_held hheld ▸ laneChanged_written n _ s, laneLockChange_frame (Changes.refl _ s) (by decide)⟩
  case lockShort =>
    exact fun dt n lock ready held => happens_of_effect (fun _ => rfl) (by decide) (by decide) fun s hheld =>
      ⟨laneLockChange_short hheld, laneLockChange_frame (Changes.refl _ s) (by decide)⟩
  case signalHeld =>
    exact fun dt n level held => happens_of_effect (fun _ => rfl) (by decide) (by decide) fun s ⟨hstage, hheld⟩ =>
      ⟨signalDetect_held hstage hheld ▸ laneChanged_written n _ s, signalDetect_frame (Changes.refl _ s) (by decide)⟩
  case glitch =>
    refine fun dt n level held => happens_of_effect (fun _ => rfl) (by decide) (by decide)
      fun s ⟨hstage, hheld, hclocked, hnotIgnored, hcounts⟩ => ?_
    rw [signalDetect_short hstage hheld, if_neg (by simp [hnotIgnored]), sdGlitch_counted hclocked hcounts]
    exact ⟨total_tally_self _ s, tally_frame (Changes.refl _ s) (by decide)⟩
  case ignored =>
    exact fun dt n level held => happens_nothing (fun _ => rfl) fun s ⟨hheld, hignored⟩ => signalDetect_ignored hheld hignored
  case fault =>
    exact fun dt n => happens_of_effect (fun _ => rfl) (by decide) (by decide) fun s ⟨hclocked, hfault⟩ =>
      ⟨laneClockFault_written hclocked hfault, laneClockFault_frame (Changes.refl _ s) (by decide)⟩
  case faultAgain => exact fun dt n => happens_nothing (fun _ => rfl) fun s hfault => laneClockFault_of_faulted hfault
  case recover => exact fun dt n => happens_putLane (fun _ => rfl) fun s hlock => laneClockRecover_locked hlock
  case drop => exact fun dt n e => happens_putLane (fun _ => rfl) fun s ⟨hdrop, hdue⟩ => laneDropExpiry_due hdrop hdue
  case retrain =>
    refine fun z p => performs_of (fun _ => rfl) rfl rfl (by decide) (by decide) (by decide) ?kept fun c u _ _ _ => ?effect
    case kept =>
      rintro u v t ⟨henters, hretrain⟩ hreplied
      have hports : t.ports = v.ports := hreplied.ports (by decide)
      exact ⟨enters_of_sameLinks henters (.of_ports hports), (congrArg (fun a => (tgetD a p {}).retrain) hports).trans hretrain⟩
    case effect =>
      have hchanges : Changes linkParts u (retrain p u) := retrain_frame (Changes.refl _ u) (by decide)
      exact ⟨rfl, rfl, rfl, hchanges.cpx_activation (by decide), retrain_enters p u, hchanges.mono (by decide)⟩

/-- Settles O23: it holds, row by row. That a fault which clears within LINK_DOWN_HOLD takes the port back to UP is the model's choice
(log 40). -/
theorem linksFollowTheirTable : Obligations.LinksFollowTheirTable := by
  unfold Obligations.LinksFollowTheirTable
  refine ⟨?common, ?incompatible, ?retry, ?trainingTimeout, ?trainingComplete, ?aligned, ?alignedRemote, ?notAligned, ?alignTimeout,
    ?fault, ?holdOver, ?clears, ?clearsLate, ?remoteBegins, ?remoteCeases, ?verifyNext, ?verifyLast⟩
  case common =>
    refine fun dt p page => happens_onPort (fun _ => rfl) (by decide) (by decide)
      fun s ⟨hlink, hcommon⟩ => ⟨?_, anComplete_frame (Changes.refl _ s) (by decide)⟩
    have henters := anComplete_enters (partner := page) hlink
    rwa [if_pos hcommon] at henters
  case incompatible =>
    refine fun dt p page => happens_onPort (fun _ => rfl) (by decide) (by decide)
      fun s ⟨hlink, hnone⟩ => ⟨?_, anComplete_frame (Changes.refl _ s) (by decide)⟩
    have henters := anComplete_enters (partner := page) hlink
    rwa [if_neg (by simp [hnone])] at henters
  case retry =>
    exact fun dt p => happens_onPort (fun _ => rfl) (by decide) (by decide) fun s ⟨hlink, hdue⟩ =>
      ⟨anRetry_enters hlink hdue, anRetry_frame (Changes.refl _ s) (by decide)⟩
  case trainingTimeout =>
    exact fun dt p => happens_onPort (fun _ => rfl) (by decide) (by decide) fun s ⟨hlink, hdue⟩ =>
      ⟨trainingTimeout_enters hlink hdue, trainingTimeout_frame (Changes.refl _ s) (by decide)⟩
  case trainingComplete =>
    exact fun dt p => happens_onPort (fun _ => rfl) (by decide) (by decide) fun s ⟨hlink, hfinished⟩ =>
      ⟨trainingComplete_enters hlink hfinished, trainingComplete_frame (Changes.refl _ s) (by decide)⟩
  case aligned =>
    refine fun dt p order skews => happens_onPort (fun _ => rfl) (by decide) (by decide) fun s ⟨hlink, hskews, horder⟩ =>
      ⟨⟨alignComplete_enters hlink hskews horder, ?_⟩, alignComplete_frame (Changes.refl _ s) (by decide)⟩
    rw [alignComplete_achieved hlink hskews horder]
    exact setLink_up_retrain _ (by simp [(alignmentNoted_links p false order skews s p).1, hlink])
  case alignedRemote =>
    exact fun dt p order skews => happens_onPort (fun _ => rfl) (by decide) (by decide) fun s ⟨hlink, hskews, horder⟩ =>
      ⟨alignComplete_enters hlink hskews horder, alignComplete_frame (Changes.refl _ s) (by decide)⟩
  case notAligned =>
    exact fun dt p order skews remote => happens_nothing (fun _ => rfl) fun s hfailed => by
      rw [onPort, alignComplete_failed hfailed, ite_self]
  case alignTimeout =>
    exact fun dt p bad => happens_onPort (fun _ => rfl) (by decide) (by decide) fun s ⟨hlink, hdue⟩ =>
      ⟨alignTimeout_enters bad hlink hdue, alignTimeout_frame (Changes.refl _ s) (by decide)⟩
  case fault =>
    exact fun dt p => happens_onPort (fun _ => rfl) (by decide) (by decide) fun s hlink =>
      ⟨beginFault_enters hlink, beginFault_frame (Changes.refl _ s) (by decide)⟩
  case holdOver =>
    exact fun dt p e => happens_onPort (fun _ => rfl) (by decide) (by decide) fun s ⟨hlink, hfault, hover⟩ =>
      ⟨holdExpiry_enters hlink hfault hover, holdExpiry_frame (Changes.refl _ s) (by decide)⟩
  case clears =>
    exact fun dt p e => happens_onPort (fun _ => rfl) (by decide) (by decide) fun s ⟨hlink, hfault, hwithin, hlive, herr⟩ =>
      ⟨faultClear_withinHold hlink hfault hwithin hlive herr, faultClear_frame (Changes.refl _ s) (by decide)⟩
  case clearsLate =>
    exact fun dt p e => happens_onPort (fun _ => rfl) (by decide) (by decide) fun s ⟨hlink, hfault, hover⟩ =>
      ⟨faultClear_afterHold hlink hfault hover, faultClear_frame (Changes.refl _ s) (by decide)⟩
  case remoteBegins =>
    exact fun dt p => happens_onPort (fun _ => rfl) (by decide) (by decide) fun s hlink =>
      ⟨remoteChange_begins_enters hlink, remoteChange_frame (Changes.refl _ s) (by decide)⟩
  case remoteCeases =>
    exact fun dt p => happens_onPort (fun _ => rfl) (by decide) (by decide) fun s hlink =>
      ⟨remoteChange_ceases_enters hlink, remoteChange_frame (Changes.refl _ s) (by decide)⟩
  case verifyNext =>
    refine fun dt p n => happens_onPort (fun _ => rfl) (by decide) (by decide) fun s ⟨hrunning, hsent, hmore, hdue⟩ =>
      ⟨verifyTimeout_retries hrunning hsent hdue hmore, ?_⟩
    rw [verifyTimeout_due hrunning hsent hdue, if_pos hmore]
    exact putPort_frame (Changes.refl _ s) (by decide)
  case verifyLast =>
    exact fun dt p n => happens_onPort (fun _ => rfl) (by decide) (by decide) fun s ⟨hrunning, hsent, hlast, hdue⟩ =>
      ⟨verifyTimeout_fails hrunning hsent hdue hlast, verifyTimeout_frame (Changes.refl _ s) (by decide)⟩

end Sys2Proof.Proofs
end

section
/-! PROOFS. What the rules of reception share (04, 18): what a counter, an error unit and a receive group read after each operation on
them, and what stays where a part of the state does not change. -/
namespace Sys2Proof.Proofs
open Sys2Proof.Machine Sys2Proof.Safety

/-! ## Counters -/

@[simp] theorem total_count_self (k n : Nat) (s : State) : total (count k n s) k = total s k + n := by
  unfold count
  split
  next h => rw [h, Nat.add_zero]
  next => exact tgetD_tput_self _ _ _ _

theorem total_count_ne {k j : Nat} (n : Nat) (s : State) (h : j ≠ k) : total (count k n s) j = total s j := by
  unfold count
  split
  · rfl
  · exact tgetD_tput_ne _ _ _ _ _ h

theorem total_tally_ne {k j : Nat} (s : State) (h : j ≠ k) : total (tally k s) j = total s j := total_count_ne 1 s h

theorem total_tallyIn_self (g k : Nat) (s : State) : total (tallyIn g k s) k = total s k + counts g s := by
  unfold tallyIn counts
  split
  · rfl
  · exact total_tally_self k s

/-- Two words of one counter group and INDEX are two counters. -/
theorem ctrKey_ne {code index i j : Nat} (h : i ≠ j) : ctrKey code index i ≠ ctrKey code index j := by
  unfold ctrKey
  omega

/-! ## What stays where a part does not change -/

section Kept
variable {l : List Part} {s t : State} (h : Changes l s t)
include h

theorem total_of_changes (hctr : Part.ctr ∉ l) (k : Nat) : total t k = total s k := by
  unfold total
  rw [h.tel_ctr hctr]

theorem rxGroup_of_changes (hrx : Part.rx ∉ l) (g : Nat) : rxGroup t g = rxGroup s g := by
  unfold rxGroup
  rw [h.rx hrx]

theorem saOfKey_of_changes (hsas : Part.sas ∉ l) (k : Nat) : saOfKey t k = saOfKey s k := by
  unfold saOfKey
  rw [h.sas hsas]

theorem halting_of_changes (htsu : Part.tsu ∉ l) (hdbg : Part.dbg ∉ l) : halting t = halting s := by
  unfold halting
  rw [h.tsu htsu, h.dbg_freeze hdbg]

theorem counts_of_changes (hfuses : Part.fuses ∉ l) (hgroups : Part.groups ∉ l) (g : Nat) : counts g t = counts g s := by
  unfold counts groupState
  rw [h.fuses hfuses, h.groups hgroups]

/-- An error that was raised stays raised while the error units stand. -/
theorem raises_after {u code sev : Nat} {r : State} (herr : Part.err ∉ l) (hr : raises u code sev r s) : raises u code sev r t := by
  unfold raises errUnit at *
  rwa [h.err herr]

theorem raises_before {u code sev : Nat} {r : State} (herr : Part.err ∉ l) (hr : raises u code sev t r) : raises u code sev s r := by
  unfold raises errUnit at *
  rwa [h.err herr] at hr

end Kept

/-! ## Errors (R408 to R412) -/

theorem raiseError_raises (gen : Nat) {r : ErrRec} {s : State} (hseq : r.seq = s.err.nextSeq) :
    raises r.unit r.code r.sev s (raiseError gen r s) := by
  have hself : errUnit (raiseError gen r s) r.unit = tgetD (tput s.err.units r.unit _) r.unit {} := rfl
  have hlatest : (errUnit (raiseError gen r s) r.unit).latest = r ∧
      (errUnit (raiseError gen r s) r.unit).count = satInc 32 (errUnit s r.unit).count := by
    rw [hself, tgetD_tput_self]
    dsimp only
    split <;> exact ⟨rfl, rfl⟩
  exact ⟨by rw [hlatest.1], by rw [hlatest.1], by rw [hlatest.1, hseq], Nat.lt_succ_self _, hlatest.2⟩

/-- What an armed trigger does at an error, a freeze or a NOTE of DBG, touches no other unit's record (R373). -/
theorem armedFires_raises {u code sev : Nat} (kind : Nat) {s t : State} (hu : u ≠ 0x15) (h : raises u code sev s t) :
    raises u code sev s (armedFires kind t) := by
  unfold armedFires
  split
  · exact h
  · dsimp only
    split
    · exact raises_after (triggerFreeze_frame (Changes.refl [.pounce, .dbg] _) (by decide)) (by decide) h
    · have hother : ∀ a, errUnit (dbgNote (if kind = 1 then 1 else 0) a) u = errUnit a u := fun a => tgetD_tput_ne _ _ _ _ _ hu
      obtain ⟨hcode, hsev, hseq, hnext, hcount⟩ := h
      unfold raises
      rw [hother]
      exact ⟨hcode, hsev, hseq, hnext.trans (Nat.lt_succ_self _), hcount⟩

theorem errorAt_raises {unit code inst sev cls d0 d1 : Nat} {s : State} (hclocked : clocked s = true) (hunit : unit ≠ 0x15) :
    raises unit code sev s (errorAt unit code inst sev cls d0 d1 s) := by
  unfold errorAt errorWith
  rw [if_neg (by simp [hclocked])]
  extract_lets r s2
  have hrecorded : raises unit code sev s s2 := armedFires_raises 1 hunit (raiseError_raises 0 (r := r) rfl)
  split
  · exact raises_after (enterQuarantine_frame (Changes.refl [.quarantine, .sessions, .sealed, .frc, .pounce, .dbg] _) (by decide))
      (by decide) hrecorded
  · exact hrecorded

theorem armedFires_halting (kind : Nat) (s : State) : halting (armedFires kind s) = halting s := by
  unfold armedFires
  split
  · rfl
  · dsimp only
    split
    · unfold triggerFreeze
      split
      · rfl
      next hnot =>
        have hnone : s.dbg.freeze = none := by simpa using (not_or.mp hnot).1
        simp [halting, hnone]
    · rfl

/-- A freeze that an error triggers begins in the ccyc after it (R373). -/
theorem errorAt_halting {unit code inst sev cls d0 d1 : Nat} {s : State} (hsev : sev ≠ sevFatal) :
    halting (errorAt unit code inst sev cls d0 d1 s) = halting s := by
  unfold errorAt errorWith
  split
  · rfl
  · dsimp only
    rw [if_neg fun hfatal => hsev hfatal.1, armedFires_halting]
    rfl

theorem bpiError_changes (pg code cls d : Nat) (s : State) : Changes errorParts s (bpiError pg code cls d s) :=
  bpiError_frame (Changes.refl _ s) (by decide)

/-! ## Perturbations (R379) -/

theorem pounceFires_of_none {cls target : Nat} {s : State} (h : s.dbg.pounce = []) : pounceFires cls target s = (none, s) := by
  unfold pounceFires running
  rw [h]
  rfl

/-! ## A receive group's record -/

@[simp] theorem rxGroup_putRx_self (g : Nat) (x : RxGroup) (s : State) : rxGroup (putRx g x s) g = x := tgetD_tput_self _ _ _ _

theorem rxGroup_putRx_ne {g j : Nat} (x : RxGroup) (s : State) (h : j ≠ g) : rxGroup (putRx g x s) j = rxGroup s j :=
  tgetD_tput_ne _ _ _ _ _ h

@[simp] theorem rxGroup_emit (o : Output) (s : State) (g : Nat) : rxGroup (emit o s) g = rxGroup s g := rfl
@[simp] theorem rxGroup_emits (os : List Output) (s : State) (g : Nat) : rxGroup (emits os s) g = rxGroup s g := rfl

section Group
variable (pg id : Nat) (s : State)

@[simp] theorem rxGroup_mapHeld (f : HeldFrame → HeldFrame) : rxGroup (mapHeld pg id f s) pg =
    { rxGroup s pg with frames := (rxGroup s pg).frames.map (fun e => if e.1 = id then (e.1, f e.2) else e) } :=
  rxGroup_putRx_self _ _ _

@[simp] theorem rxGroup_removeHeld : rxGroup (removeHeld pg id s) pg =
    { rxGroup s pg with frames := (rxGroup s pg).frames.filter (fun e => e.1 ≠ id) } := rxGroup_putRx_self _ _ _

@[simp] theorem rxGroup_freeBuffers (l : List (Nat × Nat)) : rxGroup (freeBuffers pg l s) pg =
    { rxGroup s pg with returns := (rxGroup s pg).returns ++ l.map (fun b => (s.tsu.now + 1, b.1, b.2)) } := rxGroup_putRx_self _ _ _

@[simp] theorem rxGroup_removeBus : rxGroup (removeBus pg id s) pg =
    { rxGroup s pg with bus := (rxGroup s pg).bus.filter (fun e => e.1 ≠ id) } := rxGroup_putRx_self _ _ _

@[simp] theorem rxGroup_putBus (b : BusFrame) : rxGroup (putBus pg id b s) pg =
    { rxGroup s pg with bus := (rxGroup s pg).bus.map (fun e => if e.1 = id then (id, b) else e) } := rxGroup_putRx_self _ _ _

@[simp] theorem rxGroup_joinBus (b : BusFrame) : rxGroup (joinBus pg id b s) pg =
    { rxGroup s pg with bus := (rxGroup s pg).bus.filter (fun e => e.1 < id) ++ [(id, b)] ++
        (rxGroup s pg).bus.filter (fun e => id < e.1) } := rxGroup_putRx_self _ _ _

@[simp] theorem rxGroup_tally (k : Nat) : rxGroup (tally k s) pg = rxGroup s pg :=
  rxGroup_of_changes (tally_frame (Changes.refl [.ctr] s) (by decide)) (by decide) pg

@[simp] theorem rxGroup_endSample (code tag what : Nat) (f : Option Fields) : rxGroup (endSample code tag what f s) pg = rxGroup s pg :=
  rxGroup_of_changes (endSample_frame (Changes.refl [.levels, .jic, .ctr, .samples] s) (by decide)) (by decide) pg

@[simp] theorem rxGroup_endBus (i : RxInfo) : rxGroup (endBus i s) pg = rxGroup s pg :=
  rxGroup_of_changes (endBus_frame (Changes.refl [.ctr] s) (by decide)) (by decide) pg

@[simp] theorem rxGroup_unbindHeld (h : HeldFrame) : rxGroup (unbindHeld h s) pg = rxGroup s pg :=
  rxGroup_of_changes (unbindHeld_frame (Changes.refl [.frc, .sas] s) (by decide)) (by decide) pg

@[simp] theorem rxGroup_verified (h : HeldFrame) : rxGroup (verified h s) pg = rxGroup s pg :=
  rxGroup_of_changes (verified_frame (Changes.refl [.levels, .jic, .ctr, .frc, .sas] s) (by decide)) (by decide) pg

@[simp] theorem rxGroup_bpiError (g code cls d : Nat) : rxGroup (bpiError g code cls d s) pg = rxGroup s pg :=
  rxGroup_of_changes (bpiError_changes g code cls d s) (by decide) pg

theorem mem_returns_freeBuffers {l : List (Nat × Nat)} {x : Nat × Nat} (h : x ∈ l) :
    (s.tsu.now + 1, x.1, x.2) ∈ (rxGroup (freeBuffers pg l s) pg).returns := by
  rw [rxGroup_freeBuffers]
  exact List.mem_append_right _ (List.mem_map_of_mem h)

end Group

end Sys2Proof.Proofs
end

section
/-! PROOFS. The bus and the buffers of a receive group (04 R88, R99 to R113, 05 R128, R140): a frame's turn on the bus, requests and
answers of the buffer ladder, the verdict on a held frame and its release. -/
namespace Sys2Proof.Proofs
open Sys2Proof.Machine Sys2Proof.Safety

/-! ## The slices of a frame (R106, R107) -/

theorem emit_emits (o : Output) (os : List Output) (s : State) : emits os (emit o s) = emits (o :: os) s := by
  simp [emit, emits]

/-- The next slice goes by the time of the ccyc and nothing else of the state. -/
theorem nextSlice_emit (o : Output) (s : State) (pg slot : Nat) (b : BusFrame) :
    nextSlice (emit o s) pg slot b = nextSlice s pg slot b := rfl

theorem sendSlices_eq (k pg slot : Nat) (b : BusFrame) (s : State) : sendSlices k pg slot b s =
    ({ b with sent := b.sent + k },
      emits ((List.range k).map (fun j => Output.cpiSlice (nextSlice s pg (slot + j) { b with sent := b.sent + j }))) s) := by
  induction k generalizing slot b s with
  | zero => simp [sendSlices, emits]
  | succ k ih =>
    rw [sendSlices, ih, emit_emits, List.range_succ_eq_map]
    simp only [List.map_cons, List.map_map, nextSlice_emit, Nat.add_zero, Function.comp_def, Nat.succ_eq_add_one,
      Nat.add_comm, Nat.add_left_comm]

theorem nextSlice_begun {s : State} {b : BusFrame} (pg k : Nat) {j : Nat} (h : b.sent + j ≠ 0) :
    nextSlice s pg (k + j) { b with sent := b.sent + j } = sliceOf pg k j b.tag none b s := by
  simp only [nextSlice, sliceOf, if_neg h]
  rfl

theorem nextSlice_first {s : State} {b : BusFrame} (pg k : Nat) (h : b.sent = 0) :
    nextSlice s pg (k + 0) { b with sent := b.sent + 0 } =
      sliceOf pg k 0 b.tag (some ([(16, b.info.epoch), (16, b.tag)] ++ b.info.smeta)) b s := by
  simp only [nextSlice, sliceOf, h]
  rfl

/-! ## A frame's turn on the bus (R88, R100, R105 to R113) -/

/-- What is left of a frame once its slices of a turn have gone: its place on the bus, or its end. -/
def turnEnd (pg id : Nat) (b : BusFrame) (s : State) : State :=
  if b.sent = sliceCount b then freeBuffers pg b.buffers (endBus b.info (removeBus pg id s)) else putBus pg id b s

theorem turnEnd_out (pg id : Nat) (b : BusFrame) (s : State) : (turnEnd pg id b s).out = s.out := by
  unfold turnEnd
  split
  · exact (freeBuffers_frame (endBus_frame (removeBus_frame (Changes.refl [.rx, .ctr] s) (by decide)) (by decide)) (by decide)).out
      (by decide)
  · rfl

theorem turnEnd_tag (pg id : Nat) (b : BusFrame) (s : State) : (rxGroup (turnEnd pg id b s) pg).tag = (rxGroup s pg).tag := by
  unfold turnEnd
  split <;> simp

theorem endBus_good {i : RxInfo} (hgood : i.flags = 0) (s : State) :
    total (endBus i s) (rxFramesOkCtr i.port) = total s (rxFramesOkCtr i.port) + 1 ∧
      total (endBus i s) (rxBytesOkCtr i.port) = total s (rxBytesOkCtr i.port) + i.frameLen := by
  have hne : rxFramesOkCtr i.port ≠ rxBytesOkCtr i.port := ctrKey_ne (by decide)
  unfold endBus
  rw [if_pos hgood, total_count_ne _ _ hne, total_tally_self, total_count_self, total_tally_ne _ hne.symm]
  exact ⟨rfl, rfl⟩

/-- A good frame is counted as its last slice leaves (R113). -/
theorem turnEnd_counts {pg id : Nat} {b : BusFrame} (s : State) (hlast : b.sent = sliceCount b) (hgood : b.info.flags = 0) :
    total (turnEnd pg id b s) (rxFramesOkCtr b.info.port) = total s (rxFramesOkCtr b.info.port) + 1 ∧
      total (turnEnd pg id b s) (rxBytesOkCtr b.info.port) = total s (rxBytesOkCtr b.info.port) + b.info.frameLen := by
  unfold turnEnd
  rw [if_pos hlast]
  exact endBus_good hgood _

/-- The slices that leave in a turn of `n` places from `k` on. -/
def turnSlices (pg k n : Nat) (b : BusFrame) (s : State) : List Output :=
  (List.range n).map (fun j => Output.cpiSlice (nextSlice s pg (k + j) { b with sent := b.sent + j }))

theorem mem_turnSlices {n j : Nat} (pg k : Nat) (b : BusFrame) (s : State) (h : j < n) :
    Output.cpiSlice (nextSlice s pg (k + j) { b with sent := b.sent + j }) ∈ turnSlices pg k n b s :=
  List.mem_map_of_mem (f := fun j => Output.cpiSlice (nextSlice s pg (k + j) { b with sent := b.sent + j })) (List.mem_range.mpr h)

/-- A frame that begins takes its FRAME_TAG and sends its CLI record (R110, R111). -/
theorem startBus_begins (pg : Nat) (b : BusFrame) (s : State) :
    (startBus pg b s).1 = { b with tag := (rxGroup s pg).tag } ∧
      (startBus pg b s).2.out = s.out ++ [Output.cliRecord pg ([(16, (rxGroup s pg).tag), (16, b.info.epoch)] ++ b.info.cli)] ∧
      (rxGroup (startBus pg b s).2 pg).tag = ((rxGroup s pg).tag + 1) % 65536 ∧ (startBus pg b s).2.tsu = s.tsu :=
  ⟨rfl, rfl, congrArg RxGroup.tag (rxGroup_putRx_self _ _ _), rfl⟩

section Turn
variable {pg k id n : Nat} {b : BusFrame} {s : State} (hturn : hasTurn pg k id n b s)
include hturn

/-- A frame of which no slice may leave in this turn, and which is not dropped either, stays as it is. -/
theorem busTurn_idle (hgoes : ¬ (b.sent = 0 ∧ b.info.abort = true ∧ b.info.errAt ≤ s.tsu.now)) (hn : n = 0) :
    busTurn pg (k, s) id = (k, s) := by
  obtain ⟨hplace, hroom⟩ := hturn
  unfold busTurn
  simp only [hplace, ← hroom, if_neg hgoes, hn, true_or, if_true]

theorem busTurn_begun (hbegun : b.sent ≠ 0) (hn : n ≠ 0) :
    busTurn pg (k, s) id = (k + n, turnEnd pg id { b with sent := b.sent + n } (emits (turnSlices pg k n b s) s)) := by
  obtain ⟨hplace, hroom⟩ := hturn
  unfold busTurn
  simp only [hplace, ← hroom, hbegun, hn, false_and, or_self, if_false, sendSlices_eq]
  rfl

theorem busTurn_starts (hnew : b.sent = 0) (hgood : b.info.abort = true → s.tsu.now < b.info.errAt)
    (hfirst : behind (rxGroup s pg) id b.info = false) (hn : n ≠ 0) :
    busTurn pg (k, s) id = (k + n, turnEnd pg id { (startBus pg b s).1 with sent := (startBus pg b s).1.sent + n }
      (emits (turnSlices pg k n (startBus pg b s).1 (startBus pg b s).2) (startBus pg b s).2)) := by
  obtain ⟨hplace, hroom⟩ := hturn
  rw [hnew] at hroom
  have hgoes : ¬ (b.info.abort = true ∧ b.info.errAt ≤ s.tsu.now) := fun h => (hgood h.1).not_ge h.2
  unfold busTurn
  simp only [hplace, ← hroom, hnew, true_and, if_neg hgoes, hfirst, hn, Bool.false_eq_true, and_false, or_self, if_false, if_true,
    sendSlices_eq]
  rfl

theorem busTurn_drops (hnew : b.sent = 0) (habort : b.info.abort = true) (herr : b.info.errAt ≤ s.tsu.now) :
    busTurn pg (k, s) id = (k, freeBuffers pg b.buffers
      (endSample 4 0 0xFFFF b.info.sample (tally (rxErroredDroppedCtr b.info.port) (removeBus pg id s)))) := by
  unfold busTurn
  simp only [hturn.1, hnew, habort, herr, true_and, if_true]

/-- The slices of a frame in progress (R106, R107), and its counts with the last of them (R113). -/
theorem busTurn_goesOn (hbegun : b.sent ≠ 0) :
    (busTurn pg (k, s) id).1 = k + n ∧
    (∀ j, j < n → Output.cpiSlice (sliceOf pg k j b.tag none b s) ∈ (busTurn pg (k, s) id).2.out) ∧
    (n ≠ 0 → b.sent + n = sliceCount b → b.info.flags = 0 →
      total (busTurn pg (k, s) id).2 (rxFramesOkCtr b.info.port) = total s (rxFramesOkCtr b.info.port) + 1 ∧
      total (busTurn pg (k, s) id).2 (rxBytesOkCtr b.info.port) = total s (rxBytesOkCtr b.info.port) + b.info.frameLen) := by
  by_cases hn : n = 0
  · rw [busTurn_idle hturn (fun h => hbegun h.1) hn]
    exact ⟨by rw [hn, Nat.add_zero], fun j hj => by omega, fun h => absurd hn h⟩
  · rw [busTurn_begun hturn hbegun hn]
    refine ⟨rfl, fun j hj => ?_, fun _ => turnEnd_counts (b := { b with sent := b.sent + n }) _⟩
    rw [turnEnd_out, ← nextSlice_begun pg k (by omega)]
    exact List.mem_append_right _ (mem_turnSlices pg k b s hj)

theorem busTurn_begins (hnew : b.sent = 0) (hgood : b.info.abort = true → s.tsu.now < b.info.errAt)
    (hfirst : behind (rxGroup s pg) id b.info = false) (hn : n ≠ 0) :
    (busTurn pg (k, s) id).1 = k + n ∧
    (rxGroup (busTurn pg (k, s) id).2 pg).tag = ((rxGroup s pg).tag + 1) % 65536 ∧
    Output.cliRecord pg ([(16, (rxGroup s pg).tag), (16, b.info.epoch)] ++ b.info.cli) ∈ (busTurn pg (k, s) id).2.out ∧
    Output.cpiSlice (sliceOf pg k 0 (rxGroup s pg).tag (some ([(16, b.info.epoch), (16, (rxGroup s pg).tag)] ++ b.info.smeta)) b s) ∈
      (busTurn pg (k, s) id).2.out ∧
    (∀ j, 0 < j → j < n → Output.cpiSlice (sliceOf pg k j (rxGroup s pg).tag none b s) ∈ (busTurn pg (k, s) id).2.out) := by
  obtain ⟨-, hrecord, htag, -⟩ := startBus_begins pg b s
  have hslice := fun j (hj : j < n) => mem_turnSlices pg k (startBus pg b s).1 (startBus pg b s).2 hj
  rw [busTurn_starts hturn hnew hgood hfirst hn, turnEnd_tag, turnEnd_out]
  refine ⟨rfl, htag, List.mem_append_left _ ?_, List.mem_append_right _ ?_, fun j hpos hj => List.mem_append_right _ ?_⟩
  · rw [hrecord]
    exact List.mem_append_right _ (List.mem_singleton.mpr rfl)
  · have hfirstSlice := hslice 0 (by omega)
    rwa [nextSlice_first pg k (show (startBus pg b s).1.sent = 0 from hnew)] at hfirstSlice
  · have hnext := hslice j hj
    rwa [nextSlice_begun pg k (by omega)] at hnext

/-- A frame whose error is found before it begins leaves the bus unsent, its buffers to be returned (R88, R105). -/
theorem busTurn_dropped (hnew : b.sent = 0) (habort : b.info.abort = true) (herr : b.info.errAt ≤ s.tsu.now) :
    (busTurn pg (k, s) id).1 = k ∧ (busTurn pg (k, s) id).2.out = s.out ∧
    (∀ e, e ∈ (rxGroup (busTurn pg (k, s) id).2 pg).bus → e.1 ≠ id) ∧
    ∀ x, x ∈ b.buffers → (s.tsu.now + 1, x.1, x.2) ∈ (rxGroup (busTurn pg (k, s) id).2 pg).returns := by
  have hdrop : Changes [.rx, .levels, .jic, .ctr, .samples] s
      (endSample 4 0 0xFFFF b.info.sample (tally (rxErroredDroppedCtr b.info.port) (removeBus pg id s))) :=
    endSample_frame (tally_frame (removeBus_frame (Changes.refl _ s) (by decide)) (by decide)) (by decide)
  rw [busTurn_drops hturn hnew habort herr]
  refine ⟨rfl, hdrop.out (by decide), fun e he => ?_, fun x hx => ?_⟩
  · rw [rxGroup_freeBuffers, rxGroup_endSample, rxGroup_tally, rxGroup_removeBus] at he
    exact of_decide_eq_true (List.mem_filter.mp he).2
  · rw [← hdrop.tsu (by decide)]
    exact mem_returns_freeBuffers _ _ hx

end Turn

/-! ## Buffers go back (R105) -/

theorem returnDue_frees {pg c k n : Nat} {s : State} (hwaits : (c, k, n) ∈ (rxGroup s pg).returns) (hdue : c ≤ s.tsu.now) :
    Output.bpiFree pg (poolNumber s k) n ∈ (returnDue pg s).out ∧ (c, k, n) ∉ (rxGroup (returnDue pg s) pg).returns := by
  unfold returnDue
  rw [rxGroup_emits, rxGroup_putRx_self]
  have hfreed : (c, k, n) ∈ (rxGroup s pg).returns.filter (fun x => x.1 ≤ s.tsu.now) :=
    List.mem_filter.mpr ⟨hwaits, decide_eq_true hdue⟩
  refine ⟨List.mem_append_right _ (List.mem_map.mpr ⟨(c, k, n), hfreed, rfl⟩), fun hstays => ?_⟩
  exact (of_decide_eq_true (List.mem_filter.mp hstays).2).not_ge hdue

/-! ## Needs and requests (R101) -/

/-- Every waiting frame of the group still waits with the same buffers, and no answer that is still owed is forgotten. -/
structure KeepsBuffers (pg : Nat) (s t : State) : Prop where
  timedOut : (rxGroup t pg).timedOut = (rxGroup s pg).timedOut
  frames : ∀ id h, (id, h) ∈ (rxGroup s pg).frames → ∃ y : HeldFrame, (id, y) ∈ (rxGroup t pg).frames ∧ y.buffers = h.buffers

section Pump
variable {pg : Nat} {s t u : State}

theorem KeepsBuffers.refl (pg : Nat) (s : State) : KeepsBuffers pg s s := ⟨rfl, fun _ h hmem => ⟨h, hmem, rfl⟩⟩

theorem KeepsBuffers.trans (h : KeepsBuffers pg s t) (h' : KeepsBuffers pg t u) : KeepsBuffers pg s u :=
  ⟨h'.timedOut.trans h.timedOut, fun id x hx =>
    have ⟨y, hy, hyx⟩ := h.frames id x hx
    have ⟨z, hz, hzy⟩ := h'.frames id y hy
    ⟨z, hz, hzy.trans hyx⟩⟩

theorem KeepsBuffers.emit (h : KeepsBuffers pg s t) (o : Output) : KeepsBuffers pg s (emit o t) := ⟨h.timedOut, h.frames⟩

/-- The frame of a request that `f` changes is found again, changed. -/
theorem mem_frames_mapHeld {id : Nat} {f : HeldFrame → HeldFrame} {h : HeldFrame} (hmem : (id, h) ∈ (rxGroup s pg).frames) :
    (id, f h) ∈ (rxGroup (mapHeld pg id f s) pg).frames := by
  rw [rxGroup_mapHeld]
  exact List.mem_map.mpr ⟨(id, h), hmem, if_pos rfl⟩

theorem mapHeld_keepsBuffers (id : Nat) {f : HeldFrame → HeldFrame} (hf : ∀ h, (f h).buffers = h.buffers) (s : State) :
    KeepsBuffers pg s (mapHeld pg id f s) := by
  refine ⟨by rw [rxGroup_mapHeld], fun i h hmem => ?_⟩
  by_cases hi : i = id
  · subst hi
    exact ⟨f h, mem_frames_mapHeld hmem, hf h⟩
  · rw [rxGroup_mapHeld]
    exact ⟨h, List.mem_map.mpr ⟨(i, h), hmem, if_neg hi⟩, rfl⟩

theorem noteNeeds_keepsBuffers (pg : Nat) (s : State) : KeepsBuffers pg s (noteNeeds pg s) := by
  refine List.foldlRecOn (motive := KeepsBuffers pg s) _ _ (.refl pg s) fun t hkept e _ => hkept.trans ?_
  split
  · exact .refl pg t
  · exact mapHeld_keepsBuffers e.1 (f := fun h => { h with needAt := some t.tsu.now }) (fun _ => rfl) t

theorem askNext_keepsBuffers (pg : Nat) (s : State) : KeepsBuffers pg s (askNext pg s) := by
  unfold askNext
  dsimp only
  split
  · exact .refl pg s
  split
  · exact .refl pg s
  split
  · exact .refl pg s
  next _ id h _ _ p _ =>
  have hasks : KeepsBuffers pg s (putRx pg { rxGroup s pg with
      asked := some s.tsu.now
      requests := (rxGroup s pg).requests ++ [{ at_ := s.tsu.now, pool := h.pool, port := h.info.port, frame := id }] } s) :=
    ⟨by rw [rxGroup_putRx_self], fun i x hx => ⟨x, by rwa [rxGroup_putRx_self], rfl⟩⟩
  exact (hasks.trans (mapHeld_keepsBuffers id (f := fun x => { x with asking := true, needAt := none }) (fun _ => rfl) _)).emit _

theorem pumpBpi_keepsBuffers (pg : Nat) (s : State) : KeepsBuffers pg s (pumpBpi pg s) :=
  (noteNeeds_keepsBuffers pg s).trans (askNext_keepsBuffers pg _)

theorem pumpBpi_changes (pg : Nat) (s : State) : Changes [.rx, .out] s (pumpBpi pg s) := pumpBpi_frame (Changes.refl _ s) (by decide)

/-- Where every frame's need is known already, none is noted anew. -/
theorem noteNeeds_of_known (h : ∀ e ∈ (rxGroup s pg).frames, e.2.needAt.isSome = true) : noteNeeds pg s = s := by
  have hskip : ∀ (a : State), ∀ e ∈ heldByPort s pg, (if e.2.asking = true ∨ e.2.needAt.isSome = true ∨ unstored a e.2 = 0 then a
      else mapHeld pg e.1 (fun h => { h with needAt := some a.tsu.now }) a) = a := by
    intro a e he
    obtain ⟨i, -, hi⟩ := List.mem_flatMap.mp he
    exact if_pos (.inr (.inl (h e (List.mem_filter.mp hi).1)))
  exact (List.foldl_ext _ (fun a _ => a) s hskip).trans (List.foldl_fixed _)

/-- The group's one waiting frame needs a buffer: it asks its pool. -/
theorem askNext_asks {id n : Nat} {h : HeldFrame} {p : Pool} (hasked : (rxGroup s pg).asked ≠ some s.tsu.now)
    (hroom : (rxGroup s pg).requests.length < 16) (hhalting : halting s = false) (hframes : (rxGroup s pg).frames = [(id, h)])
    (hneed : h.needAt = some n) (hpool : s.rx.ladder[h.pool]? = some p) :
    Output.bpiReq pg p.number ∈ (askNext pg s).out ∧ (rxGroup (askNext pg s) pg).requests =
      (rxGroup s pg).requests ++ [{ at_ := s.tsu.now, pool := h.pool, port := h.info.port, frame := id }] := by
  have hfirst : firstNeed (rxGroup s pg).frames = some (id, h) := by simp [hframes, firstNeed, hneed]
  unfold askNext
  simp only [hasked, hroom.not_ge, hhalting, hfirst, hpool, or_self, if_false, Bool.false_eq_true]
  exact ⟨mem_out_emit _ _, by rw [rxGroup_emit, rxGroup_mapHeld, rxGroup_putRx_self]⟩

end Pump

/-! ## Answers of the buffer ladder (R102 to R104) -/

section Answers
variable {pg n : Nat} {q : BpiReq} {r : List BpiReq} {s : State}

theorem handleOk_of_handleOf (hgood : handleOf s q n) :
    ∃ p, s.rx.ladder[q.pool]? = some p ∧ handleOk p n = true ∧ poolNumber s q.pool = p.number := by
  obtain ⟨p, hp, hlow, hhigh⟩ := hgood
  exact ⟨p, hp, by simp [handleOk, hlow, hhigh], by simp [poolNumber, hp]⟩

/-- The oldest request that timed out is answered at last (R104). -/
theorem bpiResponse_late_empty (hclocked : clocked s = true) (hlate : (rxGroup s pg).timedOut = q :: r) :
    bpiResponse pg true n s = putRx pg { rxGroup s pg with timedOut := r } s := by
  unfold bpiResponse
  simp [hclocked, hlate]

theorem bpiResponse_late_handle (hclocked : clocked s = true) (hlate : (rxGroup s pg).timedOut = q :: r) (hgood : handleOf s q n) :
    bpiResponse pg false n s =
      emit (.bpiFree pg (poolNumber s q.pool) n) (putRx pg { rxGroup s pg with timedOut := r } s) := by
  obtain ⟨p, hp, hok, hnumber⟩ := handleOk_of_handleOf hgood
  unfold bpiResponse
  simp [hclocked, hlate, hp, hok, hnumber]

theorem bpiResponse_handle (hclocked : clocked s = true) (hpounce : s.dbg.pounce = []) (hlate : (rxGroup s pg).timedOut = [])
    (hrequest : (rxGroup s pg).requests = q :: r) (hgood : handleOf s q n) :
    bpiResponse pg false n s = bpiTake pg q n (putRx pg { rxGroup s pg with requests := r } s) := by
  obtain ⟨p, hp, hok, -⟩ := handleOk_of_handleOf hgood
  unfold bpiResponse
  simp [hclocked, hlate, hrequest, pounceFires_of_none hpounce, hp, hok]

theorem bpiResponse_unasked (hclocked : clocked s = true) (hlate : (rxGroup s pg).timedOut = [])
    (hrequest : (rxGroup s pg).requests = []) : bpiResponse pg true n s = bpiError pg 0x1804 clsInput n s := by
  unfold bpiResponse
  simp [hclocked, hlate, hrequest]

/-- A frame with the buffer that answers its request; its bytes that the buffer takes leave the staging (R103, R105). -/
def stored (q : BpiReq) (n : Nat) (s : State) (h : HeldFrame) : HeldFrame :=
  let h1 := { h with asking := false, pool := 0, buffers := h.buffers ++ [(q.pool, n)] }
  { h1 with staged := min h.staged (unstored s h1) }

theorem bpiTake_waiting (h : (rxGroup s pg).frames.any (fun e => e.1 = q.frame) = true) :
    bpiTake pg q n s = pumpBpi pg (emit (.bpiWrite pg n) (mapHeld pg q.frame (stored q n s) s)) := if_pos h

/-- A handle that its frame waits for is stored with the frame, which writes to it (R103). -/
theorem bpiTake_stores {h : HeldFrame} (hwaits : (q.frame, h) ∈ (rxGroup s pg).frames) :
    Output.bpiWrite pg n ∈ (bpiTake pg q n s).out ∧
      ∃ y : HeldFrame, (q.frame, y) ∈ (rxGroup (bpiTake pg q n s) pg).frames ∧ y.buffers = h.buffers ++ [(q.pool, n)] := by
  have hany : (rxGroup s pg).frames.any (fun e => e.1 = q.frame) = true := List.any_eq_true.mpr ⟨_, hwaits, decide_eq_true rfl⟩
  rw [bpiTake_waiting hany]
  exact ⟨(pumpBpi_changes pg _).sent (by decide) (mem_out_emit _ _),
    (pumpBpi_keepsBuffers pg _).frames q.frame (stored q n s h) (mem_frames_mapHeld hwaits)⟩

end Answers

/-! ## A request that is not answered (R104) -/

section Timeout
variable {pg : Nat} {q : BpiReq} {r : List BpiReq} {s : State}

/-- The state in which a request has timed out, its count and its error noted, before another pool is asked. -/
def requestTimedOut (pg : Nat) (q : BpiReq) (r : List BpiReq) (s : State) : State :=
  bpiError pg 0x1803 clsTimeout 0 (tally (rxBpiTimeoutsCtr q.port)
    (putRx pg { rxGroup s pg with requests := r, timedOut := (rxGroup s pg).timedOut ++ [q] } s))

theorem bpiTimeout_due (hclocked : clocked s = true) (hrequest : (rxGroup s pg).requests = q :: r) (hdue : q.at_ + 128 ≤ s.tsu.now) :
    bpiTimeout pg s = bpiFallback pg q (requestTimedOut pg q r s) := by
  unfold bpiTimeout
  simp only [hrequest, hclocked, hdue.not_gt, Bool.true_eq_false, or_self, if_false]
  rfl

theorem rxGroup_requestTimedOut : rxGroup (requestTimedOut pg q r s) pg =
    { rxGroup s pg with requests := r, timedOut := (rxGroup s pg).timedOut ++ [q] } := by
  unfold requestTimedOut
  simp

theorem requestTimedOut_raises (hclocked : clocked s = true) : raises 0x18 0x1803 1 s (requestTimedOut pg q r s) := by
  have hcounted : Changes [.rx, .ctr] s (tally (rxBpiTimeoutsCtr q.port)
      (putRx pg { rxGroup s pg with requests := r, timedOut := (rxGroup s pg).timedOut ++ [q] } s)) :=
    tally_frame (putRx_frame (Changes.refl _ s) (by decide)) (by decide)
  exact raises_before hcounted (by decide)
    (errorAt_raises ((hcounted.clocked (by decide) (by decide)).trans hclocked) (by decide))

theorem rxGroup_exhaustHeld_timedOut (id ctr : Nat) (s : State) :
    (rxGroup (exhaustHeld pg id ctr s) pg).timedOut = (rxGroup s pg).timedOut := by
  unfold exhaustHeld
  split
  · rfl
  · simp [dropHeld]

theorem bpiFallback_timedOut (pg : Nat) (q : BpiReq) (s : State) :
    (rxGroup (bpiFallback pg q s) pg).timedOut = (rxGroup s pg).timedOut := by
  unfold bpiFallback
  split
  · exact (pumpBpi_keepsBuffers pg s).timedOut
  · split
    · rw [(pumpBpi_keepsBuffers pg _).timedOut, rxGroup_tally, rxGroup_mapHeld]
    · rw [(pumpBpi_keepsBuffers pg _).timedOut, rxGroup_exhaustHeld_timedOut]

/-- A frame that is to ask the next larger pool, and asks before frames whose need is new (R101). -/
def asksLarger (q : BpiReq) (h : HeldFrame) : HeldFrame := { h with asking := false, needAt := some 0, pool := q.pool + 1 }

/-- The state in which the frame of a request is to ask the next larger pool. -/
def fallenBack (pg : Nat) (q : BpiReq) (s : State) : State :=
  tally (rxPoolFallbacksCtr q.port) (mapHeld pg q.frame (asksLarger q) s)

theorem fallenBack_changes (pg : Nat) (q : BpiReq) (s : State) : Changes [.rx, .ctr] s (fallenBack pg q s) :=
  tally_frame (mapHeld_frame (Changes.refl _ s) (by decide)) (by decide)

theorem fallenBack_ladder (pg : Nat) (q : BpiReq) (s : State) : (fallenBack pg q s).rx.ladder = s.rx.ladder := by
  unfold fallenBack
  rw [(tally_frame (Changes.refl [.ctr] _) (by decide)).rx (by decide)]
  rfl

theorem fallenBack_timeouts (pg : Nat) (q : BpiReq) (s : State) :
    total (fallenBack pg q s) (rxBpiTimeoutsCtr q.port) = total s (rxBpiTimeoutsCtr q.port) := by
  have hne : rxBpiTimeoutsCtr q.port ≠ rxPoolFallbacksCtr q.port := ctrKey_ne (by decide)
  unfold fallenBack
  rw [total_tally_ne _ hne]
  rfl

theorem rxGroup_fallenBack {h : HeldFrame} (hframes : (rxGroup s pg).frames = [(q.frame, h)]) :
    rxGroup (fallenBack pg q s) pg = { rxGroup s pg with frames := [(q.frame, asksLarger q h)] } := by
  unfold fallenBack
  rw [rxGroup_tally, rxGroup_mapHeld, hframes]
  simp

theorem bpiFallback_larger {h : HeldFrame} {p : Pool} (hframes : (rxGroup s pg).frames = [(q.frame, h)])
    (hpool : s.rx.ladder[q.pool + 1]? = some p) : bpiFallback pg q s = pumpBpi pg (fallenBack pg q s) := by
  unfold bpiFallback
  simp only [hframes, hpool, List.any_cons, List.any_nil, decide_true, Bool.or_false, Bool.true_eq_false, if_false]
  rfl

/-- The group's one frame asks the next larger pool (R101). -/
theorem bpiFallback_asks {h : HeldFrame} {p : Pool} (hasked : (rxGroup s pg).asked ≠ some s.tsu.now)
    (hroom : (rxGroup s pg).requests.length < 16) (hhalting : halting s = false) (hframes : (rxGroup s pg).frames = [(q.frame, h)])
    (hpool : s.rx.ladder[q.pool + 1]? = some p) :
    Output.bpiReq pg p.number ∈ (bpiFallback pg q s).out ∧
      (rxGroup (bpiFallback pg q s) pg).requests = (rxGroup s pg).requests ++
        [{ at_ := s.tsu.now, pool := q.pool + 1, port := h.info.port, frame := q.frame }] ∧
      total (bpiFallback pg q s) (rxBpiTimeoutsCtr q.port) = total s (rxBpiTimeoutsCtr q.port) := by
  have hchanges := fallenBack_changes pg q s
  have hgroup := rxGroup_fallenBack hframes
  have hknown : noteNeeds pg (fallenBack pg q s) = fallenBack pg q s := noteNeeds_of_known (by simp [hgroup, asksLarger])
  have hasks := askNext_asks (pg := pg) (s := fallenBack pg q s) (id := q.frame) (h := asksLarger q h) (p := p) (n := 0)
  rw [hgroup, hchanges.tsu (by decide), fallenBack_ladder, halting_of_changes hchanges (by decide) (by decide)] at hasks
  obtain ⟨hout, hrequests⟩ := hasks hasked hroom hhalting rfl rfl hpool
  rw [bpiFallback_larger hframes hpool, total_of_changes (pumpBpi_changes pg _) (by decide), fallenBack_timeouts, pumpBpi, hknown]
  exact ⟨hout, hrequests, rfl⟩

theorem requestTimedOut_changes (pg : Nat) (q : BpiReq) (r : List BpiReq) (s : State) :
    Changes (.rx :: .ctr :: errorParts) s (requestTimedOut pg q r s) :=
  bpiError_frame (tally_frame (putRx_frame (Changes.refl _ s) (by decide)) (by decide)) (by decide)

theorem requestTimedOut_counts (pg : Nat) (q : BpiReq) (r : List BpiReq) (s : State) :
    total (requestTimedOut pg q r s) (rxBpiTimeoutsCtr q.port) = total s (rxBpiTimeoutsCtr q.port) + 1 := by
  unfold requestTimedOut
  rw [total_of_changes (bpiError_changes _ _ _ _ _) (by decide), total_tally_self]
  rfl

theorem requestTimedOut_ladder (pg : Nat) (q : BpiReq) (r : List BpiReq) (s : State) :
    (requestTimedOut pg q r s).rx.ladder = s.rx.ladder := by
  unfold requestTimedOut
  rw [(bpiError_changes _ _ _ _ _).rx (by decide), (tally_frame (Changes.refl [.ctr] _) (by decide)).rx (by decide)]
  rfl

theorem requestTimedOut_halting (pg : Nat) (q : BpiReq) (r : List BpiReq) (s : State) :
    halting (requestTimedOut pg q r s) = halting s :=
  (errorAt_halting (by decide)).trans
    (halting_of_changes (tally_frame (putRx_frame (Changes.refl [.rx, .ctr] s) (by decide)) (by decide)) (by decide) (by decide))

theorem bpiTimeout_asks {h : HeldFrame} {p : Pool} (hclocked : clocked s = true) (hhalting : halting s = false)
    (hrequest : (rxGroup s pg).requests = q :: r) (hroom : r.length < 16) (hdue : q.at_ + 128 ≤ s.tsu.now)
    (hframes : (rxGroup s pg).frames = [(q.frame, h)]) (hasked : (rxGroup s pg).asked ≠ some s.tsu.now)
    (hpool : s.rx.ladder[q.pool + 1]? = some p) :
    Output.bpiReq pg p.number ∈ (bpiTimeout pg s).out ∧
      (rxGroup (bpiTimeout pg s) pg).requests =
        r ++ [{ at_ := s.tsu.now, pool := q.pool + 1, port := h.info.port, frame := q.frame }] ∧
      total (bpiTimeout pg s) (rxBpiTimeoutsCtr q.port) = total s (rxBpiTimeoutsCtr q.port) + 1 := by
  have hnext := bpiFallback_asks (s := requestTimedOut pg q r s) (pg := pg) (q := q) (h := h) (p := p)
  rw [rxGroup_requestTimedOut, (requestTimedOut_changes pg q r s).tsu (by decide), requestTimedOut_ladder, requestTimedOut_counts,
    requestTimedOut_halting] at hnext
  rw [bpiTimeout_due hclocked hrequest hdue]
  exact hnext hasked hroom hhalting hframes hpool

end Timeout

/-! ## The verdict on a held frame (R99, R128, R140) -/

theorem saOfKey_putSa {a : Sa} (h : a.state ≠ .empty) (k : Nat) (s : State) : saOfKey (putSa k a s) k = a := by
  have hself : saOfKey { s with sas := tput s.sas k a } k = a := tgetD_tput_self _ _ _ _
  unfold putSa
  simp only [if_neg h]
  split
  · exact hself
  · rw [saOfKey_of_changes (saEvent_frame (Changes.refl [.frc] _) (by decide)) (by decide), hself]

theorem movePn_nextPn {k n : Nat} {s : State} (hstate : (saOfKey s k).state ≠ .empty) (hn : n ≤ 2 ^ 64 - 1) :
    (saOfKey (movePn k n s) k).nextPn = n := by
  unfold movePn
  extract_lets a flag s1
  have hused : (if pnLast a.xpn < n ∧ a.state = .active then SaSt.exhausted else a.state) ≠ .empty := by
    split
    · exact SaSt.noConfusion
    · exact hstate
  rw [saOfKey_putSa hused]
  exact Nat.min_eq_left hn

section Verdict
variable {pg id k : Nat} {h : HeldFrame} {s : State}

theorem icvCompare_good (hgood : h.icvOk = true) :
    icvCompare pg id h s = verified h (mapHeld pg id (fun x => { x with settled := true }) s) := if_pos hgood

theorem verified_counts (hsa : h.sa = some k) (hpn : h.pn < 2 ^ 64 - 1) (s : State) :
    total (verified h s) (inPktsOkCtr (saIndex k)) = total s (inPktsOkCtr (saIndex k)) + 1 ∧
      ((saOfKey s k).state ≠ .empty → (saOfKey s k).nextPn ≤ h.pn → (saOfKey (verified h s) k).nextPn = h.pn + 1) := by
  unfold verified
  simp only [hsa]
  generalize hoctets : (if h.crypted = true then inOctetsDecryptedCtr (saIndex k) else inOctetsValidatedCtr (saIndex k)) = c
  have hne : inPktsOkCtr (saIndex k) ≠ c := by
    rw [← hoctets]
    split <;> exact ctrKey_ne (by decide)
  generalize hcounted : count c h.secure (tally (inPktsOkCtr (saIndex k)) s) = t
  have htotal : total t (inPktsOkCtr (saIndex k)) = total s (inPktsOkCtr (saIndex k)) + 1 := by
    rw [← hcounted, total_count_ne _ _ hne, total_tally_self]
  have hsas : saOfKey t k = saOfKey s k := by
    rw [← hcounted]
    exact saOfKey_of_changes (count_frame (tally_frame (Changes.refl [.ctr] s) (by decide)) (by decide)) (by decide) k
  rw [hsas]
  split
  · rw [total_of_changes (movePn_frame (Changes.refl [.levels, .jic, .frc, .sas] t) (by decide)) (by decide)]
    exact ⟨htotal, fun hstate _ => movePn_nextPn (by rwa [hsas]) (by omega)⟩
  next hbehind => exact ⟨htotal, fun _ hnext => absurd hnext hbehind⟩

theorem icvCompare_settles (hgood : h.icvOk = true) (hsa : h.sa = some k) (hpn : h.pn < 2 ^ 64 - 1) :
    (rxGroup (icvCompare pg id h s) pg).frames =
      (rxGroup s pg).frames.map (fun e => if e.1 = id then (e.1, { e.2 with settled := true }) else e) ∧
    total (icvCompare pg id h s) (inPktsOkCtr (saIndex k)) = total s (inPktsOkCtr (saIndex k)) + 1 ∧
    ((saOfKey s k).state ≠ .empty → (saOfKey s k).nextPn ≤ h.pn → (saOfKey (icvCompare pg id h s) k).nextPn = h.pn + 1) := by
  rw [icvCompare_good hgood, rxGroup_verified, rxGroup_mapHeld]
  exact ⟨rfl, verified_counts hsa hpn _⟩

/-- A frame whose ICV fails is refused: it waits no longer and its buffers are to be returned (R140, R105). -/
theorem icvCompare_refuses (hbad : h.icvOk = false) :
    (rxGroup (icvCompare pg id h s) pg).frames = (rxGroup s pg).frames.filter (fun e => e.1 ≠ id) ∧
    (icvCompare pg id h s).out = s.out ∧ (rxGroup (icvCompare pg id h s) pg).bus = (rxGroup s pg).bus ∧
    ∀ x, x ∈ h.buffers → (s.tsu.now + 1, x.1, x.2) ∈ (rxGroup (icvCompare pg id h s) pg).returns := by
  unfold icvCompare
  rw [if_neg (by simp [hbad])]
  extract_lets rec
  generalize hrefused : refuseFrame h.info.port 6 h.info.cls h.sa rec h.info.sample (unbindHeld h (removeHeld pg id s)) = t
  have hchanges : Changes [.err, .levels, .jic, .ctr, .samples, .frc, .pounce, .dbg, .sas] (removeHeld pg id s) t :=
    hrefused ▸ refuseFrame_frame (unbindHeld_frame (Changes.refl _ _) (by decide)) (by decide)
  have hgroup := rxGroup_of_changes hchanges (by decide) pg
  have hnow : t.tsu = s.tsu := hchanges.tsu (by decide)
  rw [rxGroup_freeBuffers, hgroup, rxGroup_removeHeld]
  exact ⟨rfl, hchanges.out (by decide), rfl,
    fun x hx => List.mem_append_right _ (hnow ▸ List.mem_map_of_mem (f := fun b => (t.tsu.now + 1, b.1, b.2)) hx)⟩

end Verdict

/-! ## A frame joins the bus (R97, R98, R106) -/

/-- The place that a frame bound for the core takes on its group's bus. -/
def arriving (i : RxInfo) (s : State) : BusFrame :=
  { info := i, ready := max s.tsu.now (carderCcyc i), whole := i.held || decide (i.frameLen ≤ 256) }

theorem deliverCore_next (i : RxInfo) (s : State) : rxGroup (deliverCore i none s) (groupOf i.port) =
    { rxGroup s (groupOf i.port) with
      nextId := (rxGroup s (groupOf i.port)).nextId + 1
      bus := (rxGroup s (groupOf i.port)).bus.filter (fun e => e.1 < (rxGroup s (groupOf i.port)).nextId) ++
        [((rxGroup s (groupOf i.port)).nextId, arriving i s)] ++
        (rxGroup s (groupOf i.port)).bus.filter (fun e => (rxGroup s (groupOf i.port)).nextId < e.1) } := by
  unfold deliverCore
  simp only [rxGroup_joinBus, rxGroup_putRx_self]
  rfl

theorem deliver_core {i : RxInfo} (hdest : i.dest = .core) (id : Option Nat) (s : State) : deliver i id s = deliverCore i id s := by
  unfold deliver
  simp only [hdest]

/-- No policer applies to the frame: it is neither charged nor dropped (R211). -/
theorem policeInfo_uncharged {i : RxInfo} (hcharged : i.charged = []) (s : State) : policeInfo i s = (true, s) := by
  have hcharges : chargesOf i = [] := by simp [chargesOf, hcharged]
  unfold policeInfo
  simp [hcharges, police, polTakes]

/-! ## A held frame leaves (R99, R105, R434) -/

theorem oneHeld_nextToLeave {port id : Nat} {h : HeldFrame} {s : State} (hheld : oneHeld port id h s) :
    nextToLeave s port [] (rxGroup s (groupOf port)).frames = some (id, h) := by
  obtain ⟨-, hframes, hport, -, hdue, hsettled, hstored, hasking⟩ := hheld
  have hmay : mayLeave s h = true := by simp [mayLeave, hdue, hsettled, hstored, hasking]
  simp [hframes, nextToLeave, hport, hmay]

section Release
variable {port id : Nat} {h : HeldFrame} {s : State}

theorem passOn_core {i : RxInfo} (hdest : i.dest = .core) (hcharged : i.charged = []) (id : Nat) (s : State) :
    passOn i id s = deliverCore i (some id) s := by
  unfold passOn
  rw [policeInfo_uncharged hcharged]
  split <;> exact deliver_core hdest _ _

/-- A frame that has joined the bus carries its buffers there until its last slice (R105). -/
theorem keepBuffers_joinBus (pg id : Nat) (l : List (Nat × Nat)) (b : BusFrame) (s : State) :
    (rxGroup (keepBuffers pg id l (joinBus pg id b s)) pg).frames = (rxGroup s pg).frames ∧
      (id, { b with buffers := l }) ∈ (rxGroup (keepBuffers pg id l (joinBus pg id b s)) pg).bus := by
  have hjoined : (id, b) ∈ (rxGroup (joinBus pg id b s) pg).bus := by
    rw [rxGroup_joinBus]
    simp
  have hany : (rxGroup (joinBus pg id b s) pg).bus.any (fun e => e.1 = id) = true :=
    List.any_eq_true.mpr ⟨_, hjoined, decide_eq_true rfl⟩
  unfold keepBuffers
  simp only [hany, if_true, rxGroup_putRx_self]
  exact ⟨by rw [rxGroup_joinBus], List.mem_map.mpr ⟨(id, b), hjoined, if_pos rfl⟩⟩

/-- A held frame for the core is read back from its buffers and joins the bus with them (R99, R105). -/
theorem finishHeld_core (hneed : h.need ≠ 0) (hdest : h.info.dest = .core) (hcharged : h.info.charged = []) :
    (rxGroup (finishHeld (groupOf h.info.port) id h s) (groupOf h.info.port)).frames =
      (rxGroup s (groupOf h.info.port)).frames.filter (fun e => e.1 ≠ id) ∧
    (id, { arriving h.info s with buffers := h.buffers }) ∈
      (rxGroup (finishHeld (groupOf h.info.port) id h s) (groupOf h.info.port)).bus ∧
    ∀ b, b ∈ h.buffers → Output.bpiReadReq (groupOf h.info.port) b.2 ∈ (finishHeld (groupOf h.info.port) id h s).out := by
  unfold finishHeld
  extract_lets s1 reads
  rw [if_neg hneed, passOn_core hdest hcharged]
  have hunbound : Changes [.rx, .frc, .sas] s (unbindHeld h s1) :=
    unbindHeld_frame (removeHeld_frame (Changes.refl _ s) (by decide)) (by decide)
  have hkept := keepBuffers_joinBus (groupOf h.info.port) id h.buffers (arriving h.info s) (emits reads (unbindHeld h s1))
  have hplace : deliverCore h.info (some id) (emits reads (unbindHeld h s1)) =
      joinBus (groupOf h.info.port) id (arriving h.info s) (emits reads (unbindHeld h s1)) := by
    rw [arriving, ← hunbound.tsu (by decide)]
    rfl
  rw [hplace]
  refine ⟨hkept.1.trans ?_, hkept.2, fun b hb => ?_⟩
  · rw [rxGroup_emits, rxGroup_unbindHeld, rxGroup_removeHeld]
  · rw [(keepBuffers_frame (Changes.refl [.rx] _) (by decide)).out (by decide)]
    exact List.mem_append_right _ (List.mem_map_of_mem (f := fun b => Output.bpiReadReq (groupOf h.info.port) b.2) hb)

theorem heldRelease_core (hheld : oneHeld port id h s) (hhalting : halting s = false) (hdest : h.info.dest = .core)
    (hcharged : h.info.charged = []) :
    (rxGroup (heldRelease port s) (groupOf port)).frames = [] ∧
      (id, { arriving h.info s with buffers := h.buffers }) ∈ (rxGroup (heldRelease port s) (groupOf port)).bus ∧
      ∀ b, b ∈ h.buffers → Output.bpiReadReq (groupOf port) b.2 ∈ (heldRelease port s).out := by
  have hleaves := oneHeld_nextToLeave hheld
  obtain ⟨hclocked, hframes, rfl, hneed, -⟩ := hheld
  obtain ⟨hgone, hjoined, hreads⟩ := finishHeld_core (s := s) (id := id) hneed hdest hcharged
  rw [hframes, List.filter_cons_of_neg (by simp), List.filter_nil] at hgone
  have hrelease : heldRelease h.info.port s = finishHeld (groupOf h.info.port) id h s := by
    unfold heldRelease
    simp only [hclocked, hhalting, hleaves, hgone, Bool.true_eq_false, Bool.false_eq_true, or_self, if_false, List.length_nil]
    rfl
  rw [hrelease]
  exact ⟨hgone, hjoined, hreads⟩

theorem dropHeld_frees (pg id ctr : Nat) (h : HeldFrame) (s : State) :
    (rxGroup (dropHeld pg id ctr h s) pg).frames = (rxGroup s pg).frames.filter (fun e => e.1 ≠ id) ∧
      ∀ b, b ∈ h.buffers → (s.tsu.now + 1, b.1, b.2) ∈ (rxGroup (dropHeld pg id ctr h s) pg).returns := by
  have hgone : Changes [.levels, .jic, .ctr, .samples, .frc, .rx, .sas] s
      (endSample 4 0 0xFFFF h.info.sample (unbindHeld h (tally ctr (removeHeld pg id s)))) :=
    endSample_frame (unbindHeld_frame (tally_frame (removeHeld_frame (Changes.refl _ s) (by decide)) (by decide)) (by decide)) (by decide)
  refine ⟨by simp [dropHeld], fun b hb => ?_⟩
  rw [← hgone.tsu (by decide)]
  exact mem_returns_freeBuffers pg _ hb

/-- A held frame whose read-back is missing is dropped, its buffers to be returned (R434). -/
theorem bpiReadTimeout_drops (hheld : oneHeld port id h s) (hdue : h.due + 128 ≤ s.tsu.now) :
    raises 0x18 0x1803 1 s (bpiReadTimeout port s) ∧ (rxGroup (bpiReadTimeout port s) (groupOf port)).frames = [] ∧
      ∀ b, b ∈ h.buffers → (s.tsu.now + 1, b.1, b.2) ∈ (rxGroup (bpiReadTimeout port s) (groupOf port)).returns := by
  have hleaves := oneHeld_nextToLeave hheld
  obtain ⟨hclocked, hframes, -, hneed, -⟩ := hheld
  have herror := bpiError_changes (groupOf port) 0x1803 clsTimeout 0 s
  have hdrop : bpiReadTimeout port s = dropHeld (groupOf port) id (rxBpiTimeoutsCtr port) h
      (bpiError (groupOf port) 0x1803 clsTimeout 0 s) := by
    rw [hframes] at hleaves
    unfold bpiReadTimeout exhaustHeld
    simp [hclocked, hframes, hleaves, hneed, hdue.not_gt]
  obtain ⟨hgone, hreturns⟩ := dropHeld_frees (groupOf port) id (rxBpiTimeoutsCtr port) h (bpiError (groupOf port) 0x1803 clsTimeout 0 s)
  rw [herror.tsu (by decide)] at hreturns
  rw [rxGroup_bpiError, hframes] at hgone
  rw [hdrop]
  exact ⟨raises_after (dropHeld_frame (Changes.refl [.levels, .jic, .ctr, .samples, .frc, .rx, .sas] _) (by decide)) (by decide)
    (errorAt_raises hclocked (by decide)), by simpa using hgone, hreturns⟩

end Release

end Sys2Proof.Proofs
end

section
/-! PROOFS. Received frames and the classifier's returns (04 R83 to R98, R112), and the statement about reception: a frame's checks one
by one, its decision and its place on the bus. -/
namespace Sys2Proof.Proofs
open Sys2Proof.Machine Sys2Proof.Safety

/-! ## A received frame (R83 to R98) -/

section Frame
variable {f : RxFrame} {s u : State}

theorem hitCodewords_of_none (p n : Nat) (l : List (Option Nat)) (h : s.dbg.pounce = []) : hitCodewords p n l s = (l, s) := by
  induction l with
  | nil => rfl
  | cons c r ih => cases c <;> simp [hitCodewords, pounceFires_of_none h, ih]

/-- Where no perturbation runs, a frame's codewords come as the line brought them. -/
theorem received_of_none (f : RxFrame) (h : s.dbg.pounce = []) : received f s = (f, s) := by
  unfold received
  split
  · simp only [hitCodewords_of_none _ _ _ h, ite_self]
  · rfl

theorem rxFrame_open (hpounce : s.dbg.pounce = []) (hloop : bit (portFlags s.cfg f.port) 3 = false)
    (hopen : rxOpen (pcsCounts f s) f.port = true) : rxFrame f s = frameCodewords f (rxStart f (pcsCounts f s)) := by
  have hcfg : (pcsCounts f s).cfg = s.cfg := (pcsCounts_frame (Changes.refl recvParts s) (by decide)).cfg (by decide)
  unfold rxFrame
  simp only [received_of_none f hpounce, hopen, fromLoop, hcfg, hloop, Bool.true_eq_false, if_false, if_true]

/-- What the PCS counts leaves the conditions of a plain frame as they are, an open port given. -/
theorem plainFrame_of_changes {l : List Part} (h : Changes l s u) (hmode : Part.mode ∉ l) (hcfg : Part.cfg ∉ l) (hrx : Part.rx ∉ l)
    (hopen : rxOpen u f.port = true) (hplain : plainFrame f s) : plainFrame f u := by
  unfold plainFrame portCfg at *
  rw [h.cfg hcfg, h.mode_drained hmode, h.mode_drain hmode, rxGroup_of_changes h hrx]
  exact ⟨hopen, hplain.2⟩

theorem rxFlags_plain {mtu : Nat} {deliver : Bool} (hplain : plainFrame f s) (hmtu : f.bytes.length ≤ mtu) :
    rxFlags f mtu f.bytes.length deliver = 0 := by
  obtain ⟨-, -, -, -, -, -, hfcs, hsymbol, hfragment, hcut, hcodewords, -, hlen, -⟩ := hplain
  have hany : f.codewords.any Option.isNone = false := by
    rw [List.any_eq_false]
    intro c hc
    cases c
    · exact absurd hc hcodewords
    · simp
  simp [rxFlags, failsBy, hfcs, hsymbol, hfragment, hcut, hany, hmtu.not_gt, hlen.not_gt]

theorem plainFrame_notLooped (hplain : plainFrame f s) : bit (portFlags s.cfg f.port) 3 = false := by
  obtain ⟨-, -, -, -, -, hloop, -⟩ := hplain
  exact hloop

theorem plainFrame_unpoliced (hplain : plainFrame f s) (hport : f.port < 512) : s.cfg.policer = [] := by
  obtain ⟨-, -, -, -, -, -, -, -, -, -, -, -, -, -, -, -, hclass⟩ := hplain
  exact (hclass hport).1

theorem rxStart_plain (hplain : plainFrame f s) : rxStart f s = rxAccept f s := by
  obtain ⟨-, hkind, hmask, -⟩ := hplain
  unfold rxStart
  rw [if_neg (by simpa [hkind] using hmask)]
  simp [hkind]

/-- What delivery knows of a plain frame: nothing is wrong with it, and it goes on less its FCS, whole where no tag is stripped (R91). -/
structure PlainInfo (f : RxFrame) (s : State) (i : RxInfo) : Prop where
  port : i.port = f.port
  dest : i.dest = .core
  flags : i.flags = 0
  held : i.held = false
  frameLen : i.frameLen = f.bytes.length
  epoch : i.epoch = s.cpx.epoch
  bytes : field (vlanOf s.cfg f.port).tagMode 1 0 = 0 → i.bytes = f.bytes.take (f.bytes.length - 4)
  charged : s.cfg.policer = [] → i.charged = []

theorem infoOf_plain (f : RxFrame) (stamp errAt : Nat) (sample : Option Fields) (k : Known) (p : Parse) (s : State) :
    PlainInfo f s (infoOf s f f.bytes.length stamp 0 errAt false false sample k p .core (f.bytes.take (f.bytes.length - 4))) := by
  refine ⟨rfl, rfl, rfl, rfl, rfl, rfl, fun htag => ?_, fun hpolicer => ?_⟩
  · simp [infoOf, htag]
  · unfold infoOf
    extract_lets
    simp [hpolicer, tget]

theorem policed_plain {i : RxInfo} (hinfo : PlainInfo f s i) (hpolicer : f.port < 512 → s.cfg.policer = []) :
    (if f.port < 512 then policeInfo i s else (true, s)) = (true, s) := by
  split
  next hport => exact policeInfo_uncharged (hinfo.charged (hpolicer hport)) s
  next => rfl

theorem passOrFollow_core {i : RxInfo} (hdest : i.dest = .core) (s : State) : passOrFollow i s = deliverCore i none s := by
  unfold passOrFollow
  simp [hdest, deliver_core]

/-- A frame without a class and without an error is decided at once (R137). -/
theorem rxDecide_plain (p : Parse) (errAt stamp : Nat) (no : Bool) (sample : Option Fields)
    (hpolicer : f.port < 512 → s.cfg.policer = []) :
    ∃ i, rxDecide f f.bytes p .core none 0 errAt stamp false no sample s = deliverCore i none s ∧ PlainInfo f s i := by
  have hinfo := infoOf_plain f stamp errAt sample
    { parse := p, cls := none, keyId := if f.port < 512 then zelgenKey f.bytes p else none } p s
  have hpassed : PlainInfo f s { infoOf s f f.bytes.length stamp 0 errAt false false sample
      { parse := p, cls := none, keyId := if f.port < 512 then zelgenKey f.bytes p else none } p .core
      (f.bytes.take (f.bytes.length - 4)) with toCpx := false, refuse := none } :=
    ⟨hinfo.port, hinfo.dest, hinfo.flags, hinfo.held, hinfo.frameLen, hinfo.epoch, hinfo.bytes, hinfo.charged⟩
  refine ⟨_, ?_, hpassed⟩
  unfold rxDecide
  simp only [faeDecide, heldClass, ne_eq, not_true_eq_false, false_and, Bool.false_eq_true, if_true, if_false, decide_false, Bool.false_and]
  rw [policed_plain hpassed hpolicer]
  exact passOrFollow_core hpassed.dest s

/-- A plain frame passes every check of reception, uncut, and is handed to the decision (R83 to R88). -/
theorem rxAccept_decides (hplain : plainFrame f s) (hdest : destOf s.cfg f.port f.bytes (parse s.cfg f.port f.bytes) = .core) :
    ∃ errAt stamp no sample, rxAccept f s =
      rxDecide f f.bytes (parse s.cfg f.port f.bytes) .core none 0 errAt stamp false no sample (stepLfsr f.port s).2 := by
  have hcfg : (stepLfsr f.port s).2.cfg = s.cfg := (stepLfsr_frame (Changes.refl [.tel] s) (by decide)).cfg (by decide)
  have hmode : (stepLfsr f.port s).2.mode = s.mode := by unfold stepLfsr; split <;> rfl
  have hflags := fun mtu deliver => rxFlags_plain (mtu := mtu) (deliver := deliver) hplain
  obtain ⟨hopen, -, -, hdrained, hdrain, -, -, -, -, hcut, -, hmin, hmax, hmtu, hmac, -, hclass⟩ := hplain
  obtain ⟨b, hb⟩ : ∃ b, portCfg s f.port = some b := by
    simp only [rxOpen, Bool.and_eq_true] at hopen
    obtain ⟨⟨⟨-, hconfigured⟩, -⟩, -⟩ := hopen
    exact Option.isSome_iff_exists.mp hconfigured
  have hport : portCfg (stepLfsr f.port s).2 f.port = some b := by rw [portCfg, hcfg]; exact hb
  have hlen : min f.bytes.length (if bit b.portFlags 2 = true then 16383 else b.mtu) = f.bytes.length :=
    Nat.min_eq_left (by split; exacts [hmax, hmtu b hb])
  have hnone : (if f.port < 512 then classOf s.cfg f.port f.bytes (parse s.cfg f.port f.bytes) Dest.core.isLocal else none) = none := by
    split
    next h => exact (hclass h).2 _
    next => rfl
  unfold rxAccept
  simp only [hcfg, hmode, hport, Option.getD_some, hdest, hlen, hnone, hdrained, hmac, hflags b.mtu _ (hmtu b hb), hcut,
    List.take_length, hmin.not_gt, decide_false, Bool.or_false, Bool.and_false, Nat.lt_irrefl, Bool.false_eq_true, if_false,
    Bool.not_false, ne_eq, not_true_eq_false, false_and, or_self]
  refine ⟨_, _, _, _, if_neg ?_⟩
  rcases hd : s.mode.drain with _ | d
  · simp
  · simp [hdrain d hd]

theorem rxAccept_plain (hplain : plainFrame f s) (hdest : destOf s.cfg f.port f.bytes (parse s.cfg f.port f.bytes) = .core) :
    ∃ i t, rxAccept f s = deliverCore i none t ∧ PlainInfo f t i ∧ Changes [.tel] s t := by
  have htagged : Changes [.tel] s (stepLfsr f.port s).2 := stepLfsr_frame (Changes.refl _ s) (by decide)
  obtain ⟨errAt, stamp, no, sample, hdecides⟩ := rxAccept_decides hplain hdest
  have hpolicer : f.port < 512 → (stepLfsr f.port s).2.cfg.policer = [] := fun hport => by
    rw [htagged.cfg (by decide)]
    exact plainFrame_unpoliced hplain hport
  obtain ⟨i, hdelivers, hinfo⟩ := rxDecide_plain (parse s.cfg f.port f.bytes) errAt stamp no sample hpolicer
  exact ⟨i, _, hdecides.trans hdelivers, hinfo, htagged⟩

/-- What the PCS counts and measures leaves the time, the configuration and reception as they are. -/
def pcsParts : List Part :=
  [.quarantine, .sessions, .sealed, .err, .levels, .jic, .ctr, .samples, .frc, .groups, .lanes, .ports, .hostQueue, .esh, .replies, .hpe,
   .pounce, .dbg, .hlk, .sas, .out]

theorem pcsCounts_changes (f : RxFrame) (s : State) : Changes pcsParts s (pcsCounts f s) := pcsCounts_frame (Changes.refl _ s) (by decide)

theorem frameCodewords_changes (f : RxFrame) (s : State) : Changes pcsParts s (frameCodewords f s) :=
  frameCodewords_frame (Changes.refl _ s) (by decide)

/-- A plain frame for the core takes the next place on its group's bus (R97, R98, R106). -/
theorem rxFrame_plain (hplain : plainFrame f s) (hdest : destOf s.cfg f.port f.bytes (parse s.cfg f.port f.bytes) = .core)
    (hpounce : s.dbg.pounce = []) (hopen : rxOpen (pcsCounts f s) f.port = true) :
    ∃ i, PlainInfo f s i ∧ rxGroup (rxFrame f s) (groupOf f.port) = { rxGroup s (groupOf f.port) with
      nextId := (rxGroup s (groupOf f.port)).nextId + 1
      bus := (rxGroup s (groupOf f.port)).bus.filter (fun e => e.1 < (rxGroup s (groupOf f.port)).nextId) ++
        [((rxGroup s (groupOf f.port)).nextId, arriving i s)] ++
        (rxGroup s (groupOf f.port)).bus.filter (fun e => (rxGroup s (groupOf f.port)).nextId < e.1) } := by
  have hcounts := pcsCounts_changes f s
  have hplain' := plainFrame_of_changes hcounts (by decide) (by decide) (by decide) hopen hplain
  obtain ⟨i, t, haccept, hinfo, htagged⟩ := rxAccept_plain hplain' (by rw [hcounts.cfg (by decide)]; exact hdest)
  have hsame : Changes (.tel :: pcsParts) s t := (hcounts.mono (by decide)).trans (htagged.mono (by decide))
  have hbus := deliverCore_next i t
  rw [hinfo.port, rxGroup_of_changes hsame (by decide), arriving, hsame.tsu (by decide)] at hbus
  rw [rxFrame_open hpounce (plainFrame_notLooped hplain) hopen, rxStart_plain hplain', haccept,
    rxGroup_of_changes (frameCodewords_changes f _) (by decide), hbus]
  refine ⟨i, ⟨hinfo.port, hinfo.dest, hinfo.flags, hinfo.held, hinfo.frameLen, ?_, ?_, ?_⟩, rfl⟩
  · rw [hinfo.epoch, hsame.cpx_epoch (by decide)]
  · rw [← hsame.cfg (by decide)]
    exact hinfo.bytes
  · rw [← hsame.cfg (by decide)]
    exact hinfo.charged

/-- A verify mPacket on a port that preempts makes a respond mPacket due (R199). -/
theorem rxStart_verify (hkind : f.mpacket = .verify) (hmask : (preemptCfg s.cfg f.port).preemptableMask ≠ 0) :
    rxStart f s = putPort f.port { portOf s f.port with respondDue := true } s := by
  unfold rxStart
  rw [if_neg fun h => hmask h.2]
  simp only [hkind]

theorem frameCodewords_none (h : f.codewords = []) (s : State) : frameCodewords f s = s := by
  unfold frameCodewords decoded
  simp only [h, if_true, ite_self]
  split <;> rfl

/-- Without codewords between the frames the PCS counts leave the ports as they are. -/
theorem pcsCounts_ports (h : f.between = []) (s : State) : (pcsCounts f s).ports = s.ports := by
  have hcount : ∀ (ctr : Nat → Nat) (l : List (Nat × Nat)) (a : State),
      (l.foldl (fun a x => count (ctr x.1) x.2 a) a).ports = a.ports := fun ctr l a =>
    (Changes.foldl (l := [.ctr]) _ (fun a _ => count_frame (Changes.refl _ a) (by decide)) l a).ports (by decide)
  have hskews : (if f.skews = [] then s else storeSkews f.port f.skews s).ports = s.ports := by
    split
    · rfl
    · exact (storeSkews_frame (Changes.refl [.lanes] s) (by decide)).ports (by decide)
  unfold pcsCounts decoded
  simp only [h, if_true]
  split
  · rfl
  split
  · rfl
  split
  · exact (hcount fecLaneSymbolsCtr _ _).trans hskews
  · exact (hcount blockErrorsCtr _ _).trans hskews

theorem rxFrame_verify (hkind : f.mpacket = .verify) (hmask : (preemptCfg s.cfg f.port).preemptableMask ≠ 0)
    (hloop : bit (portFlags s.cfg f.port) 3 = false) (hpounce : s.dbg.pounce = []) (hopen : rxOpen (pcsCounts f s) f.port = true)
    (hown : f.codewords = []) :
    rxFrame f s = putPort f.port { portOf (pcsCounts f s) f.port with respondDue := true } (pcsCounts f s) := by
  rw [rxFrame_open hpounce hloop hopen, frameCodewords_none hown,
    rxStart_verify hkind (by rwa [(pcsCounts_changes f s).cfg (by decide)])]

end Frame

/-! ## The classifier's returns (R112) -/

/-- The record is no longer waited for. -/
theorem cliDone_rx (w : CliWait) (v : Nat) (s : State) : (cliDone w v s).rx =
    { s.rx with cli := s.rx.cli.filter (fun y => !(y.pg = w.pg && y.tag = w.tag && y.at_ = w.at_)) } := by
  unfold cliDone
  extract_lets rx s1 s2
  have hsample : s2.rx = s1.rx := by
    unfold s2
    split
    · exact (endSample_frame (Changes.refl [.levels, .jic, .ctr, .samples] s1) (by decide)).rx (by decide)
    · rfl
  split
  · exact ((record_frame (Changes.refl [.frc] s2) (by decide)).rx (by decide)).trans hsample
  · exact hsample

/-- A record that neither a sample nor an ACCEPT record waits for. -/
theorem cliDone_plain {w : CliWait} (hsample : w.sample = none) (haccept : w.accept = none) (v : Nat) (s : State) :
    Changes [.rx] s (cliDone w v s) := by
  unfold cliDone
  simp only [hsample, haccept]
  exact upd_rx (Changes.refl _ s) (by decide)

section Cli
variable {pg tag : Nat} {w : CliWait} {s : State}

theorem cliRv_closes (hclocked : clocked s = true) (v : Nat)
    (hwaits : s.rx.cli.find? (fun w => w.pg = pg && w.tag = tag && s.tsu.now < w.at_ + 4096) = some w) :
    cliRv pg pg tag v s = cliDone w v s := by
  unfold cliRv
  simp only [hclocked, hwaits, ne_eq, not_true_eq_false, Bool.true_eq_false, if_false]

theorem cliRv_unknown {c : Nat} (hclocked : clocked s = true) (v : Nat)
    (hunknown : c ≠ pg ∨ s.rx.cli.find? (fun w => w.pg = pg && w.tag = tag && s.tsu.now < w.at_ + 4096) = none) :
    cliRv c pg tag v s = tallyIn c (cliRvUnknownCtr c) s := by
  unfold cliRv
  rw [if_neg (by simp [hclocked])]
  split
  next => rfl
  next hsame => simp only [hunknown.resolve_left hsame]

theorem cliTimeout_closes (hclocked : clocked s = true)
    (hwaits : s.rx.cli.find? (fun w => w.pg = pg && w.tag = tag && w.at_ + 4096 ≤ s.tsu.now) = some w) :
    cliTimeout pg tag s = tallyIn pg (cliRvTimeoutsCtr pg) (cliDone w 0xFFFF s) := by
  unfold cliTimeout
  simp only [hwaits, hclocked, if_true]

end Cli

/-! ## The statement -/

/-- Settles O60: it holds, clause by clause from the rules above. -/
theorem framesAreReceived : Obligations.FramesAreReceived := by
  unfold Obligations.FramesAreReceived
  refine ⟨?joins, ?verify, ?preamble, ?closedPort, ?goesOn, ?begins, ?erroneous, ?lateEmpty, ?lateHandle, ?stored, ?unasked, ?timedOut,
    ?asksAgain, ?settled, ?refused, ?returned, ?released, ?unread, ?versioned, ?unknown, ?unversioned⟩
  case joins =>
    refine fun dt f => happens_of_effect (fun _ => rfl) (by decide) (by decide)
      fun s ⟨hplain, hdest, hpounce, hopen⟩ => ⟨?_, rxFrame_frame (Changes.refl _ s) (by decide)⟩
    obtain ⟨i, hinfo, hgroup⟩ := rxFrame_plain hplain hdest hpounce hopen
    rw [hgroup]
    refine ⟨rfl, arriving i s, by simp, rfl, hinfo.port, hinfo.flags, hinfo.frameLen, hinfo.epoch, rfl, ?_, hinfo.bytes,
      fun e he hne => ?_⟩
    · simp [arriving, hinfo.held, hinfo.frameLen]
    · rcases Nat.lt_or_gt_of_ne hne with hlt | hgt
      · exact List.mem_append_left _ (List.mem_append_left _ (List.mem_filter.mpr ⟨he, decide_eq_true hlt⟩))
      · exact List.mem_append_right _ (List.mem_filter.mpr ⟨he, decide_eq_true hgt⟩)
  case verify =>
    refine fun dt f => happens_of_effect (fun _ => rfl) (by decide) (by decide)
      fun s ⟨hkind, hmask, hloop, hpounce, hopen⟩ =>
        ⟨⟨fun hown => ?_, fun hown hbetween => ?_⟩, rxFrame_frame (Changes.refl _ s) (by decide)⟩
    · rw [rxFrame_verify hkind hmask hloop hpounce hopen hown, portOf_putPort_self]
    · have hports : ∀ q, portOf (pcsCounts f s) q = portOf s q := fun q => by rw [portOf, pcsCounts_ports hbetween]; rfl
      rw [rxFrame_verify hkind hmask hloop hpounce hopen hown, portOf_putPort_self, hports]
      exact ⟨rfl, fun q hq => by rw [portOf_putPort_ne _ _ _ _ hq, hports]⟩
  case preamble =>
    refine fun dt p => happens_of_effect (fun _ => rfl) (by decide) (by decide)
      fun s hopen => ⟨?_, rxPreamble_frame (Changes.refl _ s) (by decide)⟩
    rw [rxPreamble, if_pos hopen, total_tally_self]
  case closedPort =>
    exact fun dt p => happens_nothing (fun _ => rfl) fun s hclosed => if_neg (by simp [hclosed])
  case goesOn => exact fun pg k id n b s => busTurn_goesOn
  case begins => exact fun pg k id n b s => busTurn_begins
  case erroneous => exact fun pg k id n b s => busTurn_dropped
  case lateEmpty =>
    refine fun dt pg n q r => happens_of_effect (fun _ => rfl) (by decide) (by decide) fun s ⟨⟨hclocked, _⟩, hlate⟩ => ?_
    rw [bpiResponse_late_empty hclocked hlate]
    exact ⟨⟨rxGroup_putRx_self _ _ _, fun j hj => rxGroup_putRx_ne _ _ hj⟩, putRx_frame (Changes.refl _ s) (by decide)⟩
  case lateHandle =>
    refine fun dt pg n q r => happens_of_effect (fun _ => rfl) (by decide) (by decide) fun s ⟨⟨hclocked, _⟩, hlate, hgood⟩ => ?_
    rw [bpiResponse_late_handle hclocked hlate hgood]
    exact ⟨⟨rxGroup_putRx_self _ _ _, mem_out_emit _ _⟩, emit_frame (putRx_frame (Changes.refl _ s) (by decide)) (by decide)⟩
  case stored =>
    refine fun dt pg n q r h => happens_of_effect (fun _ => rfl) (by decide) (by decide)
      fun s ⟨⟨hclocked, hpounce⟩, hlate, hrequest, hgood, hwaits⟩ => ?_
    rw [bpiResponse_handle hclocked hpounce hlate hrequest hgood]
    exact ⟨bpiTake_stores (by rwa [rxGroup_putRx_self]), bpiTake_frame (putRx_frame (Changes.refl _ s) (by decide)) (by decide)⟩
  case unasked =>
    refine fun dt pg n => happens_of_effect (fun _ => rfl) (by decide) (by decide) fun s ⟨⟨hclocked, _⟩, hlate, hrequest⟩ => ?_
    have herror := bpiError_changes pg 0x1804 clsInput n s
    rw [bpiResponse_unasked hclocked hlate hrequest]
    exact ⟨⟨errorAt_raises hclocked (by decide), herror.rx (by decide)⟩, herror.mono (by decide)⟩
  case timedOut =>
    refine fun dt pg q r => happens_of_effect (fun _ => rfl) (by decide) (by decide)
      fun s ⟨hclocked, hrequest, hdue⟩ => ⟨?_, bpiTimeout_frame (Changes.refl _ s) (by decide)⟩
    rw [bpiTimeout_due hclocked hrequest hdue, bpiFallback_timedOut, rxGroup_requestTimedOut]
    have hnext : Changes [.levels, .jic, .ctr, .samples, .frc, .rx, .sas, .out] (requestTimedOut pg q r s) _ :=
      bpiFallback_frame (pg := pg) (q := q) (Changes.refl _ _) (by decide)
    exact ⟨raises_after hnext (by decide) (requestTimedOut_raises hclocked), rfl⟩
  case asksAgain =>
    exact fun dt pg q r p h => happens_of_effect (fun _ => rfl) (by decide) (by decide)
      fun s ⟨hclocked, hhalting, hrequest, hroom, hdue, hframes, hasked, hpool⟩ =>
        ⟨bpiTimeout_asks hclocked hhalting hrequest hroom hdue hframes hasked hpool, bpiTimeout_frame (Changes.refl _ s) (by decide)⟩
  case settled => exact fun pg id h s k => icvCompare_settles
  case refused => exact fun pg id h s => icvCompare_refuses
  case returned => exact fun pg s c k n => returnDue_frees
  case released =>
    refine fun dt port id h => happens_of_effect (fun _ => rfl) (by decide) (by decide)
      fun s ⟨hheld, hhalting, hdest, hcharged⟩ => ⟨?_, heldRelease_frame (Changes.refl _ s) (by decide)⟩
    obtain ⟨hgone, hjoined, hreads⟩ := heldRelease_core hheld hhalting hdest hcharged
    exact ⟨hgone, ⟨_, hjoined, rfl, rfl, rfl, rfl⟩, hreads⟩
  case unread =>
    exact fun dt port id h => happens_of_effect (fun _ => rfl) (by decide) (by decide)
      fun s ⟨hheld, hdue⟩ => ⟨bpiReadTimeout_drops hheld hdue, bpiReadTimeout_frame (Changes.refl _ s) (by decide)⟩
  case versioned =>
    refine fun dt pg tag v w => happens_of_effect (fun _ => rfl) (by decide) (by decide)
      fun s ⟨hclocked, hwaits⟩ => ⟨?_, cliRv_frame (Changes.refl _ s) (by decide)⟩
    rw [cliRv_closes hclocked v hwaits, cliDone_rx]
  case unknown =>
    refine fun dt c pg tag v => happens_of_effect (fun _ => rfl) (by decide) (by decide) fun s ⟨hclocked, hunknown⟩ => ?_
    rw [cliRv_unknown hclocked v hunknown]
    exact ⟨total_tallyIn_self _ _ _, tallyIn_frame (Changes.refl _ s) (by decide)⟩
  case unversioned =>
    refine fun dt pg tag w => happens_of_effect (fun _ => rfl) (by decide) (by decide)
      fun s ⟨hclocked, hwaits⟩ => ⟨?_, cliTimeout_frame (Changes.refl _ s) (by decide)⟩
    rw [cliTimeout_closes hclocked hwaits]
    refine ⟨?_, fun hsample haccept => ?_⟩
    · rw [(tallyIn_frame (Changes.refl [.ctr] _) (by decide)).rx (by decide), cliDone_rx]
    · have hclosed := cliDone_plain hsample haccept 0xFFFF s
      rw [total_tallyIn_self, total_of_changes hclosed (by decide), counts_of_changes hclosed (by decide) (by decide)]

end Sys2Proof.Proofs
end

section
/-! PROOFS. Secure associations (05): SA_INSTALL, SA_ENABLE and SA_RETIRE. First what a write of an SA is read back as, then the effect of
each command on every SA, and the statement from them. -/
namespace Sys2Proof.Proofs
open Sys2Proof.Machine Sys2Proof.Safety

/-- A command that passes its parameter checks passes those of its own. -/
theorem check_of_paramCheck {op : Op} {c : ReplyCtx} {s : State} (h : paramCheck op c s = none) : op.check c s = none := by
  unfold paramCheck at h
  split at h
  · cases h
  · split_ifs at h
    exact h

/-! ## A write of an SA -/

theorem putSa_sas (k : Nat) (a : Sa) (s : State) :
    (putSa k a s).sas = if a.state = .empty then tdel s.sas k else tput s.sas k a := by
  unfold putSa
  dsimp only
  split
  · rfl
  · rw [(saEvent_frame (Changes.refl [.frc] _) (by decide)).sas (by decide)]

theorem saOfKey_putSa_ne {j k : Nat} (h : j ≠ k) (a : Sa) (s : State) : saOfKey (putSa k a s) j = saOfKey s j := by
  unfold saOfKey
  rw [putSa_sas]
  split
  · simp only [tgetD, tget_tdel_ne _ _ _ h]
  · exact tgetD_tput_ne _ _ _ _ _ h

theorem saOfKey_putSa_empty (k : Nat) (s : State) : saOfKey (putSa k {} s) k = {} := by
  unfold saOfKey
  rw [putSa_sas, if_pos rfl, tgetD, tget_tdel_self]
  rfl

/-! ## SA_INSTALL (R122, R123, R125) -/

/-- The SA that SA_INSTALL writes for an SC whose suite numbers packets in 64 bits, or does not. -/
def installedSa (b : SaInstallBody) (xpn : Bool) : Sa :=
  { nextPn := b.nextPn, ssci := b.ssci, state := .installed, exhaust := decide (pnThreshold xpn ≤ b.nextPn)
    key256 := decide (b.keyLen = 32), xpn, sak := b.unwrapped.getD 0
    hkey := Config.ghashKey (b.unwrapped.getD 0) (b.keyLen = 32), salt := b.salt }

/-- The group's source is raised for an SA that starts with EXHAUST_FLAG. -/
def exhaustRaised (pg : Nat) (a : Sa) (s : State) : State := if a.exhaust then raiseEvent (0x810 + pg) s else s

theorem exhaustRaised_changes (pg : Nat) (a : Sa) (s : State) : Changes [.levels, .jic] s (exhaustRaised pg a s) := by
  unfold exhaustRaised
  split
  · exact raiseEvent_frame (Changes.refl _ s) (by decide)
  · exact Changes.refl _ s

theorem saInstall_run {b : SaInstallBody} {c : ReplyCtx} {s : State} {y : SecyBody}
    (hsecy : scSecy s b.portGroup b.direction b.scIndex = some y) :
    (opSaInstall b).run c s =
      { state := putSa (saKey b.portGroup b.direction b.scIndex b.an) (installedSa b (suiteXpn y.cipherSuite))
          (exhaustRaised b.portGroup (installedSa b (suiteXpn y.cipherSuite)) s) } := by
  simp only [opSaInstall, hsecy]
  rfl

theorem levelNow_putSa_exhaustRaised {pg : Nat} {a : Sa} (hexhaust : a.exhaust = true) (k : Nat) (s : State) :
    levelNow (tgetD (putSa k a (exhaustRaised pg a s)).jic.levels (0x810 + pg) []) = true := by
  rw [(putSa_frame (Changes.refl [.frc, .sas] _) (by decide)).jic_levels (by decide), exhaustRaised, if_pos hexhaust]
  exact levelNow_raiseEvent _ s

/-! ## SA_ENABLE (R124) -/

/-- An ACTIVE SA steps back to INSTALLED; any other stays as it is. -/
def steppedBack (a : Sa) : Sa := if a.state = .active then { a with state := .installed } else a

theorem steppedBack_idem (a : Sa) : steppedBack (steppedBack a) = steppedBack a := by
  by_cases h : a.state = .active
  · simp [steppedBack, h]
  · simp [steppedBack, h]

/-- What SA_ENABLE does to an SA `j` of its SC, where `k` is the one that it enables. -/
def stepBack (k : Nat) (s : State) (j : Nat) : State :=
  if j ≠ k ∧ (saOfKey s j).state = .active then putSa j { saOfKey s j with state := .installed } s else s

theorem saOfKey_stepBack (k i j : Nat) (s : State) :
    saOfKey (stepBack k s i) j = if j = i ∧ j ≠ k then steppedBack (saOfKey s j) else saOfKey s j := by
  unfold stepBack
  by_cases hback : i ≠ k ∧ (saOfKey s i).state = .active
  · rw [if_pos hback]
    by_cases hji : j = i
    · subst hji
      rw [saOfKey_putSa SaSt.noConfusion, if_pos ⟨rfl, hback.1⟩, steppedBack, if_pos hback.2]
    · rw [saOfKey_putSa_ne hji, if_neg fun h => hji h.1]
  · rw [if_neg hback]
    split
    next h =>
      obtain ⟨rfl, hjk⟩ := h
      rw [steppedBack, if_neg fun hactive => hback ⟨hjk, hactive⟩]
    next => rfl

theorem saOfKey_foldl_stepBack (k j : Nat) (l : List Nat) (s : State) :
    saOfKey (l.foldl (stepBack k) s) j = if j ∈ l ∧ j ≠ k then steppedBack (saOfKey s j) else saOfKey s j := by
  induction l generalizing s with
  | nil => simp
  | cons i l ih =>
    rw [List.foldl_cons, ih, saOfKey_stepBack]
    by_cases hji : j = i ∧ j ≠ k
    · rw [if_pos hji, steppedBack_idem, ite_self, if_pos ⟨List.mem_cons.mpr (.inl hji.1), hji.2⟩]
    · rw [if_neg hji]
      exact if_congr (by rw [List.mem_cons]; tauto) rfl rfl

/-- The SAs before the named one is enabled: on transmit the SC's others have stepped back. -/
def othersBack (b : SaName) (s : State) : State :=
  if b.direction = 0 then s else (saKeysOf b.portGroup b.direction b.scIndex).foldl (stepBack (saNameKey b)) s

theorem enableSa_eq (b : SaName) (s : State) :
    enableSa b s = putSa (saNameKey b) { saOfKey (othersBack b s) (saNameKey b) with state := .active } (othersBack b s) := rfl

theorem saOfKey_othersBack (b : SaName) (j : Nat) (s : State) :
    saOfKey (othersBack b s) j =
      if b.direction ≠ 0 ∧ j ∈ saKeysOf b.portGroup b.direction b.scIndex ∧ j ≠ saNameKey b then steppedBack (saOfKey s j)
      else saOfKey s j := by
  unfold othersBack
  by_cases hrx : b.direction = 0
  · simp [hrx]
  · rw [if_neg hrx, saOfKey_foldl_stepBack]
    simp [hrx]

theorem saOfKey_enableSa_self (b : SaName) (s : State) :
    saOfKey (enableSa b s) (saNameKey b) = { saOfKey s (saNameKey b) with state := .active } := by
  rw [enableSa_eq, saOfKey_putSa SaSt.noConfusion, saOfKey_othersBack, if_neg (fun h => h.2.2 rfl)]

theorem saOfKey_enableSa_ne {b : SaName} {j : Nat} (hj : j ≠ saNameKey b) (s : State) :
    saOfKey (enableSa b s) j =
      if b.direction ≠ 0 ∧ j ∈ saKeysOf b.portGroup b.direction b.scIndex ∧ (saOfKey s j).state = .active
      then { saOfKey s j with state := .installed } else saOfKey s j := by
  rw [enableSa_eq, saOfKey_putSa_ne hj, saOfKey_othersBack, steppedBack, ← ite_and]
  exact if_congr (by tauto) rfl rfl

/-! ## SA_RETIRE (R124, R126) -/

theorem saRetire_used {b : SaName} {c : ReplyCtx} {s : State} (h : paramCheck (opSaRetire b) c s = none) :
    (saOfKey s (saNameKey b)).state ≠ .empty := by
  have hchecks := firstOf_none (check_of_paramCheck h)
  exact of_decide_eq_true (need_none (hchecks _ (.head _)))

theorem saOfKey_retireSa_self {k : Nat} {s : State} (hused : (saOfKey s k).state ≠ .empty) :
    saOfKey (retireSa k s) k = if (saOfKey s k).bound = 0 then {} else { saOfKey s k with state := .retiring } := by
  unfold retireSa
  dsimp only
  rw [if_neg hused]
  split
  · exact saOfKey_putSa_empty k s
  · exact saOfKey_putSa SaSt.noConfusion k s

theorem saOfKey_retireSa_ne {j k : Nat} (hj : j ≠ k) (s : State) : saOfKey (retireSa k s) j = saOfKey s j := by
  unfold retireSa
  dsimp only
  split_ifs
  · rfl
  · exact saOfKey_putSa_ne hj _ s
  · exact saOfKey_putSa_ne hj _ s

/-! ## The statement -/

/-- Settles O49: it holds; a reply and the record of a command leave the SAs and the levels as the command made them. -/
theorem secureAssociationsAreManaged : Obligations.SecureAssociationsAreManaged := by
  unfold Obligations.SecureAssociationsAreManaged
  refine ⟨?install, ?enable, ?retire⟩
  case install =>
    refine fun z b y => performs_of (fun _ => rfl) rfl rfl (by decide) (by decide) (by decide) (fun u v t hv hchanges => ?_)
      fun c u hsecy _ _ => ?_
    · simpa only [saOfKey_of_changes hchanges (by decide), hchanges.jic_levels (by decide)] using hv
    · have hraised := exhaustRaised_changes b.portGroup (installedSa b (suiteXpn y.cipherSuite)) u
      have hwhole := putSa_frame (k := saKey b.portGroup b.direction b.scIndex b.an) (a := installedSa b (suiteXpn y.cipherSuite))
        (hraised.mono (l' := [.sas, .frc, .ctr, .levels, .jic] ++ (checkParts ++ replyParts)) (by decide)) (by decide)
      rw [saInstall_run hsecy]
      refine ⟨rfl, rfl, rfl, hwhole.cpx_activation (by decide),
        ⟨saOfKey_putSa SaSt.noConfusion _ _, fun hstart => levelNow_putSa_exhaustRaised (decide_eq_true hstart) _ u, fun j hj => ?_⟩, hwhole⟩
      rw [saOfKey_putSa_ne hj, saOfKey_of_changes hraised (by decide)]
  case enable =>
    refine fun z b => performs_of (fun _ => rfl) rfl rfl (by decide) (by decide) (by decide) (fun u v t hv hchanges => ?_)
      fun c u _ _ _ => ?_
    · simpa only [saOfKey_of_changes hchanges (by decide)] using hv
    · have hwhole := enableSa_frame (b := b) (Changes.refl ([.sas, .frc, .ctr] ++ (checkParts ++ replyParts)) u) (by decide)
      exact ⟨rfl, rfl, rfl, hwhole.cpx_activation (by decide),
        ⟨saOfKey_enableSa_self b u, fun j hj => saOfKey_enableSa_ne hj u⟩, hwhole⟩
  case retire =>
    refine fun z b => performs_of (fun _ => rfl) rfl rfl (by decide) (by decide) (by decide) (fun u v t hv hchanges => ?_)
      fun c u _ _ hparam => ?_
    · simpa only [saOfKey_of_changes hchanges (by decide)] using hv
    · have hwhole := retireSa_frame (k := saNameKey b) (Changes.refl ([.sas, .frc, .ctr] ++ (checkParts ++ replyParts)) u) (by decide)
      exact ⟨rfl, rfl, rfl, hwhole.cpx_activation (by decide),
        ⟨saOfKey_retireSa_self (saRetire_used hparam), fun j hj => saOfKey_retireSa_ne hj u⟩, hwhole⟩

end Sys2Proof.Proofs
end

section
/-! PROOFS. What the rules of transmission share (06): what a port and a grant read after each operation on them, and the time and the
gates where nothing that they go by changes. -/
namespace Sys2Proof.Proofs
open Sys2Proof.Machine Sys2Proof.Safety

/-! ## What stays where a part does not change -/

theorem gain_of_tsu {s t : State} (h : t.tsu = s.tsu) (d : Nat) : gain t d = gain s d := by
  simp only [gain, gainFrom, slewDone, h]

theorem timeFrom_of_tsu {s t : State} (h : t.tsu = s.tsu) (d at_ : Nat) (time : Int) (steps : List StepPend) :
    timeFrom t d at_ time steps = timeFrom s d at_ time steps := by
  induction steps generalizing s t at_ time with
  | nil => simp only [timeFrom, gain_of_tsu h]
  | cons q r ih =>
    simp only [timeFrom, gain_of_tsu h, h]
    rw [ih (s := { s with tsu := { s.tsu with slew := none } }) (t := { t with tsu := { s.tsu with slew := none } }) rfl]

section Kept
variable {l : List Part} {s t : State} (h : Changes l s t)
include h

theorem portOf_of_changes (hports : Part.ports ∉ l) (p : Nat) : portOf t p = portOf s p := by
  unfold portOf
  rw [h.ports hports]

theorem engine_of_changes (hesh : Part.esh ∉ l) (pg : Nat) : engine t pg = engine s pg := by
  unfold engine
  rw [h.esh_engines hesh]

theorem coreOnly_of_changes (hesh : Part.esh ∉ l) {pg : Nat} (honly : coreOnly pg s) : coreOnly pg t := by
  unfold coreOnly at *
  rwa [engine_of_changes h hesh]

theorem timeAhead_of_changes (htsu : Part.tsu ∉ l) (d : Nat) : timeAhead t d = timeAhead s d := by
  unfold timeAhead
  rw [timeFrom_of_tsu (h.tsu htsu), h.tsu htsu]

theorem txStamp_of_changes (htsu : Part.tsu ∉ l) (hcfg : Part.cfg ∉ l) (p at_ phase k : Nat) (cal : Int) :
    txStamp t p at_ phase k cal = txStamp s p at_ phase k cal := by
  unfold txStamp portCfg
  rw [h.cfg hcfg, h.tsu htsu]
  simp only [gain_of_tsu (h.tsu htsu), timeAhead_of_changes h htsu]

theorem gateOpenFrom_of_changes (htsu : Part.tsu ∉ l) (hgates : Part.gates ∉ l) (p c k n : Nat) :
    gateOpenFrom t p c k n = gateOpenFrom s p c k n := by
  simp only [gateOpenFrom, gateAt, h.gates hgates, timeAhead_of_changes h htsu]

/-- Besides time, configuration and gates, a frame's permission goes by the port's link, its preemption and its pause. -/
theorem permittedAt_of_changes (htsu : Part.tsu ∉ l) (hcfg : Part.cfg ∉ l) (hgates : Part.gates ∉ l) {p : Nat}
    (hlink : reportsUp (portOf t p) = reportsUp (portOf s p)) (hverify : (portOf t p).verify = (portOf s p).verify)
    (hpause : (portOf t p).pause = (portOf s p).pause) (k : Nat) (f : TxFrame) : permittedAt t p k f = permittedAt s p k f := by
  simp only [permittedAt, startNeed, gatePermitsAt, preemptActive, classPaused, h.cfg hcfg, h.tsu htsu,
    gateOpenFrom_of_changes h htsu hgates, hlink, hverify, hpause]

end Kept

/-! ## The line of a port (R162, R163) -/

/-- A port without what the end of a transmission books on it: its deficit and boundary, its classed bytes, and what it looped back. -/
def offLine (x : Port) : Port := { x with deficit := 0, lineFree := 0, overhead := 0, looped := [] }

theorem fields_of_offLine {x y : Port} (h : offLine x = offLine y) :
    x.line = y.line ∧ x.express = y.express ∧ x.genDue = y.genDue ∧ x.told = y.told ∧ x.macDue = y.macDue :=
  ⟨(congrArg Port.line h :), (congrArg Port.express h :), (congrArg Port.genDue h :), (congrArg Port.told h :),
    (congrArg Port.macDue h :)⟩

section Line
variable (p : Nat) (s : State)

theorem offLine_closeLine (start len idle : Nat) : offLine (portOf (closeLine p start len idle s).2 p) = offLine (portOf s p) :=
  (congrArg offLine (portOf_putPort_self p _ s)).trans rfl

theorem offLine_loopBack (m : MPacket) (bytes : List Byte) : offLine (portOf (loopBack p m bytes s) p) = offLine (portOf s p) := by
  unfold loopBack
  split
  · exact (congrArg offLine (portOf_putPort_self p _ s)).trans rfl
  · rfl

theorem offLine_driveLine (n : Nat) (ending : LineEnd) (f : TxFrame) :
    offLine (portOf (driveLine p n ending f s) p) = offLine (portOf s p) := by
  unfold driveLine
  split
  · rfl
  · exact offLine_loopBack p _ _ _

theorem offLine_sendShort (at_ : Nat) : offLine (portOf (sendShort p at_ s) p) = offLine (portOf s p) :=
  (congrArg offLine (portOf_of_changes (classSlots_frame (Changes.refl [.ctr] _) (by decide)) (by decide) p)).trans
    (offLine_closeLine p s at_ 72 72)

theorem mem_out_driveLine (n : Nat) (ending : LineEnd) (f : TxFrame) :
    Output.lineFrame p (smdOf f) (((lineBytesOf f).drop f.sent).take n) ending ∈ (driveLine p n ending f s).out := by
  unfold driveLine
  extract_lets s1
  have hdriven : Output.lineFrame p (smdOf f) (((lineBytesOf f).drop f.sent).take n) ending ∈ s1.out := mem_out_emit _ s
  split
  · exact hdriven
  · exact (loopBack_frame (Changes.refl [.ports] s1) (by decide)).sent (by decide) hdriven

end Line

/-! ## A grant's record (R151, R181) -/

theorem engine_putEngine_self (pg : Nat) (e : Engine) (s : State) : engine (putEngine pg e s) pg = e := tgetD_tput_self _ _ _ _

@[simp] theorem grantOf_putPort (p : Nat) (x : Port) (s : State) (pg id : Nat) : grantOf (putPort p x s) pg id = grantOf s pg id := rfl

theorem grantOf_id {s : State} {pg id : Nat} {g : Grant} (h : grantOf s pg id = some g) : g.id = id := by
  simpa using List.find?_some h

theorem grantOf_mapGrant {pg id : Nat} {f : Grant → Grant} (hid : ∀ g, (f g).id = g.id) (s : State) :
    grantOf (mapGrant pg id f s) pg id = (grantOf s pg id).map f := by
  unfold grantOf mapGrant
  rw [engine_putEngine_self, List.find?_map]
  have hsame : ((fun g : Grant => decide (g.id = id)) ∘ fun g => if g.id = id then f g else g) = fun g => decide (g.id = id) := by
    funext g
    by_cases h : g.id = id <;> simp [h, hid]
  rw [hsame]
  cases hfound : (engine s pg).grants.find? (fun g => g.id = id) with
  | none => rfl
  | some g => simp [grantOf_id hfound]

theorem coreOnly_mapGrant {pg id : Nat} {f : Grant → Grant} {s : State} (hhost : ∀ g, (f g).host = g.host)
    (hreleased : ∀ g, (f g).released = g.released) (h : coreOnly pg s) : coreOnly pg (mapGrant pg id f s) := by
  intro g hg
  rw [mapGrant, engine_putEngine_self] at hg
  obtain ⟨x, hx, rfl⟩ := List.mem_map.mp hg
  split
  · rw [hhost, hreleased]
    exact h x hx
  · exact h x hx

/-- Where no host leaf's grant waits, nothing is pulled. -/
theorem pullGrants_of_coreOnly {pg : Nat} {s : State} (h : coreOnly pg s) : pullGrants pg s = s :=
  List.foldlRecOn (motive := (· = s)) _ _ rfl fun a ha g hg => by
    rw [if_neg, ha]
    rcases h g hg with hcore | hdone
    · simp [hcore]
    · simp [Option.isSome_iff_ne_none.mp hdone]

end Sys2Proof.Proofs
end

section
/-! PROOFS. Transmitted frames (06): a frame's slices under its grant (R148 to R161), the start of a frame and preemption (R160, R166,
R201, R207), its end (R163 to R167), and the statement. -/
namespace Sys2Proof.Proofs
open Sys2Proof.Machine Sys2Proof.Safety

/-! ## Frames from the core (R148 to R161) -/

theorem cpiTxFrame_pulls {pg : Nat} {t : TxSlices} {s : State} (hclocked : clocked s = true) (hpowered : groupState s pg = .powered) :
    cpiTxFrame pg t s = pullGrants pg (cpiTxFrame.taken pg t s) := by
  unfold cpiTxFrame
  rw [if_neg (by simp [hclocked, hpowered])]

theorem taken_unconfigured {pg : Nat} {t : TxSlices} {s : State} (h : 16 ≤ t.portOff ∨ thas s.cfg.port (pg * 16 + t.portOff) = false) :
    ∃ word, cpiTxFrame.taken pg t s = txInputError pg word (count (txUngrantedSlicesCtr pg) t.slices s) := by
  unfold cpiTxFrame.taken
  exact ⟨_, if_pos h⟩

theorem taken_start {pg : Nat} {t : TxSlices} {m : TxMeta} {s : State} (hport : t.portOff < 16)
    (hconfigured : thas s.cfg.port (pg * 16 + t.portOff) = true) (hstart : t.start = some m) :
    cpiTxFrame.taken pg t s = sofSlices pg (pg * 16 + t.portOff) m t s := by
  unfold cpiTxFrame.taken
  simp only [hstart, hconfigured, Nat.not_le.mpr hport, reduceCtorEq, or_self, if_false]

/-- Slices for a port without a configuration: an error, and each slice counted (R151). -/
theorem txInputError_discards {pg word n : Nat} {s : State} (hclocked : clocked s = true) :
    let x := txInputError pg word (count (txUngrantedSlicesCtr pg) n s)
    raises 0x17 0x1701 1 s x ∧ total x (txUngrantedSlicesCtr pg) = total s (txUngrantedSlicesCtr pg) + n ∧ x.esh = s.esh := by
  intro x
  have hcounted : Changes [.ctr] s (count (txUngrantedSlicesCtr pg) n s) := count_frame (Changes.refl _ s) (by decide)
  have herror : Changes errorParts (count (txUngrantedSlicesCtr pg) n s) x := txInputError_frame (Changes.refl _ _) (by decide)
  have hclocked' := (hcounted.clocked (by decide) (by decide)).trans hclocked
  refine ⟨raises_before hcounted (by decide) (errorAt_raises hclocked' (by decide)), ?_, ?_⟩
  · rw [total_of_changes herror (by decide), total_count_self]
  · have hwhole : Changes (.ctr :: errorParts) s x := (hcounted.mono (by decide)).trans (herror.mono (by decide))
    exact esh_of_parts _ _ (hwhole.esh_host (by decide)) (hwhole.esh_rest (by decide))

/-- The state after a frame that earlier slices left to be discarded is forgotten. -/
def forgetOpening (p : Nat) (s : State) : State := putPort p { portOf s p with opening := none } s

/-- No frame of the port is open: its start word is looked up among the grants (R151). -/
theorem sofSlices_granted {pg p : Nat} {m : TxMeta} {t : TxSlices} {g : Grant} {s : State} (hidle : openFrame (portOf s p) = none)
    (hgrant : grantOf s pg m.grantId = some g) (hport : g.port = p) :
    sofSlices pg p m t s = coreStart pg p m t g (forgetOpening p s) := by
  unfold sofSlices forgetOpening
  simp only [hidle, Option.isSome_none, Bool.false_eq_true, if_false, grantOf_putPort, hgrant, hport, if_true]

section Good
variable {s : State} {p : Nat} {g : Grant} {m : TxMeta} {t : TxSlices} (h : goodStart s p g m t)
include h

theorem startBad_of_goodStart : startBad g.cfg p m t = false := by
  obtain ⟨-, -, hreserved, heof, -, hleast, hmost, -, ⟨l, n, hleaf, hnode⟩, hplain, -, -⟩ := h
  have hend : t.eof.any endReserved = false := by
    cases he : t.eof with
    | none => rfl
    | some e =>
      obtain ⟨hrsv, haction, -⟩ := heof e he
      simp [endReserved, hrsv, haction]
  simp [startBad, startNames, hreserved, hend, Nat.not_lt.mpr hleast, Nat.not_lt.mpr hmost, hleaf, hnode, hplain]

theorem lengthWrong_of_goodStart : lengthWrong m.len t.nbytes t.eof = false := by
  obtain ⟨-, -, -, heof, hmore, -⟩ := h
  unfold lengthWrong
  cases he : t.eof with
  | none => simp [hmore he]
  | some e => simp [(heof e he).2.2]

theorem notAborted_of_goodStart : t.eof.any (fun e => e.action = 2) = false := by
  obtain ⟨-, -, -, heof, -⟩ := h
  cases he : t.eof with
  | none => rfl
  | some e => simp [(heof e he).2.1]

end Good

/-- W on a port that does not protect its frames (R156). -/
theorem wireLen_unprotected {cfg : Cfg} {p : Nat} (hplain : protecting cfg p = none) (n : Nat) (ins : Bool) :
    wireLen cfg p n ins = max 64 (n + (if ins then 4 else 0) + 4) := by
  simp [wireLen, secTagLen, icvLen, hplain]

/-- A frame of right metadata that fits the MTU of a port without protection is not dropped, and binds to no SA. -/
theorem fitFrame_unprotected {s : State} {cfg : Cfg} {p : Nat} {sc : Option Nat} {f : TxFrame} {b : PortSetBody}
    (hplain : protecting cfg p = none) (hport : tget cfg.port p = some b) (hmtu : f.len + 8 ≤ b.mtu) (hleast : 64 ≤ b.mtu) :
    (fitFrame s cfg p sc false false f).2 = (none, none) ∧ (fitFrame s cfg p sc false false f).1.sa = none := by
  have hfits : ¬ b.mtu < wireLen cfg p f.len (inserts cfg p f.bytes) := by
    rw [wireLen_unprotected hplain]
    split <;> omega
  simp [fitFrame, hplain, hport, hfits]

/-- A frame as TXM builds it from its first slices, under the configuration of its grant. -/
def startedFrame (s : State) (p : Nat) (g : Grant) (m : TxMeta) (t : TxSlices) : TxFrame :=
  (fitFrame s g.cfg p (if m.scValid then some m.scIndex else none) false false (coreTx m t g s.tsu.now)).1

section Started
variable {s : State} {p : Nat} {g : Grant} {m : TxMeta} {t : TxSlices} (h : goodStart s p g m t) (u : State)
include h

theorem startedFrame_wire :
    (startedFrame u p g m t).wire = max 64 (m.len + (if (startedFrame u p g m t).inserted then 4 else 0) + 4) := by
  obtain ⟨-, -, -, -, -, -, -, -, -, hplain, -⟩ := h
  exact wireLen_unprotected hplain _ _

theorem startedFrame_sa : (startedFrame u p g m t).sa = none := by
  obtain ⟨-, -, -, -, -, -, -, -, -, hplain, ⟨b, hport, hmtu, hleast⟩, -⟩ := h
  exact (fitFrame_unprotected hplain hport hmtu hleast).2

end Started

/-- A port with the frame at the end of the queue that R161 names. -/
def queued (f : TxFrame) (x : Port) : Port :=
  if f.preempt then { x with preempts := x.preempts ++ [f] } else { x with express := x.express ++ [f] }

theorem queued_express (f : TxFrame) (x : Port) : (queued f x).express = x.express ++ (if f.preempt then [] else [f]) := by
  unfold queued
  split <;> simp

theorem queued_preempts (f : TxFrame) (x : Port) : (queued f x).preempts = x.preempts ++ (if f.preempt then [f] else []) := by
  unfold queued
  split <;> simp

theorem takeTx_unbound {f : TxFrame} (hsa : f.sa = none) (cfg : Cfg) (p : Nat) (sc : Option Nat) (s : State) :
    takeTx cfg p f sc none s = putPort p (queued f (portOf s p)) s := by
  unfold takeTx secureTx queued
  simp only [hsa]

/-- A start that passes every check of R151 notes the frame under its grant and queues it. -/
theorem coreStart_good {s : State} {pg p : Nat} {g : Grant} {m : TxMeta} {t : TxSlices} (h : goodStart s p g m t) :
    coreStart pg p m t g s = putPort p (queued (startedFrame s p g m t) (portOf s p)) (noteArrival pg g (startedFrame s p g m t) s) := by
  have hsa := startedFrame_sa h s
  have hbad := startBad_of_goodStart h
  have hshort := lengthWrong_of_goodStart h
  have habort := notAborted_of_goodStart h
  obtain ⟨-, -, -, -, -, -, -, hts, -, hplain, ⟨b, hport, hmtu, hleast⟩, hlive⟩ := h
  have hfit : fitFrame s g.cfg p (if m.scValid then some m.scIndex else none) false false (coreTx m t g s.tsu.now) =
      (startedFrame s p g m t, none, none) := Prod.ext rfl (fitFrame_unprotected hplain hport hmtu hleast).1
  have hstamp : (startedFrame s p g m t).tsBad = false := by
    change (decide (m.tsReq ≠ 3) && stampOutside m.tsReq m.tsOffset m.len) = false
    simp [stampOutside, hts]
  have hport' : portOf (noteArrival pg g (startedFrame s p g m t) s) p = portOf s p :=
    portOf_of_changes (noteArrival_frame (Changes.refl [.esh] s) (by decide)) (by decide) p
  unfold coreStart
  simp only [hbad, hshort, hfit, habort, hlive, Bool.or_self, Bool.false_or, Bool.false_eq_true, if_false, if_true, Option.isSome_none]
  rw [if_neg (by simp [hstamp]), ← hport']
  exact takeTx_unbound hsa g.cfg p none _

theorem grantOf_noteArrival {pg : Nat} {g : Grant} {s : State} (h : grantOf s pg g.id = some g) (f : TxFrame) :
    grantOf (noteArrival pg g f s) pg g.id = some
      { g with begun := true, frames := g.frames ++ [{ charge := f.wire + overheadOf g.cfg f.leaf, cpiLen := f.len }] } := by
  unfold noteArrival
  rw [grantOf_mapGrant, h]
  · rfl
  · exact fun _ => rfl

theorem goodStart_forgetOpening {s : State} {p : Nat} {g : Grant} {m : TxMeta} {t : TxSlices} (h : goodStart s p g m t) :
    goodStart (forgetOpening p s) p g m t := by
  unfold goodStart mayTransmit forgetOpening at *
  rwa [portOf_putPort_self]

/-- Slices that start a frame under its grant: it is noted under the grant and queued. -/
theorem cpiTxFrame_good {pg : Nat} {t : TxSlices} {m : TxMeta} {g : Grant} {s : State} (hclocked : clocked s = true)
    (hpowered : groupState s pg = .powered) (hoff : t.portOff < 16) (hconfigured : thas s.cfg.port (pg * 16 + t.portOff) = true)
    (hstart : t.start = some m) (hidle : openFrame (portOf s (pg * 16 + t.portOff)) = none) (hgrant : grantOf s pg m.grantId = some g)
    (honly : coreOnly pg s) (hgood : goodStart s (pg * 16 + t.portOff) g m t) :
    let p := pg * 16 + t.portOff
    let u := forgetOpening p s
    cpiTxFrame pg t s = putPort p (queued (startedFrame u p g m t) (portOf u p)) (noteArrival pg g (startedFrame u p g m t) u) := by
  intro p u
  have hport : g.port = p := hgood.2.1
  have htaken : cpiTxFrame.taken pg t s = putPort p (queued (startedFrame u p g m t) (portOf u p))
      (noteArrival pg g (startedFrame u p g m t) u) := by
    rw [taken_start hoff hconfigured hstart, sofSlices_granted hidle hgrant hport, coreStart_good (goodStart_forgetOpening hgood)]
  have hnoted : coreOnly pg (noteArrival pg g (startedFrame u p g m t) u) := coreOnly_mapGrant (fun _ => rfl) (fun _ => rfl) honly
  rw [cpiTxFrame_pulls hclocked hpowered, htaken]
  exact pullGrants_of_coreOnly (coreOnly_of_changes (putPort_frame (Changes.refl [.ports] _) (by decide)) (by decide) hnoted)

/-! ## Heads that their gate holds (R197) -/

/-- A queue whose head its gate holds for the first time, with that noted. -/
def heldHead (s : State) (p : Nat) : List TxFrame → Option (List TxFrame)
  | f :: r =>
    if !f.held && (f.action.isSome || startNeed s p f ≤ f.got) && !gatePermits s p f then some ({ f with held := true } :: r) else none
  | [] => none

theorem length_heldHead (s : State) (p : Nat) (l : List TxFrame) : ((heldHead s p l).getD l).length = l.length := by
  unfold heldHead
  split
  · split <;> rfl
  · rfl

theorem heldHead_of_permitted {s : State} {p : Nat} {f : TxFrame} (hp : p < 512) (h : permitted s p f = true) (r : List TxFrame) :
    heldHead s p (f :: r) = none := by
  have hgate : gatePermits s p f = true := by
    simp only [permitted, permittedAt, Nat.not_le.mpr hp, decide_false, Bool.false_or, Bool.and_eq_true] at h
    exact h.2.1
  simp [heldHead, hgate]

theorem countHolds_changes (p : Nat) (s : State) : Changes [.ctr, .ports] s (countHolds p s) :=
  countHolds_frame (Changes.refl _ s) (by decide)

theorem portOf_countHolds (p : Nat) (s : State) : portOf (countHolds p s) p =
    { portOf s p with express := (heldHead s p (portOf s p).express).getD (portOf s p).express
                      preempts := (heldHead s p (portOf s p).preempts).getD (portOf s p).preempts } := by
  have htally : ∀ k u, portOf (tally k u) p = portOf u p := fun k u =>
    portOf_of_changes (tally_frame (Changes.refl [.ctr] u) (by decide)) (by decide) p
  have heq : countHolds p s =
      let s1 := match heldHead s p (portOf s p).express with
        | some l => tally (gateHoldsCtr p) (putPort p { portOf s p with express := l } s)
        | none => s
      match heldHead s p (portOf s p).preempts with
      | some l => tally (gateHoldsCtr p) (putPort p { portOf s1 p with preempts := l } s1)
      | none => s1 := rfl
  rw [heq]
  cases heldHead s p (portOf s p).express <;> cases heldHead s p (portOf s p).preempts <;>
    simp only [htally, portOf_putPort_self, Option.getD_some, Option.getD_none]

theorem controlDue_countHolds (p : Nat) (s : State) : controlDue (countHolds p s) p = controlDue s p := by
  unfold controlDue xoffState
  rw [portOf_countHolds, (countHolds_changes p s).cfg (by decide)]

theorem xoffState_countHolds (p : Nat) (s : State) : xoffState (countHolds p s) p = xoffState s p := by
  simp only [xoffState, portOf_countHolds, (countHolds_changes p s).cfg (by decide)]

theorem permittedAt_countHolds (p : Nat) (s : State) (k : Nat) (f : TxFrame) :
    permittedAt (countHolds p s) p k f = permittedAt s p k f :=
  have hport := portOf_countHolds p s
  permittedAt_of_changes (countHolds_changes p s) (by decide) (by decide) (by decide) (by rw [hport]; rfl) (by rw [hport])
    (by rw [hport]) k f

theorem noControl_countHolds {p : Nat} {s : State} (h : noControl s p) : noControl (countHolds p s) p := by
  unfold noControl at *
  rwa [controlDue_countHolds, portOf_countHolds]

/-! ## The start of a frame (R157, R160, R207) -/

section Start
variable {s : State} {p : Nat}

theorem lineLive_runs (h : lineLive s p) : ¬ (clocked s = false ∨ halting s ∨ thas s.cfg.port p = false ∨ portPowered s p = false ∨
    mayTransmit s p = false ∨ p ∈ s.mode.drained) := by
  obtain ⟨hclocked, hrunning, hconfigured, hpowered, hlink, hopen⟩ := h
  simp [hclocked, hrunning, hconfigured, hpowered, hlink, hopen]

theorem txFrameStart_boundary (hlive : lineLive s p) (hline : (portOf s p).line = none) (hfree : (portOf s p).lineFree ≤ s.tsu.now)
    (phase k : Nat) : txFrameStart p phase k s = startNext p s.tsu.now phase k (countHolds p s) := by
  unfold txFrameStart
  simp only [if_neg (lineLive_runs hlive), hline, if_neg (Nat.not_lt.mpr hfree)]

theorem startNext_control {fr : List Byte} {gen : Bool} (hlink : (portOf s p).link = .up) (hdue : controlDue s p = some (fr, gen))
    (at_ phase k : Nat) : startNext p at_ phase k s = sendControl p at_ fr gen s := by
  unfold startNext
  simp only [hlink, if_true, hdue]

/-- An express frame starts once nothing of MAC control is due (Table 6-5). -/
theorem startNext_express {at_ : Nat} {f : TxFrame} {r : List TxFrame} (hnone : noControl s p) (hp : p < 512)
    (hexpress : (portOf s p).express = f :: r) (hpermitted : permittedAt s p (at_ - s.tsu.now) f = true) (phase k : Nat) :
    startNext p at_ phase k s = beginTx p f at_ phase k (putPort p { portOf s p with express := r } s) := by
  have hcontrol : (if (portOf s p).link = .up then controlDue s p else none) = none := by
    split
    next hup => exact (hnone hup).1
    next => rfl
  have hmpacket : ¬ ((portOf s p).link = .up ∧ ((portOf s p).verifyDue ∨ (portOf s p).respondDue)) := by
    rintro ⟨hup, hdue⟩
    obtain ⟨-, hverify, hrespond⟩ := hnone hup
    simp [hverify, hrespond] at hdue
  unfold startNext
  simp only [hcontrol, if_neg hmpacket, if_neg (Nat.not_le.mpr hp), hexpress, if_pos hpermitted]

/-- A port whose MAC control frame has been sent: a generated one says what it told, one of PAUSE_SEND leaves its queue (R207). -/
theorem offLine_sendControl (at_ : Nat) (fr : List Byte) (gen : Bool) : offLine (portOf (sendControl p at_ fr gen s) p) =
    offLine { portOf s p with
      genDue := 0
      told := if gen then xoffState s p else (portOf s p).told
      xoffAt := if gen then s.tsu.now else (portOf s p).xoffAt
      macDue := if gen then (portOf s p).macDue else (portOf s p).macDue.drop 1 } := by
  unfold sendControl
  rw [offLine_sendShort, portOf_of_changes (tally_frame (Changes.refl [.ctr] _) (by decide)) (by decide), offLine_loopBack]
  cases gen <;> exact congrArg offLine (portOf_putPort_self p _ s)

theorem mem_out_sendControl (at_ : Nat) (fr : List Byte) (gen : Bool) : Output.macControl p fr ∈ (sendControl p at_ fr gen s).out := by
  unfold sendControl
  extract_lets x x1 s1 pfc
  have hsent : Output.macControl p fr ∈ s1.out :=
    (loopBack_frame (Changes.refl [.ports] _) (by decide)).sent (by decide) (mem_out_emit _ _)
  exact (sendShort_frame (tally_frame (Changes.refl [.ctr, .ports] s1) (by decide)) (by decide)).sent (by decide) hsent

/-- At a frame boundary the MAC control frame that is due is sent (R207). -/
theorem txFrameStart_control {fr : List Byte} {gen : Bool} (hlive : lineLive s p) (hline : (portOf s p).line = none)
    (hfree : (portOf s p).lineFree ≤ s.tsu.now) (hlink : (portOf s p).link = .up) (hdue : controlDue s p = some (fr, gen)) (phase k : Nat) :
    txFrameStart p phase k s = sendControl p s.tsu.now fr gen (countHolds p s) := by
  rw [txFrameStart_boundary hlive hline hfree, startNext_control]
  · rwa [portOf_countHolds]
  · rwa [controlDue_countHolds]

/-- At a frame boundary at which nothing of MAC control is due, the express frame at the head starts if it is permitted (R160). -/
theorem txFrameStart_express {f : TxFrame} {r : List TxFrame} (hlive : lineLive s p) (hp : p < 512) (hline : (portOf s p).line = none)
    (hfree : (portOf s p).lineFree ≤ s.tsu.now) (hnone : noControl s p) (hexpress : (portOf s p).express = f :: r)
    (hpermitted : permitted s p f = true) (phase k : Nat) : ∃ u, Changes [.ctr, .ports] s u ∧ (portOf u p).express = r ∧
      txFrameStart p phase k s = beginTx p f s.tsu.now phase k u := by
  have hholds := countHolds_changes p s
  have hheld : (portOf (countHolds p s) p).express = f :: r := by
    rw [portOf_countHolds, hexpress, heldHead_of_permitted hp hpermitted]
    rfl
  have hready : permittedAt (countHolds p s) p (s.tsu.now - (countHolds p s).tsu.now) f = true := by
    rwa [hholds.tsu (by decide), Nat.sub_self, permittedAt_countHolds]
  refine ⟨putPort p { portOf (countHolds p s) p with express := r } (countHolds p s), putPort_frame hholds (by decide), ?_, ?_⟩
  · rw [portOf_putPort_self]
  · rw [txFrameStart_boundary hlive hline hfree, startNext_express (noControl_countHolds hnone) hp hheld hready]

end Start

/-- What a timestamp request does to a frame that starts (R157, R228): it writes at most its bytes, where it is written one-step. -/
theorem stampTx_frameOf (p : Nat) (f : TxFrame) (s : State) : ∃ bytes valid, (stampTx p f s).1 = { f with bytes, tsValid := valid } ∧
    (f.tsReq = 0 → bytes = f.bytes) ∧
    (f.tsReq = 2 → f.sa = none → byteAt f.bytes f.tsOffset % 16 ≤ 2 → bytes = writeTime s.cfg p f.tsOffset f.stamp f.bytes) := by
  unfold stampTx
  split
  next hreq => exact ⟨f.bytes, true, rfl, fun _ => rfl, fun h => by simp [h] at hreq⟩
  next hreq =>
    split
    next htwo =>
      refine ⟨f.bytes, true, rfl, fun _ => rfl, fun _ hsa hversion => ?_⟩
      simp [hsa, Nat.not_lt.mpr hversion] at htwo
    next => exact ⟨_, f.tsValid, rfl, fun h => by simp [h] at hreq, fun _ _ _ => rfl⟩
  next hone htwo => exact ⟨f.bytes, f.tsValid, rfl, fun _ => rfl, fun h => absurd h htwo⟩

/-- A frame that starts goes to the line with its start and its timestamp (R157, R224), and leaves the queues as they are. -/
theorem beginTx_line (p : Nat) (f : TxFrame) (at_ phase k : Nat) (s : State) :
    (portOf (beginTx p f at_ phase k s) p).express = (portOf s p).express ∧
    ∃ y : TxFrame, (portOf (beginTx p f at_ phase k s) p).line = some y ∧ y.len = f.len ∧ y.wire = f.wire ∧ y.started = some at_ ∧
      y.fragAt = at_ ∧ y.stamp = txStamp s p at_ phase k f.cal ∧ (f.tsReq = 0 → y.bytes = f.bytes) ∧
      (f.tsReq = 2 → f.sa = none → byteAt f.bytes f.tsOffset % 16 ≤ 2 →
        y.bytes = writeTime s.cfg p f.tsOffset y.stamp f.bytes) := by
  unfold beginTx
  extract_lets m f1
  have hcaptured : Changes [.tsu, .levels, .jic, .ctr, .hlk] s (hlkCapture p f1 s) := hlkCapture_frame (Changes.refl _ s) (by decide)
  obtain ⟨bytes, valid, hframe, hzero, hone⟩ := stampTx_frameOf p { f1 with smd := (portOf s p).smdNext } (hlkCapture p f1 s)
  rw [hcaptured.cfg (by decide)] at hone
  split
  next f2 s1 hstamp =>
    rw [hstamp] at hframe
    obtain rfl : f2 = _ := hframe
    extract_lets s2 x
    have hstamped : Changes [.tsu, .levels, .jic, .ctr, .hlk] s s1 := stampTx_of hstamp hcaptured (by decide)
    have hcounted : Changes [.tsu, .levels, .jic, .ctr, .hlk] s s2 := by
      unfold s2
      split
      · exact tally_frame hstamped (by decide)
      · exact hstamped
    have hport : x = portOf s p := portOf_of_changes hcounted (by decide) p
    rw [portOf_putPort_self, hport]
    exact ⟨rfl, _, rfl, rfl, rfl, rfl, rfl, rfl, hzero, hone⟩

/-! ## The end of a frame (R163 to R167) -/

/-- What the end of a frame on the line may change besides the line: its counters, its completion and sample, and what it held. -/
def endParts : List Part :=
  [.quarantine, .sessions, .sealed, .err, .levels, .jic, .ctr, .samples, .frc, .hostQueue, .esh, .replies, .hpe,
   .pounce, .dbg, .hlk, .sas, .out]

theorem released_changes (p code status : Nat) (f : TxFrame) (s : State) :
    Changes endParts s (txSample p code f (completeTx p status f (releaseTx p f s))) :=
  txSample_frame (completeTx_frame (releaseTx_frame (Changes.refl _ s) (by decide)) (by decide)) (by decide)

/-- Every cause but an exhausted SA does no more than count (R167). -/
theorem countCause_changes {cause : Nat} (h : cause ≠ 4) (p : Nat) (sc : Option Nat) (s : State) :
    Changes [.ctr] s (countCause p cause sc s) := by
  unfold countCause
  split
  case h_5 => exact absurd rfl h
  all_goals exact tally_frame (Changes.refl _ s) (by decide)

theorem portOf_discardRest (p : Nat) (f : TxFrame) (done : Bool) (s : State) :
    portOf (discardRest p f done s) p = { portOf s p with opening := if done then none else some f } := portOf_putPort_self p _ s

section Ends
variable {p : Nat} {f : TxFrame} {s : State}

/-- The state in which a transmission of `len` line bytes from ccyc `start` on has left the line. -/
def lineClosed (p start len : Nat) (s : State) : State := (closeLine p start len 0 (putPort p { portOf s p with line := none } s)).2

/-- Once its line is closed, a frame's last bytes are driven and the line is free. -/
theorem driveLine_ends {u : State} {start len : Nat} (hu : Changes [.ctr] (lineClosed p start len s) u) (n : Nat) (ending : LineEnd) :
    Output.lineFrame p (smdOf f) (((lineBytesOf f).drop f.sent).take n) ending ∈ (driveLine p n ending f u).out ∧
      (portOf (driveLine p n ending f u) p).line = none := by
  refine ⟨mem_out_driveLine p u n ending f, (fields_of_offLine (y := { portOf s p with line := none }) ?_).1⟩
  rw [offLine_driveLine, portOf_of_changes hu (by decide), lineClosed, offLine_closeLine, portOf_putPort_self]

/-- What takes back no output and touches no port leaves a driven frame driven and the line free. -/
theorem ends_of_changes {l : List Part} {o : Output} {u x : State} (hc : Changes l u x) (hsent : Part.sent ∉ l) (hports : Part.ports ∉ l)
    (h : o ∈ u.out ∧ (portOf u p).line = none) : o ∈ x.out ∧ (portOf x p).line = none :=
  ⟨hc.sent hsent h.1, portOf_of_changes hc hports p ▸ h.2⟩

theorem released_ends {o : Output} {u : State} (code status : Nat) (h : o ∈ u.out ∧ (portOf u p).line = none) :
    let x := txSample p code f (completeTx p status f (releaseTx p f u))
    o ∈ x.out ∧ (portOf x p).line = none :=
  ends_of_changes (released_changes p code status f u) (by decide) (by decide) h

theorem replyWritten_ends {o : Output} {u : State} (id : Nat) (h : o ∈ u.out ∧ (portOf u p).line = none) :
    o ∈ (replyWritten id u).out ∧ (portOf (replyWritten id u) p).line = none :=
  ends_of_changes (replyWritten_frame (Changes.refl [.pounce, .dbg] u) (by decide)) (by decide) (by decide) h

/-- A frame sent whole leaves as the rest of its line bytes, and the line is free (R163). -/
theorem finishTx_sends (p : Nat) (f : TxFrame) (s : State) :
    Output.lineFrame p (smdOf f) (((lineBytesOf f).drop f.sent).take (f.wire - f.sent)) .whole ∈ (finishTx p f s).out ∧
      (portOf (finishTx p f s) p).line = none := by
  have hcounted : ∀ n, Changes [.ctr] (lineClosed p f.fragAt (8 + (f.wire - f.sent)) s)
      (countSent p f (classSlots p f.wire n (lineClosed p f.fragAt (8 + (f.wire - f.sent)) s))) := fun n =>
    countSent_frame (classSlots_frame (Changes.refl _ _) (by decide)) (by decide)
  unfold finishTx
  cases f.source with
  | core => exact released_ends _ _ (driveLine_ends (hcounted _) _ _)
  | ring n => exact released_ends _ _ (driveLine_ends (count_frame (hcounted _) (by decide)) _ _)
  | cpx => exact replyWritten_ends _ (released_ends _ _ (driveLine_ends (hcounted _) _ _))
  | hlk => exact replyWritten_ends _ (released_ends _ _ (driveLine_ends (hcounted _) _ _))

/-- How an abort goes: the line is closed and the abort counted, the frame's last bytes and the error are driven, what is still to come
of it is to be discarded, and the frame is released (R163). -/
theorem abortLine_steps {cause : Nat} (hline : (portOf s p).line = some f) (hcause : cause ≠ 4) (n : Nat) : ∃ driven,
    (Output.lineFrame p (smdOf f) (((lineBytesOf f).drop f.sent).take (roundUp n (column (modeOf s p)) - 8))
        (.error (column (modeOf s p))) ∈ driven.out ∧ (portOf driven p).line = none) ∧
      abortLine p cause n s = txSample p 9 f (completeTx p 6 f (releaseTx p f
        (if f.opened then discardRest p { f with dropAs := some cause } false driven else driven))) := by
  have hcounted : ∀ len k, Changes [.ctr] (lineClosed p f.fragAt len s)
      (tally (txAbortedCtr p) (countCause p cause none (classSlots p 0 k (lineClosed p f.fragAt len s)))) := fun len k =>
    tally_frame ((classSlots_frame (Changes.refl _ _) (by decide)).trans (countCause_changes hcause p none _)) (by decide)
  unfold abortLine
  rw [hline]
  exact ⟨_, driveLine_ends (hcounted (roundUp n (column (modeOf s p)) + column (modeOf s p)) _) _ _, rfl⟩

/-- An aborted frame leaves with the column of the error after it; what is still to come of it is discarded (R163). -/
theorem abortLine_sends {cause : Nat} (hline : (portOf s p).line = some f) (hcause : cause ≠ 4) (n : Nat) :
    Output.lineFrame p (smdOf f) (((lineBytesOf f).drop f.sent).take (roundUp n (column (modeOf s p)) - 8))
        (.error (column (modeOf s p))) ∈ (abortLine p cause n s).out ∧
      (portOf (abortLine p cause n s) p).line = none ∧
      (f.opened = true → ∃ y : TxFrame, (portOf (abortLine p cause n s) p).opening = some y ∧ y.dropAs = some cause) := by
  obtain ⟨driven, hdriven, hsteps⟩ := abortLine_steps hline hcause n
  rw [hsteps]
  split
  next =>
    have hdiscarded := portOf_discardRest p { f with dropAs := some cause } false driven
    obtain ⟨hsent, hfree⟩ := released_ends 9 6 (u := discardRest p { f with dropAs := some cause } false driven)
      ⟨hdriven.1, (congrArg Port.line hdiscarded).trans hdriven.2⟩
    refine ⟨hsent, hfree, fun _ => ⟨{ f with dropAs := some cause }, ?_, rfl⟩⟩
    rw [portOf_of_changes (released_changes p 9 6 f _) (by decide), hdiscarded]
    rfl
  next hclosed =>
    obtain ⟨hsent, hfree⟩ := released_ends 9 6 hdriven
    exact ⟨hsent, hfree, fun hopened => absurd hopened hclosed⟩

end Ends

/-- A frame that is broken leaves as `n` more bytes and its mCRC (R166). -/
theorem mem_out_breakTx (p n : Nat) (f : TxFrame) (s : State) :
    Output.lineFrame p (smdOf f) (((lineBytesOf f).drop f.sent).take n) .mcrc ∈ (breakTx p n f s).out := by
  unfold breakTx
  exact mem_out_driveLine p _ n .mcrc f

/-- A frame on the line whose break is due is broken; what starts after it takes nothing back (R166, R201). -/
theorem txFrameStart_breaks {s : State} {p n : Nat} {f : TxFrame} (hlive : lineLive s p) (hline : (portOf s p).line = some f)
    (hbreak : (if breakCause s p then breakAt s p f else gateBreak s p f) = some n) (phase k : Nat) :
    Output.lineFrame p (smdOf f) (((lineBytesOf f).drop f.sent).take n) .mcrc ∈ (txFrameStart p phase k s).out := by
  have hsent := mem_out_breakTx p n f s
  have hstart : Changes (.tsu :: sendParts) (breakTx p n f s) (txFrameStart p phase k s) := by
    unfold txFrameStart
    simp only [if_neg (lineLive_runs hlive), hline, hbreak]
    split
    · exact startNext_frame (countHolds_frame (Changes.refl _ _) (by decide)) (by decide)
    · exact Changes.refl _ _
  exact hstart.sent (by decide) hsent

section End
variable {p : Nat} {f : TxFrame} {s : State} (hline : (portOf s p).line = some f) (hclocked : clocked s = true) (hrunning : halting s = false)
include hline hclocked hrunning

theorem txFrameEnd_good {a : Nat} (haction : f.action = some a) (hgood : a ≠ 2)
    (hsent : 8 + (f.wire - f.sent) ≤ lineBytes (portSpeed s.cfg p) (s.tsu.now + 1 - f.fragAt)) : txFrameEnd p s = finishTx p f s := by
  unfold txFrameEnd
  simp only [hline, hclocked, hrunning, haction, if_neg hgood, if_neg (Nat.not_lt.mpr hsent), Bool.false_eq_true, reduceCtorEq,
    or_self, if_false]

theorem txFrameEnd_coreAbort (haction : f.action = some 2)
    (hsent : 8 + (f.head + f.len - f.sent) ≤ lineBytes (portSpeed s.cfg p) (s.tsu.now + 1 - f.fragAt)) :
    txFrameEnd p s = abortLine p 6 (8 + (f.head + f.len - f.sent)) s := by
  unfold txFrameEnd
  simp only [hline, hclocked, hrunning, haction, if_neg (Nat.not_lt.mpr hsent), Bool.false_eq_true, reduceCtorEq,
    or_self, if_false, if_true]

theorem txUnderrun_aborts (haction : f.action = none)
    (hsent : 8 + (f.head + f.got - f.sent) ≤ lineBytes (portSpeed s.cfg p) (s.tsu.now + 1 - f.fragAt)) :
    txUnderrun p s = abortLine p 5 ((8 + (f.head + f.got - f.sent)) / column (modeOf s p) * column (modeOf s p)) s := by
  unfold txUnderrun
  simp only [hline]
  rw [if_neg (by simp [hclocked, hrunning, haction, Nat.not_lt.mpr hsent])]

end End

/-! ## The statement -/

/-- Settles O59: it holds, clause by clause from the rules above. -/
theorem framesAreTransmitted : Obligations.FramesAreTransmitted := by
  unfold Obligations.FramesAreTransmitted
  refine ⟨?start, ?unconfigured, ?control, ?express, ?whole, ?coreAbort, ?underrun, ?breaks⟩
  case start =>
    refine fun dt pg t m g => happens_of_effect (fun _ => rfl) (by decide) (by decide)
      fun s ⟨hclocked, hpowered, hoff, hconfigured, hstart, hidle, hgrant, honly, hgood⟩ => ?_
    rw [cpiTxFrame_good hclocked hpowered hoff hconfigured hstart hidle hgrant honly hgood]
    have hgrant' : grantOf (forgetOpening (pg * 16 + t.portOff) s) pg g.id = some g := hgood.1 ▸ hgrant
    refine ⟨⟨startedFrame (forgetOpening (pg * 16 + t.portOff) s) (pg * 16 + t.portOff) g m t, rfl, rfl, rfl, rfl, rfl, rfl,
        startedFrame_sa hgood _, rfl, rfl, startedFrame_wire hgood _, rfl, ?_, ?_, grantOf_noteArrival hgrant' _⟩,
      putPort_frame (noteArrival_frame (putPort_frame (Changes.refl _ s) (by decide)) (by decide)) (by decide)⟩
    · rw [portOf_putPort_self, queued_express, forgetOpening, portOf_putPort_self]
    · rw [portOf_putPort_self, queued_preempts, forgetOpening, portOf_putPort_self]
  case unconfigured =>
    refine fun dt pg t => happens_of_effect (fun _ => rfl) (by decide) (by decide) fun s ⟨hclocked, hpowered, honly, hoff⟩ => ?_
    obtain ⟨word, htaken⟩ := taken_unconfigured hoff
    have hdiscards := txInputError_discards (pg := pg) (word := word) (n := t.slices) hclocked
    have honly' : coreOnly pg (txInputError pg word (count (txUngrantedSlicesCtr pg) t.slices s)) := by
      simpa only [coreOnly, engine, hdiscards.2.2] using honly
    rw [cpiTxFrame_pulls hclocked hpowered, htaken, pullGrants_of_coreOnly honly']
    exact ⟨hdiscards, txInputError_frame (count_frame (Changes.refl _ s) (by decide)) (by decide)⟩
  case control =>
    refine fun dt p l ph k fr gen => happens_of_effect (fun _ => rfl) (by decide) (by decide)
      fun s ⟨hlive, hline, hfree, hlink, hdue⟩ => ?_
    obtain ⟨hline', hexpress, hgen, htold, hmac⟩ := fields_of_offLine
      (offLine_sendControl (s := countHolds p s) (p := p) s.tsu.now fr gen)
    rw [portOf_countHolds] at hline' hexpress htold hmac
    rw [xoffState_countHolds] at htold
    rw [txFrameStart_control hlive hline hfree hlink hdue]
    refine ⟨⟨mem_out_sendControl _ _ _, hline'.trans hline, hexpress ▸ length_heldHead s p _, ?_, ?_⟩,
      sendControl_frame (countHolds_frame (Changes.refl _ s) (by decide)) (by decide)⟩
    · rintro rfl
      exact ⟨hgen, htold, hmac⟩
    · rintro rfl
      exact hmac
  case express =>
    refine fun dt p l ph k f r => happens_of_effect (fun _ => rfl) (by decide) (by decide)
      fun s ⟨hlive, hp, hline, hfree, hnone, hexpress, hpermitted⟩ => ?_
    obtain ⟨u, hu, htaken, hstart⟩ := txFrameStart_express hlive hp hline hfree hnone hexpress hpermitted ph k
    have hbegun := beginTx_line p f s.tsu.now ph k u
    rw [htaken, hu.cfg (by decide), txStamp_of_changes hu (by decide) (by decide)] at hbegun
    rw [hstart]
    exact ⟨hbegun, beginTx_frame (hu.mono (by decide)) (by decide)⟩
  case whole =>
    refine fun dt p f a => happens_of_effect (fun _ => rfl) (by decide) (by decide)
      fun s ⟨hclocked, hrunning, hline, haction, hgood, hsent⟩ => ⟨?_, txFrameEnd_frame (Changes.refl _ s) (by decide)⟩
    rw [txFrameEnd_good hline hclocked hrunning haction hgood hsent]
    exact finishTx_sends p f s
  case coreAbort =>
    refine fun dt p f => happens_of_effect (fun _ => rfl) (by decide) (by decide)
      fun s ⟨hclocked, hrunning, hline, haction, _, hsent⟩ => ⟨?_, txFrameEnd_frame (Changes.refl _ s) (by decide)⟩
    rw [txFrameEnd_coreAbort hline hclocked hrunning haction hsent]
    obtain ⟨hout, hfree, -⟩ := abortLine_sends hline (cause := 6) (by decide) (8 + (f.head + f.len - f.sent))
    exact ⟨hout, hfree⟩
  case underrun =>
    refine fun dt p f => happens_of_effect (fun _ => rfl) (by decide) (by decide)
      fun s ⟨hclocked, hrunning, hline, haction, hopened, hsent⟩ => ⟨?_, txUnderrun_frame (Changes.refl _ s) (by decide)⟩
    rw [txUnderrun_aborts hline hclocked hrunning haction hsent]
    obtain ⟨hout, hfree, hrest⟩ := abortLine_sends hline (cause := 5) (by decide)
      ((8 + (f.head + f.got - f.sent)) / column (modeOf s p) * column (modeOf s p))
    exact ⟨hout, hfree, hrest hopened⟩
  case breaks =>
    exact fun dt p l ph k f n => happens_of_effect (fun _ => rfl) (by decide) (by decide) fun s ⟨hlive, hline, hbreak⟩ =>
      ⟨txFrameStart_breaks hlive hline hbreak ph k, txFrameStart_frame (Changes.refl _ s) (by decide)⟩

end Sys2Proof.Proofs
end

section
/-! PROOFS. The passing of time (09 R218, R221, log 3): whether the shared domain is clocked does not change as a ccyc passes, and of what
ends a ccyc only the clock moves the time base. -/
namespace Sys2Proof.Proofs
open Sys2Proof.Machine Sys2Proof.Safety

/-! ## Whether the shared domain is clocked -/

theorem clocked_congr {s t : State} (hstage : t.mode.stage = s.mode.stage) (hfrozen : t.dbg.frozen = s.dbg.frozen) :
    clocked t = clocked s := by
  unfold clocked
  rw [hstage, hfrozen]

theorem clocked_of_changes {l : List Part} {s t : State} (h : Changes l s t) (hmode : Part.mode ∉ l) (hdbg : Part.dbg ∉ l) :
    clocked t = clocked s :=
  clocked_congr (h.mode_stage hmode) (h.dbg_frozen hdbg)

/-- A reported mode that ends the perturbations freezes no clock. -/
theorem clocked_noteMode (s : State) : clocked (noteMode s) = clocked s := by
  unfold noteMode
  extract_lets m s1
  have hrecord : Changes [.frc] s s1 := eventRecord_frame (Changes.refl _ s) (by decide)
  split
  · rfl
  · refine clocked_congr (s := s) (hrecord.mode_stage (by decide)) ?_
    dsimp only
    split
    · exact hrecord.dbg_frozen (by decide)
    · exact hrecord.dbg_frozen (by decide)

theorem clocked_note (s : State) : clocked (note s) = clocked s := by
  have hnumbered : clocked (numberErrors s) = clocked s :=
    clocked_of_changes (numberErrors_frame (Changes.refl [.err, .mem] s) (by decide)) (by decide) (by decide)
  unfold note
  dsimp only
  split
  · have hcounted := countEdges_frame (syncLevels_frame (Changes.refl [.levels, .ctr] (noteMode (numberErrors s))) (by decide)) (by decide)
    rw [clocked_of_changes hcounted (by decide) (by decide), clocked_noteMode, hnumbered]
  · exact hnumbered

theorem clocked_settled (s : State) : clocked (settled s) = clocked s :=
  clocked_of_changes (settled_frame (Changes.refl [.lif, .esh] s) (by decide)) (by decide) (by decide)

/-! ## The time base in one ccyc -/

/-- What the passing of time may change, the time base apart. -/
def restParts : List Part := timeParts.filter (· ≠ .tsu)

theorem note_tsu (s : State) : (note s).tsu = s.tsu := (note_frame (Changes.refl restParts s) (by decide)).tsu (by decide)

theorem settled_tsu (s : State) : (settled s).tsu = s.tsu := (settled_frame (Changes.refl restParts s) (by decide)).tsu (by decide)

/-- The clock reads nothing but the time base. -/
theorem advanceTime_tsu_congr {s t : State} (h : t.tsu = s.tsu) : (advanceTime t).tsu = (advanceTime s).tsu := by
  simp only [advanceTime, gain_of_tsu h, slewDone, h]

/-- What a ccyc ends before its clock ticks. -/
theorem ccycEnded_changes (s : State) :
    Changes restParts s (recordCcyc (countSve (countPause (countLevels (countSlots (refreshReady s)))))) :=
  recordCcyc_frame (countSve_frame (countPause_frame (countLevels_frame (countSlots_frame (refreshReady_frame (Changes.refl _ s)
    (by decide)) (by decide)) (by decide)) (by decide)) (by decide)) (by decide)

/-- What a ccyc begins after its clock has ticked, up to the keeping of the captures. -/
theorem ccycBegun_changes (s : State) :
    Changes restParts s (ageErrors (exportCcyc (smcCcyc (rxCcyc (freezeCut (sweepRead (bringUps
      (presentAt (takeOwed (endedPauses s)) s.tsu.now)))))))) :=
  ageErrors_frame (exportCcyc_frame (smcCcyc_frame (rxCcyc_frame (freezeCut_frame (sweepRead_frame (bringUps_frame (presentAt_frame
    (takeOwed_frame (endedPauses_frame (Changes.refl _ s) (by decide)) (by decide)) (by decide)) (by decide)) (by decide))
    (by decide)) (by decide)) (by decide)) (by decide)) (by decide)

theorem keepTotals_tsu (s : State) : (keepTotals s).tsu = { s.tsu with capsWas := s.tsu.caps } := rfl

/-- A ccyc moves the time base by the clock, and keeps the captures that it found. -/
theorem nextCcyc_tsu (s : State) : ∃ caps, (nextCcyc s).tsu = { (advanceTime s).tsu with capsWas := caps } := by
  unfold nextCcyc
  extract_lets s1
  have hclock : s1.tsu = (advanceTime s).tsu := advanceTime_tsu_congr ((ccycEnded_changes s).tsu (by decide))
  have hbegun := (ccycBegun_changes s1).tsu (by decide)
  refine ⟨s1.tsu.caps, ?_⟩
  rw [(battRead_frame (Changes.refl restParts _) (by decide)).tsu (by decide), keepTotals_tsu, hbegun, hclock]

theorem tick_clocked {s : State} (h : clocked s = true) :
    (tick s).tsu.now = s.tsu.now + 1 ∧ (tick s).tsu.time = ((s.tsu.time : Int) + gain s 1).toNat := by
  have hclocked : clocked (note s) = true := (clocked_note s).trans h
  have hfrozen : ¬ (note s).dbg.frozen = true := by
    unfold clocked at hclocked
    simp_all
  have htick : tick s = nextCcyc (note s) := by
    unfold tick
    rw [if_neg hfrozen, if_pos hclocked]
  obtain ⟨caps, hnext⟩ := nextCcyc_tsu (note s)
  rw [htick, hnext, advanceTime_tsu_congr (note_tsu s)]
  exact ⟨rfl, rfl⟩

theorem tick_unclocked {s : State} (h : clocked s = false) : (tick s).tsu = s.tsu := by
  have hclocked : ¬ clocked (note s) = true := by rw [clocked_note, h]; exact Bool.false_ne_true
  unfold tick
  dsimp only
  rw [if_neg hclocked]
  split <;> exact note_tsu s

/-! ## The time base over many ccyc -/

/-- The ccyc that pass are one by one: the last of them comes after the others. -/
theorem advance_succ (d : Nat) (s : State) : advance (d + 1) s = tick (advance d s) := by
  induction d generalizing s with
  | zero => rfl
  | succ d ih => exact ih (tick s)

/-- The state that the ccyc before a row leave, as the row has not yet settled it. -/
def elapsed (d : Nat) (s : State) : State := advance d { s with out := [] }

theorem start_tsu (d : Nat) (s : State) : (start d s).tsu = (elapsed d s).tsu := settled_tsu _

theorem clocked_start (d : Nat) (s : State) : clocked (start d s) = clocked (elapsed d s) := clocked_settled _

theorem start_succ_tsu (d : Nat) (s : State) : (start (d + 1) s).tsu = (tick (elapsed d s)).tsu := by
  rw [start_tsu, elapsed, advance_succ, elapsed]

/-! ## The statement -/

/-- Settles O3: it holds, ccyc by ccyc. That `gain` takes a slew's part rounded toward zero is the model's reading (log 9). -/
theorem timePassesAtTheRate : Obligations.TimePassesAtTheRate := by
  unfold Obligations.TimePassesAtTheRate
  refine fun d s => ⟨start_changes d s, fun hclocked => ?_, fun hstopped => ?_⟩
  · rw [clocked_start] at hclocked
    rw [start_succ_tsu, gain_of_tsu (start_tsu d s), start_tsu]
    exact tick_clocked hclocked
  · rw [clocked_start] at hstopped
    rw [start_succ_tsu, start_tsu]
    exact tick_unclocked hstopped

end Sys2Proof.Proofs
end

section
/-! PROOFS. Steps, rates and slews (09 R216 to R223): what SYNC and the time base read after each shared operation on them, one rule per
case of a due step and of a slew's end, and the statement from them. -/
namespace Sys2Proof.Proofs
open Sys2Proof.Machine Sys2Proof.Safety

/-! ## Shared operations that leave the time base alone -/

@[simp] theorem raiseEvent_tsu (n : Nat) (s : State) : (raiseEvent n s).tsu = s.tsu :=
  (raiseEvent_frame (Changes.refl [.levels, .jic] s) (by decide)).tsu (by decide)

@[simp] theorem count_tsu (k n : Nat) (s : State) : (count k n s).tsu = s.tsu :=
  (count_frame (Changes.refl [.ctr] s) (by decide)).tsu (by decide)

@[simp] theorem tally_tsu (k : Nat) (s : State) : (tally k s).tsu = s.tsu := count_tsu k 1 s

@[simp] theorem eventRecord_tsu (code : Nat) (detail : List Byte) (s : State) : (eventRecord code detail s).tsu = s.tsu :=
  (eventRecord_frame (Changes.refl [.frc] s) (by decide)).tsu (by decide)

@[simp] theorem stepGates_tsu (s : State) : (stepGates s).tsu = s.tsu :=
  (stepGates_frame (Changes.refl [.ctr, .gates] s) (by decide)).tsu (by decide)

@[simp] theorem answer_tsu (c : ReplyCtx) (st d : Nat) (b : Fields) (s : State) : (answer c st d b s).tsu = s.tsu :=
  (answer_changes c st d b s).tsu (by decide)

/-! ## SYNC (R219, R223) -/

@[simp] theorem setSync_tsu (x : Sync) (s : State) : (setSync x s).tsu = { s.tsu with sync := x } := by
  unfold setSync
  dsimp only
  split
  · exact raiseEvent_tsu _ _
  · rfl

/-- SYNC after a cause of R223 has arisen. -/
def heldSync (s : State) : Sync := if s.tsu.sync = .set then .holdover else s.tsu.sync

@[simp] theorem enterHoldover_tsu (s : State) : (enterHoldover s).tsu = { s.tsu with sync := heldSync s } := by
  unfold enterHoldover heldSync
  split
  · exact setSync_tsu _ s
  · rfl

@[simp] theorem steered_tsu (s : State) : (steered s).tsu = { s.tsu with sync := steeredSync s } := by
  unfold steered steeredSync holdingCleared
  by_cases h : s.tsu.sync = .holdover ∧ holdCause s = false
  · simp [h]
  · rw [if_neg h, if_neg (by simpa using h)]

theorem steered_changes (s : State) : Changes [.tsu, .levels, .jic] s (steered s) := steered_frame (Changes.refl _ s) (by decide)

/-- SYNC after a step or setting of the time (R219, R223). -/
def firstSync (s : State) : Sync :=
  if s.tsu.sync = .unset then (if holdCause s then .holdover else .set) else s.tsu.sync

@[simp] theorem firstSet_tsu (s : State) : (firstSet s).tsu = { s.tsu with sync := firstSync s } := by
  unfold firstSet firstSync
  split
  · exact setSync_tsu _ s
  · rfl

/-! ## Steps (R219) -/

@[simp] theorem endSlew_tsu (cut : Bool) (s : State) : (endSlew cut s).tsu = { s.tsu with slew := none } := by
  unfold endSlew
  split
  next hnone => rw [← Option.isNone_iff_eq_none.mp hnone]
  next =>
    dsimp only
    split <;> simp

/-- The time base after a step to `t`: what is measured as a duration of TSU time has moved with it. -/
theorem stepTo_tsu (t : Nat) (keepSync : Bool) (s : State) :
    (stepTo t keepSync s).tsu = { s.tsu with
      slew := none, time := t, ppsEdge := s.tsu.ppsEdge.map (fun e => e + ((t : Int) - s.tsu.time))
      ppsOutSince := s.tsu.ppsOutSince + ((t : Int) - s.tsu.time), sync := if keepSync then s.tsu.sync else firstSync s } := by
  unfold stepTo
  cases keepSync <;> simp [firstSync, holdCause]

/-- Where an accepted step takes the time base. -/
def stepTime (q : StepPend) (s : State) : Nat := if q.relative then ((s.tsu.time : Int) + q.offset).toNat else q.time

/-- The state once a due step `q` has been taken, before its reply; `l` waits behind it. -/
def stepTaken (q : StepPend) (l : List StepPend) (s : State) : State :=
  stepTo (stepTime q s) q.keepSync { s with tsu := { s.tsu with step := l } }

section Step
variable {s : State} {q : StepPend} {l : List StepPend}
  (hclocked : clocked s = true) (hstep : s.tsu.step = q :: l) (hdue : q.due ≤ s.tsu.now)
include hclocked hstep hdue

theorem stepEffect_unanswered (hctx : q.ctx = none) : stepEffect s = stepTaken q l s := by
  unfold stepEffect
  simp only [hstep, hclocked, hdue.not_gt, reduceCtorEq, or_self, if_false, hctx]
  rfl

theorem stepEffect_answered {c : ReplyCtx} (hctx : q.ctx = some c) :
    stepEffect s = answer c stOk 0 (timeFields (toTime (stepTaken q l s).tsu.time)) (stepTaken q l s) := by
  unfold stepEffect
  simp only [hstep, hclocked, hdue.not_gt, reduceCtorEq, or_self, if_false, hctx]
  rfl

theorem stepEffect_tsu : (stepEffect s).tsu = (stepTaken q l s).tsu := by
  rcases hctx : q.ctx with _ | c
  · rw [stepEffect_unanswered hclocked hstep hdue hctx]
  · rw [stepEffect_answered hclocked hstep hdue hctx, answer_tsu]

theorem stepEffect_replies {c : ReplyCtx} (hctx : q.ctx = some c) (hall : c.onError = false) :
    ∃ r, Output.reply c.origin r ∈ (stepEffect s).out ∧ r.status = 0 ∧ r.body = timeFields (toTime (stepEffect s).tsu.time) := by
  rw [stepEffect_tsu hclocked hstep hdue, stepEffect_answered hclocked hstep hdue hctx]
  obtain ⟨-, hstatus, hbody, -, -⟩ :=
    mkReply_fields c stOk 0 (timeFields (toTime (stepTaken q l s).tsu.time)) (stepTaken q l s)
  exact ⟨_, answer_out (.inl hall) (.inl (Nat.zero_lt_succ _)), hstatus, hbody⟩

end Step

/-- No accepted step is due. -/
theorem stepEffect_early {s : State} (h : ∀ q ∈ s.tsu.step, s.tsu.now < q.due) : stepEffect s = s := by
  unfold stepEffect
  split
  next => rfl
  next q l hstep => exact if_pos (.inr (h q (hstep ▸ List.mem_cons_self)))

/-! ## Slews (R220) -/

theorem slewComplete_due {s : State} {w : Slew} (hslew : s.tsu.slew = some w) (hdone : w.total ≤ w.done) :
    slewComplete s = raiseEvent 0x891 { s with tsu := { s.tsu with slew := none } } := by
  unfold slewComplete endSlew
  simp [hslew, hdone]

theorem slewComplete_early {s : State} {w : Slew} (hslew : s.tsu.slew = some w) (hleft : w.done < w.total) : slewComplete s = s := by
  unfold slewComplete
  simp only [hslew]
  exact if_neg hleft.not_ge

/-! ## The statement -/

/-- Settles O11: it holds; a reply and the record of a command leave the time base as the command made it. -/
theorem timeStepsRatesAndSlews : Obligations.TimeStepsRatesAndSlews := by
  unfold Obligations.TimeStepsRatesAndSlews
  refine ⟨?step, ?rate, ?slew, ?stepDue, ?stepEarly, ?slewDone, ?slewRuns⟩
  case step =>
    refine fun z b => defers_of (fun _ => rfl) rfl rfl (by decide) (by decide) (fun c u v t hv hchanges => ?_) fun c u _ _ _ => ?_
    · rwa [hchanges.tsu (by decide)]
    · have hwhole : Changes ([.tsu, .levels, .jic] ++ checkParts) u ((opTimeStep b).run c u).state :=
        upd_tsu ((steered_changes u).mono (by decide)) (by decide)
      refine ⟨rfl, (steered_changes u).out (by decide), hwhole.cpx_activation (by decide), ?_, hwhole⟩
      dsimp only [opTimeStep]
      rw [steered_tsu]
      exact ⟨rfl, rfl, rfl⟩
  case rate =>
    refine fun z r => performs_of (fun _ => rfl) rfl rfl (by decide) (by decide) (by decide) (fun u v t hv hchanges => ?_)
      fun c u _ _ _ => ?_
    · rwa [hchanges.tsu (by decide)]
    · have hwhole : Changes ([.tsu, .levels, .jic] ++ (checkParts ++ replyParts)) u ((opTimeRateSet r).run c u).state :=
        steered_frame (upd_tsu (Changes.refl _ u) (by decide)) (by decide)
      refine ⟨rfl, rfl, rfl, hwhole.cpx_activation (by decide), ?_, hwhole⟩
      dsimp only [opTimeRateSet]
      rw [steered_tsu]
      exact ⟨rfl, rfl, rfl⟩
  case slew =>
    refine fun z b => performs_of (fun _ => rfl) rfl rfl (by decide) (by decide) (by decide) (fun u v t hv hchanges => ?_)
      fun c u _ _ _ => ?_
    · rwa [hchanges.tsu (by decide)]
    · have hwhole : Changes ([.tsu, .levels, .jic] ++ (checkParts ++ replyParts)) u ((opTimeSlew b).run c u).state :=
        steered_frame (upd_tsu (Changes.refl _ u) (by decide)) (by decide)
      refine ⟨rfl, rfl, rfl, hwhole.cpx_activation (by decide), ?_, hwhole⟩
      dsimp only [opTimeSlew]
      rw [steered_tsu]
      exact ⟨rfl, rfl, rfl⟩
  case stepDue =>
    refine fun dt q l => happens_of_effect (fun _ => rfl) (by decide) (by decide) fun s ⟨hclocked, hstep, hdue⟩ =>
      ⟨?_, stepEffect_frame (Changes.refl _ s) (by decide)⟩
    have hreplies := fun c => stepEffect_replies (c := c) hclocked hstep hdue
    have htsu := (stepEffect_tsu hclocked hstep hdue).trans (stepTo_tsu _ _ _)
    generalize stepEffect s = t at hreplies htsu ⊢
    rw [htsu] at hreplies ⊢
    refine ⟨rfl, rfl, rfl, fun hkeep hunset => ?_, fun hkept => ?_, hreplies⟩
    · simp [hkeep, firstSync, hunset, holdCause]
    · rcases hkept with hkeep | hset
      · simp [hkeep]
      · simp [firstSync, hset]
  case stepEarly => exact fun dt => happens_nothing (fun _ => rfl) fun s => stepEffect_early
  case slewDone =>
    refine fun dt w => happens_of_effect (fun _ => rfl) (by decide) (by decide) fun s ⟨hslew, hdone⟩ => ?_
    rw [slewComplete_due hslew hdone]
    exact ⟨⟨raiseEvent_tsu _ _, levelNow_raiseEvent _ _⟩, raiseEvent_frame (upd_tsu (Changes.refl _ s) (by decide)) (by decide)⟩
  case slewRuns => exact fun dt w => happens_nothing (fun _ => rfl) fun s ⟨hslew, hleft⟩ => slewComplete_early hslew hleft

end Sys2Proof.Proofs
end

section
/-! PROOFS. PPS and the time of day (09 R231 to R234) and the reference (R222, R223): what an edge finds among the messages held, one rule
per case of each happening, and the statement from them. -/
namespace Sys2Proof.Proofs
open Sys2Proof.Machine Sys2Proof.Safety

/-! ## Messages held for an edge (R234) -/

theorem takeTod_none {s : State} (h : s.tsu.tods = []) : takeTod s = (none, s) := by
  unfold takeTod
  simp [h]

/-- Of the messages held, those that ended 10 ms before this ccyc. -/
def timelyTods (s : State) : List TodMsg := s.tsu.tods.filter (fun m => m.ended + ms 10 ≤ s.tsu.now)

/-- The state once an edge has taken the messages held, whose last, `q`, was in time. -/
def todsTaken (q : TodMsg) (s : State) : State :=
  count todErrorsCtr (s.tsu.tods.length - (timelyTods s).length) (count todMessagesCtr (timelyTods s).length
    { s with tsu := { s.tsu with tods := [], todFlags := q.flags, utcOffset := q.utc, todSeconds := q.seconds } })

theorem takeTod_timely {s : State} {q : TodMsg} {l : List TodMsg} (htods : s.tsu.tods = q :: l) (htimely : q.ended + ms 10 ≤ s.tsu.now) :
    takeTod s = (some q.seconds, todsTaken q s) := by
  have hgood : (q :: l).filter (fun m => m.ended + ms 10 ≤ s.tsu.now) = q :: l.filter (fun m => m.ended + ms 10 ≤ s.tsu.now) :=
    List.filter_cons_of_pos (by simpa using htimely)
  unfold takeTod todsTaken timelyTods
  simp only [htods, hgood, List.isEmpty_cons, List.head?_cons, Option.map_some, Bool.false_eq_true, if_false]

@[simp] theorem todsTaken_tsu (q : TodMsg) (s : State) : (todsTaken q s).tsu =
    { s.tsu with tods := [], todFlags := q.flags, utcOffset := q.utc, todSeconds := q.seconds } := by
  simp [todsTaken]

theorem todsTaken_changes (q : TodMsg) (s : State) : Changes [.tsu, .ctr] s (todsTaken q s) :=
  count_frame (count_frame (upd_tsu (Changes.refl _ s) (by decide)) (by decide)) (by decide)

theorem todsTaken_counts (q : TodMsg) (s : State) :
    total (todsTaken q s) todMessagesCtr = total s todMessagesCtr + (timelyTods s).length := by
  have hother : todMessagesCtr ≠ todErrorsCtr := ctrKey_ne (by decide)
  unfold todsTaken
  rw [total_count_ne _ _ hother, total_count_self]
  rfl

/-! ## Edges of PPS_IN (R232) -/

theorem total_raiseEvent (n k : Nat) (s : State) : total (raiseEvent n s) k = total s k := by
  unfold total
  rw [raiseEvent_tel]

/-- A captured edge: the message `sec` names it where there was one. -/
def edgeCaptured (sec : Option Nat) (part : Nat) (s : State) : State :=
  let n := (s.tsu.ppsCount + 1) % 2 ^ 32
  let caps := ((n, (s.tsu.time + part) / fracUnit * fracUnit) :: s.tsu.ppsCaps).take 64
  { s with tsu := { s.tsu with
      ppsCount := n, ppsOk := true, ppsLost := false, ppsEdge := some (s.tsu.time + part), ppsEdgeCcyc := s.tsu.now, ppsCaps := caps
      todCaps := ((sec.map (fun k => (n, k))).toList ++ s.tsu.todCaps).filter (fun c => caps.any (fun e => decide (e.1 = c.1))) } }

theorem edgeCaptured_changes {l : List Part} {s t : State} (sec : Option Nat) (part : Nat) (h : Changes l s t) (htsu : Part.tsu ∈ l) :
    Changes l s (edgeCaptured sec part t) := upd_tsu h (by simpa using htsu)

theorem ppsGood_unnamed {s : State} (part : Nat) (htods : s.tsu.tods = []) :
    ppsGood part s = raiseEvent 0x893 (tally ppsInEdgesCtr (edgeCaptured none part s)) := by
  unfold ppsGood
  rw [takeTod_none htods]
  rfl

/-- A named edge is among the captures with its message: the newest capture is its own. -/
theorem mem_todCaps_edgeCaptured (k part : Nat) (s : State) :
    ((edgeCaptured (some k) part s).tsu.ppsCount, k) ∈ (edgeCaptured (some k) part s).tsu.todCaps :=
  List.mem_filter.mpr ⟨List.mem_cons_self, by simp [edgeCaptured]⟩

/-- The message names the edge and sets no time: its flag is clear, or the time has been set. -/
theorem ppsGood_named {s : State} {q : TodMsg} {l : List TodMsg} (part : Nat) (htods : s.tsu.tods = q :: l)
    (htimely : q.ended + ms 10 ≤ s.tsu.now) (hset : ppsFlag s 4 = false ∨ s.tsu.sync ≠ .unset) :
    ppsGood part s = raiseEvent 0x893 (tally ppsInEdgesCtr (edgeCaptured (some q.seconds) part (todsTaken q s))) := by
  have hflag : ppsFlag (todsTaken q s) 4 = ppsFlag s 4 := by
    unfold ppsFlag
    rw [(todsTaken_changes q s).cfg (by decide)]
  have hkept : ¬ (ppsFlag (todsTaken q s) 4 = true ∧ (todsTaken q s).tsu.sync = Sync.unset) := by
    rw [hflag, todsTaken_tsu]
    rintro ⟨hsets, hunset⟩
    exact hset.elim (fun hclear => by simp [hclear] at hsets) (fun hne => hne hunset)
  unfold ppsGood
  rw [takeTod_timely htods htimely]
  dsimp only
  rw [if_neg hkept]
  rfl

section Edge
variable {s : State} {rising : Bool} {phase held : Nat} (hclocked : clocked s = true) (henabled : ppsFlag s 1 = true)
  (hedge : rising ≠ ppsFlag s 2) (hheld : 100 ≤ held)
include hclocked henabled hedge hheld

theorem ppsInEdge_plausible (hplausible : ppsPlausible s (s.tsu.time + (phase * incNow s / 64 : Nat)) = true) :
    ppsInEdge rising phase held s = ppsGood (phase * incNow s / 64) s := by
  unfold ppsInEdge
  rw [if_neg (by simp [hclocked, henabled, hedge, hheld])]
  exact if_pos hplausible

theorem ppsInEdge_implausible (hplausible : ppsPlausible s (s.tsu.time + (phase * incNow s / 64 : Nat)) = false) :
    ppsInEdge rising phase held s = tally ppsInRejectsCtr { s with tsu := { s.tsu with ppsOk := false } } := by
  unfold ppsInEdge
  rw [if_neg (by simp [hclocked, henabled, hedge, hheld])]
  exact if_neg (Bool.eq_false_iff.mp hplausible)

end Edge

theorem ppsInEdge_ignored {s : State} {rising : Bool} {held : Nat} (phase : Nat)
    (h : ppsFlag s 1 = false ∨ rising = ppsFlag s 2 ∨ held < 100) : ppsInEdge rising phase held s = s := by
  unfold ppsInEdge
  exact if_pos (.inr h)

theorem ppsInLoss_lost {s : State} (hclocked : clocked s = true) (hused : ppsFlag s 5 = true) (hlost : s.tsu.ppsLost = false)
    (hdue : s.tsu.ppsEdgeCcyc + secs 3 ≤ s.tsu.now) :
    ppsInLoss s = enterHoldover { s with tsu := { s.tsu with ppsLost := true } } := by
  unfold ppsInLoss
  exact if_neg (by simp [hclocked, hused, hlost, hdue])

/-! ## Time-of-day messages (R234) -/

theorem todMessage_invalid {s : State} {m : List Byte} (hclocked : clocked s = true) (hused : ppsFlag s 3 = true)
    (hvalid : todValid m = false) : todMessage m s = tally todErrorsCtr s := by
  unfold todMessage
  rw [if_neg (by simp [hclocked, hused]), if_pos hvalid]

/-- A valid message as it is held for the next edge. -/
def heldTod (m : List Byte) (s : State) : TodMsg :=
  { seconds := numAt m 4 6, ended := s.tsu.now, flags := BitVec.ofNat 8 (numAt m 3 1), utc := BitVec.ofNat 16 (numAt m 10 2) }

/-- A valid message is held, and its fields are shown; those before it are kept for the case that it ends too late. -/
theorem todMessage_valid {s : State} {m : List Byte} (hclocked : clocked s = true) (hused : ppsFlag s 3 = true)
    (hvalid : todValid m = true) : todMessage m s = { s with tsu := { s.tsu with
      tods := heldTod m s :: s.tsu.tods
      todWas := if s.tsu.tods.isEmpty then (s.tsu.todFlags, s.tsu.utcOffset, s.tsu.todSeconds) else s.tsu.todWas
      todFlags := (heldTod m s).flags, utcOffset := (heldTod m s).utc, todSeconds := (heldTod m s).seconds } } := by
  unfold todMessage
  rw [if_neg (by simp [hclocked, hused]), if_neg (by simp [hvalid])]
  rfl

/-! ## PPS_OUT (R233) -/

/-- How far after the start of this ccyc the sub-second part of the time reaches the offset. -/
def ppsOutFine (b : PpsBody) (s : State) : Nat := ((b.ppsOutOffset * nsUnit - s.tsu.time) % (secUnit : Int)).toNat

section PpsOut
variable {s : State} {b : PpsBody} (hclocked : clocked s = true) (hcfg : s.cfg.pps = some b)
include hclocked hcfg

theorem ppsOutPulse_rises (henabled : bit b.ppsFlags 0 = true) (hlow : s.tsu.ppsOut = false) (hhere : ppsOutFine b s < incNow s) :
    ppsOutPulse s = emit (.ppsOut true (ppsOutFine b s))
      { s with tsu := { s.tsu with ppsOut := true, ppsOutSince := s.tsu.time + ppsOutFine b s } } := by
  unfold ppsOutPulse
  simp only [hcfg]
  exact if_neg (by simpa [hclocked, henabled, hlow, ppsOutFine] using hhere)

theorem ppsOutEnd_falls (hhigh : s.tsu.ppsOut = true)
    (hhere : s.tsu.ppsOutSince + (b.pulseWidth * nsUnit : Nat) < (s.tsu.time : Int) + incNow s) :
    ∃ fine, ppsOutEnd s = emit (.ppsOut false fine) { s with tsu := { s.tsu with ppsOut := false } } := by
  unfold ppsOutEnd
  simp only [hcfg]
  exact ⟨_, if_neg (by simpa [hclocked, hhigh] using hhere)⟩

end PpsOut

/-! ## The reference (R222) -/

/-- A reference fault as it is counted and recorded. -/
def refFaultNoted (s : State) : State :=
  errorAt 0x09 0x0901 0 sevMajor clsInput 0 0 (tally refFaultsCtr { s with tsu := { s.tsu with refFault := true } })

theorem refFault_begins {s : State} (hclocked : clocked s = true) (hgood : s.tsu.refFault = false) :
    refFault s = enterHoldover (refFaultNoted s) := by
  unfold refFault
  exact if_neg (by simp [hclocked, hgood])

theorem refFaultNoted_tsu (s : State) : (refFaultNoted s).tsu = { s.tsu with refFault := true } := by
  unfold refFaultNoted
  rw [(errorAt_frame (Changes.refl errorParts _) (by decide)).tsu (by decide), tally_tsu]

theorem refFaultNoted_raises {s : State} (hclocked : clocked s = true) :
    (errUnit (refFaultNoted s) 0x09).latest.code = 0x0901 ∧ (errUnit (refFaultNoted s) 0x09).latest.sev = 2 := by
  have hcounted : clocked (tally refFaultsCtr { s with tsu := { s.tsu with refFault := true } }) = true :=
    (clocked_of_changes (tally_frame (upd_tsu (Changes.refl [.tsu, .ctr] s) (by decide)) (by decide)) (by decide) (by decide)).trans hclocked
  obtain ⟨hcode, hsev, -, -, -⟩ := errorAt_raises (unit := 0x09) (code := 0x0901) (inst := 0) (sev := sevMajor) (cls := clsInput)
    (d0 := 0) (d1 := 0) hcounted (by decide)
  exact ⟨hcode, hsev⟩

/-! ## The statement -/

/-- Settles O12: it holds, clause by clause from the rules above. That TIME_GET shows the fields of a message from its end on, and those of
the last one that was in time once the edge has come, is the model's reading (log 9). -/
theorem pulsesMessagesAndReference : Obligations.PulsesMessagesAndReference := by
  unfold Obligations.PulsesMessagesAndReference
  refine ⟨?unnamed, ?named, ?rejected, ?ignored, ?lost, ?valid, ?invalid, ?rises, ?falls, ?fault, ?clear⟩
  case unnamed =>
    refine fun dt rising phase held => happens_of_effect (fun _ => rfl) (by decide) (by decide)
      fun s ⟨hclocked, henabled, hedge, hheld, htods, hplausible⟩ => ?_
    rw [ppsInEdge_plausible hclocked henabled hedge hheld hplausible, ppsGood_unnamed _ htods]
    refine ⟨?_, raiseEvent_frame (tally_frame (edgeCaptured_changes _ _ (Changes.refl _ s) (by decide)) (by decide)) (by decide)⟩
    rw [raiseEvent_tsu, tally_tsu]
    exact ⟨rfl, rfl, rfl, rfl, rfl, rfl, (total_raiseEvent _ _ _).trans (total_tally_self _ _), levelNow_raiseEvent _ _⟩
  case named =>
    refine fun dt rising phase held q l => happens_of_effect (fun _ => rfl) (by decide) (by decide)
      fun s ⟨hclocked, henabled, hedge, hheld, htods, htimely, hset, hplausible⟩ => ?_
    rw [ppsInEdge_plausible hclocked henabled hedge hheld hplausible, ppsGood_named _ htods htimely hset]
    have htaken : Changes [.tsu, .ctr, .levels, .jic] s (todsTaken q s) := (todsTaken_changes q s).mono (by decide)
    refine ⟨?_, raiseEvent_frame (tally_frame (edgeCaptured_changes _ _ htaken (by decide)) (by decide)) (by decide)⟩
    rw [raiseEvent_tsu, tally_tsu]
    have htsu := todsTaken_tsu q s
    refine ⟨(congrArg Tsu.tods htsu :), (congrArg (fun x => (x.ppsCount + 1) % 2 ^ 32) htsu :), mem_todCaps_edgeCaptured _ _ _,
      (congrArg Tsu.todSeconds htsu :), (congrArg Tsu.time htsu :), ?_⟩
    rw [total_raiseEvent]
    exact (total_tally_ne _ (ctrKey_ne (by decide))).trans ((todsTaken_counts q s).trans (by rw [timelyTods, htods]; rfl))
  case rejected =>
    refine fun dt rising phase held => happens_of_effect (fun _ => rfl) (by decide) (by decide)
      fun s ⟨hclocked, henabled, hedge, hheld, hplausible⟩ => ?_
    rw [ppsInEdge_implausible hclocked henabled hedge hheld hplausible]
    exact ⟨⟨tally_tsu _ _, total_tally_self _ _⟩, tally_frame (upd_tsu (Changes.refl _ s) (by decide)) (by decide)⟩
  case ignored => exact fun dt rising phase held => happens_nothing (fun _ => rfl) fun s => ppsInEdge_ignored phase
  case lost =>
    refine fun dt => happens_of_effect (fun _ => rfl) (by decide) (by decide) fun s ⟨hclocked, hused, hlost, hdue⟩ => ?_
    rw [ppsInLoss_lost hclocked hused hlost hdue]
    exact ⟨enterHoldover_tsu _, enterHoldover_frame (upd_tsu (Changes.refl _ s) (by decide)) (by decide)⟩
  case valid =>
    refine fun dt m => happens_of_effect (fun _ => rfl) (by decide) (by decide) fun s ⟨hclocked, hused, hvalid⟩ => ?_
    rw [todMessage_valid hclocked hused hvalid]
    exact ⟨⟨⟨heldTod m s, rfl, rfl, rfl⟩, rfl, rfl, rfl⟩, upd_tsu (Changes.refl _ s) (by decide)⟩
  case invalid =>
    refine fun dt m => happens_of_effect (fun _ => rfl) (by decide) (by decide) fun s ⟨hclocked, hused, hvalid⟩ => ?_
    rw [todMessage_invalid hclocked hused hvalid]
    exact ⟨total_tally_self _ s, tally_frame (Changes.refl _ s) (by decide)⟩
  case rises =>
    refine fun dt b => happens_of_effect (fun _ => rfl) (by decide) (by decide) fun s ⟨hclocked, hcfg, henabled, hlow, hhere⟩ =>
      ⟨?_, ppsOutPulse_frame (Changes.refl _ s) (by decide)⟩
    rw [ppsOutPulse_rises hclocked hcfg henabled hlow hhere]
    exact ⟨rfl, mem_out_emit _ _⟩
  case falls =>
    refine fun dt b => happens_of_effect (fun _ => rfl) (by decide) (by decide) fun s ⟨hclocked, hcfg, hhigh, hhere⟩ =>
      ⟨?_, ppsOutEnd_frame (Changes.refl _ s) (by decide)⟩
    obtain ⟨fine, hfalls⟩ := ppsOutEnd_falls hclocked hcfg hhigh hhere
    rw [hfalls]
    exact ⟨rfl, fine, mem_out_emit _ _⟩
  case fault =>
    refine fun dt => happens_of_effect (fun _ => rfl) (by decide) (by decide) fun s ⟨hclocked, hgood⟩ =>
      ⟨?_, refFault_frame (Changes.refl _ s) (by decide)⟩
    have hheld := enterHoldover_frame (Changes.refl [.tsu, .levels, .jic] (refFaultNoted s)) (by decide)
    rw [refFault_begins hclocked hgood, enterHoldover_tsu, refFaultNoted_tsu, errUnit, hheld.err (by decide)]
    exact ⟨by rw [heldSync, refFaultNoted_tsu], refFaultNoted_raises hclocked⟩
  case clear =>
    refine fun dt => happens_of_effect (fun _ => rfl) (by decide) (by decide) fun s hclocked =>
      ⟨?_, refClear_frame (Changes.refl _ s) (by decide)⟩
    rw [refClear, if_pos hclocked]

end Sys2Proof.Proofs
end

section
/-! PROOFS. How rings start, stop and are reset (10 R249 to R251): what the operations on one ring leave of it and of the others, then a
stop that aborts what is posted, and the statement from them. -/
namespace Sys2Proof.Proofs
open Sys2Proof.Machine Sys2Proof.Safety

/-! ## One ring changes -/

/-- From `s` to `t` ring `k` has become `r`, and no other ring has changed. -/
def RingBecomes (k : Nat) (r : Ring) (s t : State) : Prop := ringOf t k = r ∧ ∀ j, j ≠ k → ringOf t j = ringOf s j

theorem ringBecomes_putRing (k : Nat) (r : Ring) (s : State) : RingBecomes k r s (putRing k r s) :=
  ⟨ringOf_putRing_self k r s, fun _ hj => ringOf_putRing_ne r s hj⟩

theorem RingBecomes.of_rings {k : Nat} {r : Ring} {s t u : State} (h : RingBecomes k r s t) (hrings : ∀ j, ringOf u j = ringOf t j) :
    RingBecomes k r s u :=
  ⟨(hrings k).trans h.1, fun j hj => (hrings j).trans (h.2 j hj)⟩

theorem RingBecomes.of_changes {k : Nat} {r : Ring} {s t u : State} {l : List Part} (h : RingBecomes k r s t) (hchanges : Changes l t u)
    (hhpe : Part.hpe ∉ l) : RingBecomes k r s u :=
  h.of_rings (ringOf_of_changes hchanges hhpe)

@[simp] theorem ringOf_emit (o : Output) (s : State) (k : Nat) : ringOf (emit o s) k = ringOf s k := rfl

@[simp] theorem ringOf_tally (c : Nat) (s : State) (k : Nat) : ringOf (tally c s) k = ringOf s k :=
  ringOf_of_changes (tally_frame (Changes.refl [.ctr] s) (by decide)) (by decide) k

@[simp] theorem ringOf_wakeEvent (j : Nat) (s : State) (k : Nat) : ringOf (wakeEvent j s) k = ringOf s k :=
  ringOf_of_changes (wakeEvent_frame (Changes.refl [.jic] s) (by decide)) (by decide) k

/-- A ring that begins to stop: what is staged for it and the replies that wait on it are no part of any ring's record. -/
theorem stopRing_becomes (k : Nat) (c : ReplyCtx) (s : State) :
    RingBecomes k { ringOf s k with state := 3, stop := some c, aborts := 0 } s (stopRing k c s) := by
  unfold stopRing
  refine RingBecomes.of_changes (l := [.ctr, .replies]) ?_ (discardReplies_frame (Changes.refl _ _) (by decide)) (by decide)
  split
  · exact (ringBecomes_putRing _ _ _).of_rings (dropStaged_rings _ _ _)
  · exact ringBecomes_putRing _ _ _

theorem resetRing_becomes (k : Nat) (s : State) : RingBecomes k { state := 1 } s (resetRing k s) := ringBecomes_putRing _ _ _

/-! ## The entry at the head completes (R241, R247) -/

/-- The head of a ring whose only taken entry is done completes, as the ring runs or stops. -/
theorem flushRing_single {k : Nat} {e : RingEntry} {c : Cpl} {s : State} (hstate : (ringOf s k).state = 2 ∨ (ringOf s k).state = 3)
    (htaken : (ringOf s k).taken = [e]) (hdone : e.done = some c) : flushRing k s = completeEntry k e c s := by
  unfold flushRing
  dsimp only
  rw [if_pos hstate, htaken]
  simp [flushEntries, hdone]

theorem flushRing_empty {k : Nat} {s : State} (htaken : (ringOf s k).taken = []) : flushRing k s = s := by
  unfold flushRing
  simp [htaken, flushEntries]

section Completed
variable {k : Nat} {e : RingEntry} {s : State} (c : Cpl) (hgood : e.fault = false)
include hgood

theorem completeEntry_advances (htaken : (ringOf s k).taken = [e]) : advances k s (completeEntry k e c s) := by
  obtain ⟨r, t, hc, hrest, hchanges, heq⟩ := completeEntry_advanced k e c s
  rw [heq, hgood]
  refine advances_after hchanges (by decide) ⟨?_, ?_, fun j hj => ringOf_putRing_ne _ _ hj⟩
  · rw [ringOf_putRing_self, hc]
  · rw [ringOf_putRing_self, hrest, htaken]
    rfl

/-- The completion of a good entry neither moves its ring to another state nor answers its stop; it counts the entry where that was
aborted. -/
theorem completeEntry_keeps :
    (ringOf (completeEntry k e c s) k).state = (ringOf s k).state ∧ (ringOf (completeEntry k e c s) k).stop = (ringOf s k).stop ∧
    (ringOf (completeEntry k e c s) k).aborts = if c.status = 1 then (ringOf s k).aborts + 1 else (ringOf s k).aborts := by
  unfold completeEntry
  extract_lets r log written c1 cpl r1 s1 s2 s3 s4 s5
  have hring : ringOf s5 k = r1 := by
    simp only [s5, s4, s3, s2, s1, apply_ite (ringOf · k), ringOf_wakeEvent, ringOf_tally, ringOf_emit, ringOf_putRing_self, ite_self]
  rw [if_neg (by simp [hgood]), hring]
  exact ⟨rfl, rfl, rfl⟩

end Completed

/-! ## A stop aborts what is posted (R250) -/

/-- Ring `k` stops with no entry taken; its stop `c` waits, with `a` entries aborted so far. -/
structure Stopping (k : Nat) (c : ReplyCtx) (a : Nat) (s : State) : Prop where
  state : (ringOf s k).state = 3
  taken : (ringOf s k).taken = []
  stop : (ringOf s k).stop = some c
  aborts : (ringOf s k).aborts = a

/-- The next posted entry is aborted. -/
theorem stopping_aborted {k a : Nat} {c : ReplyCtx} {e : RingEntry} {x : Cpl} {s : State} (h : Stopping k c a s)
    (hgood : e.fault = false) (hdone : e.done = some x) (haborted : x.status = 1) :
    Stopping k c (a + 1) (flushRing k (takeEntry k e s)) := by
  have hring : ringOf (takeEntry k e s) k =
      { ringOf s k with taken := (ringOf s k).taken ++ [e], next := idxAdd (ringLog s k) (ringOf s k).next 1 } :=
    ringOf_putRing_self _ _ _
  have htaken : (ringOf (takeEntry k e s) k).taken = [e] := takeEntry_empty h.taken
  obtain ⟨hstate, hstop, haborts⟩ := completeEntry_keeps (k := k) (s := takeEntry k e s) x hgood
  rw [flushRing_single (.inr (by rw [hring]; exact h.state)) htaken hdone]
  refine ⟨?_, (completeEntry_advances x hgood htaken).2.1, ?_, ?_⟩
  · rw [hstate, hring]
    exact h.state
  · rw [hstop, hring]
    exact h.stop
  · rw [haborts, if_pos haborted, hring]
    exact congrArg (· + 1) h.aborts

theorem abortRest_stopping {k a : Nat} {c : ReplyCtx} {s : State} (fuel : Nat) (h : Stopping k c a s) :
    Stopping k c (a + fuel) (abortRest fuel k s) := by
  induction fuel generalizing a s with
  | zero => exact h
  | succ fuel ih =>
    unfold abortRest
    extract_lets r d s1
    have hnext : Stopping k c (a + 1) s1 := stopping_aborted h rfl rfl rfl
    have hdrawn : Stopping k c (a + 1) { s1 with draws := s1.draws + 1 } := ⟨hnext.state, hnext.taken, hnext.stop, hnext.aborts⟩
    have hrest := ih hdrawn
    rwa [Nat.add_right_comm] at hrest

/-- The ring has nothing left to complete: it is STOPPED, and its stop is answered. -/
def ringStopped (k : Nat) (s : State) : State :=
  answerStop k (putRing k { ringOf s k with state := 1, w := (ringOf s k).c, next := (ringOf s k).c } s)

theorem ringStopped_answers {k a : Nat} {c : ReplyCtx} {s : State} (h : Stopping k c a s) (hall : c.onError = false) :
    (ringOf (ringStopped k s) k).state = 1 ∧ (ringOf (ringStopped k s) k).taken = [] ∧ (ringOf (ringStopped k s) k).stop = none ∧
      ∃ y : Reply, Output.reply c.origin y ∈ (ringStopped k s).out ∧ y.status = 0x0000 ∧ y.body = [(4, a)] := by
  unfold ringStopped answerStop
  simp only [ringOf_putRing_self, h.stop, h.aborts]
  generalize hu : putRing k _ (putRing k _ s) = u
  have hring : ringOf (answer c stOk 0 [(4, a)] u) k = ringOf u k := ringOf_of_changes (answer_changes _ _ _ _ _) (by decide) k
  obtain ⟨-, hstatus, hbody, -, -⟩ := mkReply_fields c stOk 0 [(4, a)] u
  refine ⟨?_, ?_, ?_, _, answer_out (.inl hall) (.inl (by decide)), hstatus, hbody⟩
  all_goals rw [hring, ← hu, ringOf_putRing_self]
  exact h.taken

/-- RING_STOP_DONE of a ring with no entry taken and no frame being gathered. -/
theorem ringStopDone_stopping {t n a : Nat} {c : ReplyCtx} {s : State} (hprocessing : processing s = true) (ht : t ≠ 2)
    (hsop : (ringOf s (ringKey t n)).sop = false) (h : Stopping (ringKey t n) c a s) :
    ringStopDone t n s = ringStopped (ringKey t n) (abortRest (ringFree s (ringKey t n)) (ringKey t n) s) := by
  unfold ringStopDone ringStopped
  simp [hprocessing, ht, hsop, h.state, h.taken, flushRing_empty h.taken]

/-! ## The statement -/

/-- Settles O51: it holds; a command's reply and its record touch no ring, and a stop aborts the posted entries one by one. -/
theorem ringsRunStopAndReset : Obligations.RingsRunStopAndReset := by
  unfold Obligations.RingsRunStopAndReset
  refine ⟨?start, ?stopIdle, ?stopRunning, ?reset, ?stopDone⟩
  case start =>
    refine fun z t n => performs_of (fun _ => rfl) rfl rfl (by decide) (by decide) (by decide)
      (fun u v x (hv : RingBecomes _ _ u v) hchanges => hv.of_changes hchanges (by decide)) fun c u _ _ _ => ?_
    exact ⟨rfl, rfl, rfl, rfl, ringBecomes_putRing _ _ u, putRing_frame (Changes.refl _ u) (by decide)⟩
  case stopIdle =>
    refine fun z t n => performs_of (fun _ => rfl) rfl rfl (by decide) (by decide) (by decide)
      (fun u v x hv hchanges => (hchanges.hpe_rings (by decide)).trans hv) fun c u hstate _ _ => ?_
    have hrun : (opRingStop t n).run c u = { state := u, body := [(4, 0)] } := if_pos hstate
    rw [hrun]
    exact ⟨rfl, rfl, rfl, rfl, rfl, Changes.refl _ u⟩
  case stopRunning =>
    refine fun z t n => defers_of (fun _ => rfl) rfl rfl (by decide) (by decide)
      (fun c u v x (hv : RingBecomes _ _ u v) hchanges => hv.of_changes hchanges (by decide)) fun c u hstate _ _ => ?_
    have hrun : (opRingStop t n).run c u = { state := stopRing (ringKey t n) c u, later := true } :=
      if_neg (by rw [hstate]; decide)
    have hwhole : Changes ([.hpe, .replies, .ctr, .samples, .levels, .jic, .frc] ++ checkParts) u (stopRing (ringKey t n) c u) :=
      stopRing_frame (Changes.refl _ u) (by decide)
    rw [hrun]
    exact ⟨rfl, hwhole.out (by decide), hwhole.cpx_activation (by decide), stopRing_becomes _ _ _, hwhole⟩
  case reset =>
    refine fun z t n => performs_of (fun _ => rfl) rfl rfl (by decide) (by decide) (by decide)
      (fun u v x ⟨hself, hstaged, hothers⟩ hchanges => ?_) fun c u _ _ _ => ?_
    · obtain ⟨hself, hothers⟩ := RingBecomes.of_changes ⟨hself, hothers⟩ hchanges (by decide)
      exact ⟨hself, (hchanges.hpe_staged (by decide)).trans hstaged, hothers⟩
    · obtain ⟨hself, hothers⟩ := resetRing_becomes (ringKey t n) u
      exact ⟨rfl, rfl, rfl, rfl, ⟨hself, rfl, hothers⟩, resetRing_frame (Changes.refl _ u) (by decide)⟩
  case stopDone =>
    refine fun dt t n c => happens_of_effect (fun _ => rfl) (by decide) (by decide)
      fun s ⟨hprocessing, ht, hstate, htaken, hsop, hstop, hall⟩ => ⟨?_, ringStopDone_frame (Changes.refl _ s) (by decide)⟩
    have hstopping : Stopping (ringKey t n) c (ringOf s (ringKey t n)).aborts s := ⟨hstate, htaken, hstop, rfl⟩
    rw [ringStopDone_stopping hprocessing ht hsop hstopping]
    exact ringStopped_answers (abortRest_stopping _ hstopping) hall

end Sys2Proof.Proofs
end

section
/-! PROOFS. How host memory's responses are taken, good, in error or missing (R262, R298, R351, R386, R388): one rule per access that host
memory answers, and the statement from them. -/
namespace Sys2Proof.Proofs
open Sys2Proof.Machine Sys2Proof.Safety

/-! ## Responses for rings (R262) -/

theorem hpe_of_changes {l : List Part} {s t : State} (h : Changes l s t) (hhpe : Part.hpe ∉ l) (hreplies : Part.replies ∉ l) :
    t.hpe = s.hpe :=
  hpe_of_parts _ _ (h .replies hreplies) (h .hpe hhpe)

theorem hpeBusError_changes (k : Nat) (timeout : Bool) (s : State) : Changes errorParts s (hpeBusError k timeout s) :=
  hpeBusError_frame (Changes.refl _ s) (by decide)

/-- An entry whose one data write is answered is done: BUS_ERROR where the write failed. -/
def answeredEntry (bad : Bool) (e : RingEntry) : RingEntry :=
  { e with owed := false, bad, done := some (if bad then { e.cpl with status := 3 } else e.cpl) }

theorem settleEntry_answerOwed {e : RingEntry} (bad : Bool) (howed : e.owed = true) (hdone : e.done = none) :
    (answerOwed bad [e]).map (settleEntry (answerOwed bad [e])) = [answeredEntry bad e] := by
  simp [answerOwed, howed, settleEntry, hdone, answeredEntry]

/-- The one entry taken from a receive ring completes with the response to its data write. -/
theorem dataWritten_advances {n : Nat} {e : RingEntry} {s : State} (ok : Bool) (hn : n < 256) (hstate : (ringOf s n).state = 2)
    (htaken : (ringOf s n).taken = [e]) (howed : e.owed = true) (hdone : e.done = none) (hgood : e.fault = false) :
    advances n s (dataWritten n ok s) := by
  have heq : dataWritten n ok s = flushRing n (putRing n { ringOf s n with taken := [answeredEntry (!ok) e] } s) := by
    unfold dataWritten
    simp only [hstate, htaken, settleEntry_answerOwed _ howed hdone]
    exact if_neg (by simp [howed, hn])
  have hsame := ringOf_putRing_self n { ringOf s n with taken := [answeredEntry (!ok) e] } s
  rw [heq, flushRing_single (.inl (by rw [hsame]; exact hstate)) (by rw [hsame]) rfl]
  obtain ⟨hc, htakenAfter, hothers⟩ := completeEntry_advances (e := answeredEntry (!ok) e)
    (if !ok then { e.cpl with status := 3 } else e.cpl) hgood (congrArg Ring.taken hsame)
  rw [hsame] at hc
  exact ⟨hc, htakenAfter, fun j hj => (hothers j hj).trans (ringOf_putRing_ne _ _ hj)⟩

/-- The oldest completion write of a ring is answered: the next one is the oldest, or the ring is in ERROR. -/
theorem cplAnswered_done {k c w : Nat} {l : List (Nat × Nat)} {s : State} (bad timeout : Bool) (hback : (ringOf s k).back = (c, w) :: l)
    (herror : (ringOf s k).state ≠ 4) (hfrozen : (ringOf s k).state ≠ 5) :
    (bad = false → ringOf (cplAnswered k bad timeout s) k = { ringOf s k with back := l }) ∧
    (bad = true → inError k 7 (cplAnswered k bad timeout s)) := by
  have heq : cplAnswered k bad timeout s =
      if bad then ringError k 7 c timeout (putRing k { ringOf s k with c, w, back := [] } s)
      else putRing k { ringOf s k with back := l } s := by
    unfold cplAnswered
    simp [hback, herror, hfrozen]
  rw [heq]
  refine ⟨?_, ?_⟩
  · rintro rfl
    exact ringOf_putRing_self _ _ _
  · rintro rfl
    exact ringError_inError _ _ _ _ _

/-! ## Responses for batts, XDMA and the key store (R298, R351, R388) -/

theorem battFail_ends {r : BattRun} {s : State} (timeout : Bool) (hbusy : s.tel.battBusy = some r) (hnext : 32 < r.next) :
    (battFail timeout s).tel.battBusy = none ∧ (battFail timeout s).tel.battFailed = s.tel.battFailed + 1 := by
  unfold battFail
  rw [if_neg (by simp [hbusy, hnext])]
  have herror := fun code cls u => errorAt_frame (unit := 0x0D) (code := code) (inst := 0) (sev := sevMinor) (cls := cls) (d0 := 0)
    (d1 := 0) (Changes.refl errorParts u) (by decide)
  exact ⟨(herror _ _ _).tel_battBusy (by decide), (herror _ _ _).tel_battFailed (by decide)⟩

theorem xdmaAnswered_good {c : Nat} {s : State} (timeout : Bool) (hclocked : clocked s = true) (hfrozen : (xchan s c).state ≠ .frozen) :
    xdmaAnswered c false timeout s = putX c { xchan s c with begun := writeAnswered (xchan s c).begun } s := by
  unfold xdmaAnswered
  simp only [hclocked, hfrozen, Bool.true_eq_false, or_self, if_false, true_or, if_true]
  split <;> rfl

/-- The slots and their number once a change of the key store has taken effect (R388). -/
def storeChanged (q : StoreOp) (s : State) : State :=
  { s with hood := { s.hood with slots := changeSlots q.change s.hood.slots, storeSeq := s.hood.storeSeq + 1, storeB := !s.hood.storeB } }

/-- What the reply to a change of the key store, its record and the end of what rests on the key may change. -/
def storeEndParts : List Part := [.sessions, .ctr, .frc, .hostQueue, .replies, .pounce, .dbg, .hlk, .out]

/-- What follows a change of the store leaves the hood as it is, but for what a revoked issuer has delegated (R425). -/
theorem storeApplied_ends (q : StoreOp) (s : State) :
    ∃ t, Changes storeEndParts (storeChanged q s) t ∧ (storeApplied q s = t ∨ ∃ k, storeApplied q s = dropIssued k t) := by
  unfold storeApplied
  extract_lets blank hood s1 reply
  have hreply : ∀ b u, Changes storeEndParts s1 u → Changes storeEndParts s1 (reply b u) := by
    intro b u hu
    dsimp only [reply]
    split
    · exact answer_frame hu (by decide)
    · exact hu
  have hevent : ∀ k act, Changes storeEndParts s1 (keyEvent k act s1) := fun k act => keyEvent_frame (Changes.refl _ s1) (by decide)
  split
  next k x hchange =>
    extract_lets s2 s3
    have h3 : Changes storeEndParts s1 s3 := by
      unfold s3
      split
      · exact endKeySessions_frame (hreply _ _ (hevent k 0)) (by decide)
      · exact hreply _ _ (hevent k 0)
    refine ⟨_, ?_, .inl rfl⟩
    split
    · exact closeLevel_frame h3 (by decide)
    · exact h3
  next k hchange => exact ⟨_, endKeySessions_frame (hreply _ _ (hevent k 1)) (by decide), .inr ⟨k, rfl⟩⟩
  next hchange => exact ⟨_, hreply _ _ (Changes.refl _ s1), .inl rfl⟩

theorem storeApplied_slots (q : StoreOp) (s : State) :
    (storeApplied q s).hood.store = s.hood.store ∧ (storeApplied q s).hood.slots = changeSlots q.change s.hood.slots ∧
      (storeApplied q s).hood.storeSeq = s.hood.storeSeq + 1 := by
  obtain ⟨t, ht, hend⟩ := storeApplied_ends q s
  have hhood : t.hood = (storeChanged q s).hood := ht.hood (by decide)
  rcases hend with heq | ⟨k, heq⟩
  · rw [heq, hhood]
    exact ⟨rfl, rfl, rfl⟩
  · rw [heq]
    unfold dropIssued
    rw [hhood]
    exact ⟨rfl, rfl, rfl⟩

/-- The oldest write to the key store is no longer outstanding. -/
def storeTaken (l : List StoreOp) (s : State) : State := { s with hood := { s.hood with store := l } }

section Store
variable {q : StoreOp} {l : List StoreOp} {s : State} (timeout : Bool) (hstore : s.hood.store = q :: l)
include hstore

theorem storeAnswered_good : storeAnswered false timeout s = storeApplied q (storeTaken l s) := by
  unfold storeAnswered
  rw [hstore]
  rfl

/-- A write that fails changes no slot, and its command is answered INTERNAL_ERROR. -/
theorem storeAnswered_bad : (storeAnswered true timeout s).hood = (storeTaken l s).hood ∧
    ∀ c, q.ctx = some c → ∃ r, Output.reply c.origin r ∈ (storeAnswered true timeout s).out ∧ r.status = stInternal := by
  unfold storeAnswered
  rw [hstore]
  dsimp only
  rw [if_neg (by decide)]
  have hnoted : ∀ code cls, (errorAt 0x12 code 0 sevMinor cls 0 0 (storeTaken l s)).hood = (storeTaken l s).hood := fun code cls =>
    (errorAt_frame (Changes.refl errorParts _) (by decide)).hood (by decide)
  split
  next c hctx =>
    refine ⟨((answer_changes _ _ _ _ _).hood (by decide)).trans (hnoted _ _), fun c' hc' => ?_⟩
    obtain rfl : c = c' := Option.some.inj (hctx.symm.trans hc')
    exact ⟨_, answer_out (.inr (by decide)) (.inr (by decide)), (mkReply_fields _ _ _ _ _).2.1⟩
  next hctx => exact ⟨hnoted _ _, fun c hc => absurd (hctx.symm.trans hc) nofun⟩

end Store

/-! ## The statement -/

/-- Each access is done as its response arrives, good, in error or missing. -/
theorem hostAnswered_done (a : HostAccess) (bad timeout : Bool) (s : State) : hostAccessDone a bad s (hostAnswered a bad timeout s) := by
  cases a with
  | descRead t n =>
    refine ⟨?_, ?_⟩
    · rintro rfl
      rfl
    · rintro rfl hstate
      have herror : hostAnswered (.descRead t n) true timeout s =
          ringError (ringKey t n) 6 (ringOf s (ringKey t n)).next timeout s := if_pos ⟨rfl, hstate⟩
      rw [herror]
      exact ringError_inError _ _ _ _ _
  | dataRead t n =>
    have hsame := hpe_of_changes (hpeBusError_changes (ringKey t n) timeout s) (by decide) (by decide)
    show (hostAnswered (.dataRead t n) bad timeout s).hpe = s.hpe
    unfold hostAnswered
    dsimp only
    split
    · exact hsame
    · rfl
  | dataWrite t n =>
    rintro e rfl hn hstate htaken howed hdone hgood
    have hkey : ringKey 0 n = n := by simp [ringKey]
    let u := if bad then hpeBusError n timeout s else s
    have hu : Changes errorParts s u := by
      unfold u
      split
      · exact hpeBusError_changes _ _ _
      · exact Changes.refl _ _
    have hring : ringOf u n = ringOf s n := ringOf_of_changes hu (by decide) n
    have heq : hostAnswered (.dataWrite 0 n) bad timeout s = dataWritten n (!bad) u := by
      unfold hostAnswered
      simp [hkey, hstate, u]
    rw [heq]
    obtain ⟨hc, htakenAfter, -⟩ := advances_before hu (by decide) (by decide)
      (dataWritten_advances (!bad) hn (by rw [hring]; exact hstate) (by rw [hring]; exact htaken) howed hdone hgood)
    exact ⟨htakenAfter, hc⟩
  | cplWrite t n => exact fun c w l hback herror hfrozen => cplAnswered_done bad timeout hback herror hfrozen
  | battWrite =>
    rintro r hbusy hnext rfl
    exact battFail_ends timeout hbusy hnext
  | xdma c =>
    rintro hclocked hfrozen rfl
    exact congrArg State.xdma (xdmaAnswered_good timeout hclocked hfrozen)
  | storeWrite =>
    intro q l hstore
    cases bad
    case false =>
      obtain ⟨hleft, hslots, hseq⟩ := storeApplied_slots q (storeTaken l s)
      rw [← storeAnswered_good timeout hstore] at hleft hslots hseq
      exact ⟨hleft, fun _ => ⟨hslots, hseq⟩, nofun⟩
    case true =>
      obtain ⟨hhood, hanswered⟩ := storeAnswered_bad timeout hstore
      exact ⟨congrArg Hood.store hhood, nofun, fun _ => ⟨(congrArg Hood.slots hhood :), hanswered⟩⟩
  | imageRead =>
    show (hostAnswered .imageRead bad timeout s).hood = s.hood
    unfold hostAnswered
    dsimp only
    split
    · exact (errorAt_frame (Changes.refl errorParts s) (by decide)).hood (by decide)
    · rfl

theorem masterResponse_unperturbed {a : HostAccess} {bad : Bool} {s : State} (hclocked : clocked s = true) (hpounce : s.dbg.pounce = []) :
    masterResponse a bad s = hostAnswered a bad false s := by
  unfold masterResponse
  simp [hclocked, pounceFires_of_none hpounce]

/-- Settles O26: it holds, access by access; a response that is missing for 64 µs is taken as one in error. -/
theorem hostResponsesAreTaken : Obligations.HostResponsesAreTaken := by
  unfold Obligations.HostResponsesAreTaken
  refine ⟨?response, ?timeout⟩
  case response =>
    refine fun dt a bad => happens_of_effect (fun _ => rfl) (by decide) (by decide) fun s ⟨hclocked, hpounce⟩ => ?_
    rw [masterResponse_unperturbed hclocked hpounce]
    exact ⟨hostAnswered_done a bad false s, hostAnswered_frame (Changes.refl _ s) (by decide)⟩
  case timeout =>
    refine fun dt a => happens_of_effect (fun _ => rfl) (by decide) (by decide) fun s hclocked => ?_
    have heq : responseTimeout a s = hostAnswered a true true s := if_pos hclocked
    rw [heq]
    exact ⟨hostAnswered_done a true true s, hostAnswered_frame (Changes.refl _ s) (by decide)⟩

end Sys2Proof.Proofs
end

section
/-! PROOFS. Interrupt targets (11 R274 to R278): what a target's record reads after each operation on it, then one rule per case of CLAIM and
of COMPLETE, and the statement from them. -/
namespace Sys2Proof.Proofs
open Sys2Proof.Machine Sys2Proof.Safety

/-! ## A target's record -/

@[simp] theorem target_putTarget_self (n : Nat) (x : TgtSt) (s : State) : target (putTarget n x s) n = x := tgetD_tput_self _ _ _ _

theorem target_putTarget_ne {n k : Nat} (x : TgtSt) (s : State) (h : k ≠ n) : target (putTarget n x s) k = target s k :=
  tgetD_tput_ne _ _ _ _ _ h

@[simp] theorem target_sypOk (v : Nat) (s : State) (k : Nat) : target (sypOk v s) k = target s k := rfl

theorem target_of_changes {l : List Part} {s t : State} (h : Changes l s t) (hjic : Part.jic ∉ l) (k : Nat) : target t k = target s k := by
  unfold target
  rw [h.jic_targets hjic]

@[simp] theorem target_tally (c : Nat) (s : State) (k : Nat) : target (tally c s) k = target s k :=
  target_of_changes (tally_frame (Changes.refl [.ctr] s) (by decide)) (by decide) k

@[simp] theorem target_clearEvent (m : Nat) (s : State) (k : Nat) : target (clearEvent m s) k = target s k :=
  target_of_changes (clearEvent_frame (Changes.refl [.levels] s) (by decide)) (by decide) k

/-- The owner of a target has its request for the target's page carried out (R268). -/
theorem atTarget_reaches {a n : Nat} {f : State → State} {s : State} (h : reaches a n s) : atTarget a n f s = f s := by
  obtain ⟨hclocked, hn, ⟨b, hcfg, howner⟩, hfrozen, hstage, hzeroized⟩ := h
  unfold atTarget
  simp [hclocked, hn, hcfg, howner, hfrozen, hstage, hzeroized]

/-! ## CLAIM (R274, R276) -/

section Claim
variable (n : Nat) (s : State)

/-- The count of a vanish at the claim touches neither the stack nor the presented source, and no other target. -/
theorem target_countVanish :
    (target (countVanish n s) n).stack = (target s n).stack ∧ (target (countVanish n s) n).presented = (target s n).presented ∧
      ∀ k, k ≠ n → target (countVanish n s) k = target s k := by
  unfold countVanish
  extract_lets x
  split
  · exact ⟨rfl, rfl, fun _ _ => rfl⟩
  · simp only [target_tally, target_putTarget_self]
    exact ⟨rfl, rfl, fun k hk => target_putTarget_ne _ s hk⟩

theorem sourceCfg_countVanish (m : Nat) : sourceCfg (countVanish n s) m = sourceCfg s m := by
  unfold sourceCfg
  rw [(countVanish_frame (Changes.refl [.jic, .ctr] s) (by decide)).cfg (by decide)]

/-- The source that is taken is on top of the stack with its priority; nothing is presented to the target any more. -/
theorem target_takeSource (m : Nat) :
    target (takeSource n m s) n =
        { target s n with presented := none, stack := (m, (sourceCfg s m).priority) :: (target s n).stack, wakeReq := false, irqOut := false } ∧
      ∀ k, k ≠ n → target (takeSource n m s) k = target s k := by
  unfold takeSource
  extract_lets b x s1 jic s2
  have htaken : target s2 n = { x with presented := none, stack := (m, b.priority) :: x.stack, wakeReq := false, irqOut := false } ∧
      ∀ k, k ≠ n → target s2 k = target s k := ⟨target_putTarget_self _ _ _, fun k hk => target_putTarget_ne _ s hk⟩
  split
  · simp only [target_clearEvent]
    exact htaken
  · exact htaken

variable {n s}

theorem claimRead_presented {m l : Nat} (h : (target s n).presented = some (m, l)) :
    claimRead n s = sypOk ((sourceCfg s m).priority * 4096 + m) (takeSource n m (countVanish n s)) := by
  obtain ⟨-, hpresented, -⟩ := target_countVanish n s
  unfold claimRead
  simp only [hpresented, h, sourceCfg_countVanish]

theorem claimRead_empty (h : (target s n).presented = none) :
    claimRead n s = sypOk 0xFFF (tally (irqClaimsEmptyCtr n) (countVanish n s)) := by
  obtain ⟨-, hpresented, -⟩ := target_countVanish n s
  unfold claimRead
  simp only [hpresented, h]

end Claim

/-! ## COMPLETE (R277, R278) -/

/-- The source on top of a stack, as a refused COMPLETE reports it: 0xFFF for an empty stack (log 40). -/
def stackTop (stack : List (Nat × Nat)) : Nat :=
  match stack with
  | (m, _) :: _ => m
  | [] => 0xFFF

/-- The write of COMPLETE is answered, and the fault held for CPX. -/
def faultShown (n m : Nat) (s : State) : State :=
  sypOk 0 { s with jic := { s.jic with fault := some (n, m, stackTop (target s n).stack) } }

/-- What a refused COMPLETE leaves before its error is recorded: the fault shown and counted, 0xFE0 raised. -/
def faultHeld (n m : Nat) (s : State) : State := raiseEvent 0xFE0 (tally (irqCompleteFaultsCtr n) (faultShown n m s))

/-- An event that occurs leaves the targets and the fault that is held as they are. -/
theorem raiseEvent_targets_fault (e : Nat) (s : State) :
    (raiseEvent e s).jic.targets = s.jic.targets ∧ (raiseEvent e s).jic.fault = s.jic.fault :=
  have hlevel : Changes [.levels] s (setLevel e true s) := setLevel_frame (Changes.refl _ s) (by decide)
  ⟨hlevel.jic_targets (by decide), hlevel.jic_fault (by decide)⟩

section Complete
variable {n m : Nat} {s : State}

theorem completeWrite_top {p : Nat} {r : List (Nat × Nat)} (h : (target s n).stack = (m, p) :: r) :
    completeWrite n m s = putTarget n { target s n with stack := r } (sypOk 0 s) := by
  unfold completeWrite
  simp [h]

theorem completeWrite_refused (h : ∀ p r, (target s n).stack ≠ (m, p) :: r) :
    completeWrite n m s = errorAt 0x0C 0x0C02 n sevMinor clsInput m (stackTop (target s n).stack) (faultHeld n m s) := by
  unfold completeWrite faultHeld faultShown
  dsimp only
  split
  next k p r hstack =>
    have hother : k ≠ m := fun hkm => h p r (hkm ▸ hstack)
    rw [if_neg hother, hstack]
    rfl
  next hstack =>
    rw [hstack]
    rfl

theorem clocked_faultHeld : clocked (faultHeld n m s) = clocked s := by
  have hheld : Changes [.levels, .jic, .ctr] (faultShown n m s) (faultHeld n m s) :=
    raiseEvent_frame (tally_frame (Changes.refl _ _) (by decide)) (by decide)
  rw [clocked_of_changes hheld (by decide) (by decide)]
  rfl

theorem faultHeld_answered : Output.sypAnswer false 0 ∈ (faultHeld n m s).out := by
  unfold faultHeld
  rw [raiseEvent_out, tally_out]
  exact mem_out_emit _ _

theorem faultHeld_jic :
    (faultHeld n m s).jic.targets = s.jic.targets ∧ (faultHeld n m s).jic.fault = some (n, m, stackTop (target s n).stack) :=
  have ⟨htargets, hfault⟩ := raiseEvent_targets_fault 0xFE0 (tally (irqCompleteFaultsCtr n) (faultShown n m s))
  have hcounted : Changes [.ctr] (faultShown n m s) _ := tally_frame (k := irqCompleteFaultsCtr n) (Changes.refl _ _) (by decide)
  ⟨htargets.trans (hcounted.jic_targets (by decide)), hfault.trans (hcounted.jic_fault (by decide))⟩

theorem completeWrite_refused_changes (h : ∀ p r, (target s n).stack ≠ (m, p) :: r) :
    Changes errorParts (faultHeld n m s) (completeWrite n m s) := by
  rw [completeWrite_refused h]
  exact errorAt_frame (Changes.refl _ _) (by decide)

theorem completeWrite_refused_raises (hclocked : clocked s = true) (h : ∀ p r, (target s n).stack ≠ (m, p) :: r) :
    raises 0x0C 0x0C02 sevMinor (faultHeld n m s) (completeWrite n m s) := by
  rw [completeWrite_refused h]
  exact errorAt_raises (clocked_faultHeld.trans hclocked) (by decide)

end Complete

/-! ## The statement -/

/-- Settles O13: it holds, clause by clause from the rules above. That a COMPLETE refused with an empty stack holds 0xFFF as the top of the
stack is the model's choice (log 40). -/
theorem claimAndCompleteKeepTheStack : Obligations.ClaimAndCompleteKeepTheStack := by
  unfold Obligations.ClaimAndCompleteKeepTheStack
  refine ⟨?taken, ?empty, ?popped, ?refused⟩
  case taken =>
    refine fun dt a n m l => happens_of_effect (fun _ => rfl) (by decide) (by decide) fun s ⟨hreaches, hpresented⟩ => ?_
    rw [atTarget_reaches hreaches]
    refine ⟨?_, claimRead_frame (Changes.refl _ s) (by decide)⟩
    obtain ⟨hstack, -, hothers⟩ := target_countVanish n s
    obtain ⟨htaken, hkept⟩ := target_takeSource n (countVanish n s) m
    rw [claimRead_presented hpresented]
    simp only [target_sypOk, htaken, hstack, sourceCfg_countVanish, true_and]
    exact ⟨mem_out_emit _ _, fun k hk => (hkept k hk).trans (hothers k hk)⟩
  case empty =>
    refine fun dt a n => happens_of_effect (fun _ => rfl) (by decide) (by decide) fun s ⟨hreaches, hnone⟩ => ?_
    obtain ⟨hstack, -, hothers⟩ := target_countVanish n s
    rw [atTarget_reaches hreaches, claimRead_empty hnone]
    simp only [target_sypOk, target_tally]
    exact ⟨⟨hstack, mem_out_emit _ _, hothers⟩,
      sypOk_frame (tally_frame (countVanish_frame (Changes.refl _ s) (by decide)) (by decide)) (by decide)⟩
  case popped =>
    refine fun dt a n m p r => happens_of_effect (fun _ => rfl) (by decide) (by decide) fun s ⟨hreaches, htop⟩ => ?_
    rw [atTarget_reaches hreaches, completeWrite_top htop]
    exact ⟨⟨target_putTarget_self _ _ _, mem_out_emit _ _, fun k hk => target_putTarget_ne _ _ hk⟩,
      putTarget_frame (sypOk_frame (Changes.refl _ s) (by decide)) (by decide)⟩
  case refused =>
    refine fun dt a n m => happens_of_effect (fun _ => rfl) (by decide) (by decide) fun s ⟨hreaches, hnot⟩ => ?_
    rw [atTarget_reaches hreaches]
    refine ⟨?_, completeWrite_frame (Changes.refl _ s) (by decide)⟩
    obtain ⟨hclocked, -⟩ := hreaches
    obtain ⟨htargets, hfault⟩ := faultHeld_jic (n := n) (m := m % 4096) (s := s)
    have herror := completeWrite_refused_changes hnot
    obtain ⟨hcode, -⟩ := completeWrite_refused_raises hclocked hnot
    exact ⟨(herror.jic_targets (by decide)).trans htargets, (herror.out (by decide)).symm ▸ faultHeld_answered,
      (herror.jic_fault (by decide)).trans hfault, hcode⟩

end Sys2Proof.Proofs
end

section
/-! PROOFS. Upkeep of side memory (13 R306, R315 to R317, R320 to R322): what a rank and a channel read after each operation on them, then
one rule per case of each upkeep operation, and the statement from them. -/
namespace Sys2Proof.Proofs
open Sys2Proof.Machine Sys2Proof.Safety

/-! ## A rank's and a channel's record -/

/-- From `s` to `t` rank `r` becomes `x`, and no other rank changes. -/
def RankBecomes (r : Nat) (x : RankInfo) (s t : State) : Prop := rankOf t r = x ∧ ∀ j, j ≠ r → rankOf t j = rankOf s j

/-- From `s` to `t` channel `c` becomes `x`, and no other channel changes. -/
def ChanBecomes (c : Nat) (x : ChanInfo) (s t : State) : Prop := chanOf t c = x ∧ ∀ j, j ≠ c → chanOf t j = chanOf s j

@[simp] theorem rankOf_putRank_self (r : Nat) (x : RankInfo) (s : State) : rankOf (putRank r x s) r = x := tgetD_tput_self _ _ _ _

theorem rankOf_putRank_ne {r j : Nat} (x : RankInfo) (s : State) (h : j ≠ r) : rankOf (putRank r x s) j = rankOf s j :=
  tgetD_tput_ne _ _ _ _ _ h

@[simp] theorem chanOf_putChan_self (c : Nat) (x : ChanInfo) (s : State) : chanOf (putChan c x s) c = x := tgetD_tput_self _ _ _ _

theorem chanOf_putChan_ne {c j : Nat} (x : ChanInfo) (s : State) (h : j ≠ c) : chanOf (putChan c x s) j = chanOf s j :=
  tgetD_tput_ne _ _ _ _ _ h

@[simp] theorem rankOf_putChan (c : Nat) (x : ChanInfo) (s : State) (j : Nat) : rankOf (putChan c x s) j = rankOf s j := rfl

@[simp] theorem rankOf_emit (o : Output) (s : State) (j : Nat) : rankOf (emit o s) j = rankOf s j := rfl

theorem rankBecomes_putRank (r : Nat) (x : RankInfo) (s : State) : RankBecomes r x s (putRank r x s) :=
  ⟨rankOf_putRank_self r x s, fun _ hj => rankOf_putRank_ne x s hj⟩

theorem chanBecomes_putChan (c : Nat) (x : ChanInfo) (s : State) : ChanBecomes c x s (putChan c x s) :=
  ⟨chanOf_putChan_self c x s, fun _ hj => chanOf_putChan_ne x s hj⟩

theorem putChan_changes (c : Nat) (x : ChanInfo) (s : State) : Changes [.smc] s (putChan c x s) :=
  putChan_frame (Changes.refl _ s) (by decide)

section Kept
variable {l : List Part} {s t u : State} (h : Changes l t u) (hsmc : Part.smc ∉ l)
include h hsmc

theorem rankOf_of_changes (j : Nat) : rankOf u j = rankOf t j := by
  unfold rankOf
  rw [h.smc_ranks hsmc]

theorem chanOf_of_changes (j : Nat) : chanOf u j = chanOf t j := by
  unfold chanOf
  rw [h.smc_chans hsmc]

theorem ChanBecomes.after {c : Nat} {x : ChanInfo} (hbecomes : ChanBecomes c x s t) : ChanBecomes c x s u :=
  ⟨(chanOf_of_changes h hsmc c).trans hbecomes.1, fun j hj => (chanOf_of_changes h hsmc j).trans (hbecomes.2 j hj)⟩

end Kept

/-- A row that does no more than write a channel. -/
theorem happens_putChan {i : Instr} {dt c : Nat} {f : State → State} {pre : State → Prop} {x : State → ChanInfo}
    (hexec : ∀ s, exec i s = happen dt f s) (hwrites : ∀ s, pre s → f s = putChan c (x s) s) :
    Happens i dt pre [.smc] (fun s t => ChanBecomes c (x s) s t) :=
  happens_of_effect hexec (by decide) (by decide) fun s hs =>
    (hwrites s hs).symm ▸ ⟨chanBecomes_putChan c _ s, putChan_changes c _ s⟩

/-! ## BOOT's end of side memory (R306) -/

theorem zeroFillDone_fills {s : State} (hclocked : clocked s = true) (hpresent : s.smc.present = true) (hfilled : s.smc.filled = false) :
    zeroFillDone s = { s with smc := { s.smc with
      filled := true, chans := tmap s.smc.chans (fun _ c => if c.state = .init then { c with state := .inService } else c) } } := by
  unfold zeroFillDone
  rw [if_neg (by simp [hclocked, hpresent, hfilled])]

theorem dfiTimeout_late {c : Nat} {s : State} (hclocked : clocked s = true) (hpresent : s.smc.present = true)
    (hfilled : s.smc.filled = false) (hinit : (chanOf s c).state = .init) (hlate : ms 10 ≤ s.tsu.now) :
    (dfiTimeout c s).smc.present = false ∧ (dfiTimeout c s).smc.table = [] := by
  unfold dfiTimeout
  rw [if_neg (by simp [hclocked, hpresent, hfilled, hinit, hlate])]
  exact ⟨rfl, rfl⟩

/-! ## Refresh (R316, R317) -/

/-- A rank at the end of a refresh interval: its hits and its use are those of the next. -/
def nextInterval (x : RankInfo) : RankInfo := { x with hits := [], used := false }

/-- A rank to which a refresh goes. -/
def refreshed (x : RankInfo) : RankInfo :=
  { nextInterval x with acts := [], raa := tmap x.raa (fun _ n => n - Config.raaDecrement) }

section Refresh
variable {c k : Nat} {s : State}

theorem refreshDue_others {j : Nat} (hj : j ≠ c * 2 + k) : rankOf (refreshDue c k s) j = rankOf s j := by
  unfold refreshDue
  dsimp only
  split_ifs <;> simp only [rankOf_emit, rankOf_putChan, rankOf_putRank_ne _ s hj]

variable (hclocked : clocked s = true) (hup : smcUp s = true) (hfitted : (rankOf s (c * 2 + k)).state ≠ .absent)
  (hawake : (rankOf s (c * 2 + k)).selfRefresh = false)
include hclocked hup hfitted hawake

theorem refresh_runs : ¬ (clocked s = false ∨ smcUp s = false ∨ (rankOf s (c * 2 + k)).state = .absent ∨
    (rankOf s (c * 2 + k)).selfRefresh = true) := by
  simp [hclocked, hup, hfitted, hawake]

theorem refreshDue_sends (hcalm : frcUrgent s = false) : ∃ n, refreshDue c k s = emit (.dfi c k .refresh)
    (putRank (c * 2 + k) { refreshed (rankOf s (c * 2 + k)) with owed := (rankOf s (c * 2 + k)).owed - 1, ahead := n } s) := by
  unfold refreshDue
  dsimp only
  rw [if_neg (refresh_runs hclocked hup hfitted hawake), if_pos hcalm]
  exact ⟨_, rfl⟩

theorem refreshDue_pulledIn (hurgent : frcUrgent s = true) (hahead : 0 < (rankOf s (c * 2 + k)).ahead) : refreshDue c k s =
    putRank (c * 2 + k) { nextInterval (rankOf s (c * 2 + k)) with ahead := (rankOf s (c * 2 + k)).ahead - 1 } s := by
  unfold refreshDue
  dsimp only
  rw [if_neg (refresh_runs hclocked hup hfitted hawake), if_neg (by simp [hurgent]), if_pos hahead]
  rfl

theorem refreshDue_postpones (hurgent : frcUrgent s = true) (hahead : (rankOf s (c * 2 + k)).ahead = 0)
    (hroom : (rankOf s (c * 2 + k)).owed + 1 < 9) : ∃ y, refreshDue c k s = putChan c y
      (putRank (c * 2 + k) { nextInterval (rankOf s (c * 2 + k)) with owed := (rankOf s (c * 2 + k)).owed + 1 } s) := by
  unfold refreshDue
  dsimp only
  rw [if_neg (refresh_runs hclocked hup hfitted hawake), if_neg (by simp [hurgent]), if_neg (by omega), if_pos hroom]
  exact ⟨_, rfl⟩

theorem refreshDue_forces (hurgent : frcUrgent s = true) (hahead : (rankOf s (c * 2 + k)).ahead = 0)
    (hnine : 9 ≤ (rankOf s (c * 2 + k)).owed + 1) : refreshDue c k s =
      putChan c { chanOf s c with owedMax := 9, refForced := (chanOf s c).refForced + 1 } (emit (.dfi c k .refresh)
        (putRank (c * 2 + k) { refreshed (rankOf s (c * 2 + k)) with owed := 0 } s)) := by
  unfold refreshDue
  dsimp only
  rw [if_neg (refresh_runs hclocked hup hfitted hawake), if_neg (by simp [hurgent]), if_neg (by omega), if_neg (by omega)]
  rfl

end Refresh

/-! ## Self-refresh, temperature, training and PHY updates (R321, R322) -/

theorem mr4Poll_reads {c m : Nat} {s : State} (hclocked : clocked s = true) :
    mr4Poll c m s = putChan c { chanOf s c with mr4 := m % 256 } s := if_pos hclocked

theorem selfRefreshEntry_enters {c k : Nat} {s : State} (hclocked : clocked s = true) (hup : smcUp s = true)
    (howed : (rankOf s (c * 2 + k)).owed = 0) (hidle : (rankOf s (c * 2 + k)).lastUse + us 10 ≤ s.tsu.now) :
    selfRefreshEntry c k s = emit (.dfi c k (.selfRefresh true))
      (putRank (c * 2 + k) { rankOf s (c * 2 + k) with selfRefresh := true } s) :=
  if_neg (by simp [hclocked, hup, howed, hidle])

theorem retrainWindow_opens {c : Nat} {s : State} (hclocked : clocked s = true) (hup : smcUp s = true)
    (hdue : (chanOf s c).windowAt + ms 100 ≤ s.tsu.now) (hfirst : (rankOf s (c * 2)).owed < 4)
    (hsecond : (rankOf s (c * 2 + 1)).owed < 4) : retrainWindow c s = putChan c { chanOf s c with windowAt := s.tsu.now } s :=
  if_neg (by simp [hclocked, hup, hdue, hfirst, hsecond])

section PhyUpdate
variable {c n w : Nat} {s : State} (hclocked : clocked s = true) (hpresent : s.smc.present = true)
include hclocked hpresent

theorem phyUpdate_taken (htaken : n ≤ 2000 ∨ modeCode s = 8) : phyUpdate c n w s = putChan c { chanOf s c with phyLate := false } s := by
  unfold phyUpdate
  rw [if_neg (by simp [hclocked, hpresent]), if_pos htaken]

variable (hlong : 2000 < n) (hmode : modeCode s ≠ 8)
include hlong hmode

theorem phyUpdate_waits (hwait : w < 100000000) : phyUpdate c n w s = putChan c { chanOf s c with phyLate := true } s := by
  unfold phyUpdate
  rw [if_neg (by simp [hclocked, hpresent]), if_neg (by omega)]
  exact if_neg (by omega)

theorem phyUpdate_raises (hwait : 100000000 ≤ w) : phyUpdate c n w s =
    errorAt 0x0E 0x0E01 (c * 2) sevMinor clsInput n 0 (putChan c { chanOf s c with phyLate := true } s) := by
  unfold phyUpdate
  rw [if_neg (by simp [hclocked, hpresent]), if_neg (by omega)]
  exact if_pos hwait

end PhyUpdate

/-! ## The end of a throttle (R320) -/

/-- Where the throttle of requester `q` for a bank of rank `r` stands. -/
def throttleKey (q r b : Nat) : Nat := q * 65536 + r * 256 + b

theorem throttleExpiry_due {c k b q e : Nat} {s : State} (hthrottle : tget s.smc.throttle (throttleKey q (c * 2 + k) b) = some e)
    (hdue : e ≤ s.tsu.now) : throttleExpiry c k b q s =
      { s with smc := { s.smc with throttle := tdel s.smc.throttle (throttleKey q (c * 2 + k) b) } } := by
  unfold throttleKey at *
  unfold throttleExpiry
  simp [hthrottle, hdue]

/-! ## The statement -/

/-- Settles O54: it holds, clause by clause from the rules above. -/
theorem sideMemoryIsMaintained : Obligations.SideMemoryIsMaintained := by
  unfold Obligations.SideMemoryIsMaintained
  refine ⟨?filled, ?initTimeout, ?refresh, ?mr4, ?selfRefresh, ?window, ?phyTaken, ?phyWaits, ?phyError, ?throttle⟩
  case filled =>
    refine fun dt => happens_of_effect (fun _ => rfl) (by decide) (by decide) fun s ⟨hclocked, hpresent, hfilled⟩ =>
      ⟨?_, zeroFillDone_frame (Changes.refl _ s) (by decide)⟩
    rw [zeroFillDone_fills hclocked hpresent hfilled]
    exact ⟨rfl, rfl, rfl⟩
  case initTimeout =>
    exact fun dt c => happens_of_effect (fun _ => rfl) (by decide) (by decide) fun s ⟨hclocked, hpresent, hfilled, hinit, hlate⟩ =>
      ⟨dfiTimeout_late hclocked hpresent hfilled hinit hlate, dfiTimeout_frame (Changes.refl _ s) (by decide)⟩
  case refresh =>
    refine fun dt c k => happens_of_effect (fun _ => rfl) (by decide) (by decide) fun s ⟨hclocked, hup, hfitted, hawake⟩ =>
      ⟨⟨fun j hj => refreshDue_others hj, fun hcalm => ?_, fun hurgent hahead => ?_, fun hurgent hahead hroom => ?_,
        fun hurgent hahead hnine => ?_⟩, refreshDue_frame (Changes.refl _ s) (by decide)⟩
    · obtain ⟨n, heq⟩ := refreshDue_sends hclocked hup hfitted hawake hcalm
      rw [heq, rankOf_emit, rankOf_putRank_self]
      exact ⟨rfl, mem_out_emit _ _⟩
    · rw [refreshDue_pulledIn hclocked hup hfitted hawake hurgent hahead, rankOf_putRank_self]
      exact ⟨rfl, rfl⟩
    · obtain ⟨y, heq⟩ := refreshDue_postpones hclocked hup hfitted hawake hurgent hahead hroom
      rw [heq, rankOf_putChan, rankOf_putRank_self]
    · rw [refreshDue_forces hclocked hup hfitted hawake hurgent hahead hnine, rankOf_putChan, rankOf_emit, rankOf_putRank_self,
        chanOf_putChan_self]
      exact ⟨rfl, rfl, mem_out_emit _ _⟩
  case mr4 => exact fun dt c k m => happens_putChan (fun _ => rfl) fun s hclocked => mr4Poll_reads hclocked
  case selfRefresh =>
    refine fun dt c k => happens_of_effect (fun _ => rfl) (by decide) (by decide) fun s ⟨hclocked, hup, howed, hidle⟩ =>
      ⟨?_, selfRefreshEntry_frame (Changes.refl _ s) (by decide)⟩
    rw [selfRefreshEntry_enters hclocked hup howed hidle]
    obtain ⟨hrank, hothers⟩ := rankBecomes_putRank (c * 2 + k) { rankOf s (c * 2 + k) with selfRefresh := true } s
    exact ⟨hrank, mem_out_emit _ _, hothers⟩
  case window =>
    exact fun dt c => happens_putChan (fun _ => rfl) fun s ⟨hclocked, hup, hdue, hfirst, hsecond⟩ =>
      retrainWindow_opens hclocked hup hdue hfirst hsecond
  case phyTaken =>
    exact fun dt c n w => happens_putChan (fun _ => rfl) fun s ⟨hclocked, hpresent, htaken⟩ => phyUpdate_taken hclocked hpresent htaken
  case phyWaits =>
    exact fun dt c n w => happens_putChan (fun _ => rfl) fun s ⟨hclocked, hpresent, hlong, hmode, hwait⟩ =>
      phyUpdate_waits hclocked hpresent hlong hmode hwait
  case phyError =>
    refine fun dt c n w => happens_of_effect (fun _ => rfl) (by decide) (by decide) fun s ⟨hclocked, hpresent, hlong, hmode, hwait⟩ =>
      ⟨?_, phyUpdate_frame (Changes.refl _ s) (by decide)⟩
    rw [phyUpdate_raises hclocked hpresent hlong hmode hwait]
    exact errorAt_raises (s := putChan c _ s) hclocked (by decide)
  case throttle =>
    refine fun dt c k b q e => happens_of_effect (fun _ => rfl) (by decide) (by decide) fun s ⟨hthrottle, hdue⟩ =>
      ⟨?_, throttleExpiry_frame (Changes.refl _ s) (by decide)⟩
    rw [throttleExpiry_due hthrottle hdue]
    exact ⟨tget_tdel_self _ _, fun j hj => tget_tdel_ne _ _ j hj⟩

end Sys2Proof.Proofs
end

section
/-! PROOFS. Migration of a rank, full training of a channel and scrubbing (13 R310 to R313, R319, R323 to R325): one rule per case of each
operation, and the statement from them. -/
namespace Sys2Proof.Proofs
open Sys2Proof.Machine Sys2Proof.Safety

/-! ## A migration begins (R325) -/

/-- A channel that is marked leaves everything else of side memory. -/
theorem markChan_smc (c : Nat) (x : ChanSt) (s : State) :
    (markChan c x s).smc = { s.smc with chans := (markChan c x s).smc.chans } := by
  unfold markChan
  dsimp only
  split <;> rfl

section MarkChan
variable (c : Nat) (x : ChanSt) (s : State)

@[simp] theorem markChan_ranks : (markChan c x s).smc.ranks = s.smc.ranks := by rw [markChan_smc]
@[simp] theorem markChan_table : (markChan c x s).smc.table = s.smc.table := by rw [markChan_smc]
@[simp] theorem markChan_migration : (markChan c x s).smc.migration = s.smc.migration := by rw [markChan_smc]
@[simp] theorem rankOf_markChan (j : Nat) : rankOf (markChan c x s) j = rankOf s j := by simp [rankOf]

end MarkChan

/-- What a state holds once the migration of rank `r` to the spare `sp` has begun. -/
structure MigrationBegun (r sp : Nat) (s t : State) : Prop where
  migration : t.smc.migration = some { logical := s.smc.table.findIdx (fun x => x = r), src := r, dst := sp }
  spare : (rankOf t sp).state = .migratingTo
  source : (rankOf t r).state = .migratingFrom
  table : t.smc.table = s.smc.table
  others : ∀ j, j ≠ sp → j ≠ r → rankOf t j = rankOf s j

theorem startMigration_begins {r sp : Nat} (hne : sp ≠ r) (s : State) : MigrationBegun r sp s (startMigration r sp s) := by
  have hranks : ∀ j, rankOf (startMigration r sp s) j =
      rankOf (putRank sp { rankOf s sp with state := .migratingTo }
        (putRank r { rankOf s r with state := .migratingFrom, failing := true } s)) j := fun j => by
    unfold startMigration
    simp only [rankOf_markChan]
    rfl
  refine ⟨?_, ?_, ?_, ?_, fun j hsp hr => ?_⟩
  · simp only [startMigration, markChan_migration]
  · rw [hranks, rankOf_putRank_self]
  · rw [hranks, rankOf_putRank_ne _ _ hne.symm, rankOf_putRank_self]
  · simp only [startMigration, markChan_table]
    rfl
  · rw [hranks, rankOf_putRank_ne _ _ hsp, rankOf_putRank_ne _ _ hr]

theorem startMigration_changes (r sp : Nat) (s : State) : Changes [.smc] s (startMigration r sp s) :=
  startMigration_frame (Changes.refl _ s) (by decide)

theorem opRankMigrate_run {c k sp : Nat} {s : State} (hspare : spareLeft s = some sp) (ctx : ReplyCtx) :
    (opRankMigrate c k).run ctx s = { state := startMigration (c * 2 + k) sp s, status := stPending } := by
  simp only [opRankMigrate, hspare]

/-! ## A migration is complete (R310, R325) -/

/-- The address, in granules, of granule `o` of the logical rank that migrates. -/
def migratedGranule (m : Migration) (s : State) (o : Nat) : Nat := o * max 1 s.smc.table.length + m.logical

/-- What a state holds once the granules `l` of the source rank have been counted as uncorrectable and poisoned. -/
structure CopiesPoisoned (m : Migration) (l : List Nat) (s t : State) : Prop where
  table : t.smc.table = s.smc.table
  counted : (rankOf t m.src).ue = (rankOf s m.src).ue + l.length
  others : ∀ j, j ≠ m.src → rankOf t j = rankOf s j
  kept : ∀ g ∈ s.smc.poison, g ∈ t.smc.poison
  poisoned : ∀ o ∈ l, migratedGranule m s o ∈ t.smc.poison

theorem CopiesPoisoned.nil (m : Migration) (s : State) : CopiesPoisoned m [] s s :=
  ⟨rfl, rfl, fun _ _ => rfl, fun _ hg => hg, fun _ ho => absurd ho (List.not_mem_nil)⟩

theorem CopiesPoisoned.cons {m : Migration} {o : Nat} {l : List Nat} {s t u : State} (h : CopiesPoisoned m [o] s t)
    (h' : CopiesPoisoned m l t u) : CopiesPoisoned m (o :: l) s u where
  table := h'.table.trans h.table
  counted := by rw [h'.counted, h.counted]; simp only [List.length_cons, List.length_nil]; omega
  others j hj := (h'.others j hj).trans (h.others j hj)
  kept g hg := h'.kept g (h.kept g hg)
  poisoned p hp := by
    rcases List.mem_cons.mp hp with rfl | hp
    · exact h'.kept _ (h.poisoned p (List.mem_singleton.mpr rfl))
    · have hgranule : migratedGranule m t p = migratedGranule m s p := by rw [migratedGranule, h.table]; rfl
      exact hgranule ▸ h'.poisoned p hp

/-- A granule counted and poisoned, before its error is recorded. -/
def copyNoted (m : Migration) (o : Nat) (s : State) : State :=
  putRank m.src { rankOf s m.src with ue := (rankOf s m.src).ue + 1 } { s with smc := { s.smc with
    poison := migratedGranule m s o :: s.smc.poison.filter (fun y => y ≠ migratedGranule m s o) } }

theorem copyNoted_poisons (m : Migration) (o : Nat) (s : State) : CopiesPoisoned m [o] s (copyNoted m o s) where
  table := rfl
  counted := by unfold copyNoted; rw [rankOf_putRank_self]; rfl
  others j hj := rankOf_putRank_ne _ _ hj
  kept g hg := by
    show g ∈ migratedGranule m s o :: s.smc.poison.filter _
    by_cases hsame : g = migratedGranule m s o
    · exact hsame ▸ List.mem_cons_self
    · exact List.mem_cons_of_mem _ (List.mem_filter.mpr ⟨hg, decide_eq_true hsame⟩)
  poisoned p hp := List.mem_singleton.mp hp ▸ List.mem_cons_self

theorem poisonCopy_changes (m : Migration) (o : Nat) (s : State) : Changes errorParts (copyNoted m o s) (poisonCopy m o s) :=
  errorAt_frame (Changes.refl _ _) (by decide)

theorem poisonCopy_poisons (m : Migration) (o : Nat) (s : State) : CopiesPoisoned m [o] s (poisonCopy m o s) :=
  have h := copyNoted_poisons m o s
  have herror := poisonCopy_changes m o s
  have hrank := rankOf_of_changes herror (by decide)
  have hpoison := herror.smc_poison (by decide)
  { table := (herror.smc_table (by decide)).trans h.table
    counted := (congrArg RankInfo.ue (hrank m.src)).trans h.counted
    others := fun j hj => (hrank j).trans (h.others j hj)
    kept := fun g hg => hpoison ▸ h.kept g hg
    poisoned := fun p hp => hpoison ▸ h.poisoned p hp }

theorem foldl_poisonCopy_poisons (m : Migration) (l : List Nat) (s : State) :
    CopiesPoisoned m l s (l.foldl (fun a o => poisonCopy m o a) s) := by
  induction l generalizing s with
  | nil => exact .nil m s
  | cons o l ih => exact (poisonCopy_poisons m o s).cons (ih _)

/-- The spare's place in the table and the states of the two ranks as a migration ends. -/
def placesTaken (m : Migration) (s : State) : State :=
  let s1 := putRank m.dst { rankOf s m.dst with state := .inService } (putRank m.src { rankOf s m.src with state := .retired } s)
  { s1 with smc := { s1.smc with table := s1.smc.table.set m.logical m.dst, migration := none, noSpare := true } }

/-- The migration of a channel ends: MIGRATE_DONE keeps its value. -/
def chanMigrated (c : Nat) (s : State) : State := markChan c .inService (putChan c { chanOf s c with migrated := rankGranules s } s)

/-- The end of a migration, its uncorrectable granules counted. -/
def migrationEnded (m : Migration) (s : State) : State :=
  raiseEvent 0x895 (chanMigrated (m.src / 2) (chanMigrated (m.dst / 2) (placesTaken m s)))

theorem migrationComplete_ends {m : Migration} {s : State} (hrunning : s.smc.migration = some m) (hclocked : clocked s = true)
    (bad : List Nat) : migrationComplete bad s =
      migrationEnded m ((bad.filter (fun o => decide (o < rankGranules s))).foldl (fun a o => poisonCopy m o a) s) := by
  unfold migrationComplete
  rw [hrunning]
  exact if_neg (by simp [hclocked])

theorem migrationEnded_changes (m : Migration) (s : State) : Changes [.levels, .jic, .smc] s (migrationEnded m s) := by
  have hchan : ∀ c u, Changes [.smc] u (chanMigrated c u) := fun c u =>
    markChan_frame (putChan_frame (Changes.refl _ u) (by decide)) (by decide)
  have hplaces : Changes [.smc] s (placesTaken m s) :=
    upd_smc'smc rfl (putRank_frame (putRank_frame (Changes.refl _ s) (by decide)) (by decide)) (by decide)
  exact raiseEvent_frame (((hplaces.trans (hchan _ _)).trans (hchan _ _)).mono (by decide)) (by decide)

/-- What the end of a migration leaves of side memory beside the channels is what `placesTaken` says. -/
theorem migrationEnded_smc (m : Migration) (s : State) :
    (migrationEnded m s).smc = { (placesTaken m s).smc with chans := (migrationEnded m s).smc.chans } := by
  have hchan : ∀ c u, (chanMigrated c u).smc = { u.smc with chans := (chanMigrated c u).smc.chans } := fun c u => markChan_smc c _ _
  have hevent : ∀ u, (raiseEvent 0x895 u).smc = u.smc := fun u =>
    have h : Changes [.levels, .jic] u (raiseEvent 0x895 u) := raiseEvent_frame (Changes.refl _ u) (by decide)
    smc_of_parts _ _ (h .mem (by decide)) (h .smc (by decide))
  unfold migrationEnded
  rw [hevent, hchan, hchan]

theorem migrationEnded_poison (m : Migration) (s : State) : (migrationEnded m s).smc.poison = s.smc.poison := by
  rw [migrationEnded_smc]
  rfl

theorem rankOf_migrationEnded (m : Migration) (s : State) (j : Nat) : rankOf (migrationEnded m s) j =
    rankOf (putRank m.dst { rankOf s m.dst with state := .inService } (putRank m.src { rankOf s m.src with state := .retired } s)) j := by
  unfold rankOf
  rw [migrationEnded_smc]
  rfl

/-- What a state holds once a migration has ended: the spare serves in the place of the rank, which is retired. -/
structure SpareServes (m : Migration) (s t : State) : Prop where
  migration : t.smc.migration = none
  table : t.smc.table = s.smc.table.set m.logical m.dst
  spare : (rankOf t m.dst).state = .inService
  source : rankOf t m.src = { rankOf s m.src with state := .retired }
  others : ∀ j, j ≠ m.src → j ≠ m.dst → rankOf t j = rankOf s j

theorem migrationEnded_serves {m : Migration} (hne : m.src ≠ m.dst) (s : State) : SpareServes m s (migrationEnded m s) where
  migration := congrArg Smc.migration (migrationEnded_smc m s)
  table := congrArg Smc.table (migrationEnded_smc m s)
  spare := by rw [rankOf_migrationEnded, rankOf_putRank_self]
  source := by rw [rankOf_migrationEnded, rankOf_putRank_ne _ _ hne, rankOf_putRank_self]
  others j hsrc hdst := by rw [rankOf_migrationEnded, rankOf_putRank_ne _ _ hdst, rankOf_putRank_ne _ _ hsrc]

/-! ## Full training of a channel (R323, R353) -/

theorem smcChange_changes (f : State → State) (s : State) :
    Changes [.levels, .jic, .ctr, .xdma, .hostQueue, .replies, .hlk, .out] (f s) (smcChange f s) := by
  unfold smcChange
  dsimp only
  split
  · exact stopRunning_frame (Changes.refl _ _) (by decide)
  · exact Changes.refl _ _

theorem fullRetrain_trains {c : Nat} {s : State} (hclocked : clocked s = true) (hfilled : s.smc.filled = true)
    (hserves : (chanOf s c).state = .inService ∨ (chanOf s c).state = .migrating) :
    ChanBecomes c { chanOf s c with state := .training } s (fullRetrain c s) := by
  have heq : fullRetrain c s = smcChange (putChan c { chanOf s c with state := .training }) s :=
    if_neg (by simp only [hclocked, hfilled]; tauto)
  rw [heq]
  exact (chanBecomes_putChan c _ s).after (smcChange_changes _ s) (by decide)

/-- How a channel goes on after its full training: it serves, or is out of service until the next BOOT. -/
def trained (ok : Bool) (s : State) (c : Nat) : ChanInfo :=
  if ok then { chanOf s c with state := if migratingHere s c then .migrating else .inService, phyLate := false }
  else { chanOf s c with state := .outOfService, failed := true }

section Trained
variable {c : Nat} {s : State} (ok : Bool) (hclocked : clocked s = true) (htraining : (chanOf s c).state = .training)
  (hlast : s.smc.retrain = [])
include hclocked htraining hlast

theorem retrainDone_last : retrainDone c ok s =
    { putChan c (trained ok s c) s with smc := { (putChan c (trained ok s c) s).smc with retrain := [] } } := by
  have hnone : ∀ x, nextRetrain (putChan c x s).smc.retrain (putChan c x s) =
      { putChan c x s with smc := { (putChan c x s).smc with retrain := [] } } := fun x => by
    rw [show (putChan c x s).smc.retrain = [] from hlast]
    rfl
  unfold retrainDone
  dsimp only
  rw [if_neg (by simp [hclocked, htraining])]
  cases ok <;> exact hnone _

theorem retrainDone_becomes : ChanBecomes c (trained ok s c) s (retrainDone c ok s) := by
  rw [retrainDone_last ok hclocked htraining hlast]
  exact chanBecomes_putChan c _ s

theorem retrainDone_changes : Changes [.smc] s (retrainDone c ok s) := by
  rw [retrainDone_last ok hclocked htraining hlast]
  exact upd_smc'smc rfl (putChan_changes c _ s) (by decide)

end Trained

/-! ## Requests (R313, R319) -/

section Request
variable (r b w a : Nat) (asleep : Bool) (s : State)

theorem mem_out_dfiRequest_read (hit : Bool) :
    Output.dfi (r / 2) (r % 2) (.read a) ∈ (dfiRequest r b w a asleep hit none s).out := by
  simp [dfiRequest, emits]

theorem mem_out_dfiRequest_activate (data : Option (List Byte)) :
    Output.dfi (r / 2) (r % 2) (.activate b w) ∈ (dfiRequest r b w a asleep false data s).out := by
  simp [dfiRequest, emits]

end Request

/-- A rank that a request used in ccyc `now`; `rows` are its open rows after it. -/
def accessed (now : Nat) (rows : Tab (Nat × Nat × Nat)) (x : RankInfo) : RankInfo :=
  { x with selfRefresh := false, lastUse := now, used := true, rows }

/-- A rank in whose bank `b` a row was activated for requester `q` (R319, R320). -/
def activated (q b : Nat) (x : RankInfo) : RankInfo :=
  let raa := tgetD x.raa b 0 + 1
  { x with acts := tput x.acts (b * 4 + q) (tgetD x.acts (b * 4 + q) 0 + 1)
           raa := tput x.raa b (if max 1 Config.raaImt ≤ raa then raa - max 1 Config.raaImt else raa)
           hits := if max 1 Config.raaImt ≤ raa then tput x.hits b (tgetD x.hits b 0 + 1) else x.hits }

theorem activated_acts (q b : Nat) (x : RankInfo) :
    tgetD (activated q b x).acts (b * 4 + q) 0 = tgetD x.acts (b * 4 + q) 0 + 1 := tgetD_tput_self _ _ _ _

theorem activated_raa (q b : Nat) (x : RankInfo) : tgetD (activated q b x).raa b 0 =
    if max 1 Config.raaImt ≤ tgetD x.raa b 0 + 1 then tgetD x.raa b 0 + 1 - max 1 Config.raaImt else tgetD x.raa b 0 + 1 :=
  tgetD_tput_self _ _ _ _

theorem activated_hits (q b : Nat) (x : RankInfo) (hdue : max 1 Config.raaImt ≤ tgetD x.raa b 0 + 1) :
    tgetD (activated q b x).hits b 0 = tgetD x.hits b 0 + 1 := by
  simp only [activated, if_pos hdue, tgetD_tput_self]

/-- The row `w` of bank `b` of rank `r` is open. -/
def rowOpen (s : State) (r b w : Nat) : Bool := (tget (rankOf s r).rows b).any (fun o => o.1 = w && s.tsu.now < o.2.2)

section Touch
variable {q a r b w : Nat} {data : Option (List Byte)} {s : State} (hloc : locate s a = (r, b, w))
include hloc

theorem touch_open (hopen : rowOpen s r b w = true) : ∃ rows, touch q a data s =
    putRank r (accessed s.tsu.now rows (rankOf s r)) (dfiRequest r b w a (rankOf s r).selfRefresh true data s) := by
  unfold rowOpen at hopen
  unfold touch
  rw [hloc]
  dsimp only
  rw [hopen, if_pos rfl]
  exact ⟨_, rfl⟩

/-- An activation that does not bring its bank to RAAIMT for the fourth time throttles no requester (R320). -/
theorem touch_closed (hclosed : rowOpen s r b w = false) (hhits : tgetD (rankOf s r).hits b 0 ≠ 3) : ∃ rows,
    RankBecomes r (activated q b (accessed s.tsu.now rows (rankOf s r))) s (touch q a data s) ∧
    (touch q a data s).dbg = s.dbg ∧ (touch q a data s).out = (dfiRequest r b w a (rankOf s r).selfRefresh false data s).out := by
  unfold rowOpen at hclosed
  unfold touch
  rw [hloc]
  dsimp only
  rw [hclosed, if_neg Bool.false_ne_true, if_neg Bool.false_ne_true]
  refine ⟨tput (rankOf s r).rows b (w, s.tsu.now, rowCloses s s.tsu.now (pageHint s q a)), ?_⟩
  simp only [decide_eq_true_eq]
  refine iteInduction (motive := fun t => RankBecomes r _ s t ∧ t.dbg = s.dbg ∧ t.out = _) (fun _ => ?_) fun _ => ?_
  · exact ⟨rankBecomes_putRank r _ (dfiRequest r b w a (rankOf s r).selfRefresh false data s), rfl, rfl⟩
  · refine iteInduction (motive := fun t => RankBecomes r _ s t ∧ t.dbg = s.dbg ∧ t.out = _)
      (fun hfour => absurd (Nat.succ.inj hfour) hhits) fun _ => ?_
    exact ⟨rankBecomes_putRank r _ (dfiRequest r b w a (rankOf s r).selfRefresh false data s), rfl, rfl⟩

end Touch

/-! ## Scrubbing (R310 to R312) -/

/-- What a scrub read does by what it returned. -/
def scrubbed (a : Nat) (e : EccResult) (s : State) : State :=
  match e with
  | .clean => s
  | .corrected => corrected a s
  | .uncorrectable => uncorrectable false a s

theorem scrubRead_reads {a : Nat} {s : State} (e : EccResult) (hclocked : clocked s = true) (hup : smcUp s = true) (hin : a < capacity s)
    (hpounce : (touch 3 a none s).dbg.pounce = []) :
    scrubRead a e s = scrubbed a (if a / 512 ∈ s.smc.poison then .uncorrectable else e) (touch 3 a none s) := by
  unfold scrubRead
  rw [if_neg (by simp [hclocked, hup, hin])]
  dsimp only
  rw [pounceFires_of_none hpounce]
  rfl

/-- At most 10,000 corrected errors in the second do not make the rank fail (R324). -/
theorem corrected_few {a : Nat} {s : State} (hfew : (rankOf s (locate s a).1).ceTimes.2 < 10000) : ∃ times,
    corrected a s = putRank (locate s a).1
      { rankOf s (locate s a).1 with ce := (rankOf s (locate s a).1).ce + 1, ceTimes := times } s := by
  unfold corrected
  extract_lets l x n s1
  have hn : n ≤ 10000 := by
    show (if _ then _ else _) ≤ 10000
    split
    · exact hfew
    · decide
  exact ⟨_, if_neg (Nat.not_lt.mpr hn)⟩

/-- The first row of a rank that returns uncorrectable is counted and recorded; it does not make the rank fail (R324). -/
theorem uncorrectable_first {a r : Nat} {s : State} (hclocked : clocked s = true) (hat : (locate s a).1 = r)
    (hfirst : (rankOf s r).ueRows = []) :
    raises 0x0E 0x0E02 sevMajor s (uncorrectable false a s) ∧ (rankOf (uncorrectable false a s) r).ue = (rankOf s r).ue + 1 := by
  subst hat
  unfold uncorrectable
  extract_lets l x rows s1
  have hrows : rows = [] := by
    show List.filter _ (rankOf s (locate s a).1).ueRows = []
    rw [hfirst]
    rfl
  rw [if_neg (by simp [hrows])]
  have hcounted : (rankOf (putRank l.1 { x with ue := x.ue + 1, ueRows := (l.2.2, s.tsu.now) :: rows } s) l.1).ue = x.ue + 1 := by
    rw [rankOf_putRank_self]
  have herror : Changes errorParts (putRank l.1 { x with ue := x.ue + 1, ueRows := (l.2.2, s.tsu.now) :: rows } s) s1 :=
    errorWith_frame (Changes.refl _ _) (by decide)
  exact ⟨errorAt_raises (s := putRank l.1 { x with ue := x.ue + 1, ueRows := (l.2.2, s.tsu.now) :: rows } s) hclocked (by decide),
    (congrArg RankInfo.ue (rankOf_of_changes herror (by decide) l.1)).trans hcounted⟩

/-- A state in which a scrub has read address `a` of an open row: the request is on DFI, and the rank is in use. -/
def readOpen (a r b w : Nat) (rows : Tab (Nat × Nat × Nat)) (s : State) : State :=
  putRank r (accessed s.tsu.now rows (rankOf s r)) (dfiRequest r b w a (rankOf s r).selfRefresh true none s)

section ReadOpen
variable (a r b w : Nat) (rows : Tab (Nat × Nat × Nat)) (s : State)

theorem readOpen_becomes : RankBecomes r (accessed s.tsu.now rows (rankOf s r)) s (readOpen a r b w rows s) :=
  rankBecomes_putRank r _ (dfiRequest r b w a (rankOf s r).selfRefresh true none s)

theorem readOpen_changes : Changes [.smc, .out] s (readOpen a r b w rows s) :=
  putRank_frame (dfiRequest_frame (Changes.refl _ s) (by decide)) (by decide)

/-- A request moves no address. -/
theorem locate_readOpen (x : Nat) : locate (readOpen a r b w rows s) x = locate s x := rfl

end ReadOpen

theorem rowOpen_of_row {s : State} {r b w : Nat} {o : Nat × Nat} (hrow : tget (rankOf s r).rows b = some (w, o))
    (hnow : s.tsu.now < o.2) : rowOpen s r b w = true := by
  simp [rowOpen, hrow, hnow]

theorem rowOpen_of_none {s : State} {r b w : Nat}
    (hrow : (tget (rankOf s r).rows b).all (fun o => decide (o.1 ≠ w ∨ o.2.2 ≤ s.tsu.now)) = true) : rowOpen s r b w = false := by
  unfold rowOpen
  cases hget : tget (rankOf s r).rows b with
  | none => rfl
  | some o => simpa [hget, imp_iff_not_or] using hrow

section Scrub
variable {a r b w : Nat} {s : State} (hclocked : clocked s = true) (hup : smcUp s = true) (hin : a < capacity s)
  (hpounce : s.dbg.pounce = []) (hloc : locate s a = (r, b, w))
include hclocked hup hin hpounce hloc

theorem scrubRead_open (e : EccResult) (hopen : rowOpen s r b w = true) : ∃ rows,
    scrubRead a e s = scrubbed a (if a / 512 ∈ s.smc.poison then .uncorrectable else e) (readOpen a r b w rows s) := by
  obtain ⟨rows, htouch⟩ := touch_open (q := 3) (data := none) hloc hopen
  refine ⟨rows, ?_⟩
  rw [scrubRead_reads e hclocked hup hin (by rw [htouch]; exact hpounce), htouch]
  rfl

theorem scrubRead_corrects (hclean : a / 512 ∉ s.smc.poison) (hopen : rowOpen s r b w = true) (hfew : (rankOf s r).ceTimes.2 < 10000) :
    ((rankOf (scrubRead a .corrected s) r).ce = (rankOf s r).ce + 1 ∧
      ∀ j, j ≠ r → rankOf (scrubRead a .corrected s) j = rankOf s j) ∧ Changes [.smc, .out] s (scrubRead a .corrected s) := by
  obtain ⟨rows, hread⟩ := scrubRead_open hclocked hup hin hpounce hloc .corrected hopen
  obtain ⟨hrank, hothers⟩ := readOpen_becomes a r b w rows s
  have hat : (locate (readOpen a r b w rows s) a).1 = r := by rw [locate_readOpen, hloc]
  obtain ⟨times, hcorrected⟩ := corrected_few (a := a) (s := readOpen a r b w rows s) (by rw [hat, hrank]; exact hfew)
  rw [hat, hrank] at hcorrected
  rw [hread, if_neg hclean, scrubbed, hcorrected, rankOf_putRank_self]
  exact ⟨⟨rfl, fun j hj => (rankOf_putRank_ne _ _ hj).trans (hothers j hj)⟩,
    putRank_frame (readOpen_changes a r b w rows s) (by decide)⟩

theorem scrubRead_records {e : EccResult} (hbad : a / 512 ∈ s.smc.poison ∨ e = .uncorrectable) (hopen : rowOpen s r b w = true)
    (hfirst : (rankOf s r).ueRows = []) :
    raises 0x0E 0x0E02 sevMajor s (scrubRead a e s) ∧ (rankOf (scrubRead a e s) r).ue = (rankOf s r).ue + 1 := by
  obtain ⟨rows, hread⟩ := scrubRead_open hclocked hup hin hpounce hloc e hopen
  have hresult : (if a / 512 ∈ s.smc.poison then EccResult.uncorrectable else e) = .uncorrectable :=
    ite_eq_left_iff.mpr hbad.resolve_left
  obtain ⟨hrank, -⟩ := readOpen_becomes a r b w rows s
  have hat : (locate (readOpen a r b w rows s) a).1 = r := by rw [locate_readOpen, hloc]
  obtain ⟨hraises, hcounted⟩ := uncorrectable_first (s := readOpen a r b w rows s) hclocked hat (by rw [hrank]; exact hfirst)
  rw [hrank] at hcounted
  rw [hread, hresult]
  exact ⟨raises_before (readOpen_changes a r b w rows s) (by decide) hraises, hcounted⟩

theorem scrubRead_clean (hclean : a / 512 ∉ s.smc.poison) (hopen : rowOpen s r b w = true) :
    ∃ rows, scrubRead a .clean s = readOpen a r b w rows s := by
  obtain ⟨rows, hread⟩ := scrubRead_open hclocked hup hin hpounce hloc .clean hopen
  rw [if_neg hclean] at hread
  exact ⟨rows, hread⟩

theorem scrubRead_activates (hclean : a / 512 ∉ s.smc.poison) (hclosed : rowOpen s r b w = false)
    (hhits : tgetD (rankOf s r).hits b 0 ≠ 3) : ∃ rows,
      RankBecomes r (activated 3 b (accessed s.tsu.now rows (rankOf s r))) s (scrubRead a .clean s) ∧
      Output.dfi (r / 2) (r % 2) (.activate b w) ∈ (scrubRead a .clean s).out := by
  obtain ⟨rows, hbecomes, hdbg, hout⟩ := touch_closed (q := 3) (data := none) hloc hclosed hhits
  have hread := scrubRead_reads .clean hclocked hup hin (by rw [hdbg]; exact hpounce)
  rw [if_neg hclean] at hread
  rw [hread, scrubbed]
  exact ⟨rows, hbecomes, hout ▸ mem_out_dfiRequest_activate r b w a _ s none⟩

end Scrub

/-! ## The statement -/

/-- Settles O55: it holds, clause by clause from the rules above. What counts as an activation, and that RAAIMT is at least 1, are the
model's readings (logs 33 and 18). -/
theorem ranksMigrateAndChannelsTrain : Obligations.RanksMigrateAndChannelsTrain := by
  unfold Obligations.RanksMigrateAndChannelsTrain
  refine ⟨?migrate, ?copied, ?complete, ?training, ?trained, ?failed, ?corrected, ?uncorrectable, ?clean, ?activated⟩
  case migrate =>
    refine fun z c k sp => performs_of (fun _ => rfl) rfl rfl (by decide) (by decide) (by decide) (fun u v t hv hchanges => ?_)
      fun ctx u ⟨hspare, hne⟩ _ _ => ?_
    · obtain ⟨hmigration, hto, hfrom, htable, hothers⟩ := hv
      have hrank := rankOf_of_changes hchanges (by decide)
      exact ⟨(hchanges.smc_migration (by decide)).trans hmigration, (hrank sp).symm ▸ hto, (hrank (c * 2 + k)).symm ▸ hfrom,
        (hchanges.smc_table (by decide)).trans htable, fun j hsp hr => (hrank j).trans (hothers j hsp hr)⟩
    · obtain ⟨hmigration, hto, hfrom, htable, hothers⟩ := startMigration_begins hne u
      rw [opRankMigrate_run hspare]
      exact ⟨rfl, rfl, rfl, (startMigration_changes (c * 2 + k) sp u).cpx_activation (by decide),
        ⟨hmigration, hto, hfrom, htable, hothers⟩, (startMigration_changes (c * 2 + k) sp u).mono (by simp +contextual)⟩
  case copied =>
    refine fun dt m => happens_of_effect (fun _ => rfl) (by decide) (by decide) fun s ⟨hrunning, hclocked⟩ => ?_
    rw [migrationComplete_ends hrunning hclocked []]
    exact ⟨migrationEnded_poison m s, migrationEnded_changes m s⟩
  case complete =>
    refine fun dt bad m => happens_of_effect (fun _ => rfl) (by decide) (by decide) fun s ⟨hrunning, hclocked, hne⟩ =>
      ⟨?_, migrationComplete_frame (Changes.refl _ s) (by decide)⟩
    rw [migrationComplete_ends hrunning hclocked bad]
    have hcopied := foldl_poisonCopy_poisons m (bad.filter (fun o => decide (o < rankGranules s))) s
    have hended := migrationEnded_serves hne ((bad.filter (fun o => decide (o < rankGranules s))).foldl (fun a o => poisonCopy m o a) s)
    refine ⟨hended.migration, hcopied.table ▸ hended.table, hended.spare, congrArg RankInfo.state hended.source,
      fun j hsrc hdst => (hended.others j hsrc hdst).trans (hcopied.others j hsrc),
      (congrArg RankInfo.ue hended.source).trans hcopied.counted, fun o ho hin => ?_⟩
    rw [migrationEnded_poison]
    exact hcopied.poisoned o (List.mem_filter.mpr ⟨ho, decide_eq_true hin⟩)
  case training =>
    exact fun dt c => happens_of_effect (fun _ => rfl) (by decide) (by decide) fun s ⟨hclocked, hfilled, hserves⟩ =>
      ⟨fullRetrain_trains hclocked hfilled hserves, fullRetrain_frame (Changes.refl _ s) (by decide)⟩
  case trained =>
    refine fun dt c => happens_of_effect (fun _ => rfl) (by decide) (by decide) fun s ⟨hclocked, htraining, hhere, hlast⟩ =>
      ⟨?_, retrainDone_changes true hclocked htraining hlast⟩
    have hbecomes := retrainDone_becomes true hclocked htraining hlast
    rwa [trained, if_pos rfl, hhere] at hbecomes
  case failed =>
    exact fun dt c => happens_of_effect (fun _ => rfl) (by decide) (by decide) fun s ⟨hclocked, htraining, hlast⟩ =>
      ⟨retrainDone_becomes false hclocked htraining hlast, retrainDone_changes false hclocked htraining hlast⟩
  case corrected =>
    exact fun dt a r b w o => happens_of_effect (fun _ => rfl) (by decide) (by decide)
      fun s ⟨hclocked, hup, hin, hpounce, hloc, hclean, hrow, hnow, hfew⟩ =>
        scrubRead_corrects hclocked hup hin hpounce hloc hclean (rowOpen_of_row hrow hnow) hfew
  case uncorrectable =>
    exact fun dt a r b w o e => happens_of_effect (fun _ => rfl) (by decide) (by decide)
      fun s ⟨hclocked, hup, hin, hpounce, hloc, hbad, hrow, hnow, hfirst⟩ =>
        ⟨scrubRead_records hclocked hup hin hpounce hloc hbad (rowOpen_of_row hrow hnow) hfirst,
          scrubRead_frame (Changes.refl _ s) (by decide)⟩
  case clean =>
    refine fun dt a r b w o => happens_of_effect (fun _ => rfl) (by decide) (by decide)
      fun s ⟨hclocked, hup, hin, hpounce, hloc, hclean, hrow, hnow⟩ => ?_
    obtain ⟨rows, hread⟩ := scrubRead_clean hclocked hup hin hpounce hloc hclean (rowOpen_of_row hrow hnow)
    obtain ⟨hrank, hothers⟩ := readOpen_becomes a r b w rows s
    rw [hread]
    exact ⟨⟨by rw [hrank]; rfl, hothers, mem_out_dfiRequest_read r b w a _ s true⟩, readOpen_changes a r b w rows s⟩
  case activated =>
    refine fun dt a r b w => happens_of_effect (fun _ => rfl) (by decide) (by decide)
      fun s ⟨hclocked, hup, hin, hpounce, hloc, hclean, hrow, hhits⟩ => ⟨?_, scrubRead_frame (Changes.refl _ s) (by decide)⟩
    obtain ⟨rows, ⟨hrank, hothers⟩, hout⟩ :=
      scrubRead_activates hclocked hup hin hpounce hloc hclean (rowOpen_of_none hrow) hhits
    rw [hrank]
    exact ⟨hout, fun hbelow => (activated_raa 3 b _).trans (if_neg (Nat.not_le.mpr hbelow)),
      fun hdue => ⟨(activated_raa 3 b _).trans (if_pos hdue), activated_hits 3 b _ hdue⟩, activated_acts 3 b _, hothers⟩

end Sys2Proof.Proofs
end

section
/-! PROOFS. What holds of the block as a whole: fuses through a step (17 R383), the state after reset (15 R365, 17 Table 17-2), the step on
an empty queue (log 3), and the words of the table (log 31). -/
namespace Sys2Proof.Proofs
open Sys2Proof.Machine Sys2Proof.Safety

/-! ## Fuses (R383) -/

/-- Fuses burnt over fuses that were burnt over others. -/
theorem burnFuses_assoc (f g h : Fuses) : burnFuses f (burnFuses g h) = burnFuses (burnFuses f g) h := by
  simp only [burnFuses, BitVec.or_assoc, Bool.or_assoc]

/-- Every step leaves fuses that are burnt over those it found. -/
theorem step_fuses {s t : State} (h : step s = .next t) : ∃ g, t.fuses = burnFuses s.fuses g := by
  unfold step at h
  split at h
  next => cases h; exact ⟨_, rfl⟩
  next c r _ =>
    obtain ⟨v, hv⟩ := exec_within c { s with pending := r }
    cases hv.symm.trans h
    exact ⟨v.fuses, rfl⟩

/-- Settles O5: it holds, since burning is associative. -/
theorem burntFusesStayBurnt : Obligations.BurntFusesStayBurnt := by
  unfold Obligations.BurntFusesStayBurnt
  intro f s t hburnt hstep
  obtain ⟨g, hg⟩ := step_fuses hstep
  calc burnFuses f t.fuses = burnFuses (burnFuses f s.fuses) g := by rw [hg, burnFuses_assoc]
    _ = t.fuses := by rw [hburnt, hg]

/-! ## Reset, the empty queue and the table's words -/

/-- Settles O6: it holds by the values of the state after reset. -/
theorem resetIsOffAndUnburnt : Obligations.ResetIsOffAndUnburnt := by
  unfold Obligations.ResetIsOffAndUnburnt
  exact ⟨rfl, rfl, rfl, rfl, rfl, rfl, rfl, rfl, rfl, rfl, rfl, rfl, rfl⟩

/-- The step on an empty queue is one ccyc. -/
theorem step_empty {s : State} (h : s.pending = []) : step s = .next (start 1 s) := by
  have hstep : step s = happen 1 (fun t => t) s := by
    unfold step
    rw [h]
  rw [hstep]
  exact happen_next (f := fun t => t) (Changes.refl [] _) (by decide) (by decide)

/-- Settles O2: it holds, by what one ccyc does. -/
theorem emptyQueuePassesOneCcyc : Obligations.EmptyQueuePassesOneCcyc := by
  unfold Obligations.EmptyQueuePassesOneCcyc
  refine fun s hempty => ⟨start 1 s, step_empty hempty, start_changes 1 s, fun hclocked => ?_, fun hstopped => ?_⟩
  · rw [start_succ_tsu]
    exact (tick_clocked (s := elapsed 0 s) hclocked).1
  · rw [start_succ_tsu]
    exact tick_unclocked (s := elapsed 0 s) hstopped

/-- Settles O7: it holds, since no row of the table gives bits. -/
theorem noWordSpellsACommand : Obligations.NoWordSpellsACommand := by
  unfold Obligations.NoWordSpellsACommand
  exact fun _ _ _ => ⟨rfl, rfl⟩

end Sys2Proof.Proofs
end

section
/-! PROOFS. Port groups (15 R360 to R362, Table 15-2, 18 Table 18-6): what a group's record reads after each operation, which states
gating and fencing end in, and the statement from one rule per row. -/
namespace Sys2Proof.Proofs
open Sys2Proof.Machine Sys2Proof.Safety

/-! ## A group's record -/

@[simp] theorem groupSt_putGroup_self (g : Nat) (x : Group) (s : State) : groupSt (putGroup g x s) g = x := tgetD_tput_self _ _ _ _

theorem groupSt_putGroup_ne {g h : Nat} (x : Group) (s : State) (hne : h ≠ g) : groupSt (putGroup g x s) h = groupSt s h :=
  tgetD_tput_ne _ _ _ _ _ hne

theorem groupSt_of_changes {l : List Part} {s t : State} (h : Changes l s t) (hgroups : Part.groups ∉ l) (g : Nat) :
    groupSt t g = groupSt s g := by
  unfold groupSt
  rw [h.groups hgroups]

/-- Every group has the same record, the ccyc in which a port of it was last UP apart. -/
def SameGroups (s t : State) : Prop := ∀ g, groupSt t g = { groupSt s g with lastUp := (groupSt t g).lastUp }

theorem SameGroups.refl (s : State) : SameGroups s s := fun _ => rfl

theorem SameGroups.trans {s t u : State} (h : SameGroups s t) (h' : SameGroups t u) : SameGroups s u := fun g => by
  rw [h' g, h g]

theorem SameGroups.step {s t u : State} {l : List Part} (h : SameGroups s t) (hc : Changes l t u) (hgroups : Part.groups ∉ l) :
    SameGroups s u :=
  h.trans fun g => by rw [groupSt_of_changes hc hgroups]

theorem SameGroups.foldl {α : Type} {f : State → α → State} (hf : ∀ a x, SameGroups a (f a x)) (xs : List α) (s : State) :
    SameGroups s (xs.foldl f s) :=
  List.foldlRecOn xs f (.refl s) fun a ha x _ => ha.trans (hf a x)

theorem SameGroups.state {s t : State} (h : SameGroups s t) (g : Nat) : (groupSt t g).state = (groupSt s g).state := by
  rw [h g]

/-- A port that no longer reports UP is noted at its group, and at no other place of it. -/
theorem noteUp_groups (p : Nat) (was : Bool) (s : State) : SameGroups s (noteUp p was s) := by
  unfold noteUp
  extract_lets is s1 g s2
  have h1 : SameGroups s s1 := (SameGroups.refl s).step (l := [.levels, .jic, .frc])
    (eventRecord_frame (raiseEvent_frame (Changes.refl _ s) (by decide)) (by decide)) (by decide)
  have h2 : SameGroups s s2 := h1.step (l := [.ctr]) (tally_frame (Changes.refl _ s1) (by decide)) (by decide)
  split
  · exact .refl s
  · split
    · split
      · refine h2.trans fun j => ?_
        by_cases hj : j = groupOf p
        · subst hj
          rw [groupSt, tgetD_tput_self]
          rfl
        · rw [groupSt, tgetD_tput_ne _ _ _ _ _ hj]
          rfl
      · exact h2
    · exact h1

/-- What the end of a port's link cuts: nothing of the groups. -/
def cutParts : List Part := linkParts.filter (· ≠ .groups)

theorem gateLink_groups (p : Nat) (s : State) : SameGroups s (gateLink p s) := by
  unfold gateLink
  extract_lets x was s1 s2 s3
  refine (SameGroups.step (l := cutParts) (.refl s) (u := s3) ?_ (by decide)).trans (noteUp_groups _ _ _)
  have h1 : Changes cutParts s s1 := putPort_frame (Changes.refl _ s) (by decide)
  have h2 : Changes cutParts s s2 := by
    refine cutQueue_frame (cutLine_frame ?_ (by decide)) (by decide)
    split
    · exact leaveUp_frame h1 (by decide)
    · exact h1
  show Changes cutParts s (if _ then _ else _)
  split
  · exact bringupFail_frame h2 (by decide)
  · exact h2

theorem stopGroup_groups (g : Nat) (s : State) : SameGroups s (stopGroup g s) :=
  ((SameGroups.refl s).step (cutReception_frame (Changes.refl (gateParts.filter (· ≠ .groups)) s) (by decide)) (by decide)).trans
    (.foldl (fun a p => gateLink_groups p a) _ _)

theorem settleAll_groups (g : Nat) (s : State) : SameGroups s (settleAll g s) :=
  (SameGroups.refl s).step (settleAll_frame (Changes.refl (gateParts.filter (· ≠ .groups)) s) (by decide)) (by decide)

/-! ## Gating and fencing (R32, R360) -/

theorem gateDone_of_gating {g : Nat} {s : State} (hclocked : clocked s = true) (hgating : groupState s g = .gating) :
    (groupSt (gateDone g s) g).state = .gated := by
  unfold gateDone
  rw [if_neg (by simp [hclocked, hgating])]
  extract_lets s1
  rw [groupSt_of_changes (eventRecord_frame (Changes.refl [.frc] _) (by decide)) (by decide), groupSt_putGroup_self]

theorem gateDone_of_not_gating {g : Nat} {s : State} (h : groupState s g ≠ .gating) : gateDone g s = s := by
  unfold gateDone
  rw [if_pos (.inr h)]

theorem fenceGroup_state (g : Nat) (s : State) : (groupSt (fenceGroup g s) g).state = .fenced := by
  unfold fenceGroup
  rw [((stopGroup_groups g _).trans (settleAll_groups g _)).state, groupSt_putGroup_self]

/-- A powered group begins to be gated, and its wake latch is armed as WAKE_FLAGS says. -/
theorem gateStart_of_powered {g : Nat} {s : State} (hpowered : groupState s g = .powered) :
    (groupSt (gateStart g s) g).state = .gating ∧ (groupSt (gateStart g s) g).armed = bit (wakeFlags s.cfg g) 0 := by
  unfold gateStart
  rw [if_neg (not_not.mpr hpowered), groupSt_putGroup_self]
  refine ⟨?_, rfl⟩
  show (groupSt (stopGroup g _) g).state = .gating
  rw [(stopGroup_groups g _).state, groupSt_putGroup_self]

theorem idleExpiry_of_idle {g : Nat} {s : State} (hclocked : clocked s = true) (hlean : s.mode.base = .lean)
    (hpolicy : policyOfGroup s.cfg g = 0) (hnone : noneUp s g = true) (hprobe : (groupSt s g).probeEnd = none)
    (hidle : max (groupSt s g).lastUp (groupSt s g).since + idleTime (wakeFlags s.cfg g) ≤ s.tsu.now) :
    idleExpiry g s = gateStart g s := by
  unfold idleExpiry
  rw [if_neg (by simp [hclocked, hlean, hpolicy, hnone, hprobe, hidle])]

theorem idleExpiry_of_not_idle {g : Nat} {s : State} (h : s.mode.base ≠ .lean ∨ noneUp s g = false) : idleExpiry g s = s := by
  unfold idleExpiry
  exact if_pos (by tauto)

/-! ## Waking (R361) -/

theorem wakeStart_of_cause {g : Nat} {s : State} (hclocked : clocked s = true) (hzeroized : s.mode.zeroized = false)
    (hcause : wakeCauseOf s g = true) (hroom : waking s < 4) (hfirst : (List.range g).any (wakeCauseOf s) = false) :
    wakeStart g s =
      putGroup g { groupSt s g with state := .waking, since := s.tsu.now, cause := false, gateNext := !required s g } s := by
  unfold wakeStart
  rw [if_neg (by simp [hclocked, hzeroized, hcause, hroom.not_ge, hfirst])]

theorem wakeStart_of_none {g : Nat} {s : State} (h : wakeCauseOf s g = false ∨ 4 ≤ waking s) : wakeStart g s = s := by
  unfold wakeStart
  exact if_pos (by tauto)

@[simp] theorem portOf_wakePort_self (p : Nat) (s : State) :
    portOf (wakePort p s) p = { portOf s p with link := .noSignal, since := s.tsu.now, faultAt := none } := portOf_putPort_self _ _ _

/-- The ports of a woken group start from NO_SIGNAL (R82). -/
theorem wakePorts_link {p : Nat} : ∀ (l : List Nat) (s : State), p ∈ l ∨ (portOf s p).link = .noSignal →
    (portOf (l.foldl (fun a p => wakePort p a) s) p).link = .noSignal
  | [], _, h => h.resolve_left List.not_mem_nil
  | q :: l, s, h => by
    refine wakePorts_link l (wakePort q s) ?_
    by_cases hq : p = q
    · subst hq
      exact .inr (by rw [portOf_wakePort_self])
    · refine h.imp (fun hmem => (List.mem_cons.mp hmem).resolve_left hq) fun hlink => ?_
      rw [wakePort, portOf_putPort_ne _ _ _ _ hq]
      exact hlink

/-- A group whose power is good, as its ports are to start anew. -/
def wokenGroup (g : Nat) (s : State) : State :=
  putGroup g { groupSt s g with
    state := .powered, since := s.tsu.now, latch := false, armed := false, cause := false
    probeEnd := (groupSt s g).probeEnd.map (fun _ => s.tsu.now + ms 500) } s

/-- The same with its ports at NO_SIGNAL. -/
def wokenPorts (g : Nat) (s : State) : State := (portsOf s.cfg g).foldl (fun a p => wakePort p a) (wokenGroup g s)

theorem wakeDone_of_waking {g : Nat} {s : State} (hclocked : clocked s = true) (hwaking : groupState s g = .waking)
    (hwanted : (groupSt s g).gateNext = false) :
    wakeDone g s = eventRecord 0x0007 (lsbBytes 1 g) (raiseEvent (0x850 + g) (wokenPorts g s)) := by
  unfold wakeDone
  dsimp only
  rw [if_neg (by simp [hclocked, hwaking]), if_neg (by simp [hwanted])]
  rfl

theorem wokenPorts_changes (g : Nat) (s : State) : Changes [.ports] (wokenGroup g s) (wokenPorts g s) :=
  (Changes.refl _ _).foldl_frame fun _ _ h => wakePort_frame h (by decide)

theorem wokenRecorded_changes (g : Nat) (s : State) :
    Changes [.levels, .jic, .frc] s (eventRecord 0x0007 (lsbBytes 1 g) (raiseEvent (0x850 + g) s)) :=
  eventRecord_frame (raiseEvent_frame (Changes.refl _ s) (by decide)) (by decide)

theorem powerNotGood_state {g : Nat} {s : State} (hclocked : clocked s = true) (hwaking : groupState s g = .waking) :
    (groupSt (powerNotGood g s) g).state = .fenced := by
  unfold powerNotGood
  rw [if_neg (by simp [hclocked, hwaking]),
    groupSt_of_changes (errorAt_frame (Changes.refl errorParts _) (by decide)) (by decide), fenceGroup_state]

/-! ## Probes (R362) -/

theorem probeWake_of_due {g : Nat} {s : State} (hclocked : clocked s = true) (hlean : s.mode.base = .lean)
    (hrequired : required s g = true) (hgated : groupState s g = .gated) (hperiod : probePeriod (wakeFlags s.cfg g) ≠ 0)
    (hdue : (groupSt s g).since + probePeriod (wakeFlags s.cfg g) ≤ s.tsu.now) :
    probeWake g s = putGroup g { groupSt s g with cause := true, probeEnd := some 0 } s := by
  unfold probeWake
  dsimp only
  rw [if_neg (by simp [hclocked, hlean, hrequired, hgated, hperiod, hdue])]

theorem probeHoldExpiry_of_due {g e : Nat} {s : State} (hclocked : clocked s = true) (hpowered : groupState s g = .powered)
    (hend : (groupSt s g).probeEnd = some e) (hdue : e ≤ s.tsu.now) :
    probeHoldExpiry g s = putGroup g { groupSt s g with probeEnd := none } s := by
  unfold probeHoldExpiry
  dsimp only
  rw [hend]
  exact if_neg (by simp [hclocked, hpowered, hdue])

/-! ## The statement -/

/-- Settles O21: it holds; what stops the ports of a group leaves the states of the groups alone. -/
theorem groupsGateAndWake : Obligations.GroupsGateAndWake := by
  unfold Obligations.GroupsGateAndWake
  refine ⟨?gate, ?notGating, ?wake, ?noWake, ?woken, ?notGood, ?idle, ?notIdle, ?probe, ?probeEnd⟩
  case gate =>
    exact fun dt g => happens_of_effect (fun _ => rfl) (by decide) (by decide) fun s ⟨hclocked, hgating⟩ =>
      ⟨gateDone_of_gating hclocked hgating, gateDone_frame (Changes.refl _ s) (by decide)⟩
  case notGating =>
    refine fun dt g => happens_of_effect (fun _ => rfl) (by decide) (by decide) fun s hnot => ?_
    rw [gateDone_of_not_gating hnot]
    exact ⟨trivial, Changes.refl _ s⟩
  case wake =>
    refine fun dt g => happens_of_effect (fun _ => rfl) (by decide) (by decide)
      fun s ⟨hclocked, hzeroized, hcause, hroom, hfirst⟩ => ⟨?_, wakeStart_frame (Changes.refl _ s) (by decide)⟩
    rw [wakeStart_of_cause hclocked hzeroized hcause hroom hfirst, groupSt_putGroup_self]
    exact ⟨rfl, rfl, fun h hne => groupSt_putGroup_ne _ _ hne⟩
  case noWake =>
    refine fun dt g => happens_of_effect (fun _ => rfl) (by decide) (by decide) fun s hnone => ?_
    rw [wakeStart_of_none hnone]
    exact ⟨trivial, Changes.refl _ s⟩
  case woken =>
    refine fun dt g => happens_of_effect (fun _ => rfl) (by decide) (by decide) fun s ⟨hclocked, hwaking, hwanted⟩ => ?_
    rw [wakeDone_of_waking hclocked hwaking hwanted]
    have hrecorded := wokenRecorded_changes g (wokenPorts g s)
    have hgroups : ∀ h, groupSt (eventRecord 0x0007 (lsbBytes 1 g) (raiseEvent (0x850 + g) (wokenPorts g s))) h =
        groupSt (wokenGroup g s) h := fun h =>
      (groupSt_of_changes hrecorded (by decide) h).trans (groupSt_of_changes (wokenPorts_changes g s) (by decide) h)
    refine ⟨⟨?_, ?_, ?_, fun h hne => (hgroups h).trans (groupSt_putGroup_ne _ _ hne), fun p hp => ?_⟩, ?_⟩
    · rw [hgroups, wokenGroup, groupSt_putGroup_self]
    · rw [hgroups, wokenGroup, groupSt_putGroup_self]
    · rw [(eventRecord_frame (Changes.refl [.frc] _) (by decide)).jic_levels (by decide)]
      exact levelNow_raiseEvent _ _
    · rw [portOf, hrecorded.ports (by decide)]
      exact wakePorts_link _ _ (.inl hp)
    · exact ((putGroup_frame (Changes.refl _ s) (by decide)).trans ((wokenPorts_changes g s).mono (by decide))).trans
        (hrecorded.mono (by decide))
  case notGood =>
    exact fun dt g => happens_of_effect (fun _ => rfl) (by decide) (by decide) fun s ⟨hclocked, hwaking⟩ =>
      ⟨powerNotGood_state hclocked hwaking, powerNotGood_frame (Changes.refl _ s) (by decide)⟩
  case idle =>
    refine fun dt g => happens_of_effect (fun _ => rfl) (by decide) (by decide)
      fun s ⟨hclocked, hlean, hpolicy, hnone, hprobe, hidle, hpowered⟩ => ⟨?_, idleExpiry_frame (Changes.refl _ s) (by decide)⟩
    rw [idleExpiry_of_idle hclocked hlean hpolicy hnone hprobe hidle]
    exact gateStart_of_powered hpowered
  case notIdle =>
    refine fun dt g => happens_of_effect (fun _ => rfl) (by decide) (by decide) fun s hnot => ?_
    rw [idleExpiry_of_not_idle hnot]
    exact ⟨trivial, Changes.refl _ s⟩
  case probe =>
    refine fun dt g => happens_of_effect (fun _ => rfl) (by decide) (by decide)
      fun s ⟨hclocked, hlean, hrequired, hgated, hperiod, hdue⟩ => ⟨?_, probeWake_frame (Changes.refl _ s) (by decide)⟩
    rw [probeWake_of_due hclocked hlean hrequired hgated hperiod hdue]
    exact ⟨groupSt_putGroup_self _ _ _, fun h hne => groupSt_putGroup_ne _ _ hne⟩
  case probeEnd =>
    refine fun dt g e => happens_of_effect (fun _ => rfl) (by decide) (by decide)
      fun s ⟨hclocked, hpowered, hend, hdue⟩ => ⟨?_, probeHoldExpiry_frame (Changes.refl _ s) (by decide)⟩
    rw [probeHoldExpiry_of_due hclocked hpowered hend hdue]
    exact ⟨groupSt_putGroup_self _ _ _, fun h hne => groupSt_putGroup_ne _ _ hne⟩

end Sys2Proof.Proofs
end

section
/-! PROOFS. Errors (18 R410 to R412, Table 18-6): what an error unit reads after each operation on it, QUARANTINE, the containment of
each error of Table 18-6, and the statements from them. -/
namespace Sys2Proof.Proofs
open Sys2Proof.Machine Sys2Proof.Safety

/-! ## An error unit's record -/

@[simp] theorem errUnit_putUnit_self (u : Nat) (e : ErrUnit) (s : State) : errUnit (putUnit u e s) u = e := tgetD_tput_self _ _ _ _

theorem errUnit_putUnit_ne {u v : Nat} (e : ErrUnit) (s : State) (h : v ≠ u) : errUnit (putUnit u e s) v = errUnit s v :=
  tgetD_tput_ne _ _ _ _ _ h

theorem errUnit_of_changes {l : List Part} {s t : State} (h : Changes l s t) (herr : Part.err ∉ l) (u : Nat) :
    errUnit t u = errUnit s u := by
  unfold errUnit
  rw [h.err herr]

theorem errorAt_changes (unit code inst sev cls d0 d1 : Nat) (s : State) :
    Changes errorParts s (errorAt unit code inst sev cls d0 d1 s) := errorAt_frame (Changes.refl _ s) (by decide)

/-! ## Acknowledgement and escalation (R411, R412) -/

@[simp] theorem errUnit_ackUnit_self (u : Nat) (s : State) : errUnit (ackUnit u s) u =
    { errUnit s u with acked := (errUnit s u).count, first := none, nested := false, escalated := false } := tgetD_tput_self _ _ _ _

theorem errUnit_ackUnit_ne {u v : Nat} (s : State) (h : v ≠ u) : errUnit (ackUnit u s) v = errUnit s v := tgetD_tput_ne _ _ _ _ _ h

theorem aged_of_old {now : Nat} {e : ErrUnit} {f : ErrRec} (hfirst : e.first = some f) (hold : f.ccyc + ms 10 ≤ now) :
    aged now e = { e with escalated := true } := by
  unfold aged
  rw [hfirst]
  exact if_pos hold

theorem aged_of_young {now : Nat} {e : ErrUnit} (h : ∀ f, e.first = some f → now < f.ccyc + ms 10) : aged now e = e := by
  unfold aged
  split
  next f hfirst => exact if_neg (h f hfirst).not_ge
  next => rfl

/-- The unit stands as it has aged; no other unit changes. -/
theorem errUnit_escalate {u : Nat} {s : State} (hclocked : clocked s = true) :
    errUnit (escalate u s) u = aged s.tsu.now (errUnit s u) ∧ ∀ v, v ≠ u → errUnit (escalate u s) v = errUnit s v := by
  unfold escalate
  dsimp only
  split
  next h => exact ⟨(h.resolve_left (by simp [hclocked])).symm, fun _ _ => rfl⟩
  next => exact ⟨errUnit_putUnit_self _ _ _, fun v hv => errUnit_putUnit_ne _ _ hv⟩

theorem escalate_of_young {u : Nat} {s : State} (h : ∀ f, (errUnit s u).first = some f → s.tsu.now < f.ccyc + ms 10) :
    escalate u s = s := by
  unfold escalate
  exact if_pos (.inr (aged_of_young h))

/-! ## QUARANTINE (R58, R412) -/

/-- A block that is not ZEROIZED is in QUARANTINE, and its entry ended its sessions and discarded a pending commit. -/
theorem enterQuarantine_enters {s : State} (hzeroized : s.mode.zeroized = false) :
    (enterQuarantine s).mode.quarantine = true ∧
      (s.mode.quarantine = false → (enterQuarantine s).cpx.sessions = [] ∧ (enterQuarantine s).cpx.staged.sealed = none) := by
  unfold enterQuarantine
  split
  next h =>
    have hin : s.mode.quarantine = true := by simpa [hzeroized] using h
    exact ⟨hin, fun hout => by simp [hin] at hout⟩
  next =>
    extract_lets s1 s2
    have hclosed : Changes [.pounce, .dbg, .frc] s1 s2 := by
      show Changes _ s1 (if _ then _ else _)
      split
      · exact closeLevel_frame (Changes.refl _ s1) (by decide)
      · exact Changes.refl _ s1
    have hdiscarded : s1.cpx.staged.sealed = none := by
      show (discardPending s).cpx.staged.sealed = none
      unfold discardPending
      split
      next => rfl
      next hopen => simpa using hopen
    exact ⟨rfl, fun _ => ⟨hclosed.cpx_sessions (by decide),
      (congrArg Staged.sealed (hclosed.cpx_staged (by decide) (by decide))).trans hdiscarded⟩⟩

/-- A FATAL error of a unit other than hood and SVE is recorded, and then QUARANTINE is entered. -/
theorem errorAt_fatal {unit code inst cls d0 d1 : Nat} {s : State} (hclocked : clocked s = true) (hhood : unit ≠ 0x12)
    (hsve : unit ≠ 0x13) :
    ∃ v, errorAt unit code inst sevFatal cls d0 d1 s = enterQuarantine v ∧ Changes [.err, .pounce, .dbg] s v := by
  unfold errorAt errorWith
  rw [if_neg (by simp [hclocked])]
  exact ⟨_, if_pos ⟨rfl, hhood, hsve⟩, armedFires_frame (raiseError_frame (Changes.refl _ s) (by decide)) (by decide)⟩

/-- Settles O25: it holds; the record of an error leaves the modes alone. -/
theorem fatalErrorsQuarantine : Obligations.FatalErrorsQuarantine := by
  unfold Obligations.FatalErrorsQuarantine
  intro unit code inst cls d0 d1 s hclocked hzeroized hhood hsve
  obtain ⟨v, hfatal, hrecorded⟩ := errorAt_fatal (code := code) (inst := inst) (cls := cls) (d0 := d0) (d1 := d1) hclocked hhood hsve
  obtain ⟨hquarantine, hentry⟩ := enterQuarantine_enters (s := v) ((hrecorded.mode_zeroized (by decide)).trans hzeroized)
  refine ⟨hfatal ▸ hquarantine, fun hout => ?_, fun hdbg => errorAt_raises hclocked hdbg⟩
  exact hfatal ▸ hentry ((hrecorded.mode_quarantine (by decide)).trans hout)

/-! ## The error log (R414) -/

theorem logFailure_raises {cls : Nat} {s : State} (hclocked : clocked s = true) : raises 0x0E 0x0F01 sevFatal s (logFailure cls s) :=
  errorAt_raises (s := { s with err := { s.err with writes := (recentWrites s).drop 1 } }) hclocked (by decide)

theorem logTimeout_of_late {s : State} (hclocked : clocked s = true) (hlate : ∃ w ∈ recentWrites s, w.1 + us 100 ≤ s.tsu.now) :
    logTimeout s = logFailure clsErrorPath s := by
  unfold logTimeout
  rw [if_neg]
  simpa [hclocked] using hlate

theorem logTimeout_of_early {s : State} (h : ∀ w ∈ recentWrites s, s.tsu.now < w.1 + us 100) : logTimeout s = s := by
  unfold logTimeout
  exact if_pos (.inr (by simpa using h))

theorem logWriteError_of_written {s : State} (hclocked : clocked s = true) (hwritten : recentWrites s ≠ []) :
    logWriteError s = logFailure clsErrorPath s := by
  unfold logWriteError
  rw [if_neg (by simp [hclocked, hwritten])]

/-! ## Shared SRAM -/

@[simp] theorem objOf_putObj_self (o : ShaperObj) (x : Sched) (s : State) : objOf (putObj o x s) o = x := by
  cases o <;> exact tgetD_tput_self _ _ _ _

/-- What each SRAM error comes to while the shared domain is clocked. -/
theorem sramError_of_clocked {s : State} (hclocked : clocked s = true) (bank : Nat) (h : SramHit) :
    sramError bank h s = match h with
      | .correctable => errorAt 0x1A 0x1A01 bank sevNote clsInternal 0 0 s
      | .security g => fenceSecurity g (errorAt 0x1A 0x1A02 bank sevCritical clsInternal g 0 s)
      | .policer c => killContext c (errorAt 0x1A 0x1A03 bank sevMajor clsInternal c 0 s)
      | .sched o => killObj o (errorAt 0x1A 0x1A04 bank sevMajor clsInternal (objCode o) 0 s)
      | .counter k => zeroCounter k (errorAt 0x1A 0x1A05 bank sevMinor clsInternal k 0 s)
      | .errorStore => errorAt 0x1A 0x0F02 bank sevFatal clsErrorPath 0 0 s := by
  cases h <;> exact if_neg (by simp [hclocked])

/-! ## CPX -/

/-- A lockstep error is recorded and CPX restarts. -/
theorem lockstepError_of_running {s : State} (hclocked : clocked s = true) (hrun : s.mode.stage = .run)
    (hzeroized : s.mode.zeroized = false) :
    ∃ sev, ∃ v, lockstepError s = restartCpx v ∧ v.tsu = s.tsu ∧ raises 0x11 0x1101 sev s v ∧ v.cpx.activation = none := by
  unfold lockstepError
  rw [if_neg (by simp [hclocked, hrun, hzeroized])]
  refine ⟨_, _, rfl, ?_, errorAt_raises hclocked (by decide), rfl⟩
  exact (errorAt_changes _ _ _ _ _ _ _ s).tsu (by decide)

/-! ## The statement -/

/-- Settles O24: it holds; what contains an error leaves its record as it is. -/
theorem errorsAreRecordedAndContained : Obligations.ErrorsAreRecordedAndContained := by
  unfold Obligations.ErrorsAreRecordedAndContained
  refine ⟨?ack, ?escalates, ?young, ?logLate, ?logEarly, ?logError, ?correctable, ?policer, ?sched, ?counter, ?security, ?errorStore,
    ?lockstep, ?restarted, ?activating⟩
  case ack =>
    refine fun z u n => performs_of (fun _ => rfl) rfl rfl (by decide) (by decide) (by decide) (fun s v t hv hreply => ?_)
      fun c s _ _ _ => ⟨rfl, rfl, rfl, rfl, ⟨errUnit_ackUnit_self u s, fun v hv => errUnit_ackUnit_ne s hv, rfl⟩,
        ackUnit_frame (Changes.refl _ s) (by decide)⟩
    simp only [errUnit_of_changes hreply (by decide), hreply.err (by decide)]
    exact hv
  case escalates =>
    refine fun dt u f => happens_of_effect (fun _ => rfl) (by decide) (by decide) fun s ⟨hclocked, hfirst, hold⟩ =>
      ⟨?_, escalate_frame (Changes.refl _ s) (by decide)⟩
    rw [← aged_of_old hfirst hold]
    exact errUnit_escalate hclocked
  case young =>
    refine fun dt u => happens_of_effect (fun _ => rfl) (by decide) (by decide) fun s hyoung => ?_
    rw [escalate_of_young hyoung]
    exact ⟨trivial, Changes.refl _ s⟩
  case logLate =>
    refine fun dt => happens_of_effect (fun _ => rfl) (by decide) (by decide) fun s ⟨hclocked, hlate⟩ => ?_
    rw [logTimeout_of_late hclocked hlate]
    exact ⟨logFailure_raises hclocked, logFailure_frame (Changes.refl _ s) (by decide)⟩
  case logEarly =>
    refine fun dt => happens_of_effect (fun _ => rfl) (by decide) (by decide) fun s hearly => ?_
    rw [logTimeout_of_early hearly]
    exact ⟨trivial, Changes.refl _ s⟩
  case logError =>
    refine fun dt => happens_of_effect (fun _ => rfl) (by decide) (by decide) fun s ⟨hclocked, hwritten⟩ => ?_
    rw [logWriteError_of_written hclocked hwritten]
    exact ⟨logFailure_raises hclocked, logFailure_frame (Changes.refl _ s) (by decide)⟩
  case correctable =>
    refine fun dt b => happens_of_effect (fun _ => rfl) (by decide) (by decide) fun s hclocked => ?_
    rw [sramError_of_clocked hclocked]
    exact ⟨errorAt_raises hclocked (by decide), errorAt_changes _ _ _ _ _ _ _ s⟩
  case policer =>
    refine fun dt b c => happens_of_effect (fun _ => rfl) (by decide) (by decide) fun s hclocked => ?_
    rw [sramError_of_clocked hclocked]
    exact ⟨⟨raises_after (killContext_frame (Changes.refl [.pols] _) (by decide)) (by decide) (errorAt_raises hclocked (by decide)),
      congrArg PolSt.dead (tgetD_tput_self _ _ _ _)⟩, killContext_frame (errorAt_frame (Changes.refl _ s) (by decide)) (by decide)⟩
  case sched =>
    refine fun dt b o => happens_of_effect (fun _ => rfl) (by decide) (by decide) fun s hclocked => ?_
    rw [sramError_of_clocked hclocked]
    exact ⟨⟨raises_after (killObj_frame (Changes.refl [.esh] _) (by decide)) (by decide) (errorAt_raises hclocked (by decide)),
      congrArg Sched.dead (objOf_putObj_self _ _ _)⟩, killObj_frame (errorAt_frame (Changes.refl _ s) (by decide)) (by decide)⟩
  case counter =>
    refine fun dt b k => happens_of_effect (fun _ => rfl) (by decide) (by decide) fun s hclocked => ?_
    rw [sramError_of_clocked hclocked]
    exact ⟨⟨raises_after (zeroCounter_frame (Changes.refl [.ctr, .tel] _) (by decide)) (by decide)
      (errorAt_raises hclocked (by decide)), congrArg Option.isNone (tget_tdel_self _ _)⟩,
      zeroCounter_frame (errorAt_frame (Changes.refl _ s) (by decide)) (by decide)⟩
  case security =>
    refine fun dt b g => happens_of_effect (fun _ => rfl) (by decide) (by decide) fun s ⟨hclocked, _⟩ => ?_
    rw [sramError_of_clocked hclocked]
    exact ⟨fenceGroup_state g _, fenceSecurity_frame (errorAt_frame (Changes.refl _ s) (by decide)) (by decide)⟩
  case errorStore =>
    refine fun dt b => happens_of_effect (fun _ => rfl) (by decide) (by decide) fun s hclocked => ?_
    rw [sramError_of_clocked hclocked]
    exact ⟨errorAt_raises hclocked (by decide), errorAt_changes _ _ _ _ _ _ _ s⟩
  case lockstep =>
    refine fun dt => happens_of_effect (fun _ => rfl) (by decide) (by decide) fun s ⟨hclocked, hrun, hzeroized⟩ =>
      ⟨?_, lockstepError_frame (Changes.refl _ s) (by decide)⟩
    obtain ⟨sev, v, hrestart, htime, ⟨hcode, -⟩, hactivation⟩ := lockstepError_of_running hclocked hrun hzeroized
    rw [hrestart, ← htime]
    exact ⟨rfl, rfl, rfl, rfl, hactivation, hcode⟩
  case restarted =>
    refine fun dt => happens_of_effect (fun _ => rfl) (by decide) (by decide) fun s ⟨hclocked, hnone⟩ =>
      ⟨?_, restartDone_frame (Changes.refl _ s) (by decide)⟩
    unfold restartDone
    rw [if_pos ⟨hclocked, by simp [hnone]⟩]
  case activating =>
    refine fun dt => happens_of_effect (fun _ => rfl) (by decide) (by decide) fun s hactivating => ?_
    have hsame : restartDone s = s := by
      unfold restartDone
      rw [if_neg fun h => hactivating (Option.isNone_iff_eq_none.mp h.2)]
    rw [hsame]
    exact ⟨trivial, Changes.refl _ s⟩

end Sys2Proof.Proofs
end

section
/-! PROOFS. The queries of groups 0x00 to 0x05 (02 R49, Table 2-9, 18 R410): each shows what its opcode's record shows. -/
namespace Sys2Proof.Proofs
open Sys2Proof.Machine Sys2Proof.Safety

/-- Settles O41: it holds, query by query, since what each opcode shows is the body that the statement gives. That PORT_STATE_GET shows no
pause bits is the model's choice (log 40). -/
theorem trafficQueriesAnswer : Obligations.TrafficQueriesAnswer := by
  unfold Obligations.TrafficQueriesAnswer
  refine ⟨?sessionList, ?epochStatus, ?errorRead, ?portStateGet, ?saStateGet, ?classGet, ?refusalCountsGet, ?policerGet, ?schedStateGet⟩
  all_goals
    intros
    exact answers_of (fun _ => rfl) rfl (fun _ _ => rfl) rfl

end Sys2Proof.Proofs
end

section
/-! PROOFS. Regions of the flight recorder (14 R338 to R340): what a region's record reads after each operation on it, one rule for each
answer of a granule, and the statement from them. -/
namespace Sys2Proof.Proofs
open Sys2Proof.Machine Sys2Proof.Safety

/-! ## A region's record -/

@[simp] theorem regionOf_putRegion_self (n : Nat) (r : Region) (s : State) : regionOf (putRegion n r s) n = r := tgetD_tput_self _ _ _ _

theorem regionOf_putRegion_ne {n j : Nat} (r : Region) (s : State) (h : j ≠ n) : regionOf (putRegion n r s) j = regionOf s j :=
  tgetD_tput_ne _ _ _ _ _ h

theorem regionOf_of_changes {l : List Part} {s t : State} (h : Changes l s t) (hfrc : Part.frc ∉ l) (n : Nat) :
    regionOf t n = regionOf s n := by
  unfold regionOf
  rw [h.frc hfrc]

/-- An error that is not FATAL reaches the debug unit and no other unit than its own. -/
theorem errorAt_notFatal_changes {unit code inst sev cls d0 d1 : Nat} (hsev : sev ≠ sevFatal) (s : State) :
    Changes [.err, .pounce, .dbg] s (errorAt unit code inst sev cls d0 d1 s) := by
  unfold errorAt errorWith
  split
  · exact Changes.refl _ s
  · dsimp only
    rw [if_neg fun h => hsev h.1]
    exact armedFires_frame (raiseError_frame (Changes.refl _ s) (by decide)) (by decide)

/-! ## FRC_CONTROL (R338) -/

theorem controlRegion_changes (n action : Nat) (c : ReplyCtx) (s : State) : Changes [.frc] s (controlRegion n action c s).state := by
  unfold controlRegion
  split
  · exact putRegion_frame (Changes.refl _ s) (by decide)
  · exact eventRecord_frame (putRegion_frame (Changes.refl _ s) (by decide)) (by decide)
  · exact putRegion_frame (Changes.refl _ s) (by decide)

theorem controlRegion_starts (n : Nat) (c : ReplyCtx) (s : State) : (regionOf (controlRegion n 1 c s).state n).state = .recording ∧
    ∀ j, j ≠ n → (regionOf (controlRegion n 1 c s).state j).state = (regionOf s j).state := by
  have hrecorded : SameRegions (putRegion n { regionOf s n with state := .recording } s) (controlRegion n 1 c s).state :=
    eventRecord_regions _ _ _
  refine ⟨?_, fun j hj => ?_⟩
  · rw [(hrecorded n).1, regionOf_putRegion_self]
  · rw [(hrecorded j).1, regionOf_putRegion_ne _ _ hj]

theorem controlRegion_clears (n : Nat) (c : ReplyCtx) (s : State) :
    (controlRegion n 2 c s).state = putRegion n { regionOf s n with writePtr := 0, wraps := 0 } s := rfl

theorem controlRegion_stops (n : Nat) (c : ReplyCtx) (s : State) :
    (controlRegion n 0 c s).state = putRegion n { closeGranule s.tsu.now (regionOf s n) with stopping := some c } s := rfl

theorem closeGranule_state (now : Nat) (r : Region) : (closeGranule now r).state = r.state := by
  unfold closeGranule
  split <;> rfl

/-! ## Granules (R339, R340) -/

theorem granuleFlush_of_due {n : Nat} {s : State} (hclocked : clocked s = true) (hrecording : (regionOf s n).state = .recording)
    (hfilled : (regionOf s n).granule ≠ []) (hdue : (regionOf s n).granuleAt + us 50 ≤ s.tsu.now) :
    granuleFlush n s = putRegion n { regionOf s n with
      granule := [], inFlight := (regionOf s n).inFlight ++ [(s.tsu.now, padTo 512 (regionOf s n).granule)] } s := by
  unfold granuleFlush
  dsimp only
  rw [if_neg (by simp [hclocked, hrecording, hfilled, hdue]), closeGranule, if_neg hfilled]

section Answered
variable {n : Nat} {s : State} {b : FrcRegionBody} {e : Nat × List Byte} {l : List (Nat × List Byte)} (hclocked : clocked s = true)
  (hrecording : (regionOf s n).state = .recording) (hcfg : tget s.cfg.frc n = some b) (hflight : (regionOf s n).inFlight = e :: l)
include hclocked hrecording hcfg hflight

/-- A granule that is written stands in side memory, unpoisoned, and its region moves on. -/
theorem granuleDone_written (hup : smcUp s = true) :
    (granuleDone n true s).smc.mem = memWrites s.smc.mem (b.base + (regionOf s n).writePtr) e.2 ∧
      (b.base + (regionOf s n).writePtr) / 512 ∉ (granuleDone n true s).smc.poison ∧
      regionOf (granuleDone n true s) n = advancePtr b { regionOf s n with inFlight := l } := by
  unfold granuleDone
  dsimp only
  rw [hcfg, hflight]
  dsimp only
  rw [if_neg (by simp [hclocked, hrecording, hup]), if_pos rfl]
  have htouched : Changes [.quarantine, .sessions, .sealed, .err, .smc, .frc, .pounce, .dbg, .out] s
      (touch 0 (b.base + (regionOf s n).writePtr) (some e.2) s) := touch_frame (Changes.refl _ s) (by decide)
  rw [htouched.smc_mem (by decide)]
  split
  · exact ⟨rfl, by simp, regionOf_putRegion_self _ _ _⟩
  · have hraised : ∀ v, Changes [.levels, .jic] v (raiseEvent (0x880 + n) v) := fun v =>
      raiseEvent_frame (Changes.refl _ v) (by decide)
    exact ⟨(hraised _).smc_mem (by decide), by rw [(hraised _).smc_poison (by decide)]; simp,
      (regionOf_of_changes (hraised _) (by decide) n).trans (regionOf_putRegion_self _ _ _)⟩

/-- A granule whose write fails puts its region in ERROR. -/
theorem granuleDone_failed : granuleDone n false s = raiseEvent (0x880 + n)
    (errorAt 0x0F 0x0F03 n sevMajor clsInternal (b.base + (regionOf s n).writePtr) 0
      (putRegion n { regionOf s n with inFlight := l, state := .error } s)) := by
  unfold granuleDone
  dsimp only
  rw [hcfg, hflight]
  dsimp only
  rw [if_neg (by simp [hclocked, hrecording]), if_neg Bool.false_ne_true]

end Answered

section Pointer
variable {b : FrcRegionBody} {g : Region}

theorem advancePtr_on (h : g.writePtr + 512 < b.size) : (advancePtr b g).writePtr = g.writePtr + 512 ∧
    (advancePtr b g).wraps = g.wraps ∧ (advancePtr b g).state = g.state := by
  unfold advancePtr
  dsimp only
  rw [if_pos h]
  split <;> exact ⟨rfl, rfl, rfl⟩

theorem advancePtr_wraps (h : b.size ≤ g.writePtr + 512) (hmode : b.regionMode = 0) : (advancePtr b g).writePtr = 0 ∧
    (advancePtr b g).wraps = g.wraps + 1 ∧ (advancePtr b g).state = g.state := by
  unfold advancePtr
  dsimp only
  rw [if_neg h.not_gt, if_pos hmode]
  split <;> exact ⟨rfl, rfl, rfl⟩

theorem advancePtr_full (h : b.size ≤ g.writePtr + 512) (hmode : b.regionMode ≠ 0) : (advancePtr b g).writePtr = b.size ∧
    (advancePtr b g).state = .full := by
  unfold advancePtr
  dsimp only
  rw [if_neg h.not_gt, if_neg hmode]
  exact ⟨rfl, rfl⟩

end Pointer

/-! ## The end of a stop (R338) -/

/-- A region whose stop is complete. -/
def stoppedRegion (n : Nat) (s : State) : State :=
  eventRecord 0x000C (lsbBytes 1 n ++ lsbBytes 1 0) (putRegion n { regionOf s n with state := .stopped, stopping := none } s)

theorem regionStopDone_of_answered {n : Nat} {s : State} {c : ReplyCtx} (hclocked : clocked s = true)
    (hstopping : (regionOf s n).stopping = some c) (hflight : (regionOf s n).inFlight = []) :
    regionStopDone n s = answer c stOk 0 [] (stoppedRegion n s) := by
  unfold regionStopDone
  dsimp only
  rw [hstopping]
  exact if_neg (by simp [hclocked, hflight])

theorem stoppedRegion_state (n : Nat) (s : State) : (regionOf (stoppedRegion n s) n).state = .stopped ∧
    (regionOf (stoppedRegion n s) n).stopping = none := by
  obtain ⟨hstate, hstopping, -⟩ := eventRecord_regions 0x000C (lsbBytes 1 n ++ lsbBytes 1 0)
    (putRegion n { regionOf s n with state := .stopped, stopping := none } s) n
  rw [regionOf_putRegion_self] at hstate hstopping
  exact ⟨hstate, hstopping⟩

/-! ## The statement -/

/-- Settles O56: it holds; the records and replies that follow leave every region's state, stop and pointer as they are. -/
theorem regionsRecordAndStop : Obligations.RegionsRecordAndStop := by
  unfold Obligations.RegionsRecordAndStop
  refine ⟨?start, ?clear, ?stop, ?flush, ?written, ?failed, ?stopped⟩
  case start =>
    refine fun z n => performs_keeping (fun _ => rfl) rfl rfl (by decide) (by decide) (by decide) (fun u v t hv _ hkept => ?_)
      fun c u _ _ _ => ⟨rfl, rfl, rfl, (controlRegion_changes n 1 c u).cpx_activation (by decide), controlRegion_starts n c u,
        (controlRegion_changes n 1 c u).mono (by decide)⟩
    exact ⟨(hkept n).1.trans hv.1, fun j hj => (hkept j).1.trans (hv.2 j hj)⟩
  case clear =>
    refine fun z n => performs_keeping (fun _ => rfl) rfl rfl (by decide) (by decide) (by decide) (fun u v t hv _ hkept => ?_)
      fun c u _ _ _ => ⟨rfl, rfl, rfl, rfl, ?_, (controlRegion_changes n 2 c u).mono (by decide)⟩
    · obtain ⟨hptr, hwraps, hstate, hothers⟩ := hv
      obtain ⟨kstate, -, kptr, kwraps⟩ := hkept n
      refine ⟨kptr.trans hptr, kwraps.trans hwraps, kstate.trans hstate, fun j hj => ?_⟩
      obtain ⟨-, -, jptr, jwraps⟩ := hkept j
      exact ⟨jptr.trans (hothers j hj).1, jwraps.trans (hothers j hj).2⟩
    · rw [show ((opFrcControl n 2).run c u).state = _ from controlRegion_clears n c u, regionOf_putRegion_self]
      exact ⟨rfl, rfl, rfl, fun j hj => by rw [regionOf_putRegion_ne _ _ hj]; exact ⟨rfl, rfl⟩⟩
  case stop =>
    refine fun z n => defers_keeping (fun _ => rfl) rfl rfl (by decide) (by decide) (fun c u v t hv _ hkept => ?_)
      fun c u _ _ _ => ⟨rfl, fun _ _ => id, rfl, ?_, (controlRegion_changes n 0 c u).mono (by decide)⟩
    · obtain ⟨hstopping, hstate, hothers⟩ := hv
      obtain ⟨kstate, kstopping, -, -⟩ := hkept n
      refine ⟨kstopping.trans hstopping, kstate.trans hstate, fun j hj => ?_⟩
      obtain ⟨-, jstopping, -, -⟩ := hkept j
      exact jstopping.trans (hothers j hj)
    · rw [show ((opFrcControl n 0).run c u).state = _ from controlRegion_stops n c u, regionOf_putRegion_self]
      exact ⟨rfl, closeGranule_state _ _, fun j hj => by rw [regionOf_putRegion_ne _ _ hj]⟩
  case flush =>
    refine fun dt n => happens_of_effect (fun _ => rfl) (by decide) (by decide)
      fun s ⟨hclocked, hrecording, hfilled, hdue⟩ => ⟨?_, granuleFlush_frame (Changes.refl _ s) (by decide)⟩
    rw [granuleFlush_of_due hclocked hrecording hfilled hdue]
    exact ⟨regionOf_putRegion_self _ _ _, fun j hj => regionOf_putRegion_ne _ _ hj⟩
  case written =>
    refine fun dt n b e l => happens_of_effect (fun _ => rfl) (by decide) (by decide)
      fun s ⟨hclocked, hup, hrecording, hcfg, hflight⟩ => ⟨?_, granuleDone_frame (Changes.refl _ s) (by decide)⟩
    obtain ⟨hmem, hpoison, hregion⟩ := granuleDone_written hclocked hrecording hcfg hflight hup
    refine ⟨hmem, hpoison, fun hon => ?_, fun hend hmode => ?_, fun hend hmode => ?_⟩
    · rw [hregion, ← hrecording]
      exact advancePtr_on (g := { regionOf s n with inFlight := l }) hon
    · rw [hregion, ← hrecording]
      exact advancePtr_wraps (g := { regionOf s n with inFlight := l }) hend hmode
    · rw [hregion]
      exact advancePtr_full (g := { regionOf s n with inFlight := l }) hend hmode
  case failed =>
    refine fun dt n b e l => happens_of_effect (fun _ => rfl) (by decide) (by decide)
      fun s ⟨hclocked, hrecording, hcfg, hflight⟩ => ?_
    rw [granuleDone_failed hclocked hrecording hcfg hflight]
    refine ⟨⟨?_, ?_⟩, raiseEvent_frame (errorAt_frame (putRegion_frame (Changes.refl _ s) (by decide)) (by decide)) (by decide)⟩
    · exact raises_after (raiseEvent_frame (Changes.refl [.levels, .jic] _) (by decide)) (by decide)
        (errorAt_raises (s := putRegion n { regionOf s n with inFlight := l, state := .error } s) hclocked (by decide))
    · rw [regionOf_of_changes (raiseEvent_frame (Changes.refl [.levels, .jic] _) (by decide)) (by decide),
        regionOf_of_changes (errorAt_notFatal_changes (by decide) _) (by decide), regionOf_putRegion_self]
  case stopped =>
    refine fun dt n c => happens_of_effect (fun _ => rfl) (by decide) (by decide)
      fun s ⟨hclocked, hstopping, hflight, honError⟩ => ⟨?_, regionStopDone_frame (Changes.refl _ s) (by decide)⟩
    rw [regionStopDone_of_answered hclocked hstopping hflight, regionOf_of_changes (answer_changes _ _ _ _ _) (by decide)]
    obtain ⟨hstate, hnone⟩ := stoppedRegion_state n s
    obtain ⟨-, hstatus, hbody, -⟩ := mkReply_fields c stOk 0 [] (stoppedRegion n s)
    exact ⟨hstate, hnone, _, answer_out (.inl honError) (.inl (by decide)), hstatus, hbody⟩

end Sys2Proof.Proofs
end

section
/-! PROOFS. Access IDs (17 R397 to R400, 20 R438): what an ID's record reads after a violation and after its unfreeze, which access each
row's spot makes one of, and the statement from them. -/
namespace Sys2Proof.Proofs
open Sys2Proof.Machine Sys2Proof.Safety

/-! ## An ID's record -/

@[simp] theorem accOf_putAcc_self (id : Nat) (a : AccSt) (s : State) : accOf (putAcc id a s) id = a := tgetD_tput_self _ _ _ _

theorem accOf_putAcc_ne {id i : Nat} (a : AccSt) (s : State) (h : i ≠ id) : accOf (putAcc id a s) i = accOf s i :=
  tgetD_tput_ne _ _ _ _ _ h

theorem accOf_of_changes {l : List Part} {s t : State} (h : Changes l s t) (hacc : Part.acc ∉ l) (id : Nat) :
    accOf t id = accOf s id := by
  unfold accOf
  rw [h.acc hacc]

/-! ## Violations (R398, R399) -/

/-- What freezing an ID changes once the ID's own record is written. -/
def haltParts : List Part := freezeParts.filter (· ≠ .acc)

/-- Freezing an ID writes its record and no other. -/
theorem accOf_freezeId (id code : Nat) (security : Bool) (s : State) (i : Nat) :
    accOf (freezeId id code security s) i =
      if i = id then { times := [], freezes := (accOf s id).freezes + 1, frozen := true } else accOf s i := by
  have hrest : Changes haltParts (putAcc id { times := [], freezes := (accOf s id).freezes + 1, frozen := true } s)
      (freezeId id code security s) := by
    unfold freezeId
    extract_lets a s1 s2 s3 s4
    have h4 : Changes haltParts s1 s4 :=
      errorAt_frame (eventRecord_frame (maskTargets_frame (freezeChannels_frame (freezeRings_frame (.refl haltParts s1)
        (by decide)) (by decide)) (by decide)) (by decide)) (by decide)
    split
    · exact enterQuarantine_frame h4 (by decide)
    · exact h4
  rw [accOf_of_changes hrest (by decide)]
  split
  next h => rw [h, accOf_putAcc_self]
  next h => exact accOf_putAcc_ne _ _ h

theorem violate_changes (id code : Nat) (s : State) : Changes freezeParts s (violate id code s) :=
  violate_frame (.refl _ s) (by decide)

/-- What a violation leaves in its ID's record (R399). -/
theorem accOf_violate (id code : Nat) (s : State) : accOf (violate id code s) id =
    if code = vioSealed ∨ violationLimit s id ≤ ((accOf s id).times.filter (fun x => s.tsu.now < x + secs 1)).length + 1 then
      { times := [], freezes := (accOf s id).freezes + 1, frozen := true }
    else { accOf s id with times := (s.tsu.now :: (accOf s id).times.filter (fun x => s.tsu.now < x + secs 1)).take 16 } := by
  unfold violate
  dsimp only
  by_cases hsealed : code = vioSealed
  · rw [if_pos hsealed, if_pos (.inl hsealed), accOf_freezeId, if_pos rfl]
  · by_cases hlimit : violationLimit s id ≤ ((accOf s id).times.filter (fun x => s.tsu.now < x + secs 1)).length + 1
    · rw [if_neg hsealed, if_pos (List.length_cons ▸ hlimit), if_pos (.inr hlimit), accOf_freezeId, if_pos rfl]
    · rw [if_neg hsealed, if_neg (List.length_cons ▸ hlimit), if_neg (not_or.mpr ⟨hsealed, hlimit⟩), accOf_putAcc_self]

/-- An accountable ID's access is answered with error and is a violation. -/
theorem denied_of_accountable {id : Nat} (code : Nat) {s : State} (h : accountable id s) :
    denied id code false s = violate id code (sypError s) := by
  obtain ⟨hclocked, hfrozen, hboot, hzeroized⟩ := h
  unfold denied
  rw [if_neg (by simp [hclocked]), if_neg (by simp [hfrozen, hboot, hzeroized])]

/-- So it violates, in the access's own step (log 40). -/
theorem denied_violates {id : Nat} (code : Nat) {s : State} (h : accountable id s) :
    violates id (decide (code = vioSealed)) s (denied id code false s) ∧ Changes freezeParts s (denied id code false s) := by
  have hchanges := violate_changes id code (sypError s)
  rw [denied_of_accountable code h]
  exact ⟨⟨hchanges.sent (by decide) (mem_out_emit _ s), by simp only [accOf_violate, decide_eq_true_eq]; rfl⟩,
    (sypError_frame (.refl _ s) (by decide)).trans hchanges⟩

/-! ## Reads and writes at a spot (R438) -/

theorem sypRead_sealed {id off width : Nat} {s : State} (h : spotAt s off = .sealed) :
    sypRead id off width s = denied id vioSealed false s := by
  unfold sypRead
  rw [h]

theorem sypRead_unmapped {id off width : Nat} {s : State} (h : spotAt s off = .unmapped) :
    sypRead id off width s = denied id vioUnmapped false s := by
  unfold sypRead
  rw [h]

theorem sypRead_status {id off v : Nat} {s : State} (h : spotAt s off = .status none v) (hwhole : off % 8 = 0)
    (hread : statusRead s id = true) : sypRead id off 8 s = statusAnswer id v s := by
  unfold sypRead
  rw [h]
  exact (if_neg (not_not_intro ⟨rfl, hwhole⟩)).trans (if_pos (.inl hread))

theorem sypWrite_sealed {id off width : Nat} {s : State} (h : spotAt s off = .sealed) :
    sypWrite id off width s = denied id vioSealed false s := by
  unfold sypWrite
  rw [h]

theorem sypWrite_unmapped {id off width : Nat} {s : State} (h : spotAt s off = .unmapped) :
    sypWrite id off width s = denied id vioUnmapped false s := by
  unfold sypWrite
  rw [h]

theorem sypWrite_status {id off width v : Nat} {owner : Option Nat} {s : State} (h : spotAt s off = .status owner v) :
    sypWrite id off width s = denied id vioWrite false s := by
  unfold sypWrite
  rw [h]

theorem statusAnswer_of_clocked {id : Nat} (v : Nat) {s : State} (hclocked : clocked s = true) (hfrozen : accFrozen s id = false) :
    statusAnswer id v s = sypOk v s := by
  unfold statusAnswer
  rw [if_neg (by simp [hclocked]), if_neg (by simp [hfrozen])]

theorem denied_of_frozen {id : Nat} (code : Nat) {s : State} (hclocked : clocked s = true) (hfrozen : accFrozen s id = true) :
    denied id code false s = sypError s := by
  unfold denied
  rw [if_neg (by simp [hclocked]), if_pos (.inl hfrozen)]

/-! ## The unfreeze (R400) -/

theorem accOf_unfreezeId (id keyId : Nat) (s : State) (i : Nat) :
    accOf (unfreezeId id keyId s) i = if i = id then { accOf s id with frozen := false, times := [] } else accOf s i := by
  have hrest : Changes haltParts (putAcc id { accOf s id with frozen := false, times := [] } s) (unfreezeId id keyId s) :=
    eventRecord_frame (emptyTargets_frame (unfreezeChannels_frame (unfreezeRings_frame (.refl haltParts _)
      (by decide)) (by decide)) (by decide)) (by decide)
  rw [accOf_of_changes hrest (by decide)]
  split
  next h => rw [h, accOf_putAcc_self]
  next h => exact accOf_putAcc_ne _ _ h

/-- Settles O16: it holds. A permitted read is answered by the status word's own rule, every other access by the rule of denied accesses.
A permitted read at a register page that the row names is the model's reading (log 7, log 38), and the freeze in the violating access's own
step is its choice (log 40). -/
theorem accessesAreAnsweredOrViolate : Obligations.AccessesAreAnsweredOrViolate := by
  unfold Obligations.AccessesAreAnsweredOrViolate
  refine ⟨?permitted, ?readSealed, ?readUnmapped, ?writeSealed, ?writeStatus, ?frozen, ?unfreeze⟩
  case permitted =>
    intro dt a off v
    refine happens_of_effect (fun _ => rfl) (by decide) (by decide) fun s ⟨hclocked, hfrozen, hwhole, hspot, hread⟩ => ?_
    rw [sypRead_status hspot hwhole hread, statusAnswer_of_clocked v hclocked hfrozen]
    exact ⟨mem_out_emit _ s, sypOk_frame (.refl _ s) (by decide)⟩
  case readSealed =>
    intro dt a off w
    refine happens_of_effect (fun _ => rfl) (by decide) (by decide) fun s ⟨h, hspot⟩ => ?_
    rw [sypRead_sealed hspot]
    exact denied_violates vioSealed h
  case readUnmapped =>
    intro dt a off w
    refine happens_of_effect (fun _ => rfl) (by decide) (by decide) fun s ⟨h, hspot⟩ => ?_
    rw [sypRead_unmapped hspot]
    exact denied_violates vioUnmapped h
  case writeSealed =>
    intro dt a off w
    refine happens_of_effect (fun _ => rfl) (by decide) (by decide) fun s ⟨h, hspot⟩ => ?_
    rw [sypWrite_sealed hspot]
    exact denied_violates vioSealed h
  case writeStatus =>
    intro dt a off w o v
    refine happens_of_effect (fun _ => rfl) (by decide) (by decide) fun s ⟨h, hspot⟩ => ?_
    rw [sypWrite_status hspot]
    exact denied_violates vioWrite h
  case frozen =>
    intro dt a off w
    refine happens_of_effect (fun _ => rfl) (by decide) (by decide) fun s ⟨hclocked, hfrozen, hspot⟩ => ?_
    rw [sypWrite_unmapped hspot, denied_of_frozen vioUnmapped hclocked hfrozen]
    exact ⟨mem_out_emit _ s, sypError_frame (.refl _ s) (by decide)⟩
  case unfreeze =>
    intro z a
    refine performs_of (op := opMasterUnfreeze a) (fun _ => rfl) rfl rfl (by decide) (by decide) (by decide) ?_ ?_
    · intro u v t ⟨hself, hother⟩ hreply
      have hsame := accOf_of_changes hreply (by decide)
      exact ⟨(hsame a).trans hself, fun b hb => (hsame b).trans (hother b hb)⟩
    · intro c u _ _ _
      have hacc := accOf_unfreezeId a c.keyId u
      have hframe : Changes freezeParts u (unfreezeId a c.keyId u) := unfreezeId_frame (.refl _ u) (by decide)
      exact ⟨rfl, rfl, rfl, hframe.cpx_activation (by decide), ⟨by rw [opMasterUnfreeze, hacc, if_pos rfl],
        fun b hb => by rw [opMasterUnfreeze, hacc, if_neg hb]⟩, hframe.mono fun _ => List.mem_append_left _⟩

end Sys2Proof.Proofs
end

section
/-! PROOFS. Commands that burn fuses (17 R383): whom their replies reach, what a burn leaves of the fuses, and the keys (17 R385 to R389,
R393, 19 R425). -/
namespace Sys2Proof.Proofs
open Sys2Proof.Machine Sys2Proof.Safety

/-! ## The reply of an admitted command -/

/-- The context under which a command's record is replied to. -/
def Addressed (op : Op) (z : Zelgen) (c : ReplyCtx) : Prop :=
  c.origin = z.origin ∧ c.opcode = op.opcode ∧ c.sequence = z.sequence ∧ c.correlation = z.correlation ∧ c.onError = replyOnError z

theorem admitted_addressed {op : Op} {z : Zelgen} {s u : State} {c : ReplyCtx} (h : admitted op z s = some (c, u)) : Addressed op z c :=
  have ⟨horigin, hopcode, hsequence, hcorrelation, honError, _, _⟩ := admitted_ctx h
  ⟨horigin, hopcode, hsequence, hcorrelation, honError⟩

/-- What was replied stays replied. -/
theorem replied_of_changes {z : Zelgen} {code st : Nat} {body : Fields} {l : List Part} {s t : State} (h : Replied z code st body s)
    (hc : Changes l s t) (hsent : Part.sent ∉ l) : Replied z code st body t :=
  have ⟨r, hr, hfields⟩ := h
  ⟨r, hc.sent hsent hr, hfields⟩

/-- An effect that is answered as it concludes is replied to. -/
theorem replied_concluded {op : Op} {z : Zelgen} {c : ReplyCtx} {r : Done} (h : Addressed op z c) (hlater : r.later = false)
    (hst : r.status < 0x0201) (hon : replyOnError z = false) : Replied z op.opcode r.status r.body (concluded c r) := by
  obtain ⟨horigin, hopcode, hsequence, hcorrelation, honError⟩ := h
  obtain ⟨y, hout, hop, hy, hbody, hseq, hcor⟩ := concluded_out hlater (.inl (honError.trans hon)) (.inl hst)
  exact ⟨y, horigin ▸ hout, hop.trans hopcode, hy, hbody, hseq.trans hsequence, hcor.trans hcorrelation⟩

/-- An answer under a command's context is its reply. -/
theorem replied_answer {op : Op} {z : Zelgen} {c : ReplyCtx} (h : Addressed op z c) {st : Nat} (d : Nat) (body : Fields) (s : State)
    (hst : st < 0x0201) (hon : replyOnError z = false) : Replied z op.opcode st body (answer c st d body s) := by
  obtain ⟨horigin, hopcode, hsequence, hcorrelation, honError⟩ := h
  obtain ⟨hop, hy, hbody, hseq, hcor⟩ := mkReply_fields c st d body s
  exact ⟨_, horigin ▸ answer_out (.inl (honError.trans hon)) (.inl hst), hop.trans hopcode, hy, hbody, hseq.trans hsequence,
    hcor.trans hcorrelation⟩

/-- What was replied before the fuses are burnt stays replied. -/
theorem replied_within {z : Zelgen} {code st : Nat} {body : Fields} {t : State} (u : State) (h : Replied z code st body t) :
    Replied z code st body (within u t) := h

/-! ## Fuses that a command burns -/

/-- A command that burns fuses: `post` is shown of its effect's conclusion, burnt over the fuses that it found. -/
theorem burns_addressed {i : Instr} {op : Op} {z : Zelgen} {pre : State → Prop} {l : List Part} {post : ReplyCtx → State → State → Prop}
    (hi : commandOf i = some (op, z)) (hedit : op.edit = none) (hopen : isOpen op = false) (hpending : Part.pending ∉ l)
    (hrun : ∀ c u, pre u → u.cpx.activation = none → (op.run c u).state.cpx.activation = none ∧
      Changes (.fuses :: (l ++ (checkParts ++ replyParts))) u (op.run c u).state)
    (hpost : ∀ c u, pre u → u.cpx.activation = none → Addressed op z c → post c u (within u (concluded c (op.run c u)))) :
    Burns i op z pre l post := by
  have hburns : Burns i op z pre l fun c u t => Addressed op z c → post c u t :=
    burns_of (exec_of_commandOf hi) hedit hopen hpending fun c u hpre hactivation _ _ _ =>
      have ⟨hstill, hchanges⟩ := hrun c u hpre hactivation
      ⟨hstill.trans hactivation.symm, hchanges, fun x hx haddressed => hx ▸ hpost c u hpre hactivation haddressed⟩
  intro s c u hadmitted hpre
  obtain ⟨t, hnext, ht, hchanges⟩ := hburns s c u hadmitted hpre
  exact ⟨t, hnext, ht (admitted_addressed hadmitted), hchanges⟩

/-- The fuses that a conclusion leaves are those that its effect burnt. -/
theorem within_concluded_fuses (c : ReplyCtx) (u : State) (r : Done) :
    (within u (concluded c r)).fuses = burnFuses u.fuses r.state.fuses :=
  congrArg (burnFuses u.fuses) ((concluded_changes c r).fuses (by decide))

@[simp] theorem burnFuses_revokeCount (f : Fuses) (n : BitVec 512) :
    burnFuses f { f with revokeCount := n } = { f with revokeCount := f.revokeCount ||| n } := by simp [burnFuses]

@[simp] theorem burnFuses_zeroizeCount (f : Fuses) (n : BitVec 64) :
    burnFuses f { f with zeroizeCount := n } = { f with zeroizeCount := f.zeroizeCount ||| n } := by simp [burnFuses]

@[simp] theorem burnFuses_fwKeyRevoked (f : Fuses) (n : BitVec 4) :
    burnFuses f { f with fwKeyRevoked := n } = { f with fwKeyRevoked := f.fwKeyRevoked ||| n } := by simp [burnFuses]

/-! ## Keys (R386 to R389, R393, R425) -/

theorem opKeyInstall_run {b : KeyInstallBody} {k : Digest} (c : ReplyCtx) (s : State) (h : b.unwrapped = some k) :
    (opKeyInstall b).run c s = { state := writeStore (.install b.keyId { manager := b.keyClass = 1, ecdsaPub := b.ecdsaPub
                                                                         mldsaPub := b.mldsaPub, secret := k }) (some c) s
                                 later := true } := by
  unfold opKeyInstall
  rw [h]

/-- The burn of the next bit of REVOKE_COUNT. -/
def countRevoke (s : State) : State := emit .fuseBurn { s with fuses := { s.fuses with revokeCount := burnNext s.fuses.revokeCount } }

theorem countRevoke_changes (s : State) : Changes [.fuses, .out] s (countRevoke s) :=
  emit_frame (upd_fuses (.refl _ s) (by decide)) (by decide)

theorem opKeyRevoke_run {k : Nat} (c : ReplyCtx) (s : State) (h : k < 0x100) :
    (opKeyRevoke k).run c s = { state := writeStore (.revoke k) (some c) (countRevoke s), later := true } := if_neg h.not_ge

theorem opKeyRevoke_run_delegated {k : Nat} (c : ReplyCtx) (s : State) (h : 0x100 ≤ k) :
    (opKeyRevoke k).run c s = { state := revokeDelegated k s } := if_pos h

theorem revokeDelegated_changes (k : Nat) (s : State) : Changes [.hood, .frc] s (revokeDelegated k s) :=
  keyEvent_frame (upd_hood (.refl _ s) (by decide)) (by decide)

theorem revokeDelegated_hood (k : Nat) (s : State) :
    (revokeDelegated k s).hood = { s.hood with delegated := tdel s.hood.delegated k } :=
  (keyEvent_frame (.refl [.frc] _) (by decide)).hood (by decide)

theorem writeStore_changes (x : StoreChange) (c : Option ReplyCtx) (s : State) : Changes [.hood, .out] s (writeStore x c s) :=
  writeStore_frame (.refl _ s) (by decide)

/-- The store's write drives a host fill, and no reply. -/
theorem reply_of_writeStore {x : StoreChange} {c : Option ReplyCtx} {s : State} {o : Origin} {y : Reply}
    (h : Output.reply o y ∈ (writeStore x c s).out) : Output.reply o y ∈ s.out := by
  rcases List.mem_append.mp h with h | h
  · exact h
  · cases List.mem_singleton.mp h

/-- A revoked firmware key's bit is burnt. -/
def burnKeyBit (k : Nat) (s : State) : State := emit .fuseBurn { s with fuses := { s.fuses with fwKeyRevoked := fwRevoked s k } }

theorem burnKeyBit_changes (k : Nat) (s : State) : Changes [.fuses, .out] s (burnKeyBit k s) :=
  emit_frame (upd_fuses (.refl _ s) (by decide)) (by decide)

/-- Settles O27: it holds; a command's conclusion touches neither the hood nor the fuses that its effect left. -/
theorem keysAreInstalledAndRevoked : Obligations.KeysAreInstalledAndRevoked := by
  unfold Obligations.KeysAreInstalledAndRevoked
  refine ⟨?install, ?revoke, ?delegated, ?firmwareKey⟩
  case install =>
    intro z b k
    refine defers_keeping (op := opKeyInstall b) (fun _ => rfl) rfl rfl (by decide) (by decide) ?_ ?_
    · intro c u v t hv hchanges _
      exact (hchanges.hood (by decide)).trans hv
    · intro c u hunwrapped _ _
      rw [opKeyInstall_run c u hunwrapped]
      have hchanges := writeStore_changes (.install b.keyId { manager := b.keyClass = 1, ecdsaPub := b.ecdsaPub
                                                              mldsaPub := b.mldsaPub, secret := k }) (some c) u
      exact ⟨rfl, fun _ _ => reply_of_writeStore, rfl, rfl, hchanges.mono fun _ => List.mem_append_left _⟩
  case revoke =>
    intro z k
    refine burns_addressed rfl rfl rfl (by decide) ?_ ?_
    · intro c u hk hactivation
      rw [opKeyRevoke_run c u hk]
      exact ⟨hactivation, writeStore_frame ((countRevoke_changes u).mono (by decide)) (by decide)⟩
    · intro c u hk _ _
      rw [opKeyRevoke_run c u hk]
      have hconcluded := concluded_changes c { state := writeStore (.revoke k) (some c) (countRevoke u), later := true }
      refine ⟨hconcluded.hood (by decide), ?_, hconcluded.sent (by decide) ?_⟩
      · rw [within_concluded_fuses]
        exact burnFuses_revokeCount _ _
      · exact (writeStore_changes _ _ _).sent (by decide) (mem_out_emit _ _)
  case delegated =>
    intro z k
    refine performs_of (op := opKeyRevoke k) (fun _ => rfl) rfl rfl (by decide) (by decide) (by decide) ?_ ?_
    · intro u v t hv hchanges
      exact (hchanges.hood (by decide)).trans hv
    · intro c u hk _ _
      rw [opKeyRevoke_run_delegated c u hk]
      exact ⟨rfl, rfl, rfl, (revokeDelegated_changes k u).cpx_activation (by decide), revokeDelegated_hood k u,
        (revokeDelegated_changes k u).mono (by decide)⟩
  case firmwareKey =>
    intro z tk
    refine burns_addressed rfl rfl rfl (by decide) ?_ ?_
    · intro c u _ hactivation
      exact ⟨hactivation, (burnKeyBit_changes tk.level u).mono (by decide)⟩
    · intro c u _ _ haddressed
      refine ⟨?_, ?_, fun hon => ?_⟩
      · rw [within_concluded_fuses]
        exact burnFuses_fwKeyRevoked _ _
      · exact (concluded_changes c _).sent (by decide) (mem_out_emit _ _)
      · exact replied_concluded haddressed rfl (Nat.zero_lt_succ _) hon

end Sys2Proof.Proofs
end

section
/-! PROOFS. The lifecycle and zeroization (17 R394, R401): what a transition burns and ends, what RETURNED and zeroization leave of the
keys, and the statement from them. -/
namespace Sys2Proof.Proofs
open Sys2Proof.Machine Sys2Proof.Safety

/-! ## Transitions (R394) -/

theorem setDebug_level (lv : DbgLevel) (s : State) : (setDebug lv s).dbg.level = lv := by
  unfold setDebug
  split
  next h => exact h
  next => exact (eventRecord_frame (.refl [.frc] _) (by decide)).dbg_level (by decide)

theorem closeLevel_level (s : State) : (closeLevel s).dbg.level = .closed := setDebug_level .closed s

/-- The fuses that LIFECYCLE_ADVANCE burns. -/
def burnTarget (dst : Nat) (s : State) : State :=
  emit .fuseBurn { s with fuses := { s.fuses with lifecycle := setBit s.fuses.lifecycle (dst - 1)
                                                  fuseLock := s.fuses.fuseLock || decide (dst = 1) } }

/-- After the burn no session is open and DEBUG is CLOSED; the fuses stand as burnt. -/
theorem advanceTo_ends (dst : Nat) (s : State) : (advanceTo dst s).cpx.sessions = [] ∧ (advanceTo dst s).dbg.level = .closed ∧
    (advanceTo dst s).fuses = (burnTarget dst s).fuses := by
  refine ⟨rfl, ?_⟩
  unfold advanceTo
  extract_lets f s1 s2
  show s2.dbg.level = .closed ∧ s2.fuses = s1.fuses
  unfold s2
  split
  next hclosed =>
    exact ⟨((eventRecord_frame (.refl [.frc] s1) (by decide)).dbg_level (by decide)).trans hclosed,
      (eventRecord_frame (.refl [.frc] s1) (by decide)).fuses (by decide)⟩
  next => exact ⟨closeLevel_level s1, (closeLevel_frame (.refl [.frc, .pounce, .dbg] s1) (by decide)).fuses (by decide)⟩

theorem advanceTo_changes (dst : Nat) (s : State) : Changes [.fuses, .sessions, .frc, .pounce, .dbg, .out] s (advanceTo dst s) :=
  advanceTo_frame (.refl _ s) (by decide)

/-- A transition's burn over the fuses that it found. -/
theorem burnFuses_burnTarget (dst : Nat) (s : State) : burnFuses s.fuses (burnTarget dst s).fuses =
    { s.fuses with lifecycle := s.fuses.lifecycle ||| setBit s.fuses.lifecycle (dst - 1)
                   fuseLock := s.fuses.fuseLock || decide (dst = 1) } := by
  simp [burnFuses, burnTarget, emit]

theorem opLifecycleAdvance_run {b : LifecycleBody} (c : ReplyCtx) (s : State) (h : b.targetState = 1 ∨ b.targetState = 2) :
    (opLifecycleAdvance b).run c s = { state := advanceTo b.targetState s, body := [(1, b.targetState)] } := by
  unfold opLifecycleAdvance
  dsimp only
  rw [if_neg (by omega), if_neg (by omega)]

theorem opLifecycleAdvance_run_returned {b : LifecycleBody} (c : ReplyCtx) (s : State) (h : b.targetState = 3) :
    (opLifecycleAdvance b).run c s = { state := enterReturned c (advanceTo 3 s), later := true } := by
  unfold opLifecycleAdvance
  rw [h]
  rfl

theorem opLifecycleAdvance_run_scrapped {b : LifecycleBody} (c : ReplyCtx) (s : State) (h : b.targetState = 4) :
    (opLifecycleAdvance b).run c s = { state := zeroize (answer c stOk 0 [(1, 4)] (advanceTo 4 s)), later := true } := by
  unfold opLifecycleAdvance
  rw [h]
  rfl

/-! ## RETURNED: keys are erased (Table 17-5) -/

theorem eraseKeys_hood (s : State) : (eraseKeys s).hood = { s.hood with slots := [], delegated := [], certs := [] } := by
  have hsas : Changes [.sessions, .frc, .sas] s ((s.sas.map (fun e => e.1)).foldl (fun a k => putSa k {} a) (endSessions s)) :=
    (endSessions_frame (.refl _ s) (by decide)).foldl_frame fun _ _ h => putSa_frame h (by decide)
  unfold eraseKeys
  simp only [hsas.hood (by decide)]

/-- What powering groups up or down changes. -/
def regroupParts : List Part :=
  [.quarantine, .sessions, .checks, .sealed, .cfg, .err, .levels, .jic, .ctr, .samples, .frc, .groups, .ports, .hostQueue, .esh,
   .replies, .hpe, .pounce, .dbg, .hlk, .rx, .sas, .pols, .out]

theorem setBase_base (b : Base) (s : State) : (setBase b s).mode.base = b := by
  unfold setBase
  extract_lets entry m s1
  have hentered : Changes regroupParts s1 (if entry then enterLocked s1 else s1) := by
    split
    · exact enterLocked_frame (.refl _ s1) (by decide)
    · exact .refl _ s1
  exact (powerUpdate_frame hentered (by decide)).mode_base (by decide)

theorem lockBase_base (s : State) : (lockBase s).mode.base = .locked := setBase_base .locked s

theorem enterReturned_leaves (c : ReplyCtx) (s : State) : (enterReturned c s).mode.base = .locked ∧
    (enterReturned c s).hood =
      { s.hood with slots := [], delegated := [], certs := [], store := s.hood.store ++ [{ change := .clear, ctx := some c }] } := by
  refine ⟨lockBase_base _, ?_⟩
  have hlock : (lockBase (eraseKeys s)).hood = (eraseKeys s).hood :=
    (lockBase_frame (.refl (.mode :: regroupParts) (eraseKeys s)) (by decide)).hood (by decide)
  unfold enterReturned writeStore
  simp only [emit, hlock, eraseKeys_hood]

/-! ## Zeroization (R401) -/

theorem modeCode_of_zeroized {s : State} (hrun : s.mode.stage = .run) (h : s.mode.zeroized = true) : modeCode s = 0xB := by
  unfold modeCode
  rw [hrun]
  exact if_pos h

/-- A ZEROIZED block stays so where neither its mode nor CPX nor the hood changes. -/
theorem zeroed_of_changes {l : List Part} {s t : State} (h : Changes l s t) (hmode : Part.mode ∉ l) (hcpx : Part.cpx ∉ l)
    (hchecks : Part.checks ∉ l) (hhood : Part.hood ∉ l) (hrun : s.mode.stage = .run) (hzeroed : zeroed s) : zeroed t := by
  obtain ⟨hzeroized, -, hslots, hdelegated, hcerts, hstore, hqueue, hforwarded, hactivation, hdrain⟩ := hzeroed
  have hflag : t.mode.zeroized = true := (h.mode_zeroized hmode).trans hzeroized
  refine ⟨hflag, modeCode_of_zeroized ((h.mode_stage hmode).trans hrun) hflag, ?_, ?_, ?_, ?_, (h.cpx_queue hchecks).trans hqueue,
    (h.cpx_forwarded hchecks).trans hforwarded, (h.cpx_activation hcpx).trans hactivation, (h.mode_drain hmode).trans hdrain⟩
  all_goals rw [h.hood hhood]; assumption

/-- What ZEROIZED changes once its flag is set. -/
def shutdownParts : List Part := .smc :: regroupParts

/-- ZEROIZED: its flag is set, nothing is pending, and the hood and the fuses stand as they did. -/
theorem enterZeroized_leaves (s : State) : (enterZeroized s).mode.zeroized = true ∧ (enterZeroized s).mode.stage = s.mode.stage ∧
    (enterZeroized s).mode.drain = none ∧ (enterZeroized s).cpx.queue = [] ∧ (enterZeroized s).cpx.forwarded = [] ∧
    (enterZeroized s).cpx.activation = none := by
  have hstage : (closeLevel (discardPending s)).mode.stage = s.mode.stage :=
    (closeLevel_frame (discardPending_frame (.refl shutdownParts s) (by decide)) (by decide)).mode_stage (by decide)
  unfold enterZeroized
  extract_lets s1 m d s2 s3 s4
  have h3 : Changes shutdownParts s2 s3 := (Changes.refl _ s2).foldl_frame fun a g h => by
    dsimp only
    split
    · exact h
    · exact h
    · exact putGroup_frame (settleAll_frame (cutReception_frame h (by decide)) (by decide)) (by decide)
  have h4 : Changes shutdownParts s2 s4 :=
    restRanks_frame (h3.foldl_frame fun _ _ h => gateLink_frame h (by decide)) (by decide)
  exact ⟨h4.mode_zeroized (by decide), (h4.mode_stage (by decide)).trans hstage, h4.mode_drain (by decide), rfl, rfl, rfl⟩

theorem enterZeroized_changes (s : State) : Changes zeroizeParts s (enterZeroized s) := enterZeroized_frame (.refl _ s) (by decide)

theorem enterZeroized_hood (s : State) : (enterZeroized s).hood = s.hood :=
  (enterZeroized_frame (.refl (zeroizeParts.filter (· ≠ .hood)) s) (by decide)).hood (by decide)

/-- The state in which a running block enters ZEROIZED. -/
def erased (s : State) : State := eraseStore (burnZeroize (erasePages (eraseKeys s)))

theorem zeroize_of_run {s : State} (hrun : s.mode.stage = .run) (hzeroized : s.mode.zeroized = false) :
    zeroize s = enterZeroized (erased s) := by
  unfold zeroize
  exact if_neg (by simp [hrun, hzeroized])

theorem erased_changes (s : State) : Changes [.fuses, .sessions, .hood, .frc, .hlk, .sas, .out] s (erased s) :=
  eraseStore_frame (burnZeroize_frame (erasePages_frame (eraseKeys_frame (.refl _ s) (by decide)) (by decide)) (by decide)) (by decide)

theorem erased_hood (s : State) : (erased s).hood = { s.hood with slots := [], delegated := [], certs := [], store := [] } := by
  have h : (erased s).hood = (erasePages (eraseKeys s)).hood :=
    (eraseStore_frame (burnZeroize_frame (.refl [.fuses, .out] _) (by decide)) (by decide)).hood (by decide)
  rw [h]
  simp only [erasePages, eraseKeys_hood]

/-- What the zeroization burns is read from the fuses alone. -/
theorem burnZeroize_fuses {s t : State} (h : s.fuses = t.fuses) : (burnZeroize s).fuses = (burnZeroize t).fuses := by
  simp only [burnZeroize, emit, h]
  split <;> rfl

theorem erased_fuses (s : State) : (erased s).fuses = (burnZeroize s).fuses := by
  have hkeys : (erasePages (eraseKeys s)).fuses = s.fuses :=
    (erasePages_frame (eraseKeys_frame (.refl [.sessions, .hood, .frc, .hlk, .sas] s) (by decide)) (by decide)).fuses (by decide)
  have hstore : (erased s).fuses = (burnZeroize (erasePages (eraseKeys s))).fuses :=
    (eraseStore_frame (.refl [.out] _) (by decide)).fuses (by decide)
  exact hstore.trans (burnZeroize_fuses hkeys)

/-- A running block that is not ZEROIZED zeroizes. -/
theorem zeroize_zeroes {s : State} (hrun : s.mode.stage = .run) (hzeroized : s.mode.zeroized = false) :
    zeroed (zeroize s) ∧ (zeroize s).mode.stage = .run ∧ (zeroize s).fuses = (burnZeroize s).fuses := by
  rw [zeroize_of_run hrun hzeroized]
  obtain ⟨hflag, hstage, hdrain, hqueue, hforwarded, hactivation⟩ := enterZeroized_leaves (erased s)
  have hstage' : (enterZeroized (erased s)).mode.stage = .run :=
    (hstage.trans ((erased_changes s).mode_stage (by decide))).trans hrun
  have hfuses : (enterZeroized (erased s)).fuses = (erased s).fuses := (enterZeroized_changes _).fuses (by decide)
  refine ⟨⟨hflag, modeCode_of_zeroized hstage' hflag, ?_, ?_, ?_, ?_, hqueue, hforwarded, hactivation, hdrain⟩, hstage',
    hfuses.trans (erased_fuses s)⟩
  all_goals rw [enterZeroized_hood, erased_hood]

theorem zeroize_changes (s : State) : Changes (.fuses :: zeroizeParts) s (zeroize s) := zeroize_frame (.refl _ s) (by decide)

/-- A row's close touches the fuses and the queue. -/
theorem within_changes (u t : State) : Changes [.fuses, .pending] t (within u t) := upd_fuses_pending (.refl _ t) (by decide)

/-- A command that zeroizes once it has been answered leaves the block ZEROIZED, with its reply driven. -/
theorem zeroize_concluded {op : Op} {z : Zelgen} {c : ReplyCtx} {u v : State} {body : Fields} (haddressed : Addressed op z c)
    (hrun : v.mode.stage = .run) (hzeroized : v.mode.zeroized = false) :
    zeroed (within u (concluded c { state := zeroize (answer c stOk 0 body v), later := true })) ∧
    (within u (concluded c { state := zeroize (answer c stOk 0 body v), later := true })).fuses =
      burnFuses u.fuses (burnZeroize v).fuses ∧
    (replyOnError z = false → Replied z op.opcode 0x0000 body
      (within u (concluded c { state := zeroize (answer c stOk 0 body v), later := true }))) := by
  have hanswer := answer_changes c stOk 0 body v
  obtain ⟨hzeroed, hstage, hfuses⟩ := zeroize_zeroes (s := answer c stOk 0 body v) ((hanswer.mode_stage (by decide)).trans hrun)
    ((hanswer.mode_zeroized (by decide)).trans hzeroized)
  have hconcluded := concluded_changes c { state := zeroize (answer c stOk 0 body v), later := true }
  refine ⟨?_, ?_, fun hon => ?_⟩
  · have hzeroed' := zeroed_of_changes hconcluded (by decide) (by decide) (by decide) (by decide) hstage hzeroed
    exact zeroed_of_changes (within_changes u _) (by decide) (by decide) (by decide) (by decide)
      ((hconcluded.mode_stage (by decide)).trans hstage) hzeroed'
  · rw [within_concluded_fuses]
    refine congrArg (burnFuses u.fuses) (hfuses.trans (burnZeroize_fuses (hanswer.fuses (by decide))))
  · have hanswered := replied_answer (st := stOk) haddressed 0 body v (by decide) hon
    exact replied_within u (replied_of_changes (replied_of_changes hanswered (zeroize_changes _) (by decide)) hconcluded (by decide))

theorem burnZeroize_of_room {s : State} (h : burnt s.fuses.zeroizeCount < 64) :
    (burnZeroize s).fuses = { s.fuses with zeroizeCount := burnNext s.fuses.zeroizeCount } := by
  unfold burnZeroize
  rw [if_pos h]
  rfl

/-- SCRAPPED's bit of LIFECYCLE survives the zeroization's own burn. -/
theorem burnZeroize_keeps_scrapped {s : State} (h : bit s.fuses.lifecycle 3 = true) : bit (burnZeroize s).fuses.lifecycle 3 = true := by
  unfold burnZeroize
  split
  · exact h
  · exact bit_setBit_self _ (by decide)

theorem bit_or_right {n : Nat} (x : BitVec n) {y : BitVec n} {i : Nat} (h : bit y i = true) : bit (x ||| y) i = true := by
  unfold bit at h ⊢
  rw [BitVec.getLsbD_or, h, Bool.or_true]

/-! ## Failed self-checks (R401, Table 18-6) -/

theorem fatalCheck_zeroes {w : FatalCheck} {s : State} (hclocked : clocked s = true) (hrun : s.mode.stage = .run)
    (hzeroized : s.mode.zeroized = false) : zeroed (fatalCheck w s) ∧ (fatalCheck w s).mode.stage = .run := by
  have hreported : ∀ {u}, Changes errorParts s u → zeroed (zeroize u) ∧ (zeroize u).mode.stage = .run := fun h =>
    have ⟨hzeroed, hstage, _⟩ := zeroize_zeroes ((h.mode_stage (by decide)).trans hrun) ((h.mode_zeroized (by decide)).trans hzeroized)
    ⟨hzeroed, hstage⟩
  unfold fatalCheck
  rw [if_neg (by simp [hclocked, hrun, hzeroized])]
  split
  all_goals exact hreported (errorAt_changes _ _ _ _ _ _ _ s)

/-- A row that may burn fuses changes the rest as its effect does; its queue is the one that the row found. -/
theorem changes_within {l : List Part} {s u t : State} (h : Changes l s t) (hpending : u.pending = s.pending) :
    Changes (.fuses :: l) s (within u t) := by
  intro p hp
  obtain ⟨hfuses, hp⟩ := not_or.mp fun h => hp (List.mem_cons.mpr h)
  cases p
  case fuses => exact absurd rfl hfuses
  case pending => exact hpending
  all_goals exact h _ hp

/-- Settles O28: it holds, target by target. The erasure in the command's own step is the model's choice (log 36). -/
theorem lifecycleAndZeroization : Obligations.LifecycleAndZeroization := by
  unfold Obligations.LifecycleAndZeroization
  refine ⟨?advance, ?returned, ?scrapped, ?zeroize, ?selfCheck⟩
  case advance =>
    intro z b
    refine burns_addressed rfl rfl rfl (by decide) ?_ ?_
    · intro c u htarget hactivation
      rw [opLifecycleAdvance_run c u htarget]
      exact ⟨hactivation ▸ (advanceTo_changes _ u).cpx_activation (by decide), (advanceTo_changes _ u).mono (by decide)⟩
    · intro c u htarget _ haddressed
      have hconcluded := concluded_changes c ((opLifecycleAdvance b).run c u)
      have hreplied := replied_concluded (r := (opLifecycleAdvance b).run c u) (z := z) haddressed
      rw [opLifecycleAdvance_run c u htarget] at hconcluded hreplied ⊢
      obtain ⟨hsessions, hlevel, hfuses⟩ := advanceTo_ends b.targetState u
      refine ⟨?_, (hconcluded.cpx_sessions (by decide)).trans hsessions, (hconcluded.dbg_level (by decide)).trans hlevel,
        hreplied rfl (Nat.zero_lt_succ _)⟩
      rw [within_concluded_fuses, hfuses, burnFuses_burnTarget]
  case returned =>
    intro z b
    refine burns_addressed rfl rfl rfl (by decide) ?_ ?_
    · intro c u htarget hactivation
      rw [opLifecycleAdvance_run_returned c u htarget]
      have hchanges : Changes (.fuses :: ((.cfg :: (zeroizeParts.filter (· ≠ .cpx))) ++ (checkParts ++ replyParts))) u
          (enterReturned c (advanceTo 3 u)) :=
        enterReturned_frame (advanceTo_frame (.refl _ u) (by decide)) (by decide)
      exact ⟨hactivation ▸ hchanges.cpx_activation (by decide), hchanges.mono (by decide)⟩
    · intro c u htarget _ _
      rw [opLifecycleAdvance_run_returned c u htarget]
      have hconcluded := concluded_changes c { state := enterReturned c (advanceTo 3 u), later := true }
      obtain ⟨hbase, hhood⟩ := enterReturned_leaves c (advanceTo 3 u)
      obtain ⟨-, -, hfuses⟩ := advanceTo_ends 3 u
      have hkept : (enterReturned c (advanceTo 3 u)).fuses = (advanceTo 3 u).fuses :=
        (enterReturned_frame (.refl (.cfg :: zeroizeParts) _) (by decide)).fuses (by decide)
      refine ⟨?_, (hconcluded.hood (by decide)).trans ?_, (hconcluded.mode_base (by decide)).trans hbase⟩
      · rw [within_concluded_fuses, hkept, hfuses, burnFuses_burnTarget]
      · rw [hhood, (advanceTo_changes 3 u).hood (by decide)]
  case scrapped =>
    intro z b
    refine burns_addressed rfl rfl rfl (by decide) ?_ ?_
    · rintro c u ⟨htarget, hzeroized, hrun⟩ _
      rw [opLifecycleAdvance_run_scrapped c u htarget]
      have hanswered : Changes [.fuses, .sessions, .frc, .pounce, .dbg, .out, .ctr, .hostQueue, .replies, .hlk] u
          (answer c stOk 0 [(1, 4)] (advanceTo 4 u)) := answer_frame (advanceTo_frame (.refl _ u) (by decide)) (by decide)
      have ⟨⟨_, _, _, _, _, _, _, _, hactivation, _⟩, _, _⟩ := zeroize_zeroes ((hanswered.mode_stage (by decide)).trans hrun)
        ((hanswered.mode_zeroized (by decide)).trans hzeroized)
      exact ⟨hactivation, zeroize_frame (hanswered.mono (by decide)) (by decide)⟩
    · rintro c u ⟨htarget, hzeroized, hrun⟩ _ haddressed
      rw [opLifecycleAdvance_run_scrapped c u htarget]
      have hadvance := advanceTo_changes 4 u
      obtain ⟨-, -, hburnt⟩ := advanceTo_ends 4 u
      obtain ⟨hzeroed, hfuses, hreplied⟩ := zeroize_concluded (u := u) (body := [(1, 4)]) haddressed
        ((hadvance.mode_stage (by decide)).trans hrun) ((hadvance.mode_zeroized (by decide)).trans hzeroized)
      refine ⟨?_, hzeroed, hreplied⟩
      rw [hfuses]
      refine bit_or_right _ (burnZeroize_keeps_scrapped ?_)
      rw [hburnt]
      exact bit_setBit_self _ (by decide)
  case zeroize =>
    intro z v
    refine burns_addressed rfl rfl rfl (by decide) ?_ ?_
    · rintro c u ⟨hzeroized, hrun⟩ _
      have hanswered := answer_changes c stOk 0 [] u
      have ⟨⟨_, _, _, _, _, _, _, _, hactivation, _⟩, _, _⟩ := zeroize_zeroes ((hanswered.mode_stage (by decide)).trans hrun)
        ((hanswered.mode_zeroized (by decide)).trans hzeroized)
      exact ⟨hactivation, zeroize_frame (hanswered.mono (by decide)) (by decide)⟩
    · rintro c u ⟨hzeroized, hrun⟩ _ haddressed
      obtain ⟨hzeroed, hfuses, hreplied⟩ := zeroize_concluded (u := u) (body := []) haddressed hrun hzeroized
      refine ⟨hzeroed, fun hroom => hfuses.trans ?_, hreplied⟩
      rw [burnZeroize_of_room hroom, burnFuses_zeroizeCount]
  case selfCheck =>
    intro dt w s u hclocked hrun hzeroized
    obtain ⟨hzeroed, hstage⟩ := fatalCheck_zeroes (w := w) hclocked hrun hzeroized
    have hchanges : Changes (.fuses :: zeroizeParts) u (fatalCheck w u) := fatalCheck_frame (.refl _ u) (by decide)
    exact ⟨within s (fatalCheck w u), rfl, zeroed_of_changes (within_changes s _) (by decide) (by decide) (by decide) (by decide)
      hstage hzeroed, (changes_within hchanges ((start_changes dt s).pending (by decide)).symm).mono (by decide)⟩

end Sys2Proof.Proofs
end

section
/-! PROOFS. Firmware (17 R390 to R392): the staging area, the activation's beginning, the restart that it waits for, and its end. -/
namespace Sys2Proof.Proofs
open Sys2Proof.Machine Sys2Proof.Safety

/-! ## The staging area -/

/-- Bytes written from `a` on leave every other address as it was. -/
theorem memRead_memWrites_other (bs : List Byte) (m : List Host.Cell) (a x : Nat) (h : x < a ∨ a + bs.length ≤ x) :
    memRead (memWrites m a bs) x = memRead m x := by
  induction bs generalizing m a with
  | nil => rfl
  | cons b r ih =>
    rw [List.length_cons] at h
    calc memRead (memWrites (memWrite m a b) (a + 1) r) x = memRead (memWrite m a b) x := ih _ _ (by omega)
      _ = memRead m x := memRead_memWrite_ne m a x b (by omega)

/-- Bytes written from `a` on read back. -/
theorem memRead_memWrites (bs : List Byte) (m : List Host.Cell) (a i : Nat) (h : i < bs.length) :
    memRead (memWrites m a bs) (a + i) = bs[i] := by
  induction bs generalizing m a i with
  | nil => exact absurd h (Nat.not_lt_zero i)
  | cons b r ih =>
    cases i with
    | zero => exact (memRead_memWrites_other r _ _ a (.inl a.lt_succ_self)).trans (memRead_memWrite_self m a b)
    | succ i =>
      rw [← Nat.add_assoc, Nat.add_right_comm]
      exact ih (memWrite m a b) (a + 1) i (Nat.lt_of_succ_lt_succ h)

/-! ## Activation (R392) -/

/-- What a command leaves that is carried out: its effect concluded, a waiting activation's restart, and the fuses burnt. -/
theorem exec_admitted {i : Instr} {op : Op} {z : Zelgen} {s u : State} {c : ReplyCtx} (hi : commandOf i = some (op, z))
    (hedit : op.edit = none) (h : admitted op z s = some (c, u)) :
    exec i s = .next (within u (activationRestart (concluded c (op.run c u)))) := by
  have hfuses : u.fuses = s.fuses :=
    ((admitted_changes h).fuses (by decide)).trans ((start_changes z.dt s).fuses (by decide))
  have hpending : u.pending = s.pending :=
    ((admitted_changes h).pending (by decide)).trans ((start_changes z.dt s).pending (by decide))
  have heffect : effectOf op c z u = op.run c u := by rw [effectOf, hedit]
  rw [exec_of_commandOf hi, command, zelgen_admitted h, heffect, within, within, hfuses, hpending]

/-- An activation waits from now on. -/
def awaitRestart (c : ReplyCtx) (s : State) : State :=
  { s with cpx := { s.cpx with activation := some { since := s.tsu.now, ctx := some c } } }

theorem awaitRestart_changes (c : ReplyCtx) (s : State) : Changes [.cpx] s (awaitRestart c s) :=
  upd_cpx'cpx rfl rfl rfl (.refl _ s) (by decide)

theorem activationRestart_changes (s : State) : Changes [.fuses, .sessions, .cpx, .out] s (activationRestart s) :=
  activationRestart_frame (.refl _ s) (by decide)

/-- With an empty queue a waiting activation restarts CPX, which ends its sessions; BURN_SVN clear burns nothing. -/
theorem activationRestart_of_empty {s : State} {a : Activation} (hactivation : s.cpx.activation = some a)
    (hwaits : a.restarting = false) (hqueue : s.cpx.queue = []) :
    (activationRestart s).cpx.sessions = [] ∧ (activationRestart s).cpx.restart = some s.tsu.now ∧
      (activationRestart s).cpx.activation = some { a with restarting := true } ∧
      (staged s 13 1 % 2 = 0 → (activationRestart s).fuses = s.fuses) := by
  unfold activationRestart
  rw [hactivation]
  dsimp only
  rw [if_neg (by simp [hwaits, hqueue])]
  refine ⟨rfl, ?_, rfl, fun hburn => ?_⟩
  · split <;> rfl
  · rw [if_neg (by omega)]
    rfl

theorem staged_of_changes {l : List Part} {s t : State} (h : Changes l s t) (hcpx : Part.cpx ∉ l) (o n : Nat) :
    staged t o n = staged s o n := by
  unfold staged
  rw [h.cpx_staging hcpx]

/-! ## The activation's end (R392) -/

/-- The state that an activation's end goes on from. -/
def activationOver (s : State) : State := { s with cpx := { s.cpx with activation := none, restart := none } }

theorem activationOver_changes (s : State) : Changes [.cpx] s (activationOver s) := upd_cpx'cpx rfl rfl rfl (.refl _ s) (by decide)

/-- The staged image runs. -/
def runStaged (s : State) : State :=
  { s with cpx := { s.cpx with fwVersion := BitVec.ofNat 32 (staged s 4 4), fwKeyIndex := staged s 12 1
                               fwDigest := Config.sha384 (imageBytes s 0 (staged s 8 4)) } }

theorem runStaged_changes (s : State) : Changes [.cpx] s (runStaged s) := upd_cpx'cpx rfl rfl rfl (.refl _ s) (by decide)

theorem activateDone_true {s : State} {a : Activation} (hclocked : clocked s = true) (hactivation : s.cpx.activation = some a)
    (hrestarting : a.restarting = true) : activateDone true s = raiseEvent 0x896 (runStaged (activationOver s)) := by
  unfold activateDone
  rw [hactivation]
  dsimp only
  rw [if_neg (by simp [hrestarting, hclocked])]
  rfl

/-- An activation that fails leaves the old image running and records an error. -/
theorem activateDone_false {s : State} {a : Activation} (hclocked : clocked s = true) (hactivation : s.cpx.activation = some a)
    (hrestarting : a.restarting = true) :
    Changes (.draws :: errorParts) (activationOver s) (activateDone false s) := by
  unfold activateDone
  rw [hactivation]
  dsimp only
  rw [if_neg (by simp [hrestarting, hclocked])]
  exact errorAt_frame (upd_draws (.refl _ (activationOver s)) (by decide)) (by decide)

/-- Settles O29: it holds; an admitted activation waits for an empty queue, then restarts CPX at once. -/
theorem firmwareIsStagedAndActivated : Obligations.FirmwareIsStagedAndActivated := by
  unfold Obligations.FirmwareIsStagedAndActivated
  refine ⟨?stage, ?waits, ?restarts, ?done, ?failed⟩
  case stage =>
    intro z b
    refine performs_of (op := opFirmwareStage b) (fun _ => rfl) rfl rfl (by decide) (by decide) (by decide) ?_ ?_
    · rintro u v t hv hchanges
      rw [hchanges.cpx_staging (by decide)]
      exact hv
    · intro c u _ _ _
      exact ⟨rfl, rfl, rfl, rfl, ⟨rfl, fun a ha => memRead_memWrites_other _ _ _ _ ha, fun i hi => memRead_memWrites _ _ _ i hi⟩,
        upd_cpx'cpx rfl rfl rfl (.refl _ u) (by decide)⟩
  case waits =>
    intro z b s c u hadmitted hqueue
    have hconcluded := concluded_changes c ((opFirmwareActivate b).run c u)
    have hchanges : Changes ([.cpx] ++ (checkParts ++ replyParts)) u (concluded c ((opFirmwareActivate b).run c u)) :=
      ((awaitRestart_changes c u).mono (by decide)).trans (hconcluded.mono (by decide))
    have hactivation : (concluded c ((opFirmwareActivate b).run c u)).cpx.activation = some { since := u.tsu.now, ctx := some c } :=
      hconcluded.cpx_activation (by decide)
    have hquiet : quietCpx (concluded c ((opFirmwareActivate b).run c u)) := fun _ _ =>
      .inr ((hconcluded.cpx_queue (by decide)).trans_ne hqueue)
    have hexec : exec (.firmwareActivate z b) s = .next (concluded c ((opFirmwareActivate b).run c u)) := by
      rw [exec_admitted rfl rfl hadmitted, activationRestart_quiet hquiet,
        within_of_same (hchanges.fuses (by decide)) (hchanges.pending (by decide))]
    exact ⟨_, hexec, ⟨_, hactivation, rfl, rfl⟩, fun hon => replied_concluded (r := (opFirmwareActivate b).run c u)
        (admitted_addressed hadmitted) rfl (by show 2 < 0x0201; decide) (hon.resolve_right (by decide)),
      ((admitted_changes hadmitted).mono (by decide)).trans hchanges⟩
  case restarts =>
    intro z b s c u hadmitted hqueue
    have hconcluded := concluded_changes c ((opFirmwareActivate b).run c u)
    have hrestart := activationRestart_changes (concluded c ((opFirmwareActivate b).run c u))
    have hkept : Changes ([.cpx] ++ replyParts) u (concluded c ((opFirmwareActivate b).run c u)) :=
      ((awaitRestart_changes c u).mono (by decide)).trans (hconcluded.mono (by decide))
    obtain ⟨hsessions, hsince, hactivation, hfuses⟩ := activationRestart_of_empty
      (hconcluded.cpx_activation (by decide)) rfl ((hkept.cpx_queue (by decide)).trans hqueue)
    have hstaged : staged (concluded c ((opFirmwareActivate b).run c u)) 13 1 = staged u 13 1 :=
      (staged_of_changes hconcluded (by decide) 13 1).trans rfl
    refine ⟨_, exec_admitted rfl rfl hadmitted, ⟨hsessions, hsince.trans ?_, ⟨_, hactivation, rfl⟩, fun hburn => ?_, fun hon => ?_⟩, ?_⟩
    · rw [hkept.tsu (by decide)]
    · show burnFuses u.fuses _ = u.fuses
      rw [hfuses ((congrArg (· % 2) hstaged).trans hburn), hkept.fuses (by decide), burnFuses_self]
    · exact replied_within u (replied_of_changes (replied_concluded (r := (opFirmwareActivate b).run c u)
        (admitted_addressed hadmitted) rfl (by show 2 < 0x0201; decide) hon) hrestart (by decide))
    · have hchanges : Changes ([.cpx] ++ (checkParts ++ replyParts)) (start z.dt s) (concluded c ((opFirmwareActivate b).run c u)) :=
        ((admitted_changes hadmitted).mono (by decide)).trans (hkept.mono (by decide))
      have hpending : u.pending = (start z.dt s).pending := (admitted_changes hadmitted).pending (by decide)
      exact (changes_within ((hchanges.mono (by decide)).trans (hrestart.mono (l' := .fuses :: ([.cpx] ++ (checkParts ++ replyParts)))
        (by decide))) hpending).mono (by simp)
  case done =>
    intro dt a
    refine happens_of_effect (fun _ => rfl) (by decide) (by decide) fun s ⟨hclocked, hactivation, hrestarting⟩ => ?_
    rw [activateDone_true hclocked hactivation hrestarting]
    have hraised : Changes [.levels, .jic] (runStaged (activationOver s)) (raiseEvent 0x896 (runStaged (activationOver s))) :=
      raiseEvent_frame (.refl _ _) (by decide)
    exact ⟨⟨hraised.cpx_activation (by decide), hraised.cpx_restart (by decide), hraised.cpx_fwVersion (by decide),
      hraised.cpx_fwKeyIndex (by decide), levelNow_raiseEvent _ _⟩,
      (((activationOver_changes s).trans (runStaged_changes _)).mono (by decide)).trans (hraised.mono (by decide))⟩
  case failed =>
    intro dt a
    refine happens_of_effect (fun _ => rfl) (by decide) (by decide) fun s ⟨hclocked, hactivation, hrestarting⟩ => ?_
    have hfailed := activateDone_false hclocked hactivation hrestarting
    exact ⟨⟨hfailed.cpx_activation (by decide), hfailed.cpx_restart (by decide), hfailed.cpx_fwVersion (by decide),
      hfailed.cpx_fwDigest (by decide)⟩, ((activationOver_changes s).mono (by decide)).trans (hfailed.mono (by decide))⟩

end Sys2Proof.Proofs
end

section
/-! PROOFS. Debug tokens and the pouncer (16 R371, R379, R380, 17 R396), freezing (16 R373 to R375) and the TAP (16 R376, R377): what each
operation leaves of the debug unit and of TSU, and the three statements from them. -/
namespace Sys2Proof.Proofs
open Sys2Proof.Machine Sys2Proof.Safety

/-! ## Tokens and perturbations -/

/-- What loading a token leaves. -/
theorem opDebugTokenLoad_loads (tk : Token) (c : ReplyCtx) (s : State) :
    let t := ((opDebugTokenLoad tk).run c s).state
    t.dbg.level = (if tk.level = 1 then .observe else .opened) ∧ t.dbg.expiry = tk.expiry ∧ t.dbg.mask = tk.pouncerMask ∧
      t.dbg.freezePermit = bit tk.tokenFlags 0 ∧ (s.tsu.sync ≠ .unset → t.dbg.expiryCcyc = none) := by
  have htsu : (setDebug (if tk.level = 1 then .observe else .opened) s).tsu = s.tsu :=
    (setDebug_frame (.refl [.frc, .pounce, .dbg] s) (by decide)).tsu (by decide)
  refine ⟨setDebug_level _ s, rfl, rfl, rfl, fun hset => ?_⟩
  unfold opDebugTokenLoad unsetExpiry
  dsimp only
  rw [htsu]
  exact if_neg hset

theorem opDebugTokenLoad_changes (tk : Token) (c : ReplyCtx) (s : State) :
    Changes [.frc, .pounce, .dbg] s ((opDebugTokenLoad tk).run c s).state :=
  upd_dbg (setDebug_frame (.refl _ s) (by decide)) (by decide)

theorem setDebug_pounce {lv : DbgLevel} {s : State} (h : s.dbg.level ≠ lv) : (setDebug lv s).dbg.pounce = [] := by
  unfold setDebug
  rw [if_neg h]
  exact (eventRecord_frame (.refl [.frc] _) (by decide)).dbg_pounce (by decide)

theorem endFreeze_of_none {s : State} (h : s.dbg.freeze = none) : endFreeze s = s := by
  unfold endFreeze
  rw [if_pos (by simp [h])]

theorem tokenExpiry_of_expired {s : State} (hlevel : s.dbg.level ≠ .closed) (hexpired : tokenExpired s = true)
    (hfreeze : s.dbg.freeze = none) : tokenExpiry s = closeLevel s := by
  unfold tokenExpiry
  rw [if_neg (by simp [hlevel, hexpired]), endFreeze_of_none hfreeze]

theorem tokenExpiry_of_unexpired {s : State} (h : tokenExpired s = false) : tokenExpiry s = s := by
  unfold tokenExpiry
  exact if_pos (.inr h)

/-- A perturbation that waits for its occasion is listed, and nothing else happens. -/
theorem pounceStart_of_waiting {b : PouncerBody} (s : State)
    (h : b.perturbation ≠ 5 ∧ b.perturbation ≠ 7 ∧ b.perturbation ≠ 8 ∧ b.perturbation ≠ 0xA) :
    pounceStart b s = { s with dbg := { s.dbg with
      pounce := (running s).filter (fun y => y.cls ≠ b.perturbation || y.target ≠ b.target) ++
        [{ cls := b.perturbation, target := b.target, arg := b.arg, rate := b.rateLog2
           due := if b.duration = 0 then none else some (s.tsu.now + us b.duration) }] } } := by
  obtain ⟨h5, h7, h8, h10⟩ := h
  unfold pounceStart
  exact if_neg (by simp [h5, h7, h8, h10])

theorem pounceExpiry_of_clocked {cls n : Nat} {s : State} (h : clocked s = true) :
    pounceExpiry cls n s = { s with dbg := { s.dbg with
      pounce := s.dbg.pounce.filter (fun y => !(y.cls = cls && y.target = n && y.due.any (fun d => d ≤ s.tsu.now))) } } := by
  unfold pounceExpiry
  exact if_neg (by simp [h])

/-- Settles O30: it holds; a command's conclusion leaves the debug unit alone. -/
theorem tokensAndPerturbations : Obligations.TokensAndPerturbations := by
  unfold Obligations.TokensAndPerturbations
  refine ⟨?load, ?expiry, ?unexpired, ?set, ?stop, ?ends⟩
  case load =>
    intro z tk
    refine performs_of (op := opDebugTokenLoad tk) (fun _ => rfl) rfl rfl (by decide) (by decide) (by decide) ?_ ?_
    · rintro u v t ⟨hlevel, hexpiry, hmask, hpermit, hset⟩ hchanges
      exact ⟨(hchanges.dbg_level (by decide)).trans hlevel, (hchanges.dbg_expiry (by decide)).trans hexpiry,
        (hchanges.dbg_mask (by decide)).trans hmask, (hchanges.dbg_freezePermit (by decide)).trans hpermit,
        fun h => (hchanges.dbg_expiryCcyc (by decide)).trans (hset h)⟩
    · intro c u _ _ _
      have hchanges := opDebugTokenLoad_changes tk c u
      exact ⟨rfl, rfl, rfl, hchanges.cpx_activation (by decide), opDebugTokenLoad_loads tk c u, hchanges.mono (by decide)⟩
  case expiry =>
    intro dt
    refine happens_of_effect (fun _ => rfl) (by decide) (by decide) fun s ⟨hlevel, hexpired, hfreeze⟩ => ?_
    rw [tokenExpiry_of_expired hlevel hexpired hfreeze]
    exact ⟨⟨closeLevel_level s, rfl, rfl, rfl, setDebug_pounce hlevel⟩, closeLevel_frame (.refl _ s) (by decide)⟩
  case unexpired =>
    intro dt
    refine happens_of_effect (fun _ => rfl) (by decide) (by decide) fun s hexpired => ?_
    rw [tokenExpiry_of_unexpired hexpired]
    exact ⟨trivial, .refl _ s⟩
  case set =>
    intro z b
    refine performs_of (op := opPouncerSet b) (fun _ => rfl) rfl rfl (by decide) (by decide) (by decide) ?_ ?_
    · intro u v t hv hchanges
      exact (hchanges.dbg_pounce (by decide)).trans hv
    · intro c u hwaiting _ _
      have hrun : ((opPouncerSet b).run c u).state = _ := pounceStart_of_waiting u hwaiting
      rw [hrun]
      exact ⟨rfl, rfl, rfl, rfl, rfl, upd_dbg (.refl _ u) (by decide)⟩
  case stop =>
    intro z
    refine performs_of (op := opPouncerStop) (fun _ => rfl) rfl rfl (by decide) (by decide) (by decide) ?_ ?_
    · intro u v t hv hchanges
      exact (hchanges.dbg_pounce (by decide)).trans hv
    · intro c u _ _ _
      exact ⟨rfl, rfl, rfl, rfl, rfl, upd_dbg'pounce rfl (.refl _ u) (by decide)⟩
  case ends =>
    intro dt cls n
    refine happens_of_effect (fun _ => rfl) (by decide) (by decide) fun s hclocked => ?_
    rw [pounceExpiry_of_clocked hclocked]
    exact ⟨rfl, upd_dbg'pounce rfl (.refl _ s) (by decide)⟩

/-! ## Freezes begin (R373, R374) -/

theorem opFreeze_run {n : Nat} (c : ReplyCtx) (s : State) (h : n ≠ 0) :
    (opFreeze n).run c s = { state := { s with dbg := { s.dbg with armed := if n = 0x80 then 0 else n } } } := if_neg h

theorem opFreeze_run_at_once (c : ReplyCtx) (s : State) :
    (opFreeze 0).run c s = { state := freezeAfterReply c s, later := true } := rfl

theorem triggerFreeze_keeps (f : Nat) (byInput : Bool) (s : State) :
    (triggerFreeze f byInput s).dbg.armed = s.dbg.armed ∧ (triggerFreeze f byInput s).dbg.frozen = s.dbg.frozen ∧
      (triggerFreeze f byInput s).out = s.out := by
  unfold triggerFreeze
  split <;> exact ⟨rfl, rfl, rfl⟩

/-- A freeze that waits for its reply, or is triggered with it, leaves the armed trigger and the clocks; the reply stays driven. -/
theorem freezeAfterReply_keeps (c : ReplyCtx) (s : State) :
    (freezeAfterReply c s).dbg.armed = s.dbg.armed ∧ (freezeAfterReply c s).dbg.frozen = s.dbg.frozen ∧
      (freezeAfterReply c s).out = (answer c stOk 0 [] s).out := by
  have hanswer := answer_changes c stOk 0 [] s
  unfold freezeAfterReply
  extract_lets s1
  have harmed : s1.dbg.armed = s.dbg.armed := hanswer.dbg_armed (by decide)
  have hfrozen : s1.dbg.frozen = s.dbg.frozen := hanswer.dbg_frozen (by decide)
  split
  next => exact ⟨harmed, hfrozen, rfl⟩
  next =>
    obtain ⟨hkeptArmed, hkeptFrozen, hout⟩ := triggerFreeze_keeps (s1.tsu.now + 1) false s1
    exact ⟨hkeptArmed.trans harmed, hkeptFrozen.trans hfrozen, hout⟩

/-- The FREEZE input has risen. -/
def inputUp (s : State) : State := { s with dbg := { s.dbg with input := true } }

theorem freezeInput_of_allowed {s : State} (hrun : s.mode.stage = .run) (hzeroized : s.mode.zeroized = false)
    (hallowed : freezeAllowed s = true) (hfreeze : s.dbg.freeze = none) :
    freezeInput s = { s with dbg := { s.dbg with input := true, frozenFor := 0
                                                 freeze := some { f := s.tsu.now + 1, byInput := true, time := s.tsu.time } } } := by
  have hacts : inputActs (inputUp s) = triggerFreeze (s.tsu.now + 1) true (inputUp s) := by
    unfold inputActs
    rw [if_neg (by simp [inputUp, hrun, hzeroized])]
    exact if_pos hallowed
  unfold freezeInput
  rw [if_neg (by simp [hrun])]
  refine hacts.trans ?_
  unfold triggerFreeze
  exact if_neg (by simp [inputUp, hrun, hzeroized, hfreeze])

theorem freezeInput_of_barred {s : State} (hrun : s.mode.stage = .run) (hzeroized : s.mode.zeroized = false)
    (hallowed : freezeAllowed s = false) : freezeInput s = dbgNote 0 (inputUp s) := by
  unfold freezeInput
  rw [if_neg (by simp [hrun])]
  show inputActs (inputUp s) = _
  unfold inputActs
  rw [if_neg (by simp [inputUp, hrun, hzeroized])]
  exact if_neg (Bool.eq_false_iff.mp hallowed)

/-! ## The clocks stop (Table 16-2) -/

/-- What the aborts of a stop change. -/
def stopParts : List Part :=
  [.quarantine, .sessions, .checks, .sealed, .err, .levels, .jic, .ctr, .samples, .smc, .frc, .groups, .ports, .hostQueue, .esh, .replies,
   .hpe, .pounce, .dbg, .hlk, .rx, .sas, .pols, .out]

/-- The frames in progress are aborted in ccyc `t`. -/
def abortAll (t : Nat) (s : State) : State :=
  let s1 := (List.range 32).foldl (fun a g => cutHolds g t a) s
  s1.cfg.port.foldl (fun a e => cutLineAt t e.1 a) s1

theorem abortAll_changes (t : Nat) (s : State) : Changes stopParts s (abortAll t s) :=
  have hheld := (Changes.refl stopParts s).foldl_frame (xs := List.range 32) (f := fun a g => cutHolds g t a) fun _ _ h =>
    cutHolds_frame h (by decide)
  hheld.foldl_frame fun _ _ h => cutLineAt_frame h (by decide)

/-- The clocks have stopped. -/
def stopClocks (q n : Nat) (s : State) : State :=
  { s with dbg := { s.dbg with frozen := true, q, freezeCcyc := s.tsu.now % 2 ^ 32, frozenFor := 0
                               discarded := min 255 (s.dbg.discarded + n) } }

theorem clockStop_of_due {q n : Nat} {f : Freeze} {s : State} (hfreeze : s.dbg.freeze = some f) (hfrozen : s.dbg.frozen = false)
    (hq : q ≤ 4096) (hdue : f.f + q = s.tsu.now) (hlevel : s.dbg.level ≠ .closed) :
    clockStop q n s = stopClocks q n (restRanks true (abortAll (f.f + 1) s)) := by
  unfold clockStop
  rw [hfreeze]
  dsimp only
  rw [if_neg (by simp [hfrozen, hdue]; omega), if_neg hlevel]
  simp only [stopClocks, abortAll, Nat.reducePow]

theorem abortedAtRest_changes (t : Nat) (s : State) : Changes stopParts s (restRanks true (abortAll t s)) :=
  restRanks_frame (abortAll_changes t s) (by decide)

/-! ## Freezes end (R375) -/

/-- The state in which an ended freeze restarts its ports. -/
def thawed (s : State) : State :=
  restRanks false { s with dbg := { s.dbg with frozen := false, freeze := none, rotated := []
                                               expiryCcyc := s.dbg.expiryCcyc.map (fun e => e -
                                                 if s.dbg.frozen then s.dbg.frozenFor else 0) } }

/-- The powered ports restart. -/
def restartPorts (s : State) : State := (s.cfg.port.filter (fun e => portPowered s e.1)).foldl (fun a e => restartPort e.1 a) s

theorem endFreeze_of_some {s : State} (h : s.dbg.freeze.isSome = true) :
    endFreeze s =
      if s.dbg.frozen = false then restartPorts (thawed s)
      else { restartPorts (thawed s) with tsu := { (restartPorts (thawed s)).tsu with
        step := (restartPorts (thawed s)).tsu.step ++ [{ due := (restartPorts (thawed s)).tsu.now + 64, relative := true, time := 0
                                                         offset := (if s.dbg.frozen then s.dbg.frozenFor else 0) / 64 * 40 * nsUnit
                                                         ctx := none, keepSync := true }] } } := by
  unfold endFreeze
  exact if_neg (by rw [Option.isNone_iff_eq_none]; intro hnone; simp [hnone] at h)

theorem thawed_changes (s : State) : Changes [.smc, .pounce, .dbg, .out] s (thawed s) :=
  restRanks_frame (upd_dbg (.refl _ s) (by decide)) (by decide)

/-- What the restart of the ports changes: not TSU. -/
def restartParts : List Part := resumeParts.filter (· ≠ .tsu)

theorem restartPorts_changes (s : State) : Changes restartParts s (restartPorts s) :=
  (Changes.refl _ s).foldl_frame fun _ _ h => restartPort_frame h (by decide)

/-- The end of a freeze steps TIME by the frozen duration, if the clocks had stopped. -/
theorem endFreeze_unfrozen {s : State} (h : s.dbg.freeze.isSome = true) : unfrozen s (endFreeze s) := by
  have htsu : (restartPorts (thawed s)).tsu = s.tsu :=
    ((restartPorts_changes _).tsu (by decide)).trans ((thawed_changes s).tsu (by decide))
  unfold unfrozen
  rw [endFreeze_of_some h]
  by_cases hfrozen : s.dbg.frozen = true
  · rw [if_pos hfrozen, if_neg (by simp [hfrozen]), if_pos hfrozen]
    simp only [htsu]
  · rw [if_pos (Bool.eq_false_iff.mpr hfrozen)]
    exact htsu.trans (if_neg hfrozen).symm

/-- With no powered port nothing restarts. -/
theorem restartPorts_of_unpowered {s : State} (h : ∀ e ∈ s.cfg.port, portPowered s e.1 = false) : restartPorts s = s := by
  have hnone : s.cfg.port.filter (fun e => portPowered s e.1) = [] := List.filter_eq_nil_iff.mpr fun e he => by simp [h e he]
  unfold restartPorts
  rw [hnone]
  rfl

/-- The end of a freeze with no powered port: the debug unit is as thawed. -/
theorem endFreeze_dbg {s : State} (h : s.dbg.freeze.isSome = true) (hports : ∀ e ∈ s.cfg.port, portPowered s e.1 = false) :
    (endFreeze s).dbg = (thawed s).dbg := by
  have hrestart : restartPorts (thawed s) = thawed s := restartPorts_of_unpowered hports
  rw [endFreeze_of_some h, hrestart]
  split <;> rfl

theorem endFreeze_changes (s : State) : Changes resumeParts s (endFreeze s) := endFreeze_frame (.refl _ s) (by decide)

/-- The FREEZE input has fallen. -/
def inputDown (s : State) : State := { s with dbg := { s.dbg with input := false } }

theorem inputDown_changes (s : State) : Changes [.dbg] s (inputDown s) := upd_dbg'dbg rfl (.refl _ s) (by decide)

theorem freezeFall_of_other {s : State} (hoff : s.mode.stage ≠ .off) (h : ∀ f, s.dbg.freeze = some f → f.byInput = false) :
    freezeFall s = inputDown s := by
  unfold freezeFall
  rw [if_neg hoff]
  refine if_neg fun hany => ?_
  cases hfreeze : s.dbg.freeze with
  | none => simp [hfreeze] at hany
  | some f => simp [hfreeze, h f hfreeze] at hany

theorem freezeFall_of_own {s : State} {f : Freeze} (hoff : s.mode.stage ≠ .off) (hfreeze : s.dbg.freeze = some f)
    (hby : f.byInput = true) : freezeFall s = endFreeze (inputDown s) := by
  unfold freezeFall
  rw [if_neg hoff]
  exact if_pos (by rw [hfreeze]; exact hby)

/-- Settles O31: it holds, trigger, stop and resume each by its own rule. -/
theorem freezesStopTheClocks : Obligations.FreezesStopTheClocks := by
  unfold Obligations.FreezesStopTheClocks
  refine ⟨?arm, ?atOnce, ?input, ?barred, ?stop, ?fall, ?resumed, ?unpowered⟩
  case arm =>
    intro z n
    refine performs_of (op := opFreeze n) (fun _ => rfl) rfl rfl (by decide) (by decide) (by decide) ?_ ?_
    · intro u v t hv hchanges
      exact (hchanges.dbg_armed (by decide)).trans hv
    · intro c u hn _ _
      rw [opFreeze_run c u hn]
      exact ⟨rfl, rfl, rfl, rfl, rfl, upd_dbg'dbg rfl (.refl _ u) (by decide)⟩
  case atOnce =>
    intro z
    refine performs_answered (op := opFreeze 0) (fun _ => rfl) rfl rfl (by decide) (by decide) ?_ ?_
    · rintro u v t ⟨harmed, hfrozen⟩ hchanges
      exact ⟨(hchanges.dbg_armed (by decide)).trans harmed, (hchanges.dbg_frozen (by decide)).trans hfrozen⟩
    · intro c u _ honError _
      rw [opFreeze_run_at_once]
      obtain ⟨harmed, hfrozen, hout⟩ := freezeAfterReply_keeps c u
      have hchanges : Changes [.ctr, .hostQueue, .replies, .pounce, .dbg, .hlk, .out] u (freezeAfterReply c u) :=
        freezeAfterReply_frame (.refl _ u) (by decide)
      refine ⟨rfl, fun hon => ?_, hchanges.cpx_activation (by decide), ⟨harmed, hfrozen⟩, hchanges.mono (by decide)⟩
      rw [← honError] at hon
      obtain ⟨hop, hy, hbody, hseq, hcor⟩ := mkReply_fields c stOk 0 [] u
      exact ⟨_, hout ▸ answer_out hon (by decide), hop, hy, hbody, hseq, hcor⟩
  case input =>
    intro dt
    refine happens_of_effect (fun _ => rfl) (by decide) (by decide) fun s ⟨hrun, hzeroized, hallowed, hfreeze⟩ => ?_
    rw [freezeInput_of_allowed hrun hzeroized hallowed hfreeze]
    exact ⟨⟨rfl, rfl⟩, upd_dbg (.refl _ s) (by decide)⟩
  case barred =>
    intro dt
    refine happens_of_effect (fun _ => rfl) (by decide) (by decide) fun s ⟨hrun, hzeroized, hallowed⟩ => ?_
    rw [freezeInput_of_barred hrun hzeroized hallowed]
    exact ⟨⟨rfl, raiseError_raises (s := inputUp s) 0 rfl⟩, dbgNote_frame (upd_dbg'dbg rfl (.refl _ s) (by decide)) (by decide)⟩
  case stop =>
    intro dt q n f
    refine happens_of_effect (fun _ => rfl) (by decide) (by decide) fun s ⟨hfreeze, hfrozen, hq, hdue, hlevel⟩ => ?_
    have hrested := abortedAtRest_changes (f.f + 1) s
    rw [clockStop_of_due hfreeze hfrozen hq hdue hlevel, ← hrested.tsu (by decide)]
    exact ⟨⟨rfl, rfl, rfl⟩, upd_dbg hrested (by decide)⟩
  case fall =>
    intro dt
    refine happens_of_effect (fun _ => rfl) (by decide) (by decide) fun s ⟨hoff, hother⟩ => ?_
    rw [freezeFall_of_other hoff hother]
    exact ⟨rfl, inputDown_changes s⟩
  case resumed =>
    intro dt f
    refine happens_of_effect (fun _ => rfl) (by decide) (by decide) fun s ⟨hoff, hfreeze, hby⟩ => ?_
    rw [freezeFall_of_own hoff hfreeze hby]
    exact ⟨endFreeze_unfrozen (s := inputDown s) (Option.isSome_iff_exists.mpr ⟨f, hfreeze⟩),
      ((inputDown_changes s).mono (by decide)).trans (endFreeze_changes _)⟩
  case unpowered =>
    intro dt f
    refine happens_of_effect (fun _ => rfl) (by decide) (by decide) fun s ⟨hoff, hfreeze, hby, hports⟩ => ?_
    rw [freezeFall_of_own hoff hfreeze hby, endFreeze_dbg (s := inputDown s) (Option.isSome_iff_exists.mpr ⟨f, hfreeze⟩) hports]
    exact ⟨⟨rfl, rfl, rfl⟩, ((inputDown_changes s).mono (by decide)).trans (endFreeze_changes _)⟩

/-! ## The TAP (R376 to R378) -/

theorem tapShift_of_live (bits : List Bool) {s : State} (h : s.mode.stage = .run ∨ s.mode.stage = .boot) :
    tapShift bits s = emit (.tdo bits) s := by
  unfold tapShift
  rcases h with h | h <;> rw [h]

theorem tapShift_of_brim (bits : List Bool) {s : State} (h : s.mode.stage = .brim) : tapShift bits s = emit (.tdo [false]) s := by
  unfold tapShift
  rw [h]

theorem tapShift_of_off (bits : List Bool) {s : State} (h : s.mode.stage = .off) : tapShift bits s = s := by
  unfold tapShift
  rw [h]

theorem chainTap_of_run {s : State} (hrun : s.mode.stage = .run) (hzeroized : s.mode.zeroized = false) : chainTap s = true := by
  simp [chainTap, hrun, hzeroized]

theorem chainSelect_of_run (v : BitVec 16) {s : State} (hrun : s.mode.stage = .run) (hzeroized : s.mode.zeroized = false) :
    chainSelect v s = { s with dbg := { s.dbg with chain := v } } := by
  unfold chainSelect
  rw [if_neg (by simp [hrun])]
  exact if_pos (chainTap_of_run hrun hzeroized)

theorem resume_of_run (v : BitVec 32) {s : State} (hrun : s.mode.stage = .run) (hzeroized : s.mode.zeroized = false) :
    resume v s = if v = 0x5245534D then endFreeze s else s := by
  unfold resume
  rw [if_neg (by simp [hrun])]
  exact if_pos (chainTap_of_run hrun hzeroized)

theorem chainBits_zero (s : State) : chainBits s 0 = [] := rfl

/-- With DEBUG CLOSED a CHAIN_READ shifts out STATUS 5, LEN 0 and zeros. -/
theorem chainRead_of_closed (n : Nat) {s : State} (hrun : s.mode.stage = .run) (hzeroized : s.mode.zeroized = false)
    (hlevel : s.dbg.level = .closed) :
    chainRead n s = emit (.tdo ((lsBits 32 (5 * 2 ^ 24) ++ List.replicate (n - 32) false).take n)) s := by
  have hstatus : chainStatus s = 5 := if_pos (.inl hlevel)
  have hzeros : (List.range (n - 32)).map (fun i => (chainBits s 0).getD (i % (64 * 0)) false) = List.replicate (n - 32) false := by
    rw [chainBits_zero]
    exact (List.map_const' ..).trans (by rw [List.length_range])
  unfold chainRead
  rw [hrun]
  dsimp only
  rw [if_neg (by simp [hzeroized]), hstatus, if_neg (by decide), if_pos rfl, hzeros, Nat.add_zero]

theorem emit_changes (o : Output) (s : State) : Changes [.out] s (emit o s) := emit_frame (.refl _ s) (by decide)

/-- Settles O32: it holds, instruction by instruction and mode by mode. -/
theorem tapInstructionsShift : Obligations.TapInstructionsShift := by
  unfold Obligations.TapInstructionsShift
  refine ⟨?idcode, ?dbgStatus, ?chainSelect, ?chainRead, ?resumed, ?unpowered, ?otherValue, ?bypass, ?brim, ?off⟩
  case idcode =>
    intro dt
    refine happens_of_effect (f := fun a => tapShift (lsBits 32 (idcode a)) a) (fun _ => rfl) (by decide) (by decide) fun s hlive => ?_
    rw [tapShift_of_live _ hlive]
    exact ⟨rfl, emit_changes _ s⟩
  case dbgStatus =>
    intro dt
    refine happens_of_effect (f := fun a => tapShift (lsBits 64 (dbgStatus a)) a) (fun _ => rfl) (by decide) (by decide) fun s hlive => ?_
    rw [tapShift_of_live _ hlive]
    exact ⟨rfl, emit_changes _ s⟩
  case chainSelect =>
    intro dt v
    refine happens_of_effect (fun _ => rfl) (by decide) (by decide) fun s ⟨hrun, hzeroized⟩ => ?_
    rw [chainSelect_of_run v hrun hzeroized]
    exact ⟨rfl, upd_dbg'dbg rfl (.refl _ s) (by decide)⟩
  case chainRead =>
    intro dt n
    refine happens_of_effect (fun _ => rfl) (by decide) (by decide) fun s ⟨hrun, hzeroized, hlevel⟩ => ?_
    rw [chainRead_of_closed n hrun hzeroized hlevel]
    exact ⟨rfl, emit_changes _ s⟩
  case resumed =>
    intro dt
    refine happens_of_effect (fun _ => rfl) (by decide) (by decide) fun s ⟨hrun, hzeroized, hfreeze⟩ => ?_
    rw [resume_of_run _ hrun hzeroized, if_pos rfl]
    exact ⟨endFreeze_unfrozen hfreeze, endFreeze_changes s⟩
  case unpowered =>
    intro dt
    refine happens_of_effect (fun _ => rfl) (by decide) (by decide) fun s ⟨hrun, hzeroized, hfreeze, hports⟩ => ?_
    rw [resume_of_run _ hrun hzeroized, if_pos rfl, endFreeze_dbg hfreeze hports]
    exact ⟨⟨rfl, rfl⟩, endFreeze_changes s⟩
  case otherValue =>
    intro dt v
    refine happens_of_effect (fun _ => rfl) (by decide) (by decide) fun s ⟨hrun, hzeroized, hv⟩ => ?_
    rw [resume_of_run v hrun hzeroized, if_neg hv]
    exact ⟨trivial, .refl _ s⟩
  case bypass =>
    intro dt b
    refine happens_of_effect (fun _ => rfl) (by decide) (by decide) fun s hoff => ?_
    rw [bypassShift, if_neg hoff]
    exact ⟨⟨rfl, rfl⟩, emit_frame (upd_dbg'dbg rfl (.refl _ s) (by decide)) (by decide)⟩
  case brim =>
    have hshift : ∀ (bits : State → List Bool) (s : State), s.mode.stage = .brim →
        (tapShift (bits s) s).out = s.out ++ [.tdo [false]] ∧ Changes [.out] s (tapShift (bits s) s) := fun bits s hbrim => by
      rw [tapShift_of_brim _ hbrim]
      exact ⟨rfl, emit_changes _ s⟩
    intro i hi dt
    rcases List.mem_pair.mp hi with rfl | rfl
    · exact happens_of_effect (fun _ => rfl) (by decide) (by decide) (hshift fun a => lsBits 32 (idcode a))
    · exact happens_of_effect (fun _ => rfl) (by decide) (by decide) (hshift fun a => lsBits 64 (dbgStatus a))
  case off =>
    have hshift : ∀ (bits : State → List Bool) (s : State), s.mode.stage = .off →
        True ∧ Changes [] s (tapShift (bits s) s) := fun bits s hoff => by
      rw [tapShift_of_off _ hoff]
      exact ⟨trivial, .refl _ s⟩
    intro i hi dt
    rcases List.mem_pair.mp hi with rfl | rfl
    · exact happens_of_effect (fun _ => rfl) (by decide) (by decide) (hshift fun a => lsBits 32 (idcode a))
    · exact happens_of_effect (fun _ => rfl) (by decide) (by decide) (hshift fun a => lsBits 64 (dbgStatus a))

end Sys2Proof.Proofs
end

section
/-! PROOFS. The hierarchy link (19 R421 to R430): a frame of a joined partner, what the frames sent leave of the link's own record, the
commands forwarded to a worker, and the loss of a partner. -/
namespace Sys2Proof.Proofs
open Sys2Proof.Machine Sys2Proof.Safety

/-! ## A partner is heard (R421) -/

theorem clocked_of_processing {s : State} (h : processing s = true) : clocked s = true := by
  simp only [processing, clocked, Bool.and_eq_true, Bool.or_eq_true] at h ⊢
  obtain ⟨⟨⟨hrun, -⟩, hfrozen⟩, -⟩ := h
  exact ⟨.inl hrun, hfrozen⟩

theorem hlkRuns_processes {s : State} (h : hlkRuns s = true) : processing s = true ∧ s.cpx.restart = none := by
  simpa [hlkRuns] using h

theorem clocked_of_hlkRuns {s : State} (h : hlkRuns s = true) : clocked s = true := clocked_of_processing (hlkRuns_processes h).1

/-- The state once a frame of the manager `i`, so far `m`, has been heard. -/
def hearManager (h : HlkHead) (m : Partner) (s : State) : State := { s with hlk := { s.hlk with manager := some (h.src, m.heard h s) } }

/-- The state once a frame of a worker, so far `w`, has been heard. -/
def hearWorker (h : HlkHead) (w : Partner) (s : State) : State :=
  { s with hlk := { s.hlk with workers := tput s.hlk.workers h.src (w.heard h s) } }

theorem hearManager_changes (h : HlkHead) (m : Partner) (s : State) : Changes [.hlk] s (hearManager h m s) :=
  upd_hlk (.refl _ s) (by decide)

theorem hearWorker_changes (h : HlkHead) (w : Partner) (s : State) : Changes [.hlk] s (hearWorker h w s) :=
  upd_hlk (.refl _ s) (by decide)

/-- A frame that the manager sent passes the worker's check. -/
theorem fromMgr_of_managerFrame {h : HlkHead} {s : State} (hframe : managerFrame h s) :
    ∃ m, fromMgr h s = some (hearManager h m s) := by
  obtain ⟨-, hrole, hhead, htag, m, hmanager, hseq⟩ := hframe
  refine ⟨m, ?_⟩
  unfold fromMgr
  rw [hmanager]
  exact if_pos ⟨hrole, hhead, rfl, htag, hseq⟩

/-- A frame that a joined worker sent passes the manager's check. -/
theorem fromWorker_of_workerFrame {h : HlkHead} {s : State} (hframe : workerFrame h s) :
    ∃ w, fromWorker h s = some (hearWorker h w s) := by
  obtain ⟨-, hrole, hhead, htag, w, hworker, hstate, hseq⟩ := hframe
  refine ⟨w, ?_⟩
  unfold fromWorker
  rw [hworker]
  exact if_pos ⟨hrole, hhead, hstate, htag, hseq⟩

theorem fromMgr_of_badTag {h : HlkHead} {s : State} (htag : h.tagOk = false) : fromMgr h s = none := by
  unfold fromMgr
  split
  · exact if_neg (by simp [htag])
  · rfl

theorem fromWorker_of_badTag {h : HlkHead} {s : State} (htag : h.tagOk = false) : fromWorker h s = none := by
  unfold fromWorker
  split
  · exact if_neg (by simp [htag])
  · rfl

theorem hlkTake_of_some {h : HlkHead} {f : State → State} {s s1 : State} (hruns : hlkRuns s = true) :
    hlkTake (some s1) h f s = f s1 := by
  unfold hlkTake
  exact if_neg (by simp [hruns])

theorem hlkTake_of_none {h : HlkHead} {f : State → State} {s : State} (hruns : hlkRuns s = true) :
    hlkTake none h f s = hlkDiscard h s := by
  unfold hlkTake
  exact if_neg (by simp [hruns])

/-- What a worker does with a frame of its manager that passes. -/
theorem hlkTake_manager {h : HlkHead} {s : State} (f : State → State) (hframe : managerFrame h s) :
    ∃ m, hlkTake (fromMgr h s) h f s = f (hearManager h m s) := by
  obtain ⟨m, hm⟩ := fromMgr_of_managerFrame hframe
  exact ⟨m, by rw [hm, hlkTake_of_some hframe.1]⟩

/-- What a manager does with a frame of a joined worker that passes. -/
theorem hlkTake_worker {h : HlkHead} {s : State} (f : State → State) (hframe : workerFrame h s) :
    ∃ w, hlkTake (fromWorker h s) h f s = f (hearWorker h w s) := by
  obtain ⟨w, hw⟩ := fromWorker_of_workerFrame hframe
  exact ⟨w, by rw [hw, hlkTake_of_some hframe.1]⟩

theorem hlkDiscard_changes (h : HlkHead) (s : State) : Changes errorParts s (hlkDiscard h s) := hlkDiscard_frame (.refl _ s) (by decide)

theorem hlkDiscard_raises (h : HlkHead) {s : State} (hclocked : clocked s = true) : raises 0x16 0x1602 0 s (hlkDiscard h s) :=
  errorAt_raises hclocked (by decide)

/-! ## Heartbeats (R427, R429, R430) -/

theorem heartbeat_of_manager {h : HlkHead} {s : State} (ti sp : Nat) (hframe : managerFrame h s) :
    ∃ m, heartbeat h ti sp s =
      { hearManager h m s with hlk := { (hearManager h m s).hlk with timeInt := ti, sumPer := sp } } := by
  have ⟨_, hrole, _⟩ := hframe
  unfold heartbeat
  rw [if_neg (by simp [hrole])]
  exact hlkTake_manager (fun a => { a with hlk := { a.hlk with timeInt := ti, sumPer := sp } }) hframe

theorem heartbeat_of_worker {h : HlkHead} {s : State} (hframe : workerFrame h s) : ∃ w, heartbeat h 0 0 s = hearWorker h w s := by
  have ⟨_, hrole, _⟩ := hframe
  unfold heartbeat
  rw [if_pos hrole]
  exact hlkTake_worker (fun a => a) hframe

theorem heartbeat_of_badTag {h : HlkHead} {s : State} (ti sp : Nat) (hruns : hlkRuns s = true) (htag : h.tagOk = false) :
    heartbeat h ti sp s = hlkDiscard h s := by
  unfold heartbeat
  rw [fromWorker_of_badTag htag, fromMgr_of_badTag htag, ite_self, hlkTake_of_none hruns, hlkTake_of_none hruns, ite_self]

/-! ## Frames sent -/

theorem beatWorker_beatAt (i : Nat) (s : State) : (beatWorker i s).hlk.beatAt = s.hlk.beatAt := by
  unfold beatWorker sendWorker
  split <;> rfl

theorem beatWorkers_beatAt (l : List Nat) (s : State) : (l.foldl (fun a i => beatWorker i a) s).hlk.beatAt = s.hlk.beatAt :=
  List.foldlRecOn l _ (motive := fun a => a.hlk.beatAt = s.hlk.beatAt) rfl fun a h i _ => (beatWorker_beatAt i a).trans h

theorem sendManager_of_some {kind len i : Nat} {payload : Fields} {m : Partner} {s : State} (h : s.hlk.manager = some (i, m)) :
    (sendManager kind len payload s).hlk = { s.hlk with manager := some (i, { m with txSeq := m.txSeq + 1 }) } := by
  unfold sendManager
  rw [h]
  rfl

/-- A frame to the manager moves no worker's record, and no due time. -/
theorem sendManager_keeps (kind len : Nat) (payload : Fields) (s : State) :
    (sendManager kind len payload s).hlk.workers = s.hlk.workers ∧ (sendManager kind len payload s).hlk.sumAt = s.hlk.sumAt := by
  unfold sendManager
  split <;> exact ⟨rfl, rfl⟩

theorem beatTimer_of_manager {s : State} (hruns : hlkRuns s = true) (hrole : roleOf s = 1) (hdue : s.hlk.beatAt ≤ s.tsu.now) :
    (beatTimer s).hlk.beatAt = s.tsu.now + ms 10 := by
  unfold beatTimer
  rw [if_neg (by simp [hruns]), if_pos hrole, if_neg hdue.not_gt]
  exact beatWorkers_beatAt _ _

theorem beatTimer_of_worker {i : Nat} {m : Partner} {s : State} (hruns : hlkRuns s = true) (hrole : roleOf s = 2)
    (hmanager : s.hlk.manager = some (i, m)) (hdue : s.hlk.beatAt ≤ s.tsu.now) :
    (beatTimer s).hlk.beatAt = s.tsu.now + ms 10 ∧
      (beatTimer s).hlk.manager = some (i, { m with port := beatPort s m.port, txSeq := m.txSeq + 1 }) := by
  unfold beatTimer
  rw [if_neg (by simp [hruns]), if_neg (by simp [hrole]), hmanager]
  dsimp only
  rw [if_neg fun h => hdue.not_gt h.1, sendManager_of_some (i := i) (m := { m with port := beatPort s m.port }) rfl]
  exact ⟨rfl, rfl⟩

theorem summaryTimer_of_due {s : State} (hruns : hlkRuns s = true) (hmanager : s.hlk.manager.isSome = true) (hperiod : s.hlk.sumPer ≠ 0)
    (hdue : s.hlk.sumAt ≤ s.tsu.now) : (summaryTimer s).hlk.sumAt = s.tsu.now + us s.hlk.sumPer := by
  have hjoined : s.hlk.manager.isNone = false := by rw [← Option.not_isSome, hmanager]; rfl
  unfold summaryTimer
  rw [if_neg (by simp [hruns, hjoined, hperiod, hdue])]
  exact (sendManager_keeps _ _ _ _).2

theorem summaryTimer_of_early {s : State} (h : s.hlk.sumPer = 0 ∨ s.tsu.now < s.hlk.sumAt) : summaryTimer s = s := by
  unfold summaryTimer
  exact if_pos (.inr (.inr h))

/-! ## Forwarded commands (R42, R423) -/

/-- A command that a manager's frame brings waits in the queue. -/
def enqueueFrom (i length : Nat) (s : State) : State :=
  { s with cpx := { s.cpx with queue := s.cpx.queue ++ [{ origin := .hlk i, length }] } }

theorem enqueueFrom_changes (i length : Nat) (s : State) : Changes [.checks] s (enqueueFrom i length s) :=
  upd_cpx'checks rfl rfl rfl (.refl _ s) (by decide)

theorem hlkCommand_of_manager {h : HlkHead} {s : State} (cmd : List Byte) (hframe : managerFrame h s) (hroom : queueFull s = false) :
    ∃ m, hlkCommand h cmd s = enqueueFrom h.src cmd.length (hearManager h m s) := by
  have hrestart := (hlkRuns_processes hframe.1).2
  unfold hlkCommand
  obtain ⟨m, hm⟩ := hlkTake_manager _ hframe
  refine ⟨m, hm.trans ?_⟩
  rw [if_neg (by simp [hearManager, hrestart])]
  exact if_neg (Bool.eq_false_iff.mp hroom)

/-- The oldest forwarded command has gone. -/
def popForwarded (l : List Forwarded) (s : State) : State := { s with cpx := { s.cpx with forwarded := l } }

theorem popForwarded_changes (l : List Forwarded) (s : State) : Changes [.checks] s (popForwarded l s) :=
  upd_cpx'checks rfl rfl rfl (.refl _ s) (by decide)

theorem passReply_of_answered {c : ReplyCtx} {r : Reply} (s : State) (h : unanswered c r.status = false) :
    passReply c r s = deliverReply c r s := by
  unfold passReply
  exact if_neg (by simp [h])

theorem hlkReplied_of_first {h : HlkHead} {r : WorkerReply} {f : Forwarded} {l : List Forwarded} {s : State}
    (hframe : workerFrame h s) (hforwarded : s.cpx.forwarded = f :: l) (htarget : f.target = h.src) (hopcode : f.ctx.opcode = r.opcode)
    (hsequence : f.ctx.sequence = r.sequence) (hcorrelation : f.ctx.correlation = r.correlation)
    (hanswered : unanswered f.ctx r.status = false) :
    ∃ w, hlkReplied h r s = deliverReply f.ctx (relayed r) (popForwarded l (hearWorker h w s)) := by
  unfold hlkReplied
  obtain ⟨w, hw⟩ := hlkTake_worker _ hframe
  refine ⟨w, hw.trans ?_⟩
  have hheard : (hearWorker h w s).cpx.forwarded = f :: l := hforwarded
  simp only [hheard, List.findIdx?_cons, htarget, hopcode, hsequence, hcorrelation, decide_true, Bool.and_self, if_true,
    List.getElem?_cons_zero, List.eraseIdx_cons_zero]
  exact passReply_of_answered _ hanswered

theorem targetTimeout_of_first {c : BitVec 32} {f : Forwarded} {l : List Forwarded} {s : State} (hruns : hlkRuns s = true)
    (hforwarded : s.cpx.forwarded = f :: l) (hcorrelation : f.ctx.correlation = c) (hdue : f.due ≤ s.tsu.now) :
    targetTimeout c s = timeOut f (popForwarded l s) := by
  unfold targetTimeout
  rw [if_neg (by simp [hruns])]
  simp only [hforwarded, List.findIdx?_cons, hcorrelation, hdue, decide_true, Bool.and_self, if_true, List.getElem?_cons_zero,
    List.eraseIdx_cons_zero]
  rfl

/-- A command that times out is answered with TARGET_TIMEOUT and recorded. -/
theorem timeOut_leaves (f : Forwarded) {s : State} (hclocked : clocked s = true) :
    (timeOut f s).cpx.forwarded = s.cpx.forwarded ∧ (errUnit (timeOut f s) 0x16).latest.code = 0x1601 ∧
      ∃ r, Output.reply f.ctx.origin r ∈ (timeOut f s).out ∧ r.status = 0x0602 := by
  have hraised : raises 0x16 0x1601 sevNote s (errorAt 0x16 0x1601 f.target sevNote clsTimeout 0 0 s) :=
    errorAt_raises hclocked (by decide)
  have herror := errorAt_changes 0x16 0x1601 f.target sevNote clsTimeout 0 0 s
  have hanswer := answer_changes f.ctx stTargetTimeout 0 [] (errorAt 0x16 0x1601 f.target sevNote clsTimeout 0 0 s)
  refine ⟨(hanswer.cpx_forwarded (by decide)).trans (herror.cpx_forwarded (by decide)), ?_, ?_⟩
  · exact (congrArg (fun e => e.latest.code) (errUnit_of_changes hanswer (by decide) 0x16)).trans hraised.1
  · exact ⟨_, answer_out (.inr (by decide)) (.inr (by decide)), (mkReply_fields ..).2.1⟩

/-! ## Summaries (R429) -/

theorem takeSummary_of_worker {h : HlkHead} {s : State} (m : Summary) (hframe : workerFrame h s) :
    ∃ w, tget (takeSummary h m s).hlk.workers h.src = some w ∧ w.page = some (m, seconds s) ∧ w.mode = m.mode ∧ w.epoch = m.epoch := by
  unfold takeSummary
  obtain ⟨w, hw⟩ := hlkTake_worker _ hframe
  rw [hw]
  exact ⟨_, tget_tput_self _ _ _, rfl, rfl, rfl⟩

theorem takeSummary_changes {h : HlkHead} {s : State} (m : Summary) (hframe : workerFrame h s) :
    Changes [.hlk] s (takeSummary h m s) := by
  unfold takeSummary
  obtain ⟨w, hw⟩ := hlkTake_worker _ hframe
  rw [hw]
  exact upd_hlk (hearWorker_changes h w s) (by decide)

/-- Settles O34: it holds; each frame that passes leaves its partner heard, and what else it leaves is its operation's. -/
theorem joinedPartnersExchangeFrames : Obligations.JoinedPartnersExchangeFrames := by
  unfold Obligations.JoinedPartnersExchangeFrames
  refine ⟨?heartbeatDown, ?heartbeatUp, ?badTag, ?timerOfManager, ?timerOfWorker, ?command, ?reply, ?timeout, ?summary, ?summaryTimer,
    ?early⟩
  case heartbeatDown =>
    intro dt h a b
    refine happens_of_effect (fun _ => rfl) (by decide) (by decide) fun s hframe => ?_
    obtain ⟨m, hm⟩ := heartbeat_of_manager a b hframe
    rw [hm]
    exact ⟨⟨⟨_, rfl, rfl, rfl⟩, rfl, rfl⟩, upd_hlk (hearManager_changes h m s) (by decide)⟩
  case heartbeatUp =>
    intro dt h
    refine happens_of_effect (fun _ => rfl) (by decide) (by decide) fun s hframe => ?_
    obtain ⟨w, hw⟩ := heartbeat_of_worker hframe
    rw [hw]
    exact ⟨⟨_, tget_tput_self _ _ _, rfl, rfl⟩, hearWorker_changes h w s⟩
  case badTag =>
    intro dt h a b
    refine happens_of_effect (fun _ => rfl) (by decide) (by decide) fun s ⟨hruns, htag⟩ => ?_
    rw [heartbeat_of_badTag a b hruns htag]
    exact ⟨hlkDiscard_raises h (clocked_of_hlkRuns hruns), hlkDiscard_changes h s⟩
  case timerOfManager =>
    intro dt
    exact happens_of_effect (fun _ => rfl) (by decide) (by decide) fun s ⟨hruns, hrole, hdue⟩ =>
      ⟨beatTimer_of_manager hruns hrole hdue, beatTimer_frame (.refl _ s) (by decide)⟩
  case timerOfWorker =>
    intro dt i m
    refine happens_of_effect (fun _ => rfl) (by decide) (by decide) fun s ⟨hruns, hrole, hmanager, hdue⟩ => ?_
    obtain ⟨hbeat, hsent⟩ := beatTimer_of_worker hruns hrole hmanager hdue
    exact ⟨⟨hbeat, _, hsent, rfl⟩, beatTimer_frame (.refl _ s) (by decide)⟩
  case command =>
    intro dt h a b
    refine happens_of_effect (fun _ => rfl) (by decide) (by decide) fun s ⟨hframe, hroom⟩ => ?_
    obtain ⟨m, hm⟩ := hlkCommand_of_manager (a ++ b) hframe hroom
    rw [hm, List.length_append]
    exact ⟨⟨⟨_, rfl, rfl, rfl⟩, rfl⟩, ((hearManager_changes h m s).mono (by decide)).trans ((enqueueFrom_changes _ _ _).mono (by decide))⟩
  case reply =>
    intro dt h r f l
    refine happens_of_effect (fun _ => rfl) (by decide) (by decide)
      fun s ⟨hframe, hforwarded, htarget, hopcode, hsequence, hcorrelation, hanswered⟩ => ?_
    obtain ⟨w, hw⟩ := hlkReplied_of_first hframe hforwarded htarget hopcode hsequence hcorrelation hanswered
    rw [hw]
    have hdelivered : Changes [.ctr, .hostQueue, .replies, .hlk, .out] (popForwarded l (hearWorker h w s))
        (deliverReply f.ctx (relayed r) (popForwarded l (hearWorker h w s))) := deliverReply_frame (.refl _ _) (by decide)
    exact ⟨⟨hdelivered.cpx_forwarded (by decide), deliverReply_out _ _ _⟩,
      (((hearWorker_changes h w s).mono (by decide)).trans ((popForwarded_changes l _).mono (by decide))).trans
        (hdelivered.mono (by decide))⟩
  case timeout =>
    intro dt c f l
    refine happens_of_effect (fun _ => rfl) (by decide) (by decide) fun s ⟨hruns, hforwarded, hcorrelation, hdue⟩ => ?_
    rw [targetTimeout_of_first hruns hforwarded hcorrelation hdue]
    exact ⟨timeOut_leaves f (s := popForwarded l s) (clocked_of_hlkRuns hruns),
      timeOut_frame ((popForwarded_changes l s).mono (by decide)) (by decide)⟩
  case summary =>
    intro dt h m
    exact happens_of_effect (fun _ => rfl) (by decide) (by decide) fun s hframe =>
      ⟨takeSummary_of_worker m hframe, takeSummary_changes m hframe⟩
  case summaryTimer =>
    intro dt
    exact happens_of_effect (fun _ => rfl) (by decide) (by decide) fun s ⟨hruns, hmanager, hperiod, hdue⟩ =>
      ⟨summaryTimer_of_due hruns hmanager hperiod hdue, summaryTimer_frame (.refl _ s) (by decide)⟩
  case early =>
    intro dt
    refine happens_of_effect (fun _ => rfl) (by decide) (by decide) fun s hearly => ?_
    rw [summaryTimer_of_early hearly]
    exact ⟨trivial, .refl _ s⟩

/-! ## Loss and leaving (R428, R430) -/

/-- The state in which a worker without its manager holds over. -/
def orphaned (s : State) : State :=
  { s with tsu := { s.tsu with mgrLost := true }
           hlk := { s.hlk with manager := none, timeInt := 0, sumPer := 0, exchange := [], nonce := none } }

theorem loseManager_loses (s : State) : managerLost s (loseManager s) := by
  have hheld : Changes [.tsu, .levels, .jic] (orphaned s) (enterHoldover (orphaned s)) := enterHoldover_frame (.refl _ _) (by decide)
  have hraised : Changes [.levels, .jic] (enterHoldover (orphaned s)) (loseManager s) := raiseEvent_frame (.refl _ _) (by decide)
  have hhlk : (loseManager s).hlk = (orphaned s).hlk := (hraised.hlk (by decide)).trans (hheld.hlk (by decide))
  have htsu : (loseManager s).tsu = { (orphaned s).tsu with sync := heldSync (orphaned s) } :=
    (hraised.tsu (by decide)).trans (enterHoldover_tsu _)
  refine ⟨?_, ?_, ?_, ?_, levelNow_raiseEvent _ _⟩
  · rw [hhlk]; rfl
  · rw [hhlk]; rfl
  · rw [htsu]; rfl
  · rw [htsu]; rfl

theorem loseManager_changes (s : State) : Changes lossParts s (loseManager s) := loseManager_frame (.refl _ s) (by decide)

/-- A reply that goes to a manager moves that manager's LINK_SEQ; no worker's record changes. -/
theorem deliverReply_workers (c : ReplyCtx) (r : Reply) (s : State) : (deliverReply c r s).hlk.workers = s.hlk.workers := by
  have hkept : ∀ {t}, Changes [.ctr, .hostQueue, .replies, .out] s t → t.hlk.workers = s.hlk.workers := fun h =>
    congrArg Hlk.workers (h.hlk (by decide))
  have hemitted : Changes [.ctr, .hostQueue, .replies, .out] s (emit (.reply c.origin r) s) := emit_frame (.refl _ s) (by decide)
  unfold deliverReply
  split
  case h_1 =>
    split
    · exact hkept (dropSlot_frame (tally_frame hemitted (by decide)) (by decide))
    · dsimp only
      split
      · exact hkept (putReplies_frame hemitted (by decide))
      · exact hkept hemitted
  case h_2 => exact hkept (sendNet_frame hemitted (by decide))
  case h_3 => exact hkept (sendNet_frame hemitted (by decide))
  case h_4 => exact (sendManager_keeps _ _ _ _).1.trans (hkept hemitted)

theorem answer_workers (c : ReplyCtx) (st d : Nat) (body : Fields) (s : State) :
    (answer c st d body s).hlk.workers = s.hlk.workers := by
  unfold answer
  split
  · split
    · exact congrArg Hlk.workers ((dropSlot_frame (.refl [.replies] s) (by decide)).hlk (by decide))
    · rfl
  · split
    · exact congrArg Hlk.workers ((countRefused_frame (.refl [.ctr] s) (by decide)).hlk (by decide))
    · exact deliverReply_workers _ _ _

theorem timeOut_workers (f : Forwarded) (s : State) : (timeOut f s).hlk.workers = s.hlk.workers :=
  (answer_workers _ _ _ _ _).trans (congrArg Hlk.workers ((errorAt_frame (.refl errorParts s) (by decide)).hlk (by decide)))

theorem putWorker_workers (i : Nat) (w : Partner) (s : State) : (putWorker i w s).hlk.workers = tput s.hlk.workers i w := by
  unfold putWorker
  dsimp only
  split
  · rfl
  · exact congrArg Hlk.workers ((raiseEvent_frame (.refl [.levels, .jic] _) (by decide)).hlk (by decide))

/-- A worker that is dropped has the state that its loss gives it, whatever was forwarded to it. -/
theorem dropWorker_state (i state : Nat) (s : State) :
    ∃ w, tget (dropWorker i state s).hlk.workers i = some w ∧ w.state = state := by
  have htimedOut : ∀ (l : List Forwarded) (a : State), (l.foldl (fun a f => timeOut f a) a).hlk.workers = a.hlk.workers := fun l a =>
    List.foldlRecOn l _ (motive := fun b => b.hlk.workers = a.hlk.workers) rfl fun b h f _ => (timeOut_workers f b).trans h
  unfold dropWorker
  dsimp only
  rw [htimedOut, putWorker_workers]
  exact ⟨_, tget_tput_self _ _ _, rfl⟩

theorem dropWorker_changes (i state : Nat) (s : State) : Changes lossParts s (dropWorker i state s) :=
  dropWorker_frame (.refl _ s) (by decide)

theorem leave_of_manager {h : HlkHead} {n : Nat} {s : State} (hn : n ≤ 2) (hframe : managerFrame h s) :
    ∃ m, leave h n s = loseManager (hearManager h m s) := by
  have ⟨_, hrole, _⟩ := hframe
  unfold leave
  rw [if_neg (by simp [hrole]), if_pos hn]
  exact hlkTake_manager loseManager hframe

theorem leave_of_worker {h : HlkHead} {n : Nat} {s : State} (hn : n ≤ 2) (hframe : workerFrame h s) :
    ∃ w, leave h n s = dropWorker h.src 3 (hearWorker h w s) := by
  have ⟨_, hrole, _⟩ := hframe
  unfold leave
  rw [if_pos hrole, if_pos hn]
  exact hlkTake_worker (dropWorker h.src 3) hframe

theorem partnerLoss_of_manager {i : Nat} {m : Partner} {s : State} (hruns : hlkRuns s = true) (hrole : roleOf s = 2)
    (hmanager : s.hlk.manager = some (i, m)) (hsilent : m.seen + ms 50 ≤ s.tsu.now) : partnerLoss i s = loseManager s := by
  unfold partnerLoss
  rw [if_neg (by simp [hruns]), if_neg (by simp [hrole]), hmanager]
  exact if_pos ⟨rfl, hsilent⟩

theorem partnerLoss_of_worker {i : Nat} {w : Partner} {s : State} (hruns : hlkRuns s = true) (hrole : roleOf s = 1)
    (hworker : tget s.hlk.workers i = some w) (hjoined : w.state = 1) (hsilent : w.seen + ms 50 ≤ s.tsu.now) :
    partnerLoss i s = dropWorker i 2 s := by
  have hw : tgetD s.hlk.workers i {} = w := by rw [tgetD, hworker]; rfl
  unfold partnerLoss
  rw [if_neg (by simp [hruns]), if_pos hrole]
  dsimp only
  rw [hw]
  exact if_pos ⟨hjoined, hsilent⟩

theorem partnerLoss_of_heard {i : Nat} {m : Partner} {s : State} (hrole : roleOf s = 2) (hmanager : s.hlk.manager = some (i, m))
    (hheard : s.tsu.now < m.seen + ms 50) : partnerLoss i s = s := by
  unfold partnerLoss
  split
  · rfl
  · rw [if_neg (by simp [hrole]), hmanager]
    exact if_neg fun h => hheard.not_ge h.2

/-- Settles O36: it holds, from one rule for a lost manager and one for a dropped worker. -/
theorem partnersAreLost : Obligations.PartnersAreLost := by
  unfold Obligations.PartnersAreLost
  refine ⟨?leaveDown, ?leaveUp, ?silentManager, ?silentWorker, ?heard⟩
  case leaveDown =>
    intro dt h n
    refine happens_of_effect (fun _ => rfl) (by decide) (by decide) fun s ⟨hn, hframe⟩ => ?_
    obtain ⟨m, hm⟩ := leave_of_manager hn hframe
    rw [hm]
    exact ⟨loseManager_loses (hearManager h m s), ((hearManager_changes h m s).mono (by decide)).trans (loseManager_changes _)⟩
  case leaveUp =>
    intro dt h n
    refine happens_of_effect (fun _ => rfl) (by decide) (by decide) fun s ⟨hn, hframe⟩ => ?_
    obtain ⟨w, hw⟩ := leave_of_worker hn hframe
    rw [hw]
    exact ⟨dropWorker_state _ _ _, ((hearWorker_changes h w s).mono (by decide)).trans (dropWorker_changes _ _ _)⟩
  case silentManager =>
    intro dt i m
    refine happens_of_effect (fun _ => rfl) (by decide) (by decide) fun s ⟨hruns, hrole, hmanager, hsilent⟩ => ?_
    rw [partnerLoss_of_manager hruns hrole hmanager hsilent]
    exact ⟨loseManager_loses s, loseManager_changes s⟩
  case silentWorker =>
    intro dt i w
    refine happens_of_effect (fun _ => rfl) (by decide) (by decide) fun s ⟨hruns, hrole, hworker, hjoined, hsilent⟩ => ?_
    rw [partnerLoss_of_worker hruns hrole hworker hjoined hsilent]
    exact ⟨dropWorker_state _ _ _, dropWorker_changes _ _ _⟩
  case heard =>
    intro dt i m
    refine happens_of_effect (fun _ => rfl) (by decide) (by decide) fun s ⟨hrole, hmanager, hheard⟩ => ?_
    rw [partnerLoss_of_heard hrole hmanager hheard]
    exact ⟨trivial, .refl _ s⟩

end Sys2Proof.Proofs
end
